-- ==== Sys2Proof/Word.lean ====
section
/-! DEFINITION. Sys2Proof/Word.lean: the word types of the module and nothing else. -/

namespace Sys2Proof

/-- A byte of any memory or message of the module. -/
abbrev Byte := BitVec 8

/-- A status code (R318). -/
abbrev Code := BitVec 16

/-- A plain list of bytes: a message payload, a memory image, a digest input. -/
abbrev Bytes := List (BitVec 8)

/-- A 256-bit digest, read as the big-endian number of its 32 bytes (R12: digests keep their standard's byte order). -/
abbrev Digest := BitVec 256

/-- A sparse table: keys strictly rising, no entry equal to what an unlisted key reads as. -/
abbrev SMap (α : Type) := List (Nat × α)

end Sys2Proof
end

