-- ==== Sys2Proof/Syntax.lean ====
section
/-! DEFINITION. Sys2Proof/Syntax.lean: the commands and events of the module, one constructor of `Instr` for each row of
spec/opcode_table.json, with the operands the rows' rules give them. Descriptor records hold the fields of the
manual's descriptor tables at the manual's widths. -/

namespace Sys2Proof

/-- Which Ethernet port a datagram came by (R296, Table 13-1). -/
inductive Port where
  | eth0 | eth1 | service
  deriving DecidableEq, Repr

/-- The frame that a packet came in (Table 13-2): its length, its 802.1Q tags, whether it is an IP fragment or TCP, and
whether its ECN field says that congestion was met (R298). -/
structure Net where
  bytes : Nat := 64
  tags : Nat := 0
  fragment : Bool := false
  tcp : Bool := false
  ecn : Bool := false
  deriving DecidableEq, Repr

/-- A packet that asks the port itself for something: the port it came to and the frame it came in (R297). -/
structure Packet where
  port : Port
  net : Net := {}
  deriving DecidableEq, Repr

/-- The datagrams of a Delit message (Table 13-4): the fields of their header that R304 checks, whether their tags pass (R306), and
the fragments that have come with this event. -/
structure Dgram where
  net : Net := {}
  version : BitVec 8 := 1
  kind : BitVec 8
  /-- The largest payload of a datagram of the message. -/
  length : Nat := 0
  reserved : BitVec 8 := 0
  tagOk : Bool := true
  fragCount : Nat := 1
  frags : List Nat := [0]
  deriving DecidableEq, Repr

/-- The header of a Delit COMMAND as the meanings need it (Table 13-4). `resv`: a reserved field of the payload is not
zero (R13). -/
structure Hdr where
  session : Nat
  seq : Nat
  cid : BitVec 64
  port : Port
  resv : Bool
  dg : Dgram := { kind := 5 }
  deriving DecidableEq, Repr

/-- STEP_OPEN payload (Table 1-3). -/
structure StepOpen where
  stepNumber : BitVec 64
  flags : BitVec 32
  programDigest : Digest
  seeds : BitVec 256
  slots : List (BitVec 32)
  deriving DecidableEq, Repr

/-- DENSE_MM, MASKED_MM, CANVAS_SAVE and CANVAS_RESTORE descriptor (Table 4-9, Table 4-13). -/
structure DenseDesc where
  cid : BitVec 64
  mode : BitVec 8
  aFormat : BitVec 8
  bFormat : BitVec 8
  mMinus1 : BitVec 8
  nMinus1 : BitVec 8
  control : BitVec 16
  kCount : BitVec 32
  aBase : BitVec 32
  aStride : BitVec 32
  bBase : BitVec 32
  bStride : BitVec 32
  auxBase : BitVec 32
  auxStride : BitVec 32
  dBase : BitVec 32
  dStride : BitVec 32
  sBase : BitVec 32
  cmplAddr : BitVec 32
  dFormat : BitVec 8
  deriving DecidableEq, Repr

/-- SPARSE_MM descriptor (Tables 6-6, 6-7). -/
structure SparseDesc where
  cid : BitVec 64
  smode : BitVec 8
  bFormat : BitVec 8
  nMinus1 : BitVec 8
  control : BitVec 16
  plateRowsUsed : BitVec 8
  arrayDesc : BitVec 32
  plateRow0 : BitVec 16
  plateCol0 : BitVec 16
  kPlates : BitVec 32
  bBase : BitVec 32
  bStride : BitVec 32
  stripScratch : BitVec 32
  dBase : BitVec 32
  dStride : BitVec 32
  sBase : BitVec 32
  cmplAddr : BitVec 32
  dFormat : BitVec 8
  deriving DecidableEq, Repr

/-- Plate command descriptor (Table 6-5). -/
structure PlateDesc where
  cid : BitVec 64
  layout : BitVec 8
  plateRow : BitVec 16
  plateCol : BitVec 16
  arrayDesc : BitVec 64
  denseAddr : BitVec 64
  denseStride : BitVec 32
  destDesc : BitVec 64
  destRow : BitVec 16
  destCol : BitVec 16
  deriving DecidableEq, Repr

/-- Mask command descriptor (Table 6-10). -/
structure MaskDesc where
  cid : BitVec 64
  block : BitVec 8
  policy : BitVec 8
  count : BitVec 32
  threshold : BitVec 32
  valuesBase : BitVec 32
  maskBase : BitVec 32
  pendingBase : BitVec 32
  m1Base : BitVec 32
  m2Base : BitVec 32
  deriving DecidableEq, Repr

/-- TRANSPOSE descriptor (Table 7-2). -/
structure TransDesc where
  cid : BitVec 64
  srcFormat : BitVec 8
  rowsMinus1 : BitVec 8
  colsMinus1 : BitVec 8
  dest : BitVec 8
  srcAddr : BitVec 32
  srcStride : BitVec 32
  dstAddr : BitVec 32
  dstStride : BitVec 32
  deriving DecidableEq, Repr

/-- STRATA_PUSH descriptor (Table 7-4). -/
structure PushDesc where
  cid : BitVec 64
  flags : BitVec 8
  elemFormat : BitVec 8
  unitBytes : BitVec 32
  fixedBytes : BitVec 32
  srcAddr : BitVec 32
  srcStride : BitVec 32
  deriving DecidableEq, Repr

/-- STRATA_POP descriptor (Table 7-5). -/
structure PopDesc where
  cid : BitVec 64
  expectId : BitVec 64
  dstAddr : BitVec 32
  deriving DecidableEq, Repr

/-- STRATA_LAYER descriptor (Table 7-6) but for its phase bit, which chooses the row. -/
structure LayerDesc where
  cid : BitVec 64
  layer : BitVec 16
  ckUnitBytes : BitVec 32
  ckFixedBytes : BitVec 32
  ckAddr : BitVec 32
  recomputeFirst : BitVec 32
  recomputeCount : BitVec 32
  deriving DecidableEq, Repr

/-- VEC_OP descriptor (Table 8-1) but for its op byte, which chooses the row. -/
structure VecDesc where
  cid : BitVec 64
  formats : BitVec 16
  flags : BitVec 16
  count : BitVec 32
  src0 : BitVec 32
  src1 : BitVec 32
  src2 : BitVec 32
  dst : BitVec 32
  deriving DecidableEq, Repr

/-- PALETTE_LOAD descriptor (R189). -/
structure PaletteDesc where
  cid : BitVec 64
  pair : BitVec 8
  eLo : BitVec 8
  srcAddr : BitVec 32
  deriving DecidableEq, Repr

/-- LOSS_REPORT descriptor (R190). -/
structure LossDesc where
  cid : BitVec 64
  slot : BitVec 8
  srcAddr : BitVec 32
  deriving DecidableEq, Repr

/-- OPT_STEP descriptor (Table 8-8). -/
structure OptDesc where
  cid : BitVec 64
  group : BitVec 8
  gradFormat : BitVec 8
  count : BitVec 32
  paramIndex : BitVec 32
  gradAddr : BitVec 32
  deriving DecidableEq, Repr

/-- RECV_ADD descriptor (Table 9-1). -/
structure RecvDesc where
  cid : BitVec 64
  format : BitVec 8
  flags : BitVec 8
  count : BitVec 32
  dst : BitVec 32
  deriving DecidableEq, Repr

/-- SYNC_SIGNAL and SYNC_WAIT descriptor (Table 12-4). -/
structure SyncDesc where
  cid : BitVec 64
  op : BitVec 8
  syncId : BitVec 16
  destId : BitVec 16
  destPb : BitVec 8
  channel : BitVec 8
  operand : BitVec 64
  deriving DecidableEq, Repr

/-- Where a tile command runs and what the checks of its hardware found: `tile` is the logical index 48y + x; `det` lists the
attempts of its refire unit that the hardware's own checks failed, in order, each with the status codes it detected (R239, R243);
`suspect` is not empty when a suspect window opened while the command ran, and holds the CRC-64 digests of the first and, where
there is one, of the third execution as they came out (R246). -/
structure Site where
  tile : Nat
  det : List (List Code)
  suspect : List (BitVec 64)
  deriving DecidableEq, Repr

/-- A scheduled transfer of the compiled schedule as R60 binds it: the bytes that leave when `after` completes on `src`,
and where they land (`recv`: into the flits of a RECV_ADD). The image has no field for a binding, so the load is
given it. -/
structure Transfer where
  src : Nat
  after : BitVec 64
  srcAddr : Nat
  bytes : Nat
  dst : Nat
  dstAddr : Nat
  recv : Bool
  /-- Command of `dst` that consumes the bytes. -/
  consumer : BitVec 64
  deriving DecidableEq, Repr

/-- A scheduled multicast of a verified weight frame (R63): which tiles take it and where its payload lands. -/
structure Multicast where
  pb : Nat
  frameSeq : Nat
  tile : Nat
  addr : Nat
  deriving DecidableEq, Repr

/-- What the flits of a part of the schedule carry: a transfer of the bindings by its index, a weight frame of the port block by
its frame_seq, the partial of a canvas that a tile drains onto the chain, or the output of a sum map entry (R60, R63, R64,
R223). -/
inductive Flow where
  | transfer (index : Nat)
  | frame (seq : Nat)
  | part (cid : BitVec 64)
  | sums (entry : Nat)
  deriving DecidableEq, Repr

/-- Outgoing flits of a router, in the order in which its table takes them (R60): the site, a logical tile or 2,352 and a port
block; the table, 0 the main one and L + 1 the recompute section of layer L (R175); what the flits carry, and how many they are. -/
structure Outgoing where
  site : Nat
  table : Nat
  flow : Flow
  flits : Nat
  deriving DecidableEq, Repr

/-- A CHAIN drain of a tile and the canvas of its column, counted in the order of the Kiln map, that it adds to (R208). -/
structure ChainDrain where
  tile : Nat
  cid : BitVec 64
  total : Nat
  deriving DecidableEq, Repr

/-- The schedule bindings of a program (R60, R208, R210). -/
structure Bindings where
  transfers : List Transfer := []
  multicasts : List Multicast := []
  /-- Flits bound to each RECV_ADD: (tile, command ID, flits). -/
  recvFlits : List (Nat × BitVec 64 × Nat) := []
  chains : List ChainDrain := []
  outgoing : List Outgoing := []
  /-- DRAIN boundary of a layer in the main tables: layer, and the schedule cycle at which its recompute section runs (R175). -/
  boundaries : List (Nat × Nat) := []
  /-- Persistent pages of a field fenced in state 0b01 and where the program places them (R43), as 1024 times the logical tile
  plus the logical shard page. -/
  moves : List (Nat × Nat) := []
  deriving DecidableEq, Repr

/-- A weight frame (Table 11-9). -/
structure Frame where
  key : BitVec 64
  frameSeq : BitVec 32
  stepLow : BitVec 32
  format : BitVec 8
  form : BitVec 8
  targetPb : BitVec 8
  length : BitVec 32
  crc : BitVec 32
  sha : Digest
  payload : Bytes
  /-- A reserved field is not zero (R13). -/
  resv : Bool := false
  deriving DecidableEq, Repr

/-- An XS96 block image (Table 9-2); `elems` is empty in a header-only image. -/
structure Block where
  key : BitVec 64
  seq : BitVec 32
  stepLow : BitVec 32
  w : BitVec 8
  windowId : BitVec 8
  flags : BitVec 16
  nf : BitVec 16
  bitmapIndex : BitVec 16
  group : BitVec 8
  crc : BitVec 32
  elems : List (BitVec 96)
  /-- A reserved field is not zero (R13). -/
  resv : Bool := false
  deriving DecidableEq, Repr

/-- One late entry of a vote (R229). -/
structure LateEntry where
  member : BitVec 16
  group : BitVec 8
  fromSeq : BitVec 32
  deriving DecidableEq, Repr

/-- A vote message (Table 9-10). -/
structure VoteMsg where
  step : BitVec 64
  positionId : BitVec 16
  flags : BitVec 16
  nfTotal : BitVec 32
  recordDigest : Digest
  late : List LateEntry
  /-- A reserved field is not zero (R13). -/
  resv : Bool := false
  deriving DecidableEq, Repr

/-- SIGNAL body (Table 11-12), with the sender's position ID from the message header. -/
structure SignalMsg where
  src : BitVec 16
  stepLow : BitVec 32
  syncId : BitVec 16
  channel : BitVec 8
  op : BitVec 8
  count : BitVec 64
  operand : BitVec 64
  deriving DecidableEq, Repr

/-- TIME_PROBE and TIME_REPLY body (Table 17-1). -/
structure TimeMsg where
  peer : BitVec 16
  probeId : BitVec 32
  index : BitVec 8
  t1 : BitVec 64
  t2 : BitVec 64
  t3 : BitVec 64
  deriving DecidableEq, Repr

/-- A Zlink flit as it arrives (Table 11-2). `reserved` holds its reserved bits, those of byte 0, byte 1 and bytes 10 and 11 from
the lowest upward; `body` is its 240 payload bytes, of which `len` are valid; `fec`: it touches a codeword that the FEC could not
correct. -/
structure Flit where
  kind : BitVec 2
  channel : BitVec 2
  som : Bool
  eom : Bool
  seq : BitVec 16
  ack : BitVec 16
  chseq : BitVec 16
  len : BitVec 16
  reserved : BitVec 26
  body : Bytes
  crc : BitVec 32
  fec : Bool
  deriving DecidableEq, Repr

/-- What a sync operation carries to its head-end (R279): the Rill or remote source, the op byte, object, operand and
the step the sender names (R285). -/
structure SyncMsg where
  /-- 0 Rill site, 1 remote module, 2 host, 3 Kellet firmware (Table 12-6). -/
  srcKind : BitVec 2
  src : BitVec 16
  syncId : BitVec 16
  op : BitVec 8
  operand : BitVec 64
  stepLow : BitVec 32
  deriving DecidableEq, Repr

/-- The place a status code concerns (Table 13-9): Rill code of the site and block code. -/
structure Place where
  site : BitVec 12
  block : BitVec 8
  deriving DecidableEq, Repr

/-- A status code that reaches the Kellet complex (Rill EVENT, or a dedicated line). -/
structure StatusMsg where
  code : Code
  place : Place
  cid : BitVec 64
  detail : BitVec 32
  detail2 : BitVec 64
  deriving DecidableEq, Repr

/-- A Rill message as it arrives (Table 3-8). -/
structure RillMsg where
  dest : BitVec 12
  src : BitVec 12
  cls : Bool
  type : BitVec 8
  tag : BitVec 12
  payload : List (BitVec 64)
  deriving DecidableEq, Repr

/-- A trace record (Table 17-2). -/
structure TraceRec where
  time : BitVec 64
  cid : BitVec 64
  kind : BitVec 8
  keep : Bool
  site : BitVec 12
  stepLow : BitVec 32
  data : BitVec 64
  deriving DecidableEq, Repr

/-- TRACE_CONFIG payload (Table 17-4) but for its action, which chooses the row. -/
structure TraceCfg where
  kindMask : BitVec 32
  postCount : BitVec 32
  trigger : BitVec 8
  statusCode : BitVec 16
  statusMask : BitVec 16
  phase : BitVec 8
  cid : BitVec 64
  cidMask : BitVec 64
  stepNumber : BitVec 64
  deriving DecidableEq, Repr

/-- PARITY_CONFIG payload (Table 16-6). -/
structure ParityCfg where
  size : BitVec 8
  code : BitVec 8
  interval : BitVec 16
  selfIndex : BitVec 8
  firstPage : BitVec 32
  storeId : BitVec 16
  rebuildAddress : BitVec 64
  members : List (BitVec 16)
  deriving DecidableEq, Repr

/-- PARITY_JOIN payload (R382). -/
structure JoinMsg where
  sender : BitVec 8
  feedId : BitVec 16
  code : BitVec 8
  size : BitVec 8
  interval : BitVec 16
  layout : Digest
  deriving DecidableEq, Repr

/-- A PARITY_UNIT or REBUILD_UNIT message (Table 16-9) with its payload. -/
structure UnitMsg where
  role : BitVec 8
  tile : BitVec 16
  stepLow : BitVec 32
  address : BitVec 64
  sender : BitVec 8
  crc : BitVec 32
  payload : Bytes
  /-- A reserved field is not zero (R13). -/
  resv : Bool := false
  deriving DecidableEq, Repr

/-- RESTORE payload (Table 16-10) but for its source, which chooses the row. -/
structure RestoreReq where
  storeId : BitVec 16
  stepNumber : BitVec 64
  storeAddress : BitVec 64
  expectedGen : Digest
  deriving DecidableEq, Repr

/-- SNAPSHOT_EXPORT payload (Table 16-2). -/
structure ExportReq where
  dest : BitVec 8
  which : BitVec 8
  storeId : BitVec 16
  storeAddress : BitVec 64
  deriving DecidableEq, Repr

/-- HELLO payload fields the module acts on (Table 13-5); `raw` is the payload, for the transcript hash (R307). -/
structure HelloMsg where
  role : BitVec 8
  takeover : Bool
  keyId : BitVec 64
  raw : Bytes
  port : Port
  resv : Bool
  dg : Dgram
  deriving DecidableEq, Repr

/-- EVENT_ACK: the sequence number up to which the events have come, and its datagrams (R311). -/
structure AckMsg where
  seq : Nat
  dg : Dgram
  deriving DecidableEq, Repr

/-- A PTP time (R385). -/
structure PtpTime where
  seconds : BitVec 48
  nanoseconds : BitVec 32
  deriving DecidableEq, Repr

/-- A RECV_ADD as its sequencer issues it: the descriptor, and for its passes of 256 elements the detections of their attempts beside
those of the command itself (R211). -/
structure RecvCmd where
  desc : RecvDesc
  passes : List (Nat × List (List Code))
  deriving DecidableEq, Repr

/-- The bytes of a MAINT_WRITE and the tag its reply carries (Table 3-9). -/
structure MaintData where
  tag : BitVec 12
  bytes : Bytes
  deriving DecidableEq, Repr

/-- The step whose blocks a re-send request names, and whether they are asked for as LATE blocks (R222). -/
structure StepMark where
  stepLow : BitVec 32
  late : Bool
  deriving DecidableEq, Repr

/-- Firmware header as fetched (Table 18-2): the fields the checks read. -/
structure FwHeader where
  bytes : Bytes
  deriving DecidableEq, Repr

/-- How a boot fetch ended (R407): why FW_FETCH is raised. -/
inductive FetchFail where
  | dhcp | tftp | timeout | noLease
  deriving DecidableEq, Repr

/-- Which supply rail a supervisor reports (Table 14-1). -/
inductive Rail where
  | vcore | vloam
  deriving DecidableEq, Repr

/-- Bulk regions of Table 13-3. -/
abbrev Region := BitVec 8

/-- Where an RDMA operation acts: the region and the offset in it (R299). -/
structure RdmaPlace where
  region : Region
  offset : BitVec 56
  deriving DecidableEq, Repr

/-- The Delit commands (Table 13-8) as a session's window holds them; the rows of `Instr` carry the same operands. -/
inductive DelitOp where
  | ping
  | sessionClose
  | eventFilter (severity : BitVec 8)
  | moduleInfo
  | qpCreate
  | qpDestroy (qpn : BitVec 24)
  | bulkWrite (region : Region) (offset : BitVec 56) (data : Bytes)
  | bulkRead (region : Region) (offset : BitVec 56) (length : Nat)
  | programBegin
  | programLoad (digest : Digest) (bindings : Bindings)
  | stepOpen (p : StepOpen)
  | stepDiscard
  | stepStatusRead
  | lossRead
  | receiptFetch (step : BitVec 64)
  | strataStatusRead (tile : Nat)
  | lossScaleWrite (v : BitVec 64)
  | lossScaleRead
  | optGroupWrite (index : Nat) (entry : BitVec 256)
  | optGroupRead (first count : Nat)
  | windowWrite (index : Nat) (v : BitVec 16)
  | windowRead (first count : Nat)
  | kilnStatsRead (first count : Nat)
  | kilnStatsClear
  | fieldMapRead
  | repairMapRead
  | fieldFence (field : Nat)
  | fieldUnfence (field : Nat)
  | selftestTest (site : BitVec 16) (block lane : BitVec 8)
  | selftestRecalibrate (site : BitVec 16) (block lane : BitVec 8)
  | selftestFull (site : BitVec 16)
  | positionIdSet (id : BitVec 16)
  | peerTableWrite (link : Nat) (entry : BitVec 32)
  | linkStatusRead (first count : Nat)
  | syncRead (obj : Nat)
  | setValue (obj : Nat) (value : BitVec 64)
  | release (obj : Nat)
  | syncDump
  | clockRatioSet (half ratio : BitVec 8)
  | powerStatusRead
  | snapshotExport (r : ExportReq)
  | parityConfig (c : ParityCfg)
  | restoreStore (r : RestoreReq)
  | restoreBase (r : RestoreReq)
  | restoreRebuild (r : RestoreReq)
  | traceSetAndArm (c : TraceCfg)
  | traceDisarm
  | traceEmptyAndArm (c : TraceCfg)
  | traceFetch (firstTile tileCount : BitVec 16) (moduleRing : Bool)
  | counterReadCounters (mask : BitVec 16) (firstTile tileCount : BitVec 16) (sampleTime : BitVec 64)
  | counterReadPhaseDetails (firstStep : BitVec 64) (stepCount : BitVec 16)
  | replayFetch (step : BitVec 64) (attempt : BitVec 16)
  | dumpFetch (part : BitVec 8) (firstTile count : BitVec 16)
  | attest (nonce : BitVec 256)
  deriving DecidableEq, Repr

/-- What a self-test or calibration found (R249, R357, R266). -/
structure TestResult where
  /-- Blocks of the site that failed (Table 13-9 codes); empty when the test passed. -/
  failed : List (BitVec 8)
  /-- Persistent pages that failed their read scan (R357): (page). -/
  badPages : List Nat
  deriving DecidableEq, Repr

/-- For a dead tile of a discard: what the targeted self-test of its router and Loam port found (R351). -/
structure DeadTest where
  phys : Nat
  routerOk : Bool
  loamOk : Bool
  deriving DecidableEq, Repr

/-- The commands and events of the module, one for each row of spec/opcode_table.json, in its order. -/
inductive Instr where
  -- Delit commands (Table 13-8)
  | ping (h : Hdr)
  | sessionClose (h : Hdr)
  | eventFilter (h : Hdr) (severity : BitVec 8)
  | moduleInfo (h : Hdr)
  | qpCreate (h : Hdr)
  | qpDestroy (h : Hdr) (qpn : BitVec 24)
  | bulkWrite (h : Hdr) (region : Region) (offset : BitVec 56) (data : Bytes)
  | bulkRead (h : Hdr) (region : Region) (offset : BitVec 56) (length : Nat)
  | programBegin (h : Hdr)
  | programLoad (h : Hdr) (digest : Digest) (bindings : Bindings)
  | programLoadComplete (failedRegions : List Nat)
  | stepOpen (h : Hdr) (p : StepOpen)
  | stepDiscard (h : Hdr)
  | stepStatusRead (h : Hdr)
  | lossRead (h : Hdr)
  | receiptFetch (h : Hdr) (step : BitVec 64)
  | strataStatusRead (h : Hdr) (tile : Nat)
  | lossScaleWrite (h : Hdr) (v : BitVec 64)
  | lossScaleRead (h : Hdr)
  | optGroupWrite (h : Hdr) (index : Nat) (entry : BitVec 256)
  | optGroupRead (h : Hdr) (first count : Nat)
  | windowWrite (h : Hdr) (index : Nat) (v : BitVec 16)
  | windowRead (h : Hdr) (first count : Nat)
  | kilnStatsRead (h : Hdr) (first count : Nat)
  | kilnStatsClear (h : Hdr)
  | fieldMapRead (h : Hdr)
  | repairMapRead (h : Hdr)
  | fieldFence (h : Hdr) (field : Nat)
  | fieldUnfence (h : Hdr) (field : Nat)
  | selftestTest (h : Hdr) (site : BitVec 16) (block lane : BitVec 8)
  | selftestRecalibrate (h : Hdr) (site : BitVec 16) (block lane : BitVec 8)
  | selftestFull (h : Hdr) (site : BitVec 16)
  | selftestDone (site : BitVec 16) (block lane : BitVec 8) (r : TestResult)
  | positionIdSet (h : Hdr) (id : BitVec 16)
  | peerTableWrite (h : Hdr) (link : Nat) (entry : BitVec 32)
  | linkStatusRead (h : Hdr) (first count : Nat)
  | syncRead (h : Hdr) (obj : Nat)
  | setValue (h : Hdr) (obj : Nat) (value : BitVec 64)
  | release (h : Hdr) (obj : Nat)
  | syncDump (h : Hdr)
  | clockRatioSet (h : Hdr) (half ratio : BitVec 8)
  | powerStatusRead (h : Hdr)
  | snapshotExport (h : Hdr) (r : ExportReq)
  | exportComplete
  | parityConfig (h : Hdr) (c : ParityCfg)
  | restoreStore (h : Hdr) (r : RestoreReq)
  | restoreBase (h : Hdr) (r : RestoreReq)
  | restoreRebuild (h : Hdr) (r : RestoreReq)
  | traceSetAndArm (h : Hdr) (c : TraceCfg)
  | traceDisarm (h : Hdr)
  | traceEmptyAndArm (h : Hdr) (c : TraceCfg)
  | traceFetch (h : Hdr) (firstTile tileCount : BitVec 16) (moduleRing : Bool)
  | counterReadCounters (h : Hdr) (mask : BitVec 16) (firstTile tileCount : BitVec 16) (sampleTime : BitVec 64)
  | counterSample (tile : Nat)
  | counterReadPhaseDetails (h : Hdr) (firstStep : BitVec 64) (stepCount : BitVec 16)
  | replayFetch (h : Hdr) (step : BitVec 64) (attempt : BitVec 16)
  | dumpFetch (h : Hdr) (part : BitVec 8) (firstTile count : BitVec 16)
  | attest (h : Hdr) (nonce : BitVec 256)
  -- Sessions and the Ethernet ports
  | hello (m : HelloMsg)
  | finish (session : Nat) (sigEd : BitVec 512) (sigMl : Bytes) (dg : Dgram)
  | eventAck (session : Nat) (m : AckMsg)
  | eventRetransmit (session : Nat)
  | sessionTimeout (session : Nat)
  | fragmentTimeout (session : Nat) (seq : Nat)
  | handshakeTimeout (session : Nat)
  | rdmaWrite (qpn : BitVec 24) (key : BitVec 32) (place : RdmaPlace) (data : Bytes) (net : Net)
  | rdmaRead (qpn : BitVec 24) (key : BitVec 32) (place : RdmaPlace) (length : Nat) (net : Net)
  | send (qpn : BitVec 24) (data : Bytes) (unsupported : Bool) (net : Net)
  | congestionNotification (qpn : BitVec 24)
  | rateRestore (qpn : BitVec 24)
  | ptpSync (time : PtpTime) (rate : BitVec 32) (net : Net)
  | leaseRenewal (port : Port) (address : BitVec 128)
  | icmpEcho (p : Packet) (data : Bytes)
  | arp (p : Packet) (target : BitVec 128)
  -- Boot and the warden
  | status
  | bootNow
  | wardenPowerOn
  | inputStart
  | bootAttempt
  | bootHeaderFetched (h : FwHeader) (port : Port)
  | edgeRegionActive
  | firmwareBodyFetched (body : Bytes) (tagOk : Bool) (port : Port)
  | provisioningRecordFetched (record : Option Bytes)
  | bootRetryWait
  -- Tile commands
  | denseMm (s : Site) (d : DenseDesc)
  | canvasSave (s : Site) (d : DenseDesc)
  | canvasRestore (s : Site) (d : DenseDesc)
  | sparseMm (s : Site) (d : SparseDesc)
  | maskedMm (s : Site) (d : DenseDesc)
  | plateStore (s : Site) (d : PlateDesc)
  | plateLoad (s : Site) (d : PlateDesc)
  | plateTranspose (s : Site) (d : PlateDesc)
  | plateAdopt (s : Site) (d : PlateDesc)
  | transpose (s : Site) (d : TransDesc)
  | strataPush (s : Site) (d : PushDesc)
  | strataPop (s : Site) (d : PopDesc)
  | strataLayerFill (s : Site) (d : LayerDesc)
  | strataLayerDrain (s : Site) (d : LayerDesc)
  | strataWriteback (tile : Nat)
  | strataRefill (tile : Nat)
  | pruneTopk (s : Site) (d : MaskDesc)
  | pruneThreshold (s : Site) (d : MaskDesc)
  | regrow (s : Site) (d : MaskDesc)
  | maskCommit (s : Site) (d : MaskDesc)
  | add (s : Site) (d : VecDesc)
  | sub (s : Site) (d : VecDesc)
  | mul (s : Site) (d : VecDesc)
  | fma (s : Site) (d : VecDesc)
  | max (s : Site) (d : VecDesc)
  | min (s : Site) (d : VecDesc)
  | abs (s : Site) (d : VecDesc)
  | neg (s : Site) (d : VecDesc)
  | div (s : Site) (d : VecDesc)
  | sqrt (s : Site) (d : VecDesc)
  | cvt (s : Site) (d : VecDesc)
  | select (s : Site) (d : VecDesc)
  | cmpLt (s : Site) (d : VecDesc)
  | palF (s : Site) (d : VecDesc)
  | palD (s : Site) (d : VecDesc)
  | sum (s : Site) (d : VecDesc)
  | maxred (s : Site) (d : VecDesc)
  | sumsq (s : Site) (d : VecDesc)
  | paletteLoad (s : Site) (d : PaletteDesc)
  | lossReport (s : Site) (d : LossDesc)
  | optStep (s : Site) (d : OptDesc)
  /-- `passes`: the attempts that fail of passes after the first, by the pass's number. -/
  | recvAdd (s : Site) (c : RecvCmd)
  | syncSignal (s : Site) (d : SyncDesc)
  | syncWait (s : Site) (d : SyncDesc)
  -- Sync operations at a head-end
  | syncAdd (m : SyncMsg)
  | arrive (m : SyncMsg)
  | wait (m : SyncMsg)
  | arriveWait (m : SyncMsg)
  | leave (m : SyncMsg)
  | syncWake (tile : Nat) (obj : Nat) (value : BitVec 64) (uncounted : Bool)
  -- Rill, faults and the step's course
  | halt (tile : Nat)
  | maintWrite (phys : Nat) (addr : BitVec 40) (m : MaintData)
  | maintRead (phys : Nat) (addr : BitVec 40) (length : Nat) (tag : BitVec 12)
  | maintReply (m : RillMsg)
  | mailbox (m : RillMsg)
  | trace (r : TraceRec)
  | undeliverable (m : RillMsg)
  | event (m : StatusMsg)
  | causeWindowClose
  | discardRelease (tests : List DeadTest)
  | columnShiftCopyDone
  | heartbeatPoll (answers : List (Nat × BitVec 64))
  | rillHopFailed (site : BitVec 12) (hop : BitVec 8)
  | seamRealigned
  | fillEnd (last : Nat)
  | drainEnd (last : Nat)
  | columnTotal (pb : Nat) (det : List (List (Nat × Code)))
  | columnTotalAck (tile : Nat)
  | xs96Block (pb : Nat) (sender : BitVec 16) (b : Block)
  | resendRequest (requester : BitVec 16) (pb : Nat) (group : BitVec 8) (fromSeq toSeq : BitVec 32) (mark : StepMark)
  | stragglerDeadline (pb : Nat) (entry : Nat)
  | voteSend
  | vote (v : VoteMsg)
  | commitPoint
  | sealEnd
  | deadlock (queues : BitVec 101)
  | weightFrame (pb : Nat) (f : Frame)
  | signal (link : Nat) (m : SignalMsg)
  | timeProbe (link : Nat) (m : TimeMsg)
  | timeReply (link : Nat) (m : TimeMsg)
  | peerOffsetExchange (peer : BitVec 16)
  | timeProbeTimeout (peer : BitVec 16) (index : BitVec 8)
  -- Zlinks
  | zlinkFlit (link : Nat) (f : Flit)
  | nak (link : Nat) (missing : List (BitVec 16))
  | credit (link : Nat) (grants : List (BitVec 16))
  | laneSwap (link : Nat) (retiring : BitVec 8) (switchSeq : BitVec 16)
  | restripe (link : Nat) (lanes : BitVec 8)
  | route (link : Nat) (pbs : BitVec 24)
  | ident (link : Nat) (kind : BitVec 8) (positionId : BitVec 16) (pb : BitVec 8) (fw : BitVec 64)
  | trainTimeout (link : Nat)
  | downRetry (link : Nat)
  | laneDegrading (link : Nat) (lane : Nat)
  | laneLost (link : Nat) (lane : Nat)
  | spareTrained (link : Nat) (ok : Bool) (switchSeq : BitVec 16)
  -- Survival
  | parityJoin (m : JoinMsg)
  | parityReady (sender : BitVec 8) (stepLow : BitVec 32)
  | parityUnit (m : UnitMsg)
  | parityDone (sender : BitVec 8) (stepLow : BitVec 32)
  | rebuildRequest (sender : BitVec 8) (tile : BitVec 16) (stepLow : BitVec 32) (page : BitVec 64)
  | rebuildUnit (m : UnitMsg)
  | readData (address : BitVec 64) (crc : BitVec 32) (data : Bytes)
  -- Trace, power and the fatal path
  | traceTrigger (ring : Nat)
  | traceFreeze (ring : Nat)
  | idleEntry
  | inputWarning (mv : Nat)
  | inputOrEdgeReset (cause : Code) (mv : Nat)
  | railWarning (region : Nat) (rail : Rail) (mv : Nat)
  | suspectWindowClose (region : Nat)
  | suspectWindowTimeout (region : Nat)
  | coreReset (region : Nat)
  | loamRailReset (region : Nat)
  | breakerOpen (region : Nat)
  | regionStartFail (region : Nat)
  | peakLimit (watts : Nat)
  | peakLimitRelease (watts : Nat)
  | droopStretchBegin (region : Nat) (mv : Nat)
  | droopStretchEnd (region : Nat) (mv : Nat)
  | injectionLockLoss (point : Nat)
  | temperatureSample (temps : List (BitVec 8))
  | thermalThrottle (half : Nat)
  | thermalRelease (half : Nat)
  | coolingLoss
  | coolingRestored
  | coolingFailed
  | moduleFatal (code : Code) (p : Place)
  | fatalDumpComplete (absent : List (Nat × BitVec 8))
  | fwFetch (why : FetchFail) (port : Port)
  | fetchComplete
  deriving DecidableEq, Repr

end Sys2Proof
end

