-- ==== Sys2Proof/Config.lean ====
section
/-! DEFINITION. Sys2Proof/Config.lean: what an implementation or an assembled module fixes, and the values the manual
leaves open. Every `opaque` is a value nothing in Lean can evaluate: a claim holds whatever it is. -/

namespace Sys2Proof.Config

/-- The entropy of HMAC_DRBG (R410): nonces, session and probe IDs, QPNs, PSNs, region keys. Log entry 4. -/
opaque draw : (counter : Nat) → BitVec 256
/-- Ed25519 signature of the security core over a message (R254, R307, R417). Log entry 5. -/
opaque signEd : (message : Bytes) → BitVec 512
/-- ML-DSA-65 signature (3,309 bytes) of the security core over a message under a context. Log entry 5. -/
opaque signMl : (context message : Bytes) → Vector Byte 3309
/-- Verification of an Ed25519 signature under a public key (RFC 8032). Log entry 5. -/
opaque verifyEd : (key : BitVec 256) → (message : Bytes) → (sig : BitVec 512) → Bool
/-- Verification of an ML-DSA-65 signature under a public key and context (FIPS 204). Log entry 5. -/
opaque verifyMl : (key : Bytes) → (context message sig : Bytes) → Bool
/-- ML-KEM-768 ciphertext (1,088 bytes) to an encapsulation key with fresh randomness (FIPS 203). Log entry 5. -/
opaque encapsulate : (counter : Nat) → (ek : Bytes) → Vector Byte 1088
/-- The X25519 public key of a fresh private key (RFC 7748). Log entry 5. -/
opaque x25519Public : (counter : Nat) → BitVec 256
/-- The X25519 shared secret of a fresh private key and a host's public key (RFC 7748). Log entry 5. -/
opaque x25519Shared : (counter : Nat) → (host : Bytes) → Vector Byte 32
/-- The ML-KEM-768 shared secret that goes with a ciphertext of `encapsulate` (FIPS 203). Log entry 5. -/
opaque kemShared : (counter : Nat) → (ek : Bytes) → Vector Byte 32
/-- The module's manufacturing data (R404, R409, R411): serial number, identity public keys, endorsement. Log entry 6. -/
opaque serial : BitVec 128
/-- The module's identity Ed25519 public key. Log entry 6. -/
opaque identityEd : BitVec 256
/-- The module's identity ML-DSA-65 public key (1,952 bytes). Log entry 6. -/
opaque identityMl : Vector Byte 1952
/-- The endorsement's Ed25519 signature (R411). Log entry 6. -/
opaque endorseEd : BitVec 512
/-- The endorsement's ML-DSA-65 signature (R411). Log entry 6. -/
opaque endorseMl : Vector Byte 3309
/-- Digest in firmware key slot n (0-3) of the mask boot ROM (R406). Log entry 6. -/
opaque romKey : (slot : Nat) → BitVec 256
/-- The Rinhild provisioning keys, whose digest is in the ROM's fifth slot (R412). Log entry 6. -/
opaque provisioningEd : BitVec 256
/-- Their ML-DSA-65 public key. Log entry 6. -/
opaque provisioningMl : Vector Byte 1952
/-- Link-local address that a port forms from its MAC address (R404). Log entry 6. -/
opaque linkLocal : (port : Nat) → BitVec 128
/-- Contents of the warden's power record beyond the fields R337 lists with values (rail readings). Log entry 7. -/
opaque powerRecordTail : (time : BitVec 64) → Vector Byte 4032
/-- GID of a data port in a QP_CREATE reply (R298): its own address, as RoCEv2 forms it. Log entry 4. -/
opaque gid : (port : Nat) → (address : BitVec 128) → BitVec 128

/-- The 32 bytes of a Strata entry's header (R165), which carries a command ID, a payload length, an entry kind and the offset of
the previous header of the kind, in places that the manual does not give. Log entry 13. -/
opaque strataHeader : (id : BitVec 64) → (bytes kind : Nat) → (prev : Option Nat) → Vector Byte 32

/-- Byte `offset` of a part of a fatal dump whose layout the manual does not give (registers, firmware working data).
Log entry 4. -/
opaque dumpByte : (counter offset : Nat) → Byte

/-- Flits of buffer a Zlink receiver grants a channel when the link comes up (R262). Log entry 20. -/
opaque linkBuffer : (channel : Nat) → Nat

end Sys2Proof.Config
end

