-- ==== Sys2Proof/Machine/State.lean ====
section
/-! DEFINITION. Sys2Proof/Machine/State.lean: the whole state of the module as plain data, its fault and refusal
reasons, and the state right after reset (the warden domain unpowered: nothing has run, module flash as it left the
factory). Sparse tables (`SMap`) list only entries that differ from their default. -/

namespace Sys2Proof.Machine

/-- Step phases (Table 1-4). -/
inductive Phase where
  | idle | opening | fill | drain | reduce | vote | commit | sealing | discarding
  deriving DecidableEq, Repr

/-- Region states (Table 14-9). -/
inductive RegionState where
  | off | ramp | retention | active | broken
  deriving DecidableEq, Repr

/-- Module power states (Table 14-4). -/
inductive PowerState where
  | dormant | standby | idle | active
  deriving DecidableEq, Repr

/-- Zlink states (Table 11-8); `absent` is read from the variant. -/
inductive LinkState where
  | off | train | up | upSwap | up3 | down | disabled | absent
  deriving DecidableEq, Repr

/-- Variants (Table 0-1). -/
inductive Variant where
  | a | b | c
  deriving DecidableEq, Repr

/-- Rows of bytes that a command reads or writes: `rows` of them, `stride` apart from `addr`, of `bytes` each. -/
structure Span where
  addr : Nat
  stride : Nat := 0
  bytes : Nat
  rows : Nat := 1
  deriving DecidableEq, Repr

/-- Run state of a canvas (Table 4-11) and the refires already made for the run (R242). -/
structure Run where
  openId : BitVec 64 := 0
  kDone : Nat := 0
  mode : Nat := 0
  mMinus1 : Nat := 0
  nMinus1 : Nat := 0
  ovf : Bool := false
  nan : Bool := false
  sat : Bool := false
  wrap : Bool := false
  isOpen : Bool := false
  intSat : Bool := false
  refires : Nat := 0
  /-- Transposing-buffer slots the run reads (R158): bit 0 slot 0, bit 1 slot 1. -/
  slots : Nat := 0
  /-- Bytes the run's commands have read (R60, R240). -/
  reads : List Span := []
  /-- A suspect window has opened during the run (R245). -/
  suspect : Bool := false
  deriving DecidableEq, Repr

/-- A checksum accumulator and its magnitude accumulator (R91), as the 64-bit words of Table 4-10. -/
abbrev Pair := BitVec 64 × BitVec 64

/-- A canvas (R81, R91, Table 4-10). Cell (i, j) has key 128 i + j; margin cell c pair p has key 2 c + p. -/
structure Canvas where
  cells : SMap (BitVec 36) := []
  satd : SMap Bool := []
  marginRow : SMap Pair := []
  marginCol : SMap Pair := []
  corner : SMap Pair := []
  run : Run := {}
  deriving DecidableEq, Repr

/-- State of a sparse run on a Sieve part (R142) with its margin state (R137). -/
structure SieveRun where
  isOpen : Bool := false
  smode : Nat := 0
  nMinus1 : Nat := 0
  halves : Bool := false
  plateRow0 : Nat := 0
  rowsUsed : Nat := 0
  /-- Addresses of the plate array descriptors the run's commands name (R144). -/
  arrays : List Nat := []
  kDone : Nat := 0
  ovf : Bool := false
  nan : Bool := false
  refires : Nat := 0
  slots : Nat := 0
  /-- Bytes the run's commands have read (R60, R240). -/
  reads : List Span := []
  /-- A suspect window has opened during the run (R245). -/
  suspect : Bool := false
  marginRow : SMap Pair := []
  corner : Pair := (0, 0)
  deriving DecidableEq, Repr

/-- A Strata entry as its header says (R165): the command ID of the push, the payload length, the kind (0 stashed, 1 checkpoint)
and the offset of the previous header of the kind, none for the first; and the offset of its own header in its region. Its bytes
lie in the window or in the body. -/
structure Entry where
  id : BitVec 64
  kind : Nat
  bytes : Nat
  prev : Option Nat
  offset : Nat
  deriving DecidableEq, Repr

/-- The Strata of a tile (R164 to R177). Lists hold the newest entry first; `inWindow` counts the main entries in the
window, the newest ones; the others lie in the body. -/
structure Strata where
  main : List Entry := []
  reserve : List Entry := []
  inWindow : Nat := 0
  tokenUnits : Nat := 0
  switchLayer : Nat := 0
  checkpointing : Bool := false
  recomputing : Bool := false
  recomputeLeft : Nat := 0
  skipPushes : Bool := false
  skipped : Nat := 0
  mainHwm : Nat := 0
  reserveHwm : Nat := 0
  deriving DecidableEq, Repr

/-- A tile counter (R394). -/
structure Counter where
  live : BitVec 64 := 0
  shadow : BitVec 64 := 0
  shadowId : BitVec 64 := 0
  total : BitVec 64 := 0
  runningId : Option (BitVec 64) := none
  startedAt : BitVec 64 := 0
  deriving DecidableEq, Repr

/-- A trace ring (R386 to R391). `general` and `reserve` hold the oldest record first. -/
structure Ring where
  /-- 0 armed, 1 capturing, 2 frozen (R392). -/
  state : Nat := 2
  general : List TraceRec := []
  reserve : List TraceRec := []
  postLeft : Nat := 0
  /-- Records written since the trigger fired and before its broadcast came (R390). -/
  since : Nat := 0
  dropped : Nat := 0
  dropKinds : BitVec 16 := 0
  dropTime : BitVec 64 := 0
  dropStep : BitVec 32 := 0
  deriving DecidableEq, Repr

/-- A canvas held for the partial chain until its column total is acknowledged (R162, R209): the canvas of its column that it
adds to, its packed cells, and whether a suspect window has opened while it is held (R245). -/
structure Held where
  cid : BitVec 64
  total : Nat
  cells : List (BitVec 36)
  sent : Bool
  suspect : Bool := false
  deriving DecidableEq, Repr

/-- The state of one physical tile beside its memories. -/
structure Tile where
  canvasA : Canvas := {}
  canvasB : Canvas := {}
  sieve0 : SieveRun := {}
  sieve1 : SieveRun := {}
  /-- Check column: row i of the Sieve (R137). -/
  sieveCheck : SMap Pair := []
  /-- Slot of the most recent buffer-writing command since OPEN (R158): 0, 1, 2 both; none yet. -/
  lastSlot : Option Nat := none
  strata : Strata := {}
  vecOvf : Bool := false
  vecNan : Bool := false
  vecSat : Bool := false
  vecRefires : Nat := 0
  paletteControl : BitVec 64 := 0
  halted : Bool := false
  /-- Stopped at a layer boundary by an early abort (R23). -/
  stopped : Bool := false
  /-- The sync object the sequencer waits on (R282). -/
  waiting : Option Nat := none
  /-- An optimizer or mask command of the tile waits for a free page (R197, R294). -/
  touching : Bool := false
  /-- Commands issued since the program started: the sequencer's program offset is 64 times this. -/
  issued : Nat := 0
  heldCanvases : List Held := []
  /-- Flits delivered for RECV_ADD and not yet taken (R210). -/
  inbox : Bytes := []
  counters : SMap Counter := []
  /-- Heartbeat value at the last poll (R350). -/
  heartbeat : Option (BitVec 64) := none
  dead : Bool := false
  deriving DecidableEq, Repr

/-- A sync object (Tables 12-1, 12-2, 12-6). -/
structure SyncObj where
  config : BitVec 64 := 0
  state : BitVec 64 := 0
  base : BitVec 64 := 0
  last : BitVec 64 := 0
  gateStep : BitVec 32 := 0
  /-- The first arrival after a program load has set the filling round's step (R285). -/
  gateSet : Bool := false
  overrun : Bool := false
  handSet : Bool := false
  /-- ARRIVE_WAITs among the filling round's arrivals (R283). -/
  waitArrivals : Nat := 0
  deriving DecidableEq, Repr

/-- A waiter-table entry (Table 12-7). -/
structure Waiter where
  site : BitVec 12
  op : BitVec 3
  obj : Nat
  target : Nat
  deriving DecidableEq, Repr

/-- A hand-set as replay capture records it (Table 17-9). -/
structure HandSet where
  obj : Nat
  action : Nat
  value : BitVec 64
  deriving DecidableEq, Repr

/-- The sync engine (R276 to R295). -/
structure Sync where
  objs : SMap SyncObj := []
  image : SMap SyncObj := []
  waiters : List Waiter := []
  stepHandSet : Bool := false
  handSets : List HandSet := []
  /-- The last sync dump, reason and bytes (R292). -/
  dump : Option (Nat × Bytes) := none
  /-- The deadlock detector may fire (R294). -/
  armed : Bool := true
  /-- When each privileged queue last made progress (R293): bit of Table 12-9. -/
  progressAt : SMap (BitVec 64) := []
  deriving DecidableEq, Repr

/-- A group entry (Table 9-6) with its member list: (position ID, owner port block). -/
structure Group where
  members : Nat := 0
  selfIndex : Nat := 0
  policy : Nat := 0
  vote : Bool := false
  deadlineUs : Nat := 0
  retention : Nat := 0
  retentionBase : BitVec 64 := 0
  retentionBytes : BitVec 64 := 0
  memberList : List (Nat × Nat) := []
  deriving DecidableEq, Repr

/-- A Kiln map entry (Table 9-5). -/
structure KilnEntry where
  keyBase : BitVec 64
  elements : Nat
  column : Nat
  windowId : Nat
  group : Nat
  owner : Nat
  firstSeq : Nat
  deriving DecidableEq, Repr

/-- A sum map entry (Table 9-7). -/
structure SumEntry where
  key : BitVec 64
  windowId : Nat
  xs96 : Bool
  group : Nat
  perMember : Nat
  destRow : Nat
  destCol : Nat
  destAddr : Nat
  syncId : Nat
  deriving DecidableEq, Repr

/-- An intake map entry (Table 11-13). -/
structure IntakeEntry where
  key : BitVec 64
  length : Nat
  format : Nat
  form : Nat
  columns : Nat
  recompute : Bool
  layer : Nat
  syncId : Nat
  deriving DecidableEq, Repr

/-- One tile command of a program, by its descriptor. -/
inductive TileOp where
  | dense (d : DenseDesc) | save (d : DenseDesc) | restore (d : DenseDesc) | masked (d : DenseDesc)
  | sparse (d : SparseDesc)
  | plate (op : Nat) (d : PlateDesc)
  | mask (op : Nat) (d : MaskDesc)
  | transpose (d : TransDesc)
  | push (d : PushDesc) | pop (d : PopDesc) | layer (isDrain : Bool) (d : LayerDesc)
  | vec (op : Nat) (d : VecDesc)
  | palette (d : PaletteDesc) | loss (d : LossDesc) | opt (d : OptDesc) | recv (d : RecvDesc)
  | syncSignal (d : SyncDesc) | syncWait (d : SyncDesc)
  deriving DecidableEq, Repr

/-- Backward configuration (Table 7-3). -/
structure Backward where
  gradFormat : Nat := 0
  layers : Nat := 0
  topBase : Nat := 0
  topBytes : Nat := 0
  bodyFirst : Nat := 0
  bodyPages : Nat := 0
  deriving DecidableEq, Repr

/-- Shard descriptor (Table 8-5). -/
structure Shard where
  params : Nat := 0
  maskPlates : Nat := 0
  poolFirst : Nat := 0
  poolPages : Nat := 0
  deriving DecidableEq, Repr

/-- A loaded tile image (Table 13-14): its commands and tables. -/
structure TileProg where
  cmds : List TileOp := []
  drainFirst : Nat := 0
  reduceFirst : Nat := 0
  cmdOffset : Nat := 0
  router : List (BitVec 64) := []
  sections : List (List (BitVec 64)) := []
  hasPalette : Bool := false
  paletteControl : BitVec 64 := 0
  backward : Backward := {}
  shard : Shard := {}
  ringFirst : Nat := 0
  ringPages : Nat := 0
  deriving DecidableEq, Repr

/-- A loaded port-block image (Table 13-15). -/
structure PbProg where
  kilnMap : List KilnEntry := []
  sumMap : List SumEntry := []
  intake : List IntakeEntry := []
  router : List (BitVec 64) := []
  deriving DecidableEq, Repr

/-- The replay directive (R399). -/
structure Directive where
  step : BitVec 64
  groups : BitVec 16
  records : SMap (BitVec 64)
  deriving DecidableEq, Repr

/-- A loaded program (R302). -/
structure Program where
  digest : Digest := 0
  tokenBytes : Nat := 4
  refireBudget : Nat := 0
  maxTokens : Nat := 0
  idleUs : Nat := 0
  realignPeriod : Nat := 0
  gradFormat : Nat := 0
  fieldMap : BitVec 128 := 0
  syncTable : SMap (BitVec 64) := []
  groups : List Group := []
  placement : List Nat := []
  tiles : SMap TileProg := []
  pbs : SMap PbProg := []
  directive : Option Directive := none
  bindings : Bindings := {}
  deriving DecidableEq, Repr

/-- One block being summed by its owner (R222, R226). `sums` are the 256 exact sums (112-bit accumulators). -/
structure SumAcc where
  sums : SMap Int := []
  nf : Nat := 0
  ovf : Bool := false
  /-- Members whose contributions have been added, with how many; key: member index. -/
  got : SMap Nat := []
  lateGot : SMap Nat := []
  /-- The deadline has dropped the LATE blocks still missing (R227). -/
  lateClosed : Bool := false
  started : Bool := false
  isFinal : Bool := false
  deriving DecidableEq, Repr

/-- A port block: Kiln unit, intake, sum buffer and Zlink endpoint tables. -/
structure PbState where
  /-- Kiln map entries already converted (R219). -/
  kilnPos : Nat := 0
  /-- Window statistics (Table 9-4); default 0x80. -/
  stats : SMap (BitVec 64) := []
  accs : SMap SumAcc := []
  released : Nat := 0
  /-- Sum map entries delivered in batches of 16 (R282). -/
  delivered : Nat := 0
  /-- Sum buffer: outputs of released entries (entry, bytes); those of entries below `delivered` may be taken. -/
  sumBuffer : List (Nat × Bytes) := []
  weightChain : Digest := 0
  outChain : Digest := 0
  sumChain : Digest := 0
  /-- Intake map entries still expected this step: (frame_seq, entry). -/
  expected : List (Nat × IntakeEntry) := []
  /-- Frames verified and waiting for an earlier frame_seq. -/
  verified : List Frame := []
  /-- Frames available to the column's scheduled multicast (R272): frame_seq and payload. -/
  ready : List (Nat × Bytes) := []
  /-- frame_seqs already verified. -/
  done : List Nat := []
  requests : SMap Nat := []
  /-- Delivered byte counts: key 4 * source + channel (R273). -/
  streams : SMap Nat := []
  pendingSignals : List SignalMsg := []
  /-- Bytes sent this step to a peer on a channel: key 4 * position ID + channel (R282). -/
  sentBytes : SMap Nat := []
  deriving DecidableEq, Repr

/-- A block kept in retention (R221). -/
structure Retained where
  step : BitVec 64
  destId : BitVec 16
  destPb : Nat
  /-- The port block whose Kiln unit made it, by which it leaves. -/
  pb : Nat
  block : Block
  deriving DecidableEq, Repr

/-- A block that arrived ahead of its stream or before the step opened (R221). -/
structure Early where
  pb : Nat
  sender : BitVec 16
  block : Block
  deriving DecidableEq, Repr

/-- Cross-module reduction state of a step (R219 to R230). Stream key: 2048 * group + member. -/
structure Reduce where
  nextIn : SMap Nat := []
  early : List Early := []
  nextOut : SMap Nat := []
  /-- Blocks converted and waiting for a lower seq of their stream. -/
  outWait : List Retained := []
  retention : List Retained := []
  /-- Images of the blocks counted and of the duplicates, over which the two hashes of R224 run: key
  2^34 * stream + 2^33 * LATE + seq. -/
  firstImages : SMap Bytes := []
  secondImages : SMap Bytes := []
  /-- Contributor records (Table 9-9) of the step; default complete. -/
  records : SMap (BitVec 64) := []
  prevRecords : SMap (BitVec 64) := []
  /-- Marks that a replay directive sets for the step: they enter the contributor records as REDUCE begins (R17, R399). -/
  planned : SMap (BitVec 64) := []
  /-- LATE streams this step waits for: stream key and first seq plus 1. -/
  lateIn : SMap Nat := []
  /-- What this module was marked late for: the step, the owner that says so, and its entry: the LATE re-sends of the next
  step (R227). -/
  lateOwed : List (BitVec 64 × BitVec 16 × LateEntry) := []
  votes : List VoteMsg := []
  voteSent : Bool := false
  verdict : Option Bool := none
  nfTotal : Nat := 0
  recordDigest : Digest := 0
  deriving DecidableEq, Repr

/-- A link record sent (Table 11-4). -/
inductive LinkRecord where
  | nak (missing : List (BitVec 16))
  | credit (grants : List (BitVec 16))
  | laneSwap (retiring : Nat) (switchSeq : BitVec 16)
  | restripe (lanes : BitVec 5)
  | route (pbs : BitVec 24)
  | ident (positionId : BitVec 16) (pb : Nat) (fw : BitVec 64)
  deriving DecidableEq, Repr

/-- A Zlink endpoint (R256 to R269). -/
structure Link where
  state : LinkState := .off
  lanes : BitVec 5 := 0
  lost : Nat := 0
  peerStore : Bool := false
  takeover : Bool := false
  takenOver : Bool := false
  miswired : Bool := false
  peerId : BitVec 16 := 0xFFFF
  replays : BitVec 16 := 0
  peerTable : BitVec 32 := 0x0000FFFF
  spareFailed : Bool := false
  /-- The lane that is the spare (R358). -/
  spare : Nat := 4
  /-- The lane the spare is to replace (R266). -/
  retiring : Option Nat := none
  /-- The switch that LANE_SWAP names: the retiring lane, the seq, and whether this end's record named it (R266). -/
  switchAt : Option (Nat × BitVec 16 × Bool) := none
  txSeq : BitVec 16 := 0
  txChseq : SMap (BitVec 16) := []
  /-- The replay buffer, oldest first (R260). -/
  replay : List Flit := []
  /-- Flits that wait to be sent, oldest first. -/
  blocked : List Flit := []
  /-- Flits sent, replays included, newest first. -/
  wire : List Flit := []
  /-- The channel of WEIGHT and KILN that had the last turn, and the turns that BULK has waited (R259). -/
  lastTurn : Nat := 0
  bulkTurns : Nat := 0
  credits : SMap Nat := []
  /-- Credits this endpoint has granted and the peer has not used. -/
  granted : SMap Nat := []
  rxNext : BitVec 16 := 0
  rxSeen : List (BitVec 16) := []
  nakCounts : SMap Nat := []
  rxChseq : SMap (BitVec 16) := []
  reorder : List Flit := []
  /-- Bytes of the message being assembled on each channel. -/
  assembling : SMap Bytes := []
  /-- Messages delivered by the link, oldest first: channel and bytes. -/
  delivered : List (Nat × Bytes) := []
  records : List LinkRecord := []
  lastAttempt : BitVec 64 := 0
  deriving DecidableEq, Repr

/-- A message sent to another module or a store over the Zlinks, by its header and body (Tables 11-6, 11-7). -/
structure ZMsg where
  dest : BitVec 16
  type : BitVec 8
  destPb : BitVec 8
  body : Bytes
  deriving DecidableEq, Repr

/-- An event as a session holds it (Table 13-9). -/
structure Event where
  type : Nat
  status : Code
  severity : Nat
  step : BitVec 64
  site : BitVec 12
  block : BitVec 8
  phase : Nat
  detail : BitVec 32
  detail2 : BitVec 64
  time : BitVec 64
  cid : BitVec 64
  receipt : Bytes := []
  deriving DecidableEq, Repr

/-- A datagram the module sends to a host. -/
inductive HostMsg where
  | response (session seq : Nat) (cid : BitVec 64) (status : Code) (payload : Bytes)
  | event (session seq : Nat) (e : Event)
  | close (session : Nat) (status : Code)
  | helloReply (session : Nat) (payload : Bytes)
  | helloReject (status : Code)
  | rdmaAck (qpn : BitVec 24)
  | rdmaData (qpn : BitVec 24) (data : Bytes)
  | rdmaNakAccess (qpn : BitVec 24)
  | rdmaNakInvalid (qpn : BitVec 24)
  | cnp (qpn : BitVec 24)
  | icmpReply (port : Port) (data : Bytes)
  | arpReply (port : Port) (target : BitVec 128)
  | leaseRequest (port : Port)
  | wardenReply (payload : Bytes)
  deriving DecidableEq, Repr

/-- A session (R307 to R316). -/
structure Session where
  id : Nat
  control : Bool
  keyId : BitVec 64
  established : Bool := false
  takeover : Bool := false
  transcript : Digest := 0
  keys : BitVec 512 := 0
  port : Port := .eth0
  executed : Nat := 0
  held : List (Hdr × DelitOp) := []
  cache : List HostMsg := []
  eventSeq : Nat := 0
  filter : Nat := 1
  unacked : List (Nat × Event) := []
  reserved : List (Nat × Event) := []
  lostEvents : Nat := 0
  tagFail : Nat := 0
  lastHeard : BitVec 64 := 0
  /-- Data of the session's last completed fetch command (region RESULT, Table 13-3). -/
  result : Bytes := []
  deriving DecidableEq, Repr

/-- A RoCEv2 queue pair (R298). -/
structure QueuePair where
  qpn : BitVec 24
  session : Nat
  port : Port
  psn : BitVec 24
  /-- Memory keys of regions 1 to 4 (Table 13-3). -/
  keys : List (BitVec 32)
  error : Bool := false
  /-- Send rate in 2^-16 of line rate. -/
  rate : Nat := 65536
  lastCnp : Option (BitVec 64) := none
  /-- When a congestion notification last halved the rate. -/
  lastHalved : Option (BitVec 64) := none
  deriving DecidableEq, Repr

/-- A long command in progress (R311): whose COMMAND_DONE is owed. -/
structure Owed where
  session : Nat
  cid : BitVec 64
  deriving DecidableEq, Repr

/-- A fetch gathering data into RESULT (R311). -/
structure Fetch where
  owed : Owed
  data : Bytes
  status : Code
  deriving DecidableEq, Repr

/-- A counter read (R395): the tiles still to sample, and the output of those sampled, by logical tile. -/
structure Sampling where
  owed : Owed
  mask : BitVec 16
  tiles : List Nat
  time : BitVec 64
  got : SMap Bytes := []
  deriving DecidableEq, Repr

/-- The host side of the Kellet complex (chapter 13). -/
structure HostSide where
  sessions : List Session := []
  /-- Sessions whose FINISH has not come (R307). -/
  handshakes : List Session := []
  nextSession : Nat := 1
  /-- Messages under reassembly: session, seq, and the fragments that have come (R304). -/
  fragments : List (Nat × Nat × List Nat) := []
  queuePairs : List QueuePair := []
  /-- Datagrams sent, newest first. -/
  sent : List HostMsg := []
  dropped : Nat := 0
  /-- Fetches whose data is still being gathered, oldest first. -/
  fetches : List Fetch := []
  /-- A STEP_OPEN accepted and waiting for tests, repairs or a wake (R249, R348). -/
  waitingOpen : Option (Hdr × StepOpen) := none
  /-- Region PROGRAM while it may be written (R301): address and byte. -/
  programImage : List Host.Cell := []
  programOpen : Bool := false
  /-- An accepted image being installed (R301). -/
  installing : Option (Owed × Program) := none
  /-- The Kellet image of the program installed, as record slab 19 holds it (R302, R397): offset and byte. -/
  kelletImage : List Host.Cell := []
  /-- BATCH banks 0 and 1 at offsets 0 and 0x20_0000. -/
  batch : List Host.Cell := []
  /-- Addresses leased to the ports (R404): eth0, eth1, service. -/
  leases : SMap (BitVec 128) := []
  /-- Counter reads whose sample time has been set, oldest first (R395). -/
  samplings : List Sampling := []
  deriving DecidableEq, Repr

/-- A supply region (Tables 14-9, 14-11). -/
structure Region where
  state : RegionState := .off
  vcore : Nat := 0
  vloam : Nat := 0
  temp : BitVec 8 := 0
  suspect : Bool := false
  /-- The region's own rail holds its suspect window open (R245). -/
  railLow : Bool := false
  resets : List (BitVec 64) := []
  lasting : Bool := false
  warned : Bool := false
  deriving DecidableEq, Repr

/-- Power, clocks and temperature (chapter 14). -/
structure Power where
  state : PowerState := .dormant
  wardenOn : Bool := false
  inputMv : Nat := 0
  inputLow : Bool := false
  inputReady : Bool := false
  regions : SMap Region := []
  hostWest : Nat := 0
  hostEast : Nat := 0
  limitWest : Nat := 0
  limitEast : Nat := 0
  thermWest : Nat := 0
  thermEast : Nat := 0
  /-- The effective ratios of an IDLE module from before the requests that are applied when it wakes (R332). -/
  held : Option (Nat × Nat) := none
  meshRun : Bool := false
  stretching : Bool := false
  stretchMv : Nat := 0
  /-- Lost mesh cycles since OPEN, in units of 1/440 cycle (R331). -/
  stretchAcc : Nat := 0
  coolingLoss : Bool := false
  /-- Injection points that have lost lock (R329): 0-7 west, 8-15 east. -/
  lostLocks : List Nat := []
  powerRecord : Bytes := []
  /-- 0x700C or 0x700E entered STANDBY and the regions have not cooled (R336). -/
  tooHot : Option Code := none
  /-- Time at which the last region was at or above 80 degrees. -/
  hotAt : BitVec 64 := 0
  deriving DecidableEq, Repr

/-- The seam's mode (Table 3-5); its LEAD follows from the halves' schedule cycles. -/
structure Seam where
  awaited : Bool := false
  realigning : Bool := false
  deriving DecidableEq, Repr

/-- A mesh flit with its sideband (Table 3-1), and what it is of the compiled schedule's (R60): its flow and its number in it. -/
structure MeshFlit where
  payload : Bytes
  poison : Bool
  last : Bool
  crc : BitVec 12
  tag : BitVec 16
  flow : Flow
  index : Nat
  deriving DecidableEq, Repr

/-- A flit on a mesh link: the site and the port (1 north, 2 south, 3 east, 4 west) that it comes to, and the schedule cycle in
which it arrives. Sites are logical tiles, and 2,352 and a port block. -/
structure OnLink where
  site : Nat
  port : Nat
  due : Nat
  flit : MeshFlit
  deriving DecidableEq, Repr

/-- The mesh while its schedule runs (R56 to R67). -/
structure Mesh where
  /-- Schedule cycles that the west and the east half have begun since the program started. -/
  west : Nat := 0
  east : Nat := 0
  /-- The schedule of the step: parts of the router tables in the order in which they run (R175): table, first cycle in it,
  cycles. -/
  parts : List (Nat × Nat × Nat) := []
  links : List OnLink := []
  /-- Hold registers (R61): site, port, the cycle in which the flit was placed in it, and the flit. -/
  held : List OnLink := []
  /-- The 98 seam FIFOs (R65, R66): key twice the logical row, plus 1 for the westbound lane; oldest first, with the cycle in
  which the flit was sent. -/
  seam : SMap (List (Nat × MeshFlit)) := []
  /-- Own outgoing flits sent by a site in a table: key 4,096 * table + site. -/
  sent : SMap Nat := []
  /-- Commands completed in the step: tile and command ID. -/
  done : List (Nat × BitVec 64) := []
  /-- Flits of a transfer delivered (by its index). -/
  landed : SMap Nat := []
  /-- Transfers with a poisoned flit whose consumer has not yet completed (R57, R241). -/
  poisoned : List Nat := []
  /-- Partials with a poisoned flit: the tile whose chain adder took it, and the canvas of its column (R57, R209). -/
  badParts : List (Nat × Nat) := []
  /-- Links whose next flit fails its CRC-12, as an EVENT reports it (R57): site and port. -/
  failing : List (Nat × Nat) := []
  /-- The schedule stands at a hold (R60). -/
  stalled : Bool := false
  deriving DecidableEq, Repr

/-- The Rill's routing tables (R69): the dark fields around which the Kellet complex last computed and loaded them, none before
the first load. -/
structure Rill where
  around : Option (List Nat) := none
  /-- Consecutive CRC-8 failures of a hop (R70): key 256 * site + hop. -/
  failures : SMap Nat := []
  deriving DecidableEq, Repr

/-- A latched Step-fatal code (R342). -/
structure Latched where
  code : Code
  place : Place
  time : BitVec 64
  deriving DecidableEq, Repr

/-- The fault arbiter and the course of a discard (R342 to R353). -/
structure Arbiter where
  /-- Codes latched, in order of latching. -/
  latched : List Latched := []
  windowOpen : Bool := false
  cause : Option Latched := none
  repaired : Bool := false
  fenced : Bool := false
  pagesLost : Bool := false
  takeover : Bool := false
  /-- A core reset has taken the program: it goes when the step in progress has ended (R324). -/
  unload : Bool := false
  /-- Pages of a retained generation whose failure has lasted through a budget, which the discard's repairs take up (R244): logical
  tile and page. -/
  failedPages : List (Nat × Nat) := []
  /-- A column shift's copies are in progress (R41): (field column, physical tile). -/
  copying : List (Nat × Nat) := []
  /-- Physical tiles and fields whose repair waits for row 7 or the step boundary. -/
  deadTiles : List Nat := []
  darkFields : List Nat := []
  /-- Row 6 of the discard is done. -/
  released : Bool := false
  fatal : Option Code := none
  secondFatal : Code := 0
  /-- Time and phase of the Module-fatal code (Table 17-10). -/
  fatalTime : BitVec 64 := 0
  fatalPhase : Phase := .idle
  deriving DecidableEq, Repr

/-- A site's history in module flash (R250). -/
structure SiteHistory where
  failures : List (BitVec 64) := []
  detections : List (BitVec 64) := []
  deriving DecidableEq, Repr

/-- A pending or running self-test (R248, R355): key is the site, block and lane. -/
structure Test where
  site : BitVec 16
  block : BitVec 8
  lane : BitVec 8
  full : Bool := false
  recalibrate : Bool := false
  running : Bool := false
  owed : List Owed := []
  deriving DecidableEq, Repr

/-- Self-tests and repair data (R40 to R43, R248 to R250). -/
structure Repair where
  /-- Repair map (Table 2-2): default 0xF. -/
  repairMap : SMap (BitVec 4) := []
  /-- Field map (Table 2-4): default 0b00. -/
  fieldMap : SMap (BitVec 2) := []
  /-- Fields that have passed a FULL test since they were last fenced and nothing since (R43). -/
  fullPassed : List Nat := []
  /-- Idle spares that carry a pass-through table (R62): physical tiles. -/
  passThrough : List Nat := []
  /-- Dead tiles that the bypass links of their column have been switched to skip, beside the idle spares (R39, Table 3-3). -/
  bypassed : List Nat := []
  /-- East and west port selections that are not the same row (R39): key 2 * physical tile, plus 1 for the west port; 1 one row
  north, 2 one row south. -/
  ports : SMap (BitVec 2) := []
  tests : List Test := []
  /-- Cycles for which the module was powered before the warden last gained power (R250). -/
  age : BitVec 64 := 0
  history : SMap SiteHistory := []
  /-- Lasting sites (R250). -/
  lasting : List Nat := []
  /-- Lasting sites already spared out (Table 10-5). -/
  spared : List Nat := []
  /-- Failed Rill hops (R70): site and hop. -/
  failedHops : List (BitVec 12 × BitVec 8) := []
  deriving DecidableEq, Repr

/-- A commit record (R24). -/
structure CommitRec where
  step : BitVec 64 := 0
  gen : BitVec 64 := 0
  before : Digest := 0
  after : Digest := 0
  deriving DecidableEq, Repr

/-- The step and what it latches (chapter 1), the loss table, the loss scale and the settings. -/
structure Step where
  phase : Phase := .idle
  lastOutcome : Nat := 0
  nfLocal : Bool := false
  ovfBlock : Bool := false
  nfLoss : Bool := false
  voteSkip : Bool := false
  earlyAborted : Bool := false
  recomputed : Bool := false
  suspect : Bool := false
  nfReceived : Bool := false
  slotsActive : Nat := 0
  expected : BitVec 64 := 0
  /-- The next STEP_OPEN may carry any number: after a program load (R19). -/
  anyNumber : Bool := true
  current : StepOpen := ⟨0, 0, 0, 0, []⟩
  attempt : Nat := 0
  /-- The commit point of the step in progress has passed (R24, R33). -/
  committed : Bool := false
  drainDone : Bool := false
  /-- Phase timers (R16): begin and end of OPEN to SEAL. -/
  timers : List (BitVec 64 × BitVec 64) := []
  refires : List (Nat × Nat) := []
  lossScale : BitVec 64 := 0x000007D001200010
  lsExp : Nat := 0
  /-- Optimizer group table (Table 8-7), entry as 32 little-endian bytes read as a number. -/
  optGroups : SMap (BitVec 256) := []
  windows : SMap (BitVec 16) := []
  /-- Settings and maps as latched at OPEN, for the receipt and replay capture. -/
  openRepairMap : Nat := 0
  openFieldMap : Nat := 0
  latchedScale : BitVec 64 := 0
  latchedWindows : SMap (BitVec 16) := []
  latchedGroups : SMap (BitVec 256) := []
  /-- Loss table (R191): default +0 with VALID clear. -/
  loss : SMap (Option (BitVec 32)) := []
  optCount : BitVec 64 := 0
  checksPassed : BitVec 64 := 0
  checksUnchecked : BitVec 64 := 0
  switchLayer : Nat := 0
  batchDigest : Digest := 0
  seedRecord : BitVec 256 := 0
  /-- Receipts of the last 256 sealed steps, newest first (R251). -/
  receipts : List (BitVec 64 × Bytes) := []
  /-- Phase details of the last 256 sealed steps (Table 17-8), newest first. -/
  details : List (BitVec 64 × Bytes) := []
  fillLast : Nat := 0
  fillLastTime : BitVec 64 := 0
  drainLast : Nat := 0
  drainLastTime : BitVec 64 := 0
  reduceLast : BitVec 16 := 0
  reduceLastTime : BitVec 64 := 0
  voteLast : BitVec 16 := 0
  voteLastTime : BitVec 64 := 0
  deriving DecidableEq, Repr

/-- Generations and pages (R24, R50, R195 to R198, R364, R366). Page keys name logical tiles, whose slabs are those of
the physical tiles they lie on: 1024 * logical tile + page. -/
structure Pages where
  primary : CommitRec := {}
  second : CommitRec := {}
  primaryTile : Nat := 2304
  secondTile : Nat := 2351
  /-- Page-table entries (Table 8-6): key 1024 * logical tile + logical shard page. -/
  table : SMap (BitVec 64) := []
  /-- Pages marked lost (R349): 1024 * logical tile + page of its slab. -/
  lost : List Nat := []
  /-- Base list (R364): logical page key to physical page, for pages no slot holds. -/
  base : SMap Nat := []
  /-- Pages of refresh generation s that the commit of step s + 1 moved, until SEAL makes them the base. -/
  nextBase : SMap Nat := []
  /-- Population counts that MASK_COMMIT has recorded for the masks of the committed generation, and of C + 1 (R152): key
  2^32 * logical tile + offset of the mask. -/
  counts : SMap Nat := []
  nextCounts : SMap Nat := []
  /-- Pages that the commit of the step in progress has superseded, until its SEAL: the generation of the last sealed step (R18). -/
  prior : SMap Nat := []
  /-- Pages of the running export not yet sent (logical page keys) (R366). -/
  owed : List Nat := []
  /-- Staging places taken: logical page keys. -/
  placed : List Nat := []
  /-- Staging list: logical page key and its physical page. -/
  staged : List (Nat × Nat) := []
  deriving DecidableEq, Repr

/-- The restore bundle kept with the base (Table 16-4). -/
structure Bundle where
  step : BitVec 64
  lossScale : BitVec 64
  optCount : BitVec 64
  seeds : BitVec 256
  optGroups : SMap (BitVec 256)
  windows : SMap (BitVec 16)
  peerTable : List (BitVec 32)
  groups : List Group
  runObjects : SMap SyncObj
  gen : Digest
  deriving DecidableEq, Repr

/-- An export in progress (R367). -/
structure Export where
  req : ExportReq
  owed : Owed
  image : Bytes
  /-- Byte ranges of the image read so far: offset and length. -/
  ranges : List (Nat × Nat) := []
  deriving DecidableEq, Repr

/-- A restore in progress (R378). `source` is 0 or 2; source 1 completes at once. -/
structure Restore where
  source : Nat
  req : RestoreReq
  owed : Owed
  /-- The image read so far (source 0). -/
  image : Bytes := []
  deriving DecidableEq, Repr

/-- A page wanted from the group: its key, the physical page it was lost from (none in a dark field or a restore), and the low bits
of the step whose generation it belongs to. -/
structure Wanted where
  key : Nat
  lostFrom : Option Nat
  step : BitVec 32
  deriving DecidableEq, Repr

/-- A unit or parity page gathered for a rebuild: key and generation of the page wanted, role, sender, index, bytes. -/
structure Gathered where
  key : Nat
  step : BitVec 32
  role : Nat
  sender : Nat
  index : Nat
  bytes : Bytes
  deriving DecidableEq, Repr

/-- Parity, export and restore state (chapter 16). Keys of pages: 1024 * logical tile + logical shard page; parity page q of
a slice of L pages has key 1024 * logical tile + q in the parity sets, and the page L + q in a rebuild. -/
structure Survival where
  config : Option ParityCfg := none
  joins : List JoinMsg := []
  formed : Bool := false
  correlated : Bool := false
  /-- The refresh in progress: low bits of its step. -/
  refresh : Option (BitVec 32) := none
  /-- PARITY_READY held: member and step. -/
  ready : List (Nat × BitVec 32) := []
  /-- Members whose PARITY_DONE for the refresh in progress is held, this module included. -/
  doneBy : List Nat := []
  /-- PARITY_DONE held for a refresh that this module has not begun: member and step. -/
  doneEarly : List (Nat × BitVec 32) := []
  readyStep : BitVec 32 := 0xFFFFFFFF
  parityStep : BitVec 32 := 0xFFFFFFFF
  /-- Units received into the inactive set: (parity page key, member, unit). -/
  units : List (Nat × Nat × Nat) := []
  inactive : SMap Bytes := []
  activeSet : SMap Bytes := []
  rollback : Bool := false
  exporting : Option Export := none
  restoring : Option Restore := none
  bundle : Option Bundle := none
  /-- Bundle of the refresh generation that may become the base at the next SEAL. -/
  nextBundle : Option Bundle := none
  /-- Pages wanted from the group. -/
  wanted : List Wanted := []
  gathered : List Gathered := []
  /-- Pages rebuilt for an image: of a dark field or a restore. -/
  rebuilt : SMap Bytes := []
  deriving DecidableEq, Repr

/-- A peer's measured offset (R384): best round trip and offset so far; `absent` after 1 ms without answer. -/
structure PeerOffset where
  peer : BitVec 16
  sentIndex : Nat := 0
  /-- Exchanges under way: probe ID and index. -/
  probes : List (BitVec 32 × Nat) := []
  best : Option (Int × Int) := none
  absent : Bool := false
  deriving DecidableEq, Repr

/-- A replay capture (Table 17-9) as its sections. -/
structure Capture where
  step : BitVec 64
  attempt : Nat
  outcome : Nat
  cause : Code
  /-- Capture slot 0 or 1. -/
  slot : Nat
  image : Bytes
  deriving DecidableEq, Repr

/-- Trace, time and capture (chapter 17). Ring key: physical tile, or 2688 for the module ring. -/
structure Trace where
  config : Option TraceCfg := none
  armed : Bool := false
  fired : Option (BitVec 64 × BitVec 12) := none
  rings : SMap Ring := []
  offsets : List PeerOffset := []
  offsetsTime : BitVec 64 := 0
  tsRef : BitVec 64 := 0
  ptpSeconds : BitVec 48 := 0
  ptpNanoseconds : BitVec 32 := 0
  ptpRate : BitVec 32 := 0
  captures : List Capture := []
  /-- The fatal dump (R401): index, Kellet part and tile parts present. -/
  dumpIndex : Bytes := []
  dumpKellet : Bytes := []
  dumpTiles : SMap Bytes := []
  /-- The fatal area of module flash: index, Kellet part and sync dump (R401). -/
  flashDump : Option (Bytes × Bytes × Bytes) := none
  deriving DecidableEq, Repr

/-- One attempt in the warden's boot log (R408). -/
structure BootLog where
  time : BitVec 64
  status : Code
  stage : Nat
  port : Port
  deriving DecidableEq, Repr

/-- Boot, identity and provisioning (chapter 18). -/
structure Boot where
  /-- Stage of the attempt in progress; 0: none. -/
  stage : Nat := 0
  attempts : Nat := 0
  /-- The port the attempt fetches by (R407). -/
  port : Port := .service
  /-- The retry wait that runs, in seconds (R408). -/
  waiting : Option Nat := none
  /-- The retry wait after the next failure. -/
  wait : Nat := 1
  log : List BootLog := []
  /-- Log entries not yet raised to a controlling session. -/
  unraised : List BootLog := []
  header : Bytes := []
  body : Bytes := []
  /-- Latched firmware measurement (R405). -/
  measurement : Digest := 0
  /-- Record copies A and B in module flash (R413). -/
  copyA : Bytes := []
  copyB : Bytes := []
  /-- The record in force; empty when absent (R11). -/
  record : Bytes := []
  /-- Status codes of the boot queued for the first controlling session. -/
  queued : List Code := []
  floorVersion : BitVec 32 := 0
  floorRevoked : BitVec 4 := 0
  positionId : BitVec 16 := 0xFFFF
  firmwareRuns : Bool := false
  deriving DecidableEq, Repr

/-- Why the machine stops: for no reason. The manual gives every command and event of the module an effect, its status
codes included, and one whose operand names a unit that the module does not have reaches nothing (log entry 92). -/
inductive Fault where
  deriving DecidableEq, Repr

/-- Why a command has no meaning. -/
inductive Refusal where
  /-- Raised by an arm of `exec` that has no meaning yet. Safe. -/
  | notModelled (mnemonic : String)
  /-- Raised by a tile command whose descriptor the load rejects with this status (R100, R146, R163, R184, R192, R201,
  R210, R282): no program that holds it is ever started, so no tile issues it. Safe. -/
  | notLoadable (status : Code)
  deriving DecidableEq, Repr

/-- The whole machine. -/
structure State where
  /-- Commands waiting, first in, first out. -/
  pending : List Instr := []
  variant : Variant := .a
  /-- The 64-bit time-stamp counter of the warden domain (R328). -/
  now : BitVec 64 := 0
  /-- The model's own counter of free values drawn (`Config.draw`). -/
  draws : Nat := 0
  step : Step := {}
  /-- All tile-local memories (Table 2-7): key 2^40 * physical tile + tile-local address. -/
  mem : List Host.Cell := []
  /-- Check words of those memories, as what a stored word differs by from the CRC-10 of its line or the CRC-16 of its burst
  (R237, R238): key of a 32-byte line, or of a 64-byte burst of a slab. Zero: the check passes. -/
  checks : SMap (BitVec 16) := []
  /-- Tiles by physical index 48 py + px. -/
  tiles : SMap Tile := []
  sync : Sync := {}
  pbs : SMap PbState := []
  reduce : Reduce := {}
  links : SMap Link := []
  /-- Zlink messages sent, newest first, with the link they left by. -/
  zOut : List (Nat × ZMsg) := []
  /-- Rill messages sent by the Kellet complex and the port blocks, newest first. -/
  rillOut : List RillMsg := []
  /-- Messages in the Kellet mailboxes, oldest first (R68). -/
  mailboxes : List RillMsg := []
  host : HostSide := {}
  program : Option Program := none
  power : Power := {}
  seam : Seam := {}
  mesh : Mesh := {}
  rill : Rill := {}
  arbiter : Arbiter := {}
  repair : Repair := {}
  pages : Pages := {}
  survival : Survival := {}
  trace : Trace := {}
  boot : Boot := {}
  deriving DecidableEq, Repr

/-- Right after reset: the warden domain has no power, nothing is running, and module flash is as it left the factory. -/
def State.reset : State := {}

end Sys2Proof.Machine
end

