-- ==== Sys2Proof/Machine/Ops.lean ====
section
/-! DEFINITION. Sys2Proof/Machine/Ops.lean: sparse tables, bytes and bit fields, the tile-local memories, coordinates,
and the shared operations by which the module reports, sends and counts. -/

namespace Sys2Proof.Machine

/-! ### Sparse tables -/

/-- What key `k` reads as, `d` when it is not listed. -/
def smGet {α : Type} (d : α) : SMap α → Nat → α
  | [], _ => d
  | (a, v) :: r, k => if k = a then v else if k < a then d else smGet d r k

/-- The table with `v` at key `k`, in canonical form. -/
def smPut {α : Type} [DecidableEq α] (d : α) (k : Nat) (v : α) : SMap α → SMap α
  | [] => if v = d then [] else [(k, v)]
  | (a, w) :: r =>
    if k < a then (if v = d then (a, w) :: r else (k, v) :: (a, w) :: r)
    else if k = a then (if v = d then r else (k, v) :: r)
    else (a, w) :: smPut d k v r

/-- Apply `f` to what key `k` reads as. -/
def smUpd {α : Type} [DecidableEq α] (d : α) (k : Nat) (f : α → α) (m : SMap α) : SMap α :=
  smPut d k (f (smGet d m k)) m

/-- Canonical form: keys strictly rising from `lo`, no entry equal to the default. -/
def smWf {α : Type} [DecidableEq α] (d : α) : Nat → SMap α → Bool
  | _, [] => true
  | lo, (a, v) :: r => decide (lo ≤ a) && decide (v ≠ d) && smWf d (a + 1) r

/-! ### Bytes and bit fields (R12: little-endian, bit 0 least significant) -/

/-- Bits `hi` down to `lo` of a number. -/
def bitsOf (v hi lo : Nat) : Nat := (v >>> lo) % 2 ^ (hi + 1 - lo)

/-- Bit `i` of a number. -/
def bitOf (v i : Nat) : Bool := bitsOf v i i == 1

/-- The `n` low bytes of `v`, least significant first. -/
def leBytes : (n v : Nat) → Bytes
  | 0, _ => []
  | n + 1, v => BitVec.ofNat 8 v :: leBytes n (v / 256)

/-- The number whose little-endian bytes these are. -/
def ofLE : Bytes → Nat
  | [] => 0
  | b :: r => b.toNat + 256 * ofLE r

/-- The `n` bytes of `v`, most significant first: digests and CRCs in their standards' order. -/
def beBytes (n v : Nat) : Bytes := (leBytes n v).reverse

/-- The big-endian number of a list of bytes. -/
def ofBE (b : Bytes) : Nat := ofLE b.reverse

/-- `n` zero bytes. -/
def zeros (n : Nat) : Bytes := List.replicate n 0

/-- A byte string padded with zeros, or cut, to `n` bytes. -/
def fitTo (n : Nat) (b : Bytes) : Bytes := (b ++ zeros (n - b.length)).take n

/-- Bytes `off` to `off + n - 1` of a byte string, as a number. -/
def fieldAt (b : Bytes) (off n : Nat) : Nat := ofLE ((b.drop off).take n)

/-- 1 for true. -/
def b2n (b : Bool) : Nat := if b then 1 else 0

/-- `a` rounded up to a multiple of `k`. -/
def roundUp (a k : Nat) : Nat := (a + k - 1) / k * k

/-! ### Byte memories -/

/-- One byte of a memory: an address nothing has written reads as 0 (log entry 1). -/
def rdByte (m : List Host.Cell) (a : Nat) : Byte := smGet 0 m a

/-- Store one byte. -/
def wrByte (m : List Host.Cell) (a : Nat) (v : Byte) : List Host.Cell := smPut 0 a v m

/-- `n` bytes from address `a` upward. -/
def rdBytes (m : List Host.Cell) (a : Nat) : Nat → Bytes
  | 0 => []
  | n + 1 => rdByte m a :: rdBytes m (a + 1) n

/-- Store bytes from address `a` upward. -/
def wrBytes (m : List Host.Cell) (a : Nat) : Bytes → List Host.Cell
  | [] => m
  | b :: r => wrBytes (wrByte m a b) (a + 1) r

/-- The little-endian number of `n` bytes at `a`. -/
def rdLE (m : List Host.Cell) (a n : Nat) : Nat := ofLE (rdBytes m a n)

/-- Drop every byte of `[lo, hi)`: the contents of a store that loses power or is cleared. -/
def clearRange (m : List Host.Cell) (lo hi : Nat) : List Host.Cell :=
  m.filter (fun c => decide (c.1 < lo) || decide (hi ≤ c.1))

/-- The canonical form of a byte memory. -/
abbrev Memory.wf (m : List Host.Cell) : Bool := smWf (0 : Byte) 0 m

/-! ### Coordinates and repair (chapter 2) -/

/-- Number of logical tiles (Table 0-2). -/
def logicalTiles : Nat := 2352
/-- Number of physical tiles. -/
def physicalTiles : Nat := 2688
/-- Logical index of T(x, y). -/
def tileAt (x y : Nat) : Nat := 48 * y + x
/-- Column of a logical or physical index. -/
def colOf (i : Nat) : Nat := i % 48
/-- Row of a logical or physical index. -/
def rowOf (i : Nat) : Nat := i / 48
/-- Field index of a logical tile (Table 2-1). -/
def fieldOfLogical (t : Nat) : Nat := 8 * (rowOf t / 7) + colOf t / 6
/-- Field index of a physical tile (Table 2-1). -/
def fieldOfPhys (p : Nat) : Nat := 8 * (rowOf p / 8) + colOf p / 6
/-- Field-column index of a physical tile. -/
def fieldColOfPhys (p : Nat) : Nat := 6 * fieldOfPhys p + colOf p % 6
/-- Field-column index of a logical tile. -/
def fieldColOfLogical (t : Nat) : Nat := 6 * fieldOfLogical t + colOf t % 6
/-- The repair-map entry of a field column (Table 2-2). -/
def repairEntry (r : Repair) (k : Nat) : BitVec 4 := smGet 0xF r.repairMap k
/-- The field-map entry of a field (Table 2-4). -/
def fieldState (r : Repair) (i : Nat) : BitVec 2 := smGet 0 r.fieldMap i

/-- Physical index of a logical tile under the repair map (R36, R37). -/
def physOf (r : Repair) (t : Nat) : Nat :=
  let j := rowOf t % 7
  let d := (repairEntry r (fieldColOfLogical t)).toNat
  let row := if d ≤ 6 ∧ d ≤ j then j + 1 else j
  48 * (8 * (rowOf t / 7) + row) + colOf t

/-- How a tile's east or west port is set to reach logical tile `u` (R39): 0 the same physical row, 1 one row north, 2 one row
south. -/
def portSetting (r : Repair) (t u : Nat) : BitVec 2 :=
  let a := physOf r t / 48
  let b := physOf r u / 48
  if b < a then 1 else if a < b then 2 else 0

/-- The bypass links and port selections that the repair map calls for (R39). -/
def Repair.switched (r : Repair) : Repair :=
  { r with
    bypassed := (List.range 336).filterMap (fun k =>
      let d := (repairEntry r k).toNat
      if d ≤ 6 then some (48 * (8 * (k / 48) + d) + 6 * (k / 6 % 8) + k % 6) else none)
    ports := (List.range 2352).foldl (fun m t =>
      let m1 := if t % 48 = 47 then m else smPut 0 (2 * physOf r t) (portSetting r t (t + 1)) m
      if t % 48 = 0 then m1 else smPut 0 (2 * physOf r t + 1) (portSetting r t (t - 1)) m1) [] }

/-- Logical tile on a physical tile, none for a spare or a dead tile (R37). -/
def logicalOf (r : Repair) (p : Nat) : Option Nat :=
  let row := rowOf p % 8
  let d := (repairEntry r (fieldColOfPhys p)).toNat
  let j := if d ≤ 6 then (if row = d then none else if row < d then some row else some (row - 1))
           else (if row = 7 then none else some row)
  j.map (fun j => 48 * (7 * (rowOf p / 8) + j) + colOf p)

/-- Logical tiles whose field is in use. -/
def tilesInUse (r : Repair) : List Nat :=
  (List.range logicalTiles).filter (fun t => fieldState r (fieldOfLogical t) == 0)

/-- The field map as its 16-byte register (R42). -/
def fieldMapValue (r : Repair) : Nat :=
  (List.range 56).foldl (fun a i => a + (fieldState r i).toNat * 2 ^ (2 * i)) 0

/-- The repair map as its 168-byte register (R40). -/
def repairMapValue (r : Repair) : Nat :=
  (List.range 336).foldl (fun a k => a + (repairEntry r k).toNat * 2 ^ (4 * k)) 0

/-! ### Tiles and their memories (Table 2-7) -/

/-- Memory key of a tile-local address of a physical tile. -/
def memKey (p addr : Nat) : Nat := p * 2 ^ 40 + addr

def tileMemBytes : Nat := 0xF00000
def programBase : Nat := 0xF00000
def sieveBase : Nat := 0x1000000
def bufferBase : Nat := 0x1100000
def paletteBase : Nat := 0x1300000
def registerBase : Nat := 0x1400000
def loamBase : Nat := 0x4000000000
def pageBytes : Nat := 0x200000

/-- Pages of a slab: 256, or 512 on ZW1-B (R48). -/
def slabPages (v : Variant) : Nat := match v with | .b => 512 | _ => 256

/-- Whether a tile-local access of `n` bytes at `a` lies inside one range of Table 2-7. -/
def inMap (v : Variant) (a n : Nat) : Bool :=
  [(0, 0x1000000), (0x1000000, 0x1100000), (0x1100000, 0x1110000), (0x1200000, 0x1280000),
   (0x1300000, 0x1310000), (0x1400000, 0x1410000), (loamBase, loamBase + slabPages v * pageBytes)].any
    (fun r => decide (r.1 ≤ a) && decide (a + n ≤ r.2))

/-- Whether a program write of `n` bytes at `a` touches the program area or pages 0 to 10 (R55). -/
def isProtected (a n : Nat) : Bool :=
  (decide (a < 0x1000000) && decide (0xF00000 < a + n)) ||
  (decide (a < loamBase + 11 * pageBytes) && decide (loamBase < a + n))

/-- The tile record at a physical index. -/
def tileOf (s : State) (p : Nat) : Tile := smGet {} s.tiles p

/-- Replace the tile record at a physical index. -/
def State.setTile (s : State) (p : Nat) (t : Tile) : State := { s with tiles := smPut {} p t s.tiles }

/-- Update the tile record at a physical index. -/
def State.updTile (s : State) (p : Nat) (f : Tile → Tile) : State := s.setTile p (f (tileOf s p))

/-- Read bytes of a tile-local address. -/
def tileRead (s : State) (p a n : Nat) : Bytes := rdBytes s.mem (memKey p a) n

/-- The little-endian number at a tile-local address. -/
def tileNum (s : State) (p a n : Nat) : Nat := rdLE s.mem (memKey p a) n

/-- Bytes that one check word covers at a tile-local address: a burst of the slab, a line of the tile's other stores (Table
10-3). -/
def lineBytes (a : Nat) : Nat := if loamBase ≤ a then 64 else 32

/-- Check words after a write of the keys from `lo` below `hi`: every line written whole passes again. -/
def cureLines (m : SMap (BitVec 16)) (lo hi : Nat) : SMap (BitVec 16) :=
  m.filter (fun x => !(decide (lo ≤ x.1) && decide (x.1 + lineBytes (x.1 % 2 ^ 40) ≤ hi)))

/-- Write bytes at a tile-local address, with their check words. -/
def State.tileWrite (s : State) (p a : Nat) (b : Bytes) : State :=
  { s with
    mem := wrBytes s.mem (memKey p a) b
    checks := cureLines s.checks (memKey p a) (memKey p a + b.length) }

/-- Clear a range of a tile's memory to zero. -/
def State.tileClear (s : State) (p a n : Nat) : State :=
  { s with
    mem := clearRange s.mem (memKey p a) (memKey p (a + n))
    checks := cureLines s.checks (memKey p a) (memKey p (a + n)) }

/-! ### Port blocks, links, sync objects, regions -/

def pbOf (s : State) (n : Nat) : PbState := smGet {} s.pbs n
def State.setPb (s : State) (n : Nat) (p : PbState) : State := { s with pbs := smPut {} n p s.pbs }
def State.updPb (s : State) (n : Nat) (f : PbState → PbState) : State := s.setPb n (f (pbOf s n))

/-- A link; odd links of ZW1-C are ABSENT (R4, Table 11-8). -/
def linkOf (s : State) (n : Nat) : Link :=
  let l := smGet ({} : Link) s.links n
  if s.variant = .c ∧ n % 2 = 1 then { l with state := .absent } else l
def State.setLink (s : State) (n : Nat) (l : Link) : State := { s with links := smPut {} n l s.links }
def State.updLink (s : State) (n : Nat) (f : Link → Link) : State := s.setLink n (f (linkOf s n))

/-- Whether a link can carry traffic (R268). -/
def Link.carries (l : Link) : Bool := l.state = .up || l.state = .upSwap || l.state = .up3

def objOf (y : Sync) (i : Nat) : SyncObj := smGet {} y.objs i
def Sync.setObj (y : Sync) (i : Nat) (o : SyncObj) : Sync := { y with objs := smPut {} i o y.objs }

def regionOf (w : Power) (i : Nat) : Region := smGet {} w.regions i
def Power.updRegion (w : Power) (i : Nat) (f : Region → Region) : Power :=
  { w with regions := smPut {} i (f (regionOf w i)) w.regions }

/-- The loaded program, or an empty one. -/
def State.prog (s : State) : Program := s.program.getD {}
/-- The image of a logical tile. -/
def State.tileProg (s : State) (t : Nat) : TileProg := smGet {} s.prog.tiles t
/-- The image of a port block. -/
def State.pbProg (s : State) (n : Nat) : PbProg := smGet {} s.prog.pbs n

/-- Refire budget (R242): 0 selects 2. -/
def State.budget (s : State) : Nat := if s.prog.refireBudget = 0 then 2 else s.prog.refireBudget

/-! ### Phases and registers -/

def Phase.code : Phase → Nat
  | .idle => 0 | .opening => 1 | .fill => 2 | .drain => 3 | .reduce => 4 | .vote => 5 | .commit => 6 | .sealing => 7
  | .discarding => 8

/-- A step is in progress (R34). -/
def Step.inProgress (t : Step) : Bool := t.phase ≠ .idle

/-- The step status register (Table 1-4). -/
def Step.status (t : Step) : BitVec 32 := BitVec.ofNat 32 (t.phase.code + 16 * t.lastOutcome + 64 * b2n t.nfLocal +
  128 * b2n t.ovfBlock + 256 * b2n t.nfLoss + 512 * b2n t.voteSkip + 1024 * b2n t.earlyAborted +
  2048 * b2n t.recomputed + 4096 * b2n t.suspect + 8192 * b2n t.nfReceived + 65536 * t.slotsActive)

/-- The number of the step concerned, or of the expected next step (R315). -/
def Step.number (t : Step) : BitVec 64 := if t.inProgress then t.current.stepNumber else t.expected

/-- The slowest of a half's three requested ratios (R332). -/
def Power.askedWest (w : Power) : Nat := Nat.max w.hostWest (Nat.max w.limitWest w.thermWest)
def Power.askedEast (w : Power) : Nat := Nat.max w.hostEast (Nat.max w.limitEast w.thermEast)

/-- Effective ratio code of a half (R332): an IDLE module applies requests only when it wakes. -/
def Power.effWest (w : Power) : Nat := match w.held with | some x => x.1 | none => w.askedWest
def Power.effEast (w : Power) : Nat := match w.held with | some x => x.2 | none => w.askedEast

/-- The module's current step for step_low checks (R285). -/
def State.currentStep (s : State) : BitVec 64 :=
  if s.step.inProgress then (if s.reduce.voteSent && s.step.phase ≠ .discarding then s.step.current.stepNumber + 1
    else s.step.current.stepNumber) else s.step.expected

/-- bits [31:0] of a 64-bit number. -/
def low32 (v : BitVec 64) : BitVec 32 := BitVec.ofNat 32 v.toNat

/-- Command ID of an event that concerns no command (R313). -/
def noCmd : BitVec 64 := 0xFFFF000000000000

/-- A module-wide place (Table 13-9). -/
def moduleWide : Place := ⟨0xFFF, 0⟩

/-- Rill code of a port block (Table 3-8). -/
def pbCode (n : Nat) : BitVec 12 := BitVec.ofNat 12 (0xB00 + n)

/-! ### Regions (Table 14-9) -/

/-- Nominal VCORE of a region state, in mV (Table 14-1). -/
def nominalMv : RegionState → Nat
  | .active => 750
  | .retention => 500
  | _ => 0

/-- Put a region into a state; a broken region stays broken (R325). -/
def Region.enter (r : Region) (st : RegionState) : Region :=
  if r.state = .broken then r
  else { r with
         state := st
         vcore := nominalMv st
         vloam := if st = .active || st = .retention then 1100 else if st = .ramp then r.vloam else 0
         suspect := if st = .active then r.suspect else false
         railLow := if st = .active then r.railLow else false }

/-- Put every field region that is in state `a` into state `b`. -/
def Power.fieldRegions (w : Power) (a b : RegionState) : Power :=
  (List.range 56).foldl (fun w i => if (regionOf w i).state = a then w.updRegion i (·.enter b) else w) w

/-- Every region that a program needs becomes ACTIVE and the mesh runs (Tables 14-4, 14-10): fields in use and fields fenced
in state 0b01. Requests for clock ratios made while the module was IDLE take effect, and the seam follows them (R67, R332). -/
def State.activate (s : State) : State :=
  let w := (List.range 56).foldl (fun w i =>
    if fieldState s.repair i = 2 then w else w.updRegion i (·.enter .active)) s.power
  let w1 := { w with
    state := .active
    meshRun := true
    held := none }
  { s with
    power := w1
    seam := if w1.effWest ≠ w1.effEast then ⟨true, false⟩ else { s.seam with realigning := s.seam.awaited } }

/-- Work that needs the wafer wakes an IDLE module (R340). -/
def State.wake (s : State) : State := if s.power.state = .idle then s.activate else s

/-! ### Free values -/

/-- Draw one free value and advance the model's counter. -/
def State.draw (s : State) : BitVec 256 × State := (Config.draw s.draws, { s with draws := s.draws + 1 })

/-! ### Replies and messages -/

/-- Send a datagram to a host. -/
def State.sendHost (s : State) (m : HostMsg) : State := { s with host := { s.host with sent := m :: s.host.sent } }

/-- Send a Rill message. -/
def State.sendRill (s : State) (m : RillMsg) : State := { s with rillOut := m :: s.rillOut }

/-- Update the sessions whose ID is `id`. -/
def State.updSession (s : State) (id : Nat) (f : Session → Session) : State :=
  { s with host := { s.host with sessions := s.host.sessions.map (fun x => if x.id = id then f x else x) } }

def State.sessionOf (s : State) (id : Nat) : Option Session := s.host.sessions.find? (fun x => x.id = id)
def State.controller (s : State) : Option Session := s.host.sessions.find? (fun x => x.control)

end Sys2Proof.Machine
end

