-- ==== Sys2Proof/Machine/Hash.lean ====
section
/-! DEFINITION. Sys2Proof/Machine/Hash.lean: SHA-256 (FIPS 180-4), the CRCs the manual names, and GF(2^8). -/

namespace Sys2Proof.Machine

/-! ### SHA-256

The eight working words stand in one 256-bit register, word 0 uppermost, and the sixteen words of the message schedule that
are still needed in one of 512 bits. -/

/-- Round constants 16q to 16q + 15, in one number, the first uppermost. -/
def shaConstants : Nat → BitVec 512
  | 0 => 0x428a2f9871374491b5c0fbcfe9b5dba53956c25b59f111f1923f82a4ab1c5ed5d807aa9812835b01243185be550c7dc372be5d7480deb1fe9bdc06a7c19bf174
  | 1 => 0xe49b69c1efbe47860fc19dc6240ca1cc2de92c6f4a7484aa5cb0a9dc76f988da983e5152a831c66db00327c8bf597fc7c6e00bf3d5a7914706ca635114292967
  | 2 => 0x27b70a852e1b21384d2c6dfc53380d13650a7354766a0abb81c2c92e92722c85a2bfe8a1a81a664bc24b8b70c76c51a3d192e819d6990624f40e3585106aa070
  | _ => 0x19a4c1161e376c082748774c34b0bcb5391c0cb34ed8aa4a5b9cca4f682e6ff3748f82ee78a5636f84c878148cc7020890befffaa4506cebbef9a3f7c67178f2

/-- Word `i` of a register of `n` words. -/
def shaWord {k : Nat} (n i : Nat) (x : BitVec k) : BitVec 32 := x.extractLsb' (32 * (n - 1 - i)) 32

/-- The hash value before the first block. -/
def shaStart : BitVec 256 := 0x6a09e667bb67ae853c6ef372a54ff53a510e527f9b05688c1f83d9ab5be0cd19

/-- Exclusive or of three rotations to the right. -/
def shaTurn (x : BitVec 32) (i j k : Nat) : BitVec 32 := x.rotateRight i ^^^ x.rotateRight j ^^^ x.rotateRight k

/-- Exclusive or of two rotations and a shift. -/
def shaDrop (x : BitVec 32) (i j k : Nat) : BitVec 32 := x.rotateRight i ^^^ x.rotateRight j ^^^ (x >>> k)

/-- Round `t`: the working words take in the schedule's first word, and the schedule gains the word that follows its last. -/
def shaRound (r : BitVec 256 × BitVec 512) (t : Nat) : BitVec 256 × BitVec 512 :=
  let x := fun i => shaWord 8 i r.1
  let m := fun i => shaWord 16 i r.2
  let pick := (x 5 &&& x 4) ||| (x 6 &&& ~~~ x 4)
  let most := (x 0 &&& (x 1 ||| x 2)) ||| (x 1 &&& x 2)
  let inward := m 0 + shaWord 16 (t % 16) (shaConstants (t / 16)) + x 7 + pick + shaTurn (x 4) 25 11 6
  let first := inward + most + shaTurn (x 0) 22 13 2
  let fifth := x 3 + inward
  let next := m 0 + m 9 + shaDrop (m 1) 18 7 3 + shaDrop (m 14) 19 17 10
  ((first ++ r.1.extractLsb' 160 96 ++ fifth ++ r.1.extractLsb' 32 96).setWidth 256, (r.2 <<< 32) ||| next.setWidth 512)

/-- The hash value after one 64-byte block, read as a big-endian number. -/
def shaBlock (h : BitVec 256) (block : BitVec 512) : BitVec 256 :=
  let r := ((List.range 64).foldl shaRound (h, block)).1
  (List.range 8).foldl (fun (a : BitVec 256) i => (a <<< 32) ||| (shaWord 8 i h + shaWord 8 i r).setWidth 256) 0

/-- The hash value after the next `n` blocks of a padded message. -/
def shaBlocks : (n : Nat) → BitVec 256 → Bytes → BitVec 256
  | 0, h, _ => h
  | n + 1, h, b => shaBlocks n (shaBlock h (BitVec.ofNat 512 (ofBE (b.take 64)))) (b.drop 64)

/-- SHA-256 of a byte string (FIPS 180-4): a one bit, zeros, and the length in bits fill the last block. -/
def sha256 (b : Bytes) : Digest :=
  let n := b.length / 64 + (if b.length % 64 < 56 then 1 else 2)
  shaBlocks n shaStart (fitTo (64 * n - 8) (b ++ [0x80]) ++ beBytes 8 (8 * b.length))

/-- The 32 bytes of a digest. -/
def digestBytes (d : Digest) : Bytes := beBytes 32 d.toNat

/-- HMAC with SHA-256 under a key of at most 64 bytes (RFC 2104). -/
def hmac (key message : Bytes) : Bytes :=
  let pad := fun (x : Byte) => (fitTo 64 key).map (· ^^^ x)
  digestBytes (sha256 (pad 0x5C ++ digestBytes (sha256 (pad 0x36 ++ message))))

/-- The first 64 bytes that HKDF-SHA-256 gives (RFC 5869). -/
def hkdf64 (salt secret info : Bytes) : Bytes :=
  let inner := hmac salt secret
  let front := hmac inner (info ++ [1])
  front ++ hmac inner (front ++ info ++ [2])

/-! ### CRCs -/

/-- One bit of a reflected CRC. -/
def crcStepR (poly c : Nat) : Nat := if c % 2 = 1 then (c / 2) ^^^ poly else c / 2

/-- Eight bits of a reflected CRC. -/
def crcByteR (poly c : Nat) (b : Byte) : Nat :=
  let x := c ^^^ b.toNat
  crcStepR poly (crcStepR poly (crcStepR poly (crcStepR poly (crcStepR poly (crcStepR poly (crcStepR poly (crcStepR poly x)))))))

/-- CRC-32C (Castagnoli). -/
def crc32c (b : Bytes) : BitVec 32 :=
  BitVec.ofNat 32 ((b.foldl (crcByteR 0x82F63B78) 0xFFFFFFFF) ^^^ 0xFFFFFFFF)

/-- One bit of a `w`-bit CRC fed most significant bit first. -/
def crcStep (w poly c : Nat) (bit : Nat) : Nat :=
  let top := (c / 2 ^ (w - 1)) % 2
  let c' := (c * 2) % 2 ^ w
  if (top + bit) % 2 = 1 then c' ^^^ poly else c'

/-- Eight bits of such a CRC. -/
def crcByte (w poly c : Nat) (b : Byte) : Nat :=
  [7, 6, 5, 4, 3, 2, 1, 0].foldl (fun c i => crcStep w poly c (bitsOf b.toNat i i)) c

/-- The low `n` bits of a number into such a CRC, the highest first. -/
def crcNum (w poly c n v : Nat) : Nat := (List.range n).foldl (fun c i => crcStep w poly c (bitsOf v (n - 1 - i) (n - 1 - i))) c

/-- A byte string into such a CRC: bytes in the order of their addresses, each from its highest bit (log entry 10). -/
def crcBytes (w poly c : Nat) (b : Bytes) : Nat := b.foldl (crcByte w poly) c

/-- CRC-10 of a 256-bit line of a tile's stores (Table 10-3). -/
def lineCrc (line : Bytes) : BitVec 16 := BitVec.ofNat 16 (crcBytes 10 0x233 0x3FF (fitTo 32 line))

/-- CRC-16 of a 64-byte Loam burst at an offset of the slab of a physical tile: its data, then the 36 address bits (R238). -/
def burstCrc (offset phys : Nat) (burst : Bytes) : BitVec 16 :=
  BitVec.ofNat 16 (crcNum 16 0x8BB7 (crcNum 16 0x8BB7 (crcBytes 16 0x8BB7 0 (fitTo 64 burst)) 24 (offset / 64)) 12 phys)

/-- CRC-12 of a mesh flit: payload, LAST and TAG (Table 3-1). -/
def flitCrc (payload : Bytes) (last : Bool) (tag : BitVec 16) : BitVec 12 :=
  BitVec.ofNat 12 (crcNum 12 0x80F (crcNum 12 0x80F (crcBytes 12 0x80F 0xFFF (fitTo 128 payload)) 1 (b2n last)) 16 tag.toNat)

/-- CRC-32 of a Zlink flit: polynomial 0x04C1_1DB7 as IEEE 802.3 uses it (R258). -/
def crc32 (b : Bytes) : BitVec 32 := BitVec.ofNat 32 ((b.foldl (crcByteR 0xEDB88320) 0xFFFFFFFF) ^^^ 0xFFFFFFFF)

/-- CRC-64 of ECMA-182 (R246): initial value 0, no reflection, no final inversion (log entry 10). -/
def crc64 (b : Bytes) : BitVec 64 := BitVec.ofNat 64 (b.foldl (crcByte 64 0x42F0E1EBA9EA3693) 0)

/-! ### GF(2^8) with x^8 + x^4 + x^3 + x^2 + 1 (R372) -/

/-- Multiply by 0x02. -/
def gfDouble (b : Byte) : Byte := if b.msb then (b <<< 1) ^^^ 0x1D else b <<< 1

/-- Multiply by 0x02^j. -/
def gfScale : (j : Nat) → Byte → Byte
  | 0, b => b
  | j + 1, b => gfScale j (gfDouble b)

/-- Product of two field elements. -/
def gfMul (a b : Byte) : Byte :=
  (List.range 8).foldl (fun acc i => if a.getLsbD i then acc ^^^ gfScale i b else acc) 0

/-- Inverse: the 254th power. -/
def gfInv (a : Byte) : Byte := (List.range 253).foldl (fun acc _ => gfMul acc a) a

/-- Byte-wise sum of two pages; the shorter counts as padded with zeros. -/
def xorBytes : Bytes → Bytes → Bytes
  | [], b => b
  | a, [] => a
  | x :: a, y :: b => (x ^^^ y) :: xorBytes a b

end Sys2Proof.Machine
end

