-- ==== Sys2Proof/Machine/Report.lean ====
section
/-! DEFINITION. Sys2Proof/Machine/Report.lean: how the module reports what happens: severities of status codes, events to
sessions, trace records, tile counters, phase timers, and the fault arbiter's latching of Step-fatal codes (chapters 13, 15
and 17). -/

namespace Sys2Proof.Machine

/-! ### Severities (R317, and the status tables of the chapters) -/

/-- Module-fatal codes (Table 14-13); 0x7006 only in the edge region. -/
def moduleFatalCodes : List Nat := [0x7005, 0x7009, 0x700C, 0x700E]

/-- Step-fatal codes whatever the circumstances. -/
def stepFatalCodes : List Nat :=
  [0x1012, 0x2104, 0x2106, 0x210A, 0x2203, 0x2303, 0x2304, 0x2305, 0x2306, 0x3004, 0x3010, 0x3011, 0x3101, 0x3102,
   0x3103] ++
  [0x3206, 0x3207, 0x4002, 0x4004, 0x4005, 0x4009, 0x400A, 0x5005, 0x5008, 0x5009, 0x5012, 0x5013] ++
  [0x6001, 0x6002, 0x6003, 0x6004, 0x6009, 0x7002, 0x7003, 0x7010, 0x9001, 0x9002, 0x9006, 0x9008, 0x9009]

/-- Recoverable codes whatever the circumstances. -/
def recoverableCodes : List Nat :=
  [0x2101, 0x2102, 0x2103, 0x2105, 0x2201, 0x2301, 0x2302, 0x3001, 0x3002, 0x3003, 0x3005, 0x3105, 0x4001, 0x4007] ++
  [0x5002, 0x5003, 0x5006, 0x5010, 0x5011, 0x6005, 0x7008, 0x700D, 0x9003, 0x9004, 0x9005]

/-- Notices. -/
def noticeCodes : List Nat :=
  [0x2107, 0x2108, 0x2307, 0x2308, 0x3201, 0x3204, 0x3205, 0x3208, 0x4006, 0x5001, 0x6006, 0x6007, 0x7001, 0x7004] ++
  [0x7007, 0x700A, 0x700B, 0x8001, 0x8002, 0x8003, 0x8004, 0x8005, 0x8006, 0x8008, 0x8009, 0x800A, 0x800B]

/-- Codes that are counted and raise no event (Tables 3-10, 11-15, 16-12, 18-9). -/
def countedOnlyCodes : List Nat := [0x4006, 0x5001, 0x3201, 0x800B]

/-- Region number of the edge and management region (R322). -/
def edgeRegion : Nat := 56

/-- Severity of a code (Table 13-10): 0 command status, 1 Notice, 2 Recoverable, 3 Step-fatal, 4 Module-fatal. `p` is the
sender for 0x4008 and `detail` the region for 0x7006. -/
def severityOf (inStep : Bool) (p : Place) (detail : Nat) (code : Code) : Nat :=
  let c := code.toNat
  if c = 0x5004 ∨ c = 0x5007 then (if inStep then 3 else 2)
  else if c = 0x4008 then (if p.site.toNat < 0xA80 then 3 else 2)
  else if c = 0x7006 then (if detail = edgeRegion then 4 else 3)
  else if moduleFatalCodes.contains c then 4
  else if stepFatalCodes.contains c then 3
  else if recoverableCodes.contains c then 2
  else if noticeCodes.contains c then 1
  else 0

/-! ### Trace (R386 to R391) -/

/-- Key of the module ring. -/
def moduleRing : Nat := 2688

/-- Records a ring holds: pages of 65,536, and 16,384 in the 512 KiB module ring (R386). -/
def ringCapacity (s : State) (k : Nat) : Nat :=
  if k = moduleRing then 16384
  else match logicalOf s.repair k with
    | some t => 65536 * (s.tileProg t).ringPages
    | none => 0

/-- The ring a site's records go to: a physical tile's own, every other site's the module ring. -/
def ringOfSite (site : BitVec 12) : Nat := if site.toNat < physicalTiles then site.toNat else moduleRing

def State.updTrace (s : State) (f : Trace → Trace) : State := { s with trace := f s.trace }

def ringAt (s : State) (k : Nat) : Ring := smGet {} s.trace.rings k
def State.setRing (s : State) (k : Nat) (r : Ring) : State :=
  { s with trace := { s.trace with rings := smPut {} k r s.trace.rings } }

/-- Count a record a frozen ring drops in its summary (R391). -/
def Ring.drop (r : Ring) (x : TraceRec) : Ring :=
  { r with
    dropped := min (r.dropped + 1) 0xFFFFFFFF
    dropKinds := r.dropKinds ||| ((1 : BitVec 16) <<< (x.kind.toNat % 16))
    dropTime := if r.dropped = 0 then x.time else r.dropTime
    dropStep := x.stepLow }

/-- Append a record to the general part, which wraps over its oldest (R390). -/
def Ring.append (cap : Nat) (r : Ring) (x : TraceRec) : Ring :=
  let g := r.general ++ [x]
  { r with general := g.drop (g.length - 15 * cap / 16) }

/-- A record reaches a ring of `cap` records: armed or capturing, the general part; once its post_count is written or it
is frozen, only KEEP records are kept, in the reserve, whose last slot is the summary (R390, R391). -/
def Ring.write (cap : Nat) (fired : Bool) (r : Ring) (x : TraceRec) : Ring :=
  if r.state = 0 then { r.append cap x with since := if fired then r.since + 1 else 0 }
  else if r.state = 1 ∧ r.postLeft ≠ 0 then { r.append cap x with postLeft := r.postLeft - 1 }
  else if x.keep ∧ r.reserve.length + 1 < cap / 16 then { r with reserve := r.reserve ++ [x] }
  else r.drop x

/-- Whether a record matches the armed trigger (Table 17-4). -/
def triggerMatches (c : TraceCfg) (x : TraceRec) : Bool :=
  match c.trigger.toNat with
  | 1 => x.kind = 4 && (BitVec.ofNat 16 x.data.toNat &&& c.statusMask) == (c.statusCode &&& c.statusMask)
  | 2 => (x.cid &&& c.cidMask) == (c.cid &&& c.cidMask)
  | 3 => x.kind = 6 && x.data.toNat % 16 == c.phase.toNat % 16 && x.stepLow == low32 c.stepNumber
  | _ => false

/-- A record comes to ring `k`: the kind mask admits it or it is a KEEP record, and the first one that matches fires the
trigger (R389, R390). -/
def State.traceTo (s : State) (k : Nat) (x : TraceRec) : State :=
  let mask := match s.trace.config with | some c => c.kindMask | none => 0
  let cap := ringCapacity s k
  if cap = 0 ∨ ¬ (x.keep ∨ mask.getLsbD x.kind.toNat) then s
  else
    let s1 := s.setRing k ((ringAt s k).write cap s.trace.fired.isSome x)
    match s.trace.config with
    | some c =>
      if s.trace.armed ∧ s.trace.fired = none ∧ triggerMatches c x then
        { s1 with trace := { s1.trace with fired := some (x.time, x.site) } }
      else s1
    | none => s1

/-- A site emits a record, which goes to its ring. -/
def State.trace1 (s : State) (x : TraceRec) : State := s.traceTo (ringOfSite x.site) x

/-- Build and emit a record of a kind at a site (Table 17-2). -/
def State.traceAt (s : State) (kind : Nat) (keep : Bool) (site : BitVec 12) (cid : BitVec 64) (data : Nat) : State :=
  s.trace1 ⟨s.now, cid, BitVec.ofNat 8 kind, keep, site, low32 s.step.number, BitVec.ofNat 64 data⟩

/-! ### Events (R315, R316) -/

/-- End a session: CLOSE with a reason, its queue pairs and its held events go (R309). -/
def State.closeSession (s : State) (id : Nat) (status : Code) : State :=
  { s with host := { s.host with
      sessions := s.host.sessions.filter (fun x => x.id ≠ id)
      queuePairs := s.host.queuePairs.filter (fun q => q.session ≠ id)
      sent := .close id status :: s.host.sent } }

/-- An event of a severity goes to one session: Notice and Recoverable events up to 4,096 held, beyond that counted; the
others into a reserve of 256, and when that is full the session closes (R316). -/
def State.eventTo (s : State) (id : Nat) (e : Event) : State :=
  match s.sessionOf id with
  | none => s
  | some x =>
    let never := decide (3 ≤ e.severity) || e.type = 2 || e.type = 3
    if never then
      if 256 ≤ x.reserved.length then s.closeSession id 0x100F
      else
        (s.updSession id (fun y => { y with eventSeq := y.eventSeq + 1, reserved := y.reserved ++ [(y.eventSeq + 1, e)] })
          ).sendHost (.event id (x.eventSeq + 1) e)
    else if 4096 ≤ x.unacked.length then s.updSession id (fun y => { y with lostEvents := y.lostEvents + 1 })
    else
      (s.updSession id (fun y => { y with eventSeq := y.eventSeq + 1, unacked := y.unacked ++ [(y.eventSeq + 1, e)] })
        ).sendHost (.event id (x.eventSeq + 1) e)

/-- An event goes to every session whose filter admits its severity, a receipt only to the controlling session (R315). -/
def State.sendEvent (s : State) (e : Event) : State :=
  (s.host.sessions.filter (fun x => if e.type = 3 then x.control else decide (x.filter ≤ e.severity))).foldl
    (fun s x => s.eventTo x.id e) s

/-- The event of Table 13-9 as it stands now. -/
def State.mkEvent (s : State) (type : Nat) (status : Code) (sev : Nat) (p : Place) (cid : BitVec 64) (detail : Nat)
    (detail2 : BitVec 64) : Event :=
  { type, status, severity := sev, step := s.step.number, site := p.site, block := p.block, phase := s.step.phase.code,
    detail := BitVec.ofNat 32 detail, detail2, time := s.now, cid }

/-! ### Tile counters (R393, R394) -/

/-- Count `n` events on a counter of a physical tile. -/
def State.count (s : State) (p idx n : Nat) : State :=
  s.updTile p (fun t => { t with
    counters := smUpd {} idx (fun c =>
      { c with live := c.live + BitVec.ofNat 64 n, total := c.total + BitVec.ofNat 64 n }) t.counters })

/-- A command starts on a unit: the live value becomes the shadow, tagged with the unit's previous command (R394). -/
def Counter.start (now : BitVec 64) (cid : BitVec 64) (c : Counter) : Counter :=
  { c with shadow := c.live, shadowId := c.runningId.getD noCmd, live := 0, runningId := some cid, startedAt := now }

/-- The counters attached to each unit (Table 17-6): engine, vector, DMA, sequencer. -/
def unitCounters : Nat → List Nat
  | 0 => [0, 1, 2, 3]
  | 1 => [4, 5]
  | 2 => [6, 7, 8, 9]
  | _ => [10, 11, 12, 13, 14, 15]

def State.startUnit (s : State) (p unit : Nat) (cid : BitVec 64) : State :=
  s.updTile p (fun t => { t with
    counters := (unitCounters unit).foldl (fun m i => smUpd {} i (Counter.start s.now cid) m) t.counters })

/-! ### Phases (R15, R16, R34) -/

/-- The phase timers' entry of a phase, 0 OPEN to 6 SEAL. -/
def Step.timer (t : Step) (i : Nat) : BitVec 64 × BitVec 64 := t.timers.getD i (0, 0)

def Step.setTimer (t : Step) (i : Nat) (v : BitVec 64 × BitVec 64) : Step :=
  { t with timers := (List.range 7).map (fun j => if j = i then v else t.timer j) }

/-- A phase begins: PHASE, its timer (as yet empty, so a phase that does not run has begin equal to end) and a PHASE
record. -/
def State.beginPhase (s : State) (ph : Phase) : State :=
  let i := ph.code - 1
  let t := { s.step with phase := ph }
  ({ s with step := if i < 7 then t.setTimer i (s.now, s.now) else t }).traceAt 6 false 0xF00 noCmd ph.code

/-- A phase ends. -/
def State.endPhase (s : State) (ph : Phase) : State :=
  let i := ph.code - 1
  { s with step := s.step.setTimer i ((s.step.timer i).1, s.now) }

/-- A phase ends that did not run, or not to its end, and is recorded as ending when it began (R16). -/
def State.voidPhase (s : State) (ph : Phase) : State :=
  let i := ph.code - 1
  { s with step := s.step.setTimer i ((s.step.timer i).1, (s.step.timer i).1) }

/-! ### The fault arbiter (R342, R345 rows 1 and 2) -/

/-- HALT goes to every tile that is not dark: one broadcast (R70, Table 3-8). -/
def haltMsg : RillMsg := ⟨0xFFF, 0xF00, false, 0x48, 0, []⟩

/-- A Step-fatal code reaches the arbiter. Before the commit point of a step the first one starts the discard; during a
discard it is secondary; after the commit point and between steps there is nothing to discard (R33, R342, Table 15-6). -/
def State.latch (s : State) (code : Code) (p : Place) : State :=
  let l : Latched := ⟨code, p, s.now⟩
  if s.step.phase = .discarding then
    { s with arbiter := { s.arbiter with latched := s.arbiter.latched ++ [l] } }
  else if s.step.inProgress ∧ ¬ s.step.committed then
    (({ s with
        arbiter := { s.arbiter with
          latched := [l], windowOpen := true, cause := none, repaired := false, fenced := false,
          pagesLost := false, takeover := false, released := false }
        step := { s.step with phase := .discarding } }).sendRill haltMsg).traceAt 6 false 0xF00 noCmd 8
  else s

/-- Rings freeze as though a trigger with post_count 0 had arrived (R391). -/
def State.freezeRings (s : State) : State :=
  s.updTrace (fun t => { t with
    armed := false
    rings := (t.rings.map (fun (r : Nat × Ring) => (r.1, { r.2 with state := 2 }))).filter (fun r => r.2 ≠ {}) })

/-- The start of the fatal path (R359, steps 1 and 2): HALT, and no further command; a second code is recorded
(R361). The STATUS event has been sent. -/
def State.startFatal (s : State) (code : Code) : State :=
  match s.arbiter.fatal with
  | some _ => { s with arbiter := { s.arbiter with secondFatal :=
      if s.arbiter.secondFatal = 0 then code else s.arbiter.secondFatal } }
  | none => ({ s with arbiter := { s.arbiter with fatal := some code, fatalTime := s.now, fatalPhase := s.step.phase } }
      ).freezeRings.sendRill haltMsg

/-- The physical tile a code marks as dying, added to the repairs of row 7 (R351). -/
def State.noteDeath (s : State) (code : Code) (p : Place) : State :=
  if (code = 0x4009 ∨ code = 0x400A) ∧ p.site.toNat < physicalTiles ∧
      ¬ (s.arbiter.deadTiles.contains p.site.toNat) then
    { s with arbiter := { s.arbiter with deadTiles := s.arbiter.deadTiles ++ [p.site.toNat] } }
  else s

/-- A status code is raised (R317): a STATUS record and a STATUS event by its severity, unless its code is counted only;
a Step-fatal code reaches the arbiter, a Module-fatal code starts the fatal path. -/
def State.raise (s : State) (code : Code) (p : Place) (cid : BitVec 64 := noCmd) (detail : Nat := 0)
    (detail2 : BitVec 64 := 0) : State :=
  let sev := severityOf s.step.inProgress p detail code
  if sev = 0 then s
  else
    let s1 := s.traceAt 4 (decide (2 ≤ sev)) p.site cid (code.toNat + 65536 * sev)
    let s2 := if countedOnlyCodes.contains code.toNat then s1
      else s1.sendEvent (s1.mkEvent 1 code sev p cid detail detail2)
    let s3 := s2.noteDeath code p
    if sev = 3 then s3.latch code p else if sev = 4 then s3.startFatal code else s3

/-- COMMAND_DONE of a long command (R311), sent at severity Notice (log entry 11) to the sessions whose filter admits it (R315). -/
def State.commandDone (s : State) (o : Owed) (status : Code) : State :=
  s.sendEvent (s.mkEvent 4 status 1 moduleWide o.cid 0 0)

end Sys2Proof.Machine
end

