-- ==== Sys2Proof/Machine/Rill.lean ====
section
/-! DEFINITION. Sys2Proof/Machine/Rill.lean: messages of the Rill (R68 to R70): their header word with its CRC-8, the routing tables
that the Kellet complex loads, and the return of what cannot be delivered. -/

namespace Sys2Proof.Machine

/-! ### Messages (Tables 3-8, 3-9) -/

/-- Bits [55:0] of a message's header. -/
def rillFields (m : RillMsg) : Nat :=
  m.dest.toNat + 2 ^ 12 * m.src.toNat + 2 ^ 24 * b2n m.cls + 2 ^ 25 * (m.payload.length % 8) + 2 ^ 28 * m.type.toNat +
    2 ^ 36 * m.tag.toNat

/-- CRC-8 of a message: bits [55:0] of its header and its payload (log entry 10). -/
def rillCrc (m : RillMsg) : Nat :=
  crcBytes 8 0x07 0 (leBytes 7 (rillFields m) ++ m.payload.flatMap (fun w => leBytes 8 w.toNat))

/-- The header word of a message. -/
def rillHeader (m : RillMsg) : BitVec 64 := BitVec.ofNat 64 (rillFields m + 2 ^ 56 * rillCrc m)

/-- TYPE values that Table 3-9 gives a meaning. -/
def rillTypes : List Nat := [0x01, 0x02, 0x10, 0x20, 0x30, 0x40, 0x41, 0x42, 0x48, 0x7F]

/-- DEST values that Table 3-8 gives a meaning. -/
def rillDest (d : Nat) : Bool :=
  decide (d < physicalTiles) || (decide (0xB00 ≤ d) && decide (d < 0xB18)) || (decide (0xF00 ≤ d) && decide (d < 0xF04)) ||
    d == 0xFFF

/-- A tile that the Rill does not reach: one of a dark field (R68). -/
def rillCut (r : Repair) (d : Nat) : Bool := decide (d < physicalTiles) && fieldState r (fieldOfPhys d) == 2

/-- Whether the Rill can deliver a message: a broadcast only from the Kellet complex. -/
def rillDelivers (r : Repair) (m : RillMsg) : Bool :=
  rillTypes.contains m.type.toNat && rillDest m.dest.toNat && !rillCut r m.dest.toNat &&
    (m.dest.toNat != 0xFFF || decide (0xF00 ≤ m.src.toNat))

/-- A message comes back to its sender as UNDELIVERABLE, from where it could not be delivered to (R68, R70; log entry 94). -/
def State.bounce (s : State) (m : RillMsg) : State :=
  s.sendRill ⟨m.src, m.dest, false, 0x7F, m.tag, [rillHeader m, 0x4008]⟩

/-- A message reaches its destination, or comes back. -/
def State.rillAt (s : State) (m : RillMsg) (f : State → State) : State :=
  if rillDelivers s.repair m then f s else s.bounce m

/-! ### Routing (R69) -/

/-- The fields through which no Rill traffic passes. -/
def darkFields (r : Repair) : List Nat := (List.range 56).filter (fun i => fieldState r i == 2)

/-- The nearest of `n` rows or columns to `from'` that satisfies `ok`, the lower first (log entry 94). -/
def nearest (n from' : Nat) (ok : Nat → Bool) : Option Nat :=
  ((List.range n).filter ok).foldl (fun best i => match best with
    | none => some i
    | some b => if max i from' - min i from' < max b from' - min b from' then some i else best) none

/-- One step from `a` towards `b`. -/
def stepTo (a b : Nat) : Nat := if a < b then a + 1 else a - 1

/-- The entry of a field's routing tables for a destination field: the field that the traffic enters next, x first, then y. Where the
next field is dark, through the nearest row, or column, in which it is not. -/
def rillNext (dark : List Nat) (at' to' : Nat) : Option Nat :=
  let x := at' % 8
  let y := at' / 8
  let open' (i : Nat) : Bool := !dark.contains i
  if at' = to' then none
  else if x ≠ to' % 8 then
    let nx := stepTo x (to' % 8)
    if open' (8 * y + nx) then some (8 * y + nx)
    else (nearest 7 y (fun r => open' (8 * r + nx))).map (fun r => 8 * stepTo y r + x)
  else
    let ny := stepTo y (to' / 8)
    if open' (8 * ny + x) then some (8 * ny + x)
    else (nearest 8 x (fun c => open' (8 * ny + c))).map (fun c => 8 * y + stepTo x c)

/-- The Kellet complex loads the routing tables for the fields as they are (R69). -/
def State.loadRill (s : State) : State := { s with rill := { s.rill with around := some (darkFields s.repair) } }

/-- The entry of the loaded tables. -/
def Rill.next (r : Rill) (at' to' : Nat) : Option Nat := (r.around.map (fun d => rillNext d at' to')).getD none

end Sys2Proof.Machine
end

