-- ==== Sys2Proof/Machine/Net.lean ====
section
/-! DEFINITION. Sys2Proof/Machine/Net.lean: what the Ethernet ports let through (R297, Table 13-2) and how Delit datagrams are
checked and put together into messages (R304, R306). -/

namespace Sys2Proof.Machine

/-- Whether a port takes a frame (R297): at most 9,216 bytes and one 802.1Q tag, no IP fragment and no TCP (log entry 113). -/
def netOk (n : Net) : Bool := decide (n.bytes ≤ 9216) && decide (n.tags ≤ 1) && !n.fragment && !n.tcp

/-- A Delit datagram is dropped and counted (R304). -/
def dropOne (s : State) : State := { s with host := { s.host with dropped := s.host.dropped + 1 } }

/-- The header fields of a message's datagrams that R304 checks before its session, and its place in the message. -/
def dgramSound (d : Dgram) (kind : BitVec 8) : Bool :=
  d.version == 1 && d.kind == kind && decide (d.length ≤ 1400) && d.reserved == 0 &&
    decide (1 ≤ d.fragCount) && decide (d.fragCount ≤ 255) && d.frags.all (fun i => decide (i < d.fragCount))

/-- Whether a datagram of a kind names a session that the module has: HELLO names none, and FINISH one whose handshake is open. -/
def State.knows (s : State) (kind : BitVec 8) (session : Nat) : Bool :=
  kind == 1 || (if kind = 4 then s.host.handshakes else s.host.sessions).any (fun x => x.id == session)

/-- A tag has failed: the session counts it (R306). -/
def State.tagFailed (s : State) (session : Nat) : State :=
  let f (x : Session) : Session := if x.id = session then { x with tagFail := x.tagFail + 1 } else x
  dropOne { s with host := { s.host with
    sessions := s.host.sessions.map f
    handshakes := s.host.handshakes.map f } }

/-- A tagged datagram of a session has come: its keepalive starts anew (R309). -/
def State.heard (s : State) (id : Nat) : State := s.updSession id (fun y => { y with lastHeard := s.now })

/-- The fragments of a message that have come, those of this datagram among them. -/
def State.fragmentsOf (s : State) (session seq : Nat) (d : Dgram) : List Nat :=
  (s.host.fragments.filter (fun x => x.1 == session && x.2.1 == seq)).flatMap (·.2.2) ++ d.frags

/-- Fragments come in: the message is whole, and its place is free again, or it waits for the others. -/
def State.gather (s : State) (session seq : Nat) (d : Dgram) : State × Bool :=
  let got := s.fragmentsOf session seq d
  let whole := (List.range d.fragCount).all got.contains
  let others := s.host.fragments.filter (fun x => !(x.1 == session && x.2.1 == seq))
  ({ s with host := { s.host with fragments := if whole then others else others ++ [(session, seq, got)] } }, whole)

/-- Datagrams of a message arrive: those that fail a check of R304 are dropped and counted, and `act` follows once the message
is whole. -/
def State.takeDgram (s : State) (session seq : Nat) (kind : BitVec 8) (d : Dgram) (act : State → State) : State :=
  if !netOk d.net then s
  else if !dgramSound d kind ∨ !s.knows kind session then dropOne s
  else if kind ≠ 1 ∧ !d.tagOk then s.tagFailed session
  else
    let r := (s.heard session).gather session seq d
    if r.2 then act r.1 else r.1

end Sys2Proof.Machine
end

