-- ==== Sys2Proof/Machine/Flags.lean ====
section
/-! DEFINITION. Sys2Proof/Machine/Flags.lean: the number formats of chapter 5, exact values, every rounding, and the
OVF, NAN, SAT and WRAP flags each operation sets. A finite value is an exact dyadic number. -/

namespace Sys2Proof.Machine

/-- The flags of a run or a vector command (R120). -/
structure Flags where
  ovf : Bool := false
  nan : Bool := false
  sat : Bool := false
  wrap : Bool := false
  deriving DecidableEq, Repr

def Flags.or (a b : Flags) : Flags := ⟨a.ovf || b.ovf, a.nan || b.nan, a.sat || b.sat, a.wrap || b.wrap⟩

/-- A number as arithmetic sees it: a NaN, an infinity, or ± m × 2^e exactly. -/
inductive Fp where
  | nan
  | inf (neg : Bool)
  | fin (neg : Bool) (m : Nat) (e : Int)
  deriving DecidableEq, Repr

namespace Fp
def zero : Fp := .fin false 0 0
def one : Fp := .fin false 1 0
def isNan : Fp → Bool | .nan => true | _ => false
def isInf : Fp → Bool | .inf _ => true | _ => false
def isFin : Fp → Bool | .fin .. => true | _ => false
def isZero : Fp → Bool | .fin _ m _ => m == 0 | _ => false
def isNeg : Fp → Bool | .nan => false | .inf n => n | .fin n _ _ => n
def neg : Fp → Fp | .nan => .nan | .inf n => .inf !n | .fin n m e => .fin (!n) m e
def abs : Fp → Fp | .nan => .nan | .inf _ => .inf false | .fin _ m e => .fin false m e
/-- An exact integer. -/
def ofInt (i : Int) : Fp := .fin (decide (i < 0)) i.natAbs 0
/-- Exact multiplication by 2^k. -/
def scale (k : Int) : Fp → Fp | .fin n m e => .fin n m (e + k) | x => x
end Fp

/-- floor(log2 v) of the non-zero magnitude m × 2^e. -/
def expoOf (m : Nat) (e : Int) : Int := (Nat.log2 m : Int) + e

/-- The magnitude m × 2^e as a whole number of units 2^q, truncated. -/
def truncUnits (m : Nat) (e q : Int) : Nat :=
  if q ≤ e then m * 2 ^ (e - q).toNat else m / 2 ^ (q - e).toNat

/-- The magnitude m × 2^e as a whole number of units 2^q, rounded to nearest, ties to even. -/
def roundUnits (m : Nat) (e q : Int) : Nat :=
  if q ≤ e then m * 2 ^ (e - q).toNat
  else
    let k := (q - e).toNat
    let d := m / 2 ^ k
    let r := m % 2 ^ k
    if 2 ^ k < 2 * r ∨ (2 ^ k = 2 * r ∧ d % 2 = 1) then d + 1 else d

/-- Signed whole number of units of 2^q in a finite value that is a multiple of it. -/
def signedUnits (neg : Bool) (u : Nat) : Int := if neg then -(u : Int) else (u : Int)

/-- Compare two non-NaN values: x < y. -/
def fpLt (x y : Fp) : Bool :=
  match x, y with
  | .nan, _ => false
  | _, .nan => false
  | .inf a, .inf b => a && !b
  | .inf a, _ => a
  | _, .inf b => !b
  | .fin n m e, .fin n' m' e' =>
    let q := min e e'
    decide (signedUnits n (truncUnits m e q) < signedUnits n' (truncUnits m' e' q))

/-! ### Formats (Table 5-1, Table 5-2) -/

/-- What the top exponent of a format means. -/
inductive Special where
  | ieee | e4m3 | none
  deriving DecidableEq, Repr

/-- A floating-point format: exponent bits, fraction bits, bias. -/
structure Fmt where
  eb : Nat
  fb : Nat
  bias : Nat
  special : Special
  deriving DecidableEq, Repr

def fp32 : Fmt := ⟨8, 23, 127, .ieee⟩
def bf16 : Fmt := ⟨8, 7, 127, .ieee⟩
def fp16 : Fmt := ⟨5, 10, 15, .ieee⟩
def e4m3 : Fmt := ⟨4, 3, 7, .e4m3⟩
def e5m2 : Fmt := ⟨5, 2, 15, .ieee⟩
def cellFmt : Fmt := ⟨8, 27, 127, .ieee⟩
def e3m2 : Fmt := ⟨3, 2, 3, .none⟩
def e2m3 : Fmt := ⟨2, 3, 1, .none⟩
def e2m1 : Fmt := ⟨2, 1, 1, .none⟩

/-- Width of a format in bits. -/
def Fmt.width (f : Fmt) : Nat := 1 + f.eb + f.fb

/-- The value of a bit pattern. -/
def Fmt.decode (f : Fmt) (v : Nat) : Fp :=
  let frac := v % 2 ^ f.fb
  let ex := (v / 2 ^ f.fb) % 2 ^ f.eb
  let neg := (v / 2 ^ (f.fb + f.eb)) % 2 == 1
  if f.special = .ieee ∧ ex = 2 ^ f.eb - 1 then (if frac = 0 then .inf neg else .nan)
  else if f.special = .e4m3 ∧ ex = 15 ∧ frac = 7 then .nan
  else if ex = 0 then .fin neg frac (1 - (f.bias : Int) - f.fb)
  else .fin neg (2 ^ f.fb + frac) ((ex : Int) - f.bias - f.fb)

/-- The canonical NaN (R114). -/
def Fmt.nanBits (f : Fmt) : Nat :=
  match f.special with
  | .ieee => (2 ^ f.eb - 1) * 2 ^ f.fb + 2 ^ (f.fb - 1)
  | _ => 2 ^ (f.eb + f.fb) - 1

/-- The pattern of an infinity of an IEEE-like format. -/
def Fmt.infBits (f : Fmt) (neg : Bool) : Nat := b2n neg * 2 ^ (f.eb + f.fb) + (2 ^ f.eb - 1) * 2 ^ f.fb

/-- Largest finite exponent of a format. -/
def Fmt.emax (f : Fmt) : Int := match f.special with
  | .ieee => (2 ^ f.eb : Int) - 2 - f.bias
  | _ => (2 ^ f.eb : Int) - 1 - f.bias

/-- Round a finite magnitude to the format with unbounded exponent: units and unit exponent (R117, R113). -/
def Fmt.roundMag (f : Fmt) (m : Nat) (e : Int) : Nat × Int :=
  let q := max (expoOf m e) (1 - (f.bias : Int)) - f.fb
  (roundUnits m e q, q)

/-- Whether a rounded magnitude exceeds the largest finite value. -/
def Fmt.tooBig (f : Fmt) (u : Nat) (q : Int) : Bool :=
  u ≠ 0 && (decide (f.emax < expoOf u q) ||
    (f.special = .e4m3 && decide (expoOf u q = 8) && decide (448 < truncUnits u q 0)))

/-- The pattern of a finite representable value. -/
def Fmt.pack (f : Fmt) (neg : Bool) (u : Nat) (q : Int) : Nat :=
  let sgn := b2n neg * 2 ^ (f.eb + f.fb)
  if u < 2 ^ f.fb then sgn + u
  else
    let x := expoOf u q
    sgn + (x + f.bias).toNat * 2 ^ f.fb + (truncUnits u q (x - f.fb) - 2 ^ f.fb)

/-- Convert an exact value into a format under R116 to R118 (Table 5-4): pattern and flags. -/
def Fmt.encode (f : Fmt) (x : Fp) : Nat × Flags :=
  match x with
  | .nan => (f.nanBits, { nan := true })
  | .inf n => if f.special = .ieee then (f.infBits n, {}) else (f.nanBits, { nan := true })
  | .fin n m e =>
    if m = 0 then (b2n n * 2 ^ (f.eb + f.fb), {})
    else
      let (u, q) := f.roundMag m e
      if f.tooBig u q then
        (if f.special = .ieee then (f.infBits n, { ovf := true }) else (f.nanBits, { ovf := true, nan := true }))
      else (f.pack n u q, {})

/-- Convert into a format and read the result back. -/
def Fmt.round (f : Fmt) (x : Fp) : Fp × Flags := let r := f.encode x; (f.decode r.1, r.2)

/-- Convert a value to an integer format of `w` bits (R118, Table 5-4): nearest even, saturating, NaN to 0. -/
def toIntSat (w : Nat) (x : Fp) : Int × Flags :=
  let hi : Int := 2 ^ (w - 1) - 1
  let lo : Int := -(2 ^ (w - 1))
  match x with
  | .nan => (0, { nan := true })
  | .inf n => (if n then lo else hi, { sat := true })
  | .fin n m e =>
    let v := signedUnits n (roundUnits m e 0)
    if hi < v then (hi, { sat := true }) else if v < lo then (lo, { sat := true }) else (v, {})

/-! ### Exact products and sums -/

/-- Exact product with the special cases of Table 5-3 (R109, R110). -/
def fpMulExact (a b : Fp) : Fp :=
  match a, b with
  | .nan, _ => .nan
  | _, .nan => .nan
  | .inf n, .inf n' => .inf (n != n')
  | .inf n, .fin n' m _ => if m = 0 then .nan else .inf (n != n')
  | .fin n m _, .inf n' => if m = 0 then .nan else .inf (n != n')
  | .fin n m e, .fin n' m' e' => .fin (n != n') (m * m') (e + e')

/-- A product of two array operands: as exact, but infinite at 2^128 or more (R111). -/
def arrayProduct (a b : Fp) : Fp × Flags :=
  match fpMulExact a b with
  | .nan => (.nan, { nan := true })
  | .fin n m e => if m ≠ 0 ∧ 128 ≤ expoOf m e then (.inf n, { ovf := true }) else (.fin n m e, {})
  | x => (x, {})

/-- Exact sum; a zero sum is −0 only when both operands are negative (R119). -/
def fpAddExact (a b : Fp) : Fp :=
  match a, b with
  | .nan, _ => .nan
  | _, .nan => .nan
  | .inf n, .inf n' => if n = n' then .inf n else .nan
  | .inf n, _ => .inf n
  | _, .inf n => .inf n
  | .fin n m e, .fin n' m' e' =>
    let q := min e e'
    let v := signedUnits n (truncUnits m e q) + signedUnits n' (truncUnits m' e' q)
    if v = 0 then .fin (n && n') 0 0 else .fin (decide (v < 0)) v.natAbs q

/-- The addition rule of R112 with `g` alignment bits and `r` kept fraction bits: (30, 27) for canvases and margins,
(26, 23) for Sieve cells (R138). A sum that is not zero and rounds to zero keeps its sign (log entry 119). -/
def alignedAdd (g r : Int) (x p : Fp) : Fp × Flags :=
  match x, p with
  | .nan, _ => (.nan, { nan := true })
  | _, .nan => (.nan, { nan := true })
  | .inf n, .inf n' => if n = n' then (.inf n, {}) else (.nan, { nan := true })
  | .inf n, _ => (.inf n, {})
  | _, .inf n => (.inf n, {})
  | .fin n m e, .fin n' m' e' =>
    let ex := if m = 0 then -126 else expoOf m e
    let ep := if m' = 0 then -126 else expoOf m' e'
    let q := max (max ex ep) (-126) - g
    let v := signedUnits n (truncUnits m e q) + signedUnits n' (truncUnits m' e' q)
    if v = 0 then (.fin (n && n') 0 0, {})
    else
      let f := max (expoOf v.natAbs q) (-126)
      let u := roundUnits v.natAbs q (f - r)
      if 128 ≤ expoOf u (f - r) then (.inf (decide (v < 0)), { ovf := true })
      else (.fin (decide (v < 0)) u (f - r), {})

/-- The canvas addition rule (R112). -/
def canvasAdd (x p : Fp) : Fp × Flags := alignedAdd 30 27 x p
/-- The Sieve addition rule (R138). -/
def sieveAdd (x p : Fp) : Fp × Flags := alignedAdd 26 23 x p
/-- Canvas addition without its flags: margin accumulators and totals set none (R120). -/
def marginAdd (x p : Fp) : Fp := (canvasAdd x p).1

/-- A cell's value from its pattern, and its pattern. -/
def cellVal (c : BitVec 36) : Fp := cellFmt.decode c.toNat
def cellBits (x : Fp) : BitVec 36 := BitVec.ofNat 36 (cellFmt.encode x).1

/-! ### Binary32 operations of the vector engine (R119, Table 8-2) -/

/-- Set OVF when finite operands gave an infinity and NAN when a NaN came out (R185). -/
def vecFlags (finiteIn : Bool) (x : Fp) : Flags :=
  { ovf := finiteIn && x.isInf, nan := x.isNan }

def vAdd (a b : Fp) : Fp := (fp32.round (fpAddExact a b)).1
def vMul (a b : Fp) : Fp := (fp32.round (fpMulExact a b)).1
def vFma (a b c : Fp) : Fp := (fp32.round (fpAddExact (fpMulExact a b) c)).1

/-- The exact quotient to far below any format's precision, with a sticky bit. -/
def divExact (a b : Fp) : Fp :=
  match a, b with
  | .nan, _ => .nan
  | _, .nan => .nan
  | .inf _, .inf _ => .nan
  | .inf n, .fin n' _ _ => .inf (n != n')
  | .fin n _ _, .inf n' => .fin (n != n') 0 0
  | .fin n m e, .fin n' m' e' =>
    if m' = 0 then (if m = 0 then .nan else .inf (n != n'))
    else if m = 0 then .fin (n != n') 0 0
    else
      let k : Nat := 64 + Nat.log2 m'
      let d := (m * 2 ^ k) / m'
      let r := (m * 2 ^ k) % m'
      .fin (n != n') (2 * d + (if r = 0 then 0 else 1)) (e - e' - (k : Int) - 1)

def vDiv (a b : Fp) : Fp := (fp32.round (divExact a b)).1

/-- Integer square root by bits, from bit `k` down. -/
def isqrt : (k n acc : Nat) → Nat
  | 0, n, acc => if (acc + 1) * (acc + 1) ≤ n then acc + 1 else acc
  | k + 1, n, acc => let t := acc + 2 ^ (k + 1); isqrt k n (if t * t ≤ n then t else acc)

/-- The square root with a sticky bit; negative non-zero gives NaN, √−0 is −0. -/
def sqrtExact (a : Fp) : Fp :=
  match a with
  | .nan => .nan
  | .inf n => if n then .nan else .inf false
  | .fin n m e =>
    if m = 0 then .fin n 0 0
    else if n then .nan
    else
      let k : Nat := 80 + (if (e % 2 = 0) then 0 else 1)
      let v := m * 2 ^ k
      let r := isqrt (Nat.log2 v / 2 + 1) v 0
      .fin false (2 * r + (if r * r = v then 0 else 1)) ((e - (k : Int)) / 2 - 1)

def vSqrt (a : Fp) : Fp := (fp32.round (sqrtExact a)).1

/-- Maximum under R115. -/
def vMax (a b : Fp) : Fp :=
  if a.isNan || b.isNan then .nan
  else if a.isZero && b.isZero then (if a.isNeg then b else a)
  else if fpLt a b then b else a

/-- Minimum under R115. -/
def vMin (a b : Fp) : Fp :=
  if a.isNan || b.isNan then .nan
  else if a.isZero && b.isZero then (if a.isNeg then a else b)
  else if fpLt b a then b else a

end Sys2Proof.Machine
end

