-- ==== Sys2Proof/Machine/Operands.lean ====
section
/-! DEFINITION. Sys2Proof/Machine/Operands.lean: stored element formats (Table 4-12, Table 4-5), reading and writing rows of
elements in tile-local memory, and adder trees. -/

namespace Sys2Proof.Machine

/-! ### Stored formats -/

/-- Bits of an element of a stored operand format (Table 4-12); 0 for a reserved code. -/
def elemBits : Nat → Nat
  | 0 | 1 => 16
  | 2 => 32
  | 3 | 4 | 5 | 7 | 8 | 12 => 8
  | 6 | 11 => 4
  | 9 | 10 => 6
  | _ => 0

/-- Two's complement value of the `w` low bits. -/
def signedOf (w v : Nat) : Int := if 2 ^ (w - 1) ≤ v % 2 ^ w then (v % 2 ^ w : Int) - 2 ^ w else (v % 2 ^ w : Int)

/-- Two's complement pattern of an integer in `w` bits. -/
def patternOf (w : Nat) (v : Int) : Nat := (v % (2 ^ w : Int)).toNat

/-- The floating-point format behind a stored format code or MX element code. -/
def elemFmt : Nat → Fmt
  | 0 => bf16 | 1 => fp16 | 2 => fp32 | 3 | 7 => e4m3 | 4 | 8 => e5m2 | 9 => e3m2 | 10 => e2m3 | _ => e2m1

/-- The value of an element (R103 to R107): integers exactly, MXINT8 with its factor 2^-6. -/
def elemVal (code v : Nat) : Fp :=
  match code with
  | 5 => .ofInt (signedOf 8 v)
  | 6 => .ofInt (signedOf 4 v)
  | 12 => (Fp.ofInt (signedOf 8 v)).scale (-6)
  | c => (elemFmt c).decode v

/-- Element `i` of a packed little-endian stream of `w`-bit elements. -/
def streamElem (stream w i : Nat) : Nat := (stream >>> (i * w)) % 2 ^ w

/-- Bytes of `n` elements of a stored format. -/
def rowBytes (code n : Nat) : Nat := (n * elemBits code + 7) / 8

/-- Element patterns `0` to `n - 1` at a tile-local address. -/
def readElems (s : State) (p addr code n : Nat) : List Nat :=
  let v := tileNum s p addr (rowBytes code n)
  (List.range n).map (streamElem v (elemBits code))

/-- The FP32 value at a tile-local address. -/
def readFp32 (s : State) (p addr : Nat) : Fp := fp32.decode (tileNum s p addr 4)

/-! ### Drain formats (Table 4-5) -/

/-- Bytes of an element of a drain format. -/
def drainBytes : Nat → Nat
  | 0 | 5 => 4 | 1 | 2 => 2 | _ => 1

/-- The floating-point format of a drain code. -/
def drainFmt : Nat → Fmt
  | 0 => fp32 | 1 => bf16 | 2 => fp16 | 3 => e4m3 | _ => e5m2

/-- A value rounded once into a drain format: its bytes and flags (R88, R118). -/
def drainElem (code : Nat) (x : Fp) : Bytes × Flags :=
  let r := (drainFmt code).encode x
  (leBytes (drainBytes code) r.1, r.2)

/-! ### Adder trees (R91, R182) -/

/-- One level of a tree: adjacent pairs; a lone last node passes unchanged. -/
def pairUp {α : Type} (f : α → α → α) : List α → List α
  | a :: b :: r => f a b :: pairUp f r
  | r => r

/-- `n` levels of a tree. -/
def treeLevels {α : Type} (f : α → α → α) : Nat → List α → List α
  | 0, l => l
  | n + 1, l => treeLevels f n (pairUp f l)

/-- The root of the tree over at most 256 lanes. -/
def treeRoot {α : Type} (f : α → α → α) (d : α) (l : List α) : α := (treeLevels f 8 l).headD d

/-- A node of a tree over lanes some of which are gated: an empty input passes the other (R91). -/
def gatedNode (a b : Option Fp) : Option Fp :=
  match a, b with
  | some x, some y => some (marginAdd x y)
  | some x, none => some x
  | none, y => y

/-- Sum of the values of the lanes in use under the canvas addition rule, lane by lane in its place in the tree (R91); flags of
margin sums are not reported (R120). -/
def marginTree (lanes : List Nat) (v : Nat → Fp) : Fp :=
  (treeRoot gatedNode none ((List.range (lanes.foldl Nat.max 0 + 1)).map (fun i =>
    if lanes.contains i then some (v i) else none))).getD .zero

/-- The same over values in lanes 0 upward. -/
def marginTreeOf (l : List Fp) : Fp := marginTree (List.range l.length) (fun i => l.getD i .zero)

/-- Running sum under the canvas addition rule, from the first element (R94). -/
def runningSum : List Fp → Fp
  | [] => .zero
  | a :: r => r.foldl marginAdd a

/-- Sign-extended 64-bit word of an integer. -/
def word64 (v : Int) : BitVec 64 := BitVec.ofInt 64 v

/-- A cell pattern as a 64-bit word (Table 4-10). -/
def cellWord (x : Fp) : BitVec 64 := BitVec.ofNat 64 (cellBits x).toNat

/-- The value of a 64-bit margin word in the floating-point modes. -/
def wordVal (w : BitVec 64) : Fp := cellVal (BitVec.ofNat 36 w.toNat)

/-- Add to both accumulators of a pair under the canvas addition rule. -/
def pairAdd (p : Pair) (c m : Fp) : Pair :=
  (cellWord (marginAdd (wordVal p.1) c), cellWord (marginAdd (wordVal p.2) m))

end Sys2Proof.Machine
end

