-- ==== Sys2Proof/Machine/Checks.lean ====
section
/-! DEFINITION. Sys2Proof/Machine/Checks.lean: the load checks of the tile command descriptors. Each answers the status with
which a program that holds the descriptor is rejected, or none. -/

namespace Sys2Proof.Machine

/-- The first rejection of a list of (condition, status) checks. -/
def firstFail : List (Bool × Code) → Option Code
  | [] => none
  | (b, c) :: r => if b then some c else firstFail r

/-- `n` bytes at `a` lie in the 15 MiB of tile memory. -/
def inTmem (a n : Nat) : Bool := decide (a + n ≤ tileMemBytes)

/-- `n` bytes at `a` lie in the transposing buffer. -/
def inTbuf (a n : Nat) : Bool := decide (bufferBase ≤ a) && decide (a + n ≤ bufferBase + 0x10000)

/-- Rows of `n` bytes, `k` of them a stride apart, lie in tile memory. -/
def rowsInTmem (a stride n k : Nat) : Bool := inTmem a ((k - 1) * stride + n)

/-- Rows of `n` bytes, `k` of them a stride apart, lie in tile memory or in the transposing buffer. -/
def operandInRange (a stride n k : Nat) : Bool := inTmem a ((k - 1) * stride + n) || inTbuf a ((k - 1) * stride + n)

/-! ### Dense products (R74, R77, R78, R90, R96, R98 to R100) -/

def isQuad (mode : Nat) : Bool := mode == 4 || mode == 5
def isIntMode (mode : Nat) : Bool := mode == 3 || mode == 5

/-- Elements of an operand. -/
def operandLanes (mode : Nat) : Nat := if isQuad mode then 256 else 128

/-- The array formats a mode allows (Table 4-1). -/
def arrayFormats : Nat → List Nat
  | 0 => [0, 1] | 1 => [2] | 2 | 4 => [3, 4] | 3 | 5 => [5] | _ => []

/-- The combinations of mode, expansion code and stored format of Table 4-2. -/
def expansionOk (mode code stored : Nat) : Bool :=
  match code with
  | 0 => (arrayFormats mode).contains stored || (isIntMode mode && stored == 6)
  | 1 => stored == 6 && [0, 2, 3, 4, 5].contains mode
  | 2 => (stored == 5 || stored == 6) && [0, 2, 4].contains mode
  | 3 => ([7, 8, 9, 10, 11].contains stored && [0, 2, 4].contains mode) || (stored == 12 && mode == 0)
  | _ => false

/-- Rejection of a DENSE_MM descriptor, or of MASKED_MM's use of one (`masked`: its own drain rules apply, R148). -/
def denseCheck (d : DenseDesc) (masked : Bool) : Option Code :=
  let mode := d.mode.toNat % 8
  let stored := d.aFormat.toNat % 16
  let code := (d.aFormat.toNat / 16) % 8
  let alt := decide (128 ≤ d.aFormat.toNat)
  let b := d.bFormat.toNat % 16
  let lanes := operandLanes mode
  let k := d.kCount.toNat
  let drain := d.control.getLsbD 2
  let scale := d.control.getLsbD 3
  let fmt := d.dFormat.toNat
  let limit := if isQuad mode then 64 else 128
  let bad : Code := if masked then 0x9007 else 0x100B
  let rows := if isQuad mode then 64 + d.mMinus1.toNat + 1 else d.mMinus1.toNat + 1
  let cols := (if isQuad mode then 2 else 1) * (d.nMinus1.toNat + 1)
  firstFail [
    (decide (8 ≤ d.mode.toNat) || decide (16 ≤ d.bFormat.toNat) || decide (32 ≤ d.control.toNat), 0x1003),
    (decide (6 ≤ mode), bad),
    (!expansionOk mode code stored, bad),
    (alt && (code == 0 || isIntMode mode), bad),
    (!(arrayFormats mode).contains b, bad),
    (decide (limit ≤ d.mMinus1.toNat) || decide (limit ≤ d.nMinus1.toNat), bad),
    (k == 0 || decide (1048576 < k), bad),
    (!isIntMode mode && d.control.getLsbD 4, bad),
    ([d.aBase, d.aStride, d.bBase, d.bStride].any (fun x => x.toNat % 32 != 0), bad),
    (!operandInRange d.aBase.toNat d.aStride.toNat (rowBytes stored lanes) k, bad),
    (!operandInRange d.bBase.toNat d.bStride.toNat (rowBytes b lanes) k, bad),
    (masked && !((mode == 0 || mode == 2) && code == 0 && d.mMinus1 == 127 && d.nMinus1 == 127), bad),
    (masked && (scale || (drain && !([0, 1, 2, 6].contains fmt))), bad),
    (masked && !inTmem d.auxBase.toNat 2048, bad),
    (code == 0 && !masked && d.auxBase != 0, bad),
    (code != 3 && d.auxStride != 0, bad),
    (code == 3 && k % 32 != 0, bad),
    (code == 1 && !inTmem d.auxBase.toNat (if mode == 0 then 32 else 16), bad),
    (code == 2 && !inTmem d.auxBase.toNat (8 * lanes), bad),
    (code == 3 && !rowsInTmem d.auxBase.toNat d.auxStride.toNat lanes (k / 32), bad),
    (!drain && (d.dFormat != 0 || d.dBase != 0 || d.dStride != 0 || d.sBase != 0 || d.cmplAddr != 0 || scale), bad),
    (drain && decide (6 < fmt), bad),
    (drain && (fmt == 5) != isIntMode mode, bad),
    (drain && fmt == 6 && isQuad mode, bad),
    (scale && (isIntMode mode || fmt == 6), bad),
    (!scale && d.sBase != 0, bad),
    (scale && !inTmem d.sBase.toNat (4 * lanes), bad),
    (drain && d.cmplAddr.toNat % 16 != 0, bad),
    (drain && !inTmem d.cmplAddr.toNat 16, bad),
    (drain && !masked && fmt != 6 &&
      !rowsInTmem d.dBase.toNat d.dStride.toNat (cols * drainBytes fmt) rows, bad)]

/-- Rejection of a CANVAS_SAVE (`save`) or CANVAS_RESTORE descriptor (R96): only its one address and CANVAS may be set. -/
def denseImageCheck (d : DenseDesc) (save : Bool) : Option Code :=
  let addr := if save then d.dBase.toNat else d.aBase.toNat
  firstFail [
    (decide (8 ≤ d.mode.toNat) || decide (16 ≤ d.bFormat.toNat) || decide (32 ≤ d.control.toNat), 0x1003),
    (d.mode != 0 || d.aFormat != 0 || d.bFormat != 0 || d.mMinus1 != 0 || d.nMinus1 != 0 || decide (2 ≤ d.control.toNat) ||
      d.kCount != 0 || d.aStride != 0 || d.bBase != 0 || d.bStride != 0 || d.auxBase != 0 || d.auxStride != 0 ||
      d.dStride != 0 || d.sBase != 0 || d.cmplAddr != 0 || d.dFormat != 0 ||
      (if save then d.aBase != 0 else d.dBase != 0), 0x100B),
    (addr % 256 != 0, 0x100B),
    (!inTmem addr 139328, 0x100B)]

/-! ### Sparse, plate and mask commands (R135, R142, R145 to R152) -/

/-- Rejection of a SPARSE_MM descriptor (Tables 6-6 and 6-7). -/
def sparseCheck (d : SparseDesc) : Option Code :=
  let halves := d.control.getLsbD 4
  let drain := d.control.getLsbD 2
  let scale := d.control.getLsbD 3
  let fp8 := d.smode == 1
  let rows := d.plateRowsUsed.toNat
  let k := 128 * d.kPlates.toNat
  let fmt := d.dFormat.toNat
  firstFail [
    (decide (2 ≤ d.smode.toNat) || decide (16 ≤ d.bFormat.toNat) || decide (32 ≤ d.control.toNat), 0x1003),
    (!((if fp8 then [3, 4] else [0, 1]).contains d.bFormat.toNat), 0x9007),
    (decide (128 ≤ d.nMinus1.toNat), 0x9007),
    (rows == 0 || decide ((if halves then 8 else 16) < rows), 0x9007),
    (!halves && d.control.getLsbD 0, 0x9007),
    (d.kPlates == 0 || decide (8192 < d.kPlates.toNat), 0x9007),
    (decide (65535 < d.plateRow0.toNat + rows) || decide (65535 < d.plateCol0.toNat + d.kPlates.toNat), 0x9007),
    (d.bBase.toNat % 32 != 0 || d.bStride.toNat % 32 != 0 || d.stripScratch.toNat % 32 != 0, 0x9007),
    (!inTmem d.arrayDesc.toNat 64, 0x9007),
    (!operandInRange d.bBase.toNat d.bStride.toNat (rowBytes d.bFormat.toNat 128) k, 0x9007),
    (d.stripScratch != 0 && !inTmem d.stripScratch.toNat (16 * rows * 544), 0x9007),
    (!drain && (d.dBase != 0 || d.dStride != 0 || d.sBase != 0 || d.cmplAddr != 0 || d.dFormat != 0 || scale), 0x9007),
    (drain && decide (4 < fmt), 0x9007),
    (!scale && d.sBase != 0, 0x9007),
    (scale && !inTmem d.sBase.toNat (512 * rows), 0x9007),
    (drain && (d.cmplAddr.toNat % 16 != 0 || !inTmem d.cmplAddr.toNat 16), 0x9007),
    (drain && !rowsInTmem d.dBase.toNat d.dStride.toNat ((d.nMinus1.toNat + 1) * drainBytes fmt) (128 * rows), 0x9007)]

/-- A plate array descriptor can stand at an address: in tile memory or in a slab, of the largest variant (R127). -/
def arrayPlace (a : Nat) : Bool := inTmem a 64 || (decide (loamBase ≤ a) && decide (a + 64 ≤ loamBase + 512 * pageBytes))

/-- Rejection of a plate command (Table 6-5, R146). `op`: 0 store, 1 load, 2 transpose, 3 adopt. No array has a plate row or
column 65,535 (Table 6-4). PLATE_TRANSPOSE and PLATE_ADOPT do not use `dense_stride`, which is free there; a reserved `layout` is
rejected everywhere (log entry 107). -/
def plateCheck (op : Nat) (d : PlateDesc) : Option Code :=
  firstFail [
    (decide (2 ≤ d.layout.toNat), 0x1003),
    (op != 2 && (d.destDesc != 0 || d.destRow != 0 || d.destCol != 0), 0x9007),
    (op == 2 && d.denseAddr != 0, 0x9007),
    (decide (op ≤ 1) && (d.denseStride.toNat % 32 != 0 || decide (d.denseStride.toNat < 128)), 0x9007),
    (decide (op ≤ 1) && !rowsInTmem d.denseAddr.toNat d.denseStride.toNat 128 128, 0x9007),
    (op == 3 && !inTmem d.denseAddr.toNat 8, 0x9007),
    (!arrayPlace d.arrayDesc.toNat || (op == 2 && !arrayPlace d.destDesc.toNat), 0x9007),
    ([d.plateRow, d.plateCol, d.destRow, d.destCol].any (fun x => x == 65535), 0x9007)]

/-- Bytes of the value plate of a mask command. -/
def maskValueBytes (d : MaskDesc) : Nat := 16384 * elemBits ((d.policy.toNat / 2) % 16) / 8

/-- Positions of a block (Table 6-10). -/
def maskBlock (d : MaskDesc) : Nat := match d.block.toNat % 4 with | 0 => 16384 | 1 => 128 | _ => 32

/-- Rejection of a mask command (Table 6-10), but for what it names in the tile's slice, which the load knows. `op`: 0 PRUNE TOPK, 1
PRUNE THRESHOLD, 2 REGROW, 3 MASK_COMMIT. -/
def maskCheck (op : Nat) (d : MaskDesc) : Option Code :=
  let fmt := (d.policy.toNat / 2) % 16
  let counted := op == 0 || op == 2
  firstFail [
    (decide (4 ≤ d.block.toNat) || decide (32 ≤ d.policy.toNat), 0x1003),
    (d.block == 3, 0x9007),
    (d.policy.getLsbD 0 != (op == 1), 0x9007),
    (fmt != 0 && fmt != 2, 0x9007),
    (counted && decide (maskBlock d < d.count.toNat), 0x9007),
    (!counted && d.count != 0, 0x9007),
    (op != 1 && d.threshold != 0, 0x9007),
    (op != 3 && (d.m1Base != 0 || d.m2Base != 0), 0x9007),
    (op != 3 && !inTmem d.valuesBase.toNat (maskValueBytes d), 0x9007),
    (!inTmem d.pendingBase.toNat 2048, 0x9007)]

/-! ### TRANSPOSE and Strata commands (R155, R167 to R169; status 0x3104, R179) -/

/-- Bytes of a source element of TRANSPOSE and of its result element. -/
def transSizes (d : TransDesc) : Nat × Nat :=
  let s := elemBits (d.srcFormat.toNat % 16) / 8
  (s, if d.dest.getLsbD 3 then 2 else s)

/-- Rejection of a TRANSPOSE descriptor (Table 7-2). -/
def transCheck (d : TransDesc) : Option Code :=
  let fmt := d.srcFormat.toNat % 16
  let slot := d.dest.toNat % 4
  let mem := d.dest.getLsbD 2
  let wide := d.dest.getLsbD 3
  let sz := transSizes d
  let r := d.rowsMinus1.toNat + 1
  let c := d.colsMinus1.toNat + 1
  firstFail [
    (decide (16 ≤ d.srcFormat.toNat) || decide (16 ≤ d.dest.toNat), 0x1003),
    (decide (5 < fmt) || decide (128 < r) || decide (128 < c) || slot == 3, 0x3104),
    (wide && fmt != 3 && fmt != 4, 0x3104),
    ((slot == 2) != (sz.2 == 4), 0x3104),
    (d.srcStride.toNat % 32 != 0 || decide (d.srcStride.toNat < c * sz.1), 0x3104),
    (!rowsInTmem d.srcAddr.toNat d.srcStride.toNat (c * sz.1) r, 0x3104),
    (!mem && (d.dstAddr != 0 || d.dstStride != 0), 0x3104),
    (mem && (d.dstStride.toNat % 32 != 0 || decide (d.dstStride.toNat < r * sz.2)), 0x3104),
    (mem && !rowsInTmem d.dstAddr.toNat d.dstStride.toNat (r * sz.2) c, 0x3104)]

/-- Rejection of a STRATA_PUSH descriptor (Table 7-4, R167). -/
def pushCheck (d : PushDesc) : Option Code :=
  let via := d.flags.getLsbD 0
  firstFail [
    (decide (2 ≤ d.flags.toNat), 0x1003),
    (d.unitBytes.toNat % 32 != 0 || d.fixedBytes.toNat % 32 != 0, 0x3104),
    (!via && (d.elemFormat != 0 || d.srcStride != 0), 0x3104),
    (via && (decide (5 < d.elemFormat.toNat) || d.fixedBytes != 0 ||
      d.unitBytes.toNat != 16384 * (elemBits d.elemFormat.toNat / 8)), 0x3104),
    (!inTmem d.srcAddr.toNat (max 1 d.fixedBytes.toNat), 0x3104)]

/-- Rejection of a STRATA_POP descriptor (Table 7-5). -/
def popCheck (d : PopDesc) : Option Code := firstFail [(!inTmem d.dstAddr.toNat 1, 0x3104)]

/-- Rejection of a STRATA_LAYER descriptor (Table 7-6, R169). -/
def layerCheck (isDrain : Bool) (d : LayerDesc) : Option Code :=
  firstFail [
    (d.ckUnitBytes.toNat % 32 != 0 || d.ckFixedBytes.toNat % 32 != 0, 0x3104),
    (!isDrain && (d.recomputeFirst != 0 || d.recomputeCount != 0), 0x3104),
    (!inTmem d.ckAddr.toNat (max 1 d.ckFixedBytes.toNat), 0x3104)]

/-! ### Vector engine (R181, R184, R189, R190, R201, R210) -/

/-- Bytes of an element of a vector format: Table 4-12, and INT32 as 0xF; 0 for a reserved code. -/
def vecBytes (f : Nat) : Nat := match f with
  | 0 | 1 => 2 | 2 | 15 => 4 | 3 | 4 | 5 => 1 | _ => 0

/-- Sources an operation reads (Table 8-2). -/
def vecArity (op : Nat) : Nat := match op with
  | 3 | 0x0B => 3
  | 0 | 1 | 2 | 4 | 5 | 8 | 0x0C | 0x11 => 2
  | _ => 1

/-- SUM, MAXRED and SUMSQ. -/
def vecReduces (op : Nat) : Bool := decide (0x18 ≤ op)

/-- Format code of source `j` (0 to 2) or of the destination (3). -/
def vecFormat (d : VecDesc) (j : Nat) : Nat := bitsOf d.formats.toNat (4 * j + 3) (4 * j)

/-- Memory ranges of the sources an operation reads: address and bytes. -/
def vecSources (op : Nat) (d : VecDesc) : List (Nat × Nat) :=
  let n := d.count.toNat
  let one (a : BitVec 32) (j : Nat) : Nat × Nat := (a.toNat, n * vecBytes (vecFormat d j))
  [one d.src0 0] ++ (if 2 ≤ vecArity op ∧ ¬ d.flags.getLsbD 0 then [one d.src1 1] else []) ++
    (if vecArity op = 3 then [one d.src2 2] else [])

/-- Bytes an operation writes at its destination. -/
def vecDstBytes (op : Nat) (d : VecDesc) : Nat := if vecReduces op then 4 else d.count.toNat * vecBytes (vecFormat d 3)

/-- Two byte ranges share a byte. -/
def rangesMeet (a n b m : Nat) : Bool := decide (a < b + m) && decide (b < a + n) && decide (0 < n) && decide (0 < m)

/-- Rejection of a VEC_OP descriptor (Table 8-1, R181, R184). -/
def vecCheck (op : Nat) (d : VecDesc) : Option Code :=
  firstFail [
    (decide (32 ≤ d.flags.toNat), 0x1003),
    ([0, 1, 2, 3].any (fun j => vecBytes (vecFormat d j) == 0), 0x2202),
    (d.count == 0 || decide (16777216 < d.count.toNat), 0x2202),
    (decide (vecArity op < 3) && d.src2 != 0, 0x2202),
    (vecReduces op && vecFormat d 3 != 2, 0x2202),
    ((vecSources op d).any (fun r => !inTmem r.1 r.2), 0x2202),
    (!inTmem d.dst.toNat (vecDstBytes op d), 0x2202),
    ((vecSources op d).any (fun r => rangesMeet d.dst.toNat (vecDstBytes op d) r.1 r.2), 0x2202)]

/-- Rejection of a PALETTE_LOAD descriptor (R189). -/
def paletteCheck (d : PaletteDesc) : Option Code :=
  firstFail [(decide (8 ≤ d.pair.toNat), 0x1003), (!inTmem d.srcAddr.toNat 0x2000, 0x2202)]

/-- Rejection of a LOSS_REPORT descriptor (R190). -/
def lossCheck (d : LossDesc) : Option Code :=
  firstFail [(decide (16 ≤ d.slot.toNat), 0x1003), (!inTmem d.srcAddr.toNat 4, 0x2202)]

/-- Bytes of gradients an OPT_STEP reads (Table 8-8, R216). -/
def gradBytes (d : OptDesc) : Nat :=
  match d.gradFormat.toNat with
  | 0 => 4 * d.count.toNat | 0x10 => d.count.toNat / 256 * 3104 | _ => 2 * d.count.toNat

/-- Rejection of an OPT_STEP descriptor (Table 8-8, R201), but for its slice, which the load knows. -/
def optCheck (d : OptDesc) : Option Code :=
  firstFail [
    (decide (64 ≤ d.group.toNat), 0x2202),
    (!([0, 1, 2, 0x10].contains d.gradFormat.toNat), 0x2202),
    (d.count == 0 || d.count.toNat % 256 != 0 || decide (16777216 < d.count.toNat), 0x2202),
    (d.paramIndex.toNat % 256 != 0, 0x2202),
    (!inTmem d.gradAddr.toNat (gradBytes d), 0x2202)]

/-- Bytes of an element of RECV_ADD; 0 for a reserved format. -/
def recvBytes (f : Nat) : Nat := match f with | 0 | 15 => 4 | 1 | 2 => 2 | _ => 0

/-- Rejection of a RECV_ADD descriptor (Table 9-1), but for its bound flits, which the load knows. -/
def recvCheck (d : RecvDesc) : Option Code :=
  firstFail [
    (decide (2 ≤ d.flags.toNat), 0x1003),
    (recvBytes d.format.toNat == 0, 0x2309),
    (d.count == 0 || decide (16777216 < d.count.toNat), 0x2309),
    (d.dst.toNat % 32 != 0, 0x2309),
    (!inTmem d.dst.toNat (d.count.toNat * recvBytes d.format.toNat), 0x2309)]

/-! ### SYNC_SIGNAL and SYNC_WAIT (Table 12-4, R282) -/

/-- Whether an object of a sync table entry accepts an operation code (Table 12-3). -/
def kindAccepts (config : BitVec 64) (code : Nat) : Bool :=
  match config.toNat % 4, code with
  | 1, 1 | 3, 1 | 1, 3 | 3, 3 | 2, 2 | 2, 4 | 2, 5 => true
  | _, _ => false

/-- An operand without bits outside the range Table 12-3 gives the code. -/
def syncOperandOk (code : Nat) (operand : BitVec 64) : Bool :=
  if code = 1 ∨ code = 3 then decide (operand.toNat < 2 ^ 48) else operand == 0

/-- Rejection of a SYNC_SIGNAL (`signal`) or SYNC_WAIT descriptor; `entry` is the sync table entry of its object. -/
def syncCheck (signal : Bool) (entry : BitVec 64) (d : SyncDesc) : Option Code :=
  let code := d.op.toNat % 8
  let remote := d.destId != 0xFFFF
  firstFail [
    (d.op.toNat / 8 % 16 != 0 || decide (0x8000 ≤ d.syncId.toNat), 0x600A),
    (!((if signal then [1, 2] else [3, 4]).contains code), 0x600A),
    (!syncOperandOk code d.operand, 0x600A),
    (remote && (!signal || (d.channel != 1 && d.channel != 3) || decide (24 ≤ d.destPb.toNat)), 0x600A),
    (!remote && (d.destPb != 0 || d.channel != 0), 0x600A),
    (!remote && !kindAccepts entry code, 0x600A),
    (!remote && code == 1 && entry.toNat % 4 == 3 && decide (d.op.toNat < 128), 0x600A)]

end Sys2Proof.Machine
end

