-- ==== Sys2Proof/Machine/Records.lean ====
section
/-! DEFINITION. Sys2Proof/Machine/Records.lean: what the Kellet complex keeps in the slabs: the copies of the commit record and their
places (R50), the restore bundle (R51, R364), the record slabs and their records (R397), the tile parts of a fatal dump (R402), and
the bytes that a reader of a slab's pages 0 to 10 meets (R46, R47). -/

namespace Sys2Proof.Machine

/-! ### The commit record (R24, R50) -/

/-- A commit record of 128 bytes: step number, generation, and the generation digests (R24; log entry 112). -/
def CommitRec.bytes (c : CommitRec) : Bytes :=
  leBytes 8 c.step.toNat ++ leBytes 8 c.gen.toNat ++ digestBytes c.before ++ digestBytes c.after ++ zeros 48

/-- A commit record from its bytes. -/
def readRecord (b : Bytes) : CommitRec :=
  { step := BitVec.ofNat 64 (fieldAt b 0 8), gen := BitVec.ofNat 64 (fieldAt b 8 8)
    before := BitVec.ofNat 256 (ofBE ((b.drop 16).take 32)), after := BitVec.ofNat 256 (ofBE ((b.drop 48).take 32)) }

/-- Logical tiles of a row whose field is in use, west to east. -/
def rowInUse (r : Repair) (y : Nat) : List Nat :=
  ((List.range 48).map (fun x => tileAt x y)).filter (fun t => fieldState r (fieldOfLogical t) == 0)

/-- Logical rows from 48 northward. -/
def rowsNorth : List Nat := (List.range 49).map (48 - ·)

/-- Tiles of the primary and the second copy; none when no field is in use. -/
def recordPlaces (r : Repair) : Option (Nat × Nat) :=
  match rowsNorth.find? (fun y => !(rowInUse r y).isEmpty) with
  | none => none
  | some y0 =>
    let row := rowInUse r y0
    let p := row.headD 0
    let second := (rowsNorth.filter (fun y => decide (y ≤ y0))).findSome? (fun y =>
      ((rowInUse r y).filter (fun t => fieldOfLogical t != fieldOfLogical p)).getLast?)
    some (p, second.getD (row.getLastD p))

/-- Tile-local address of a byte of page 1. -/
def pageOne (off : Nat) : Nat := loamBase + pageBytes + off

/-- The copy on a logical tile passes its check: its field is not dark, and no burst of it fails. -/
def recordPasses (s : State) (t : Nat) : Bool :=
  fieldState s.repair (fieldOfLogical t) != 2 &&
    [0, 64].all (fun o => smGet 0 s.checks (memKey (physOf s.repair t) (pageOne o)) == 0)

/-- The record that the module trusts: the primary copy if it passes its check, and the second otherwise (R50). -/
def State.trusted (s : State) : CommitRec := if recordPasses s s.pages.primaryTile then s.pages.primary else s.pages.second

/-- The check words of both copies as a write of them leaves them. -/
def State.cureRecord (s : State) : State :=
  [s.pages.primaryTile, s.pages.secondTile].foldl (fun s t =>
    let k := memKey (physOf s.repair t) (pageOne 0)
    { s with checks := cureLines s.checks k (k + 128) }) s

/-- Both copies are written. -/
def State.writeRecord (s : State) (c : CommitRec) : State :=
  ({ s with pages := { s.pages with
      primary := c
      second := c } }).cureRecord

/-- The copies move to their places for the field map, with the values of the trusted copy (R50, R352). -/
def State.moveRecord (s : State) : State :=
  let c := s.trusted
  let s1 := match recordPlaces s.repair with
    | none => s
    | some x => { s with pages := { s.pages with
        primaryTile := x.1
        secondTile := x.2 } }
  s1.writeRecord c

/-! ### The restore bundle (R51, R364, Table 16-4) -/

/-- A member entry. -/
def memberBytes (m : Nat × Nat) : Bytes := leBytes 2 m.1 ++ leBytes 1 m.2 ++ zeros 1

/-- A group entry (Table 9-6), its member table's address in the Kellet image. -/
def groupBytes (i : Nat) (g : Group) : Bytes :=
  leBytes 2 g.members ++ leBytes 2 g.selfIndex ++ leBytes 1 (g.policy + 4 * b2n g.vote) ++ zeros 3 ++
    leBytes 4 g.deadlineUs ++ leBytes 1 g.retention ++ zeros 3 ++ leBytes 8 (0x41400 + 8192 * i) ++
    leBytes 8 g.retentionBase.toNat ++ leBytes 8 g.retentionBytes.toNat ++ zeros 24

def Bundle.bytes (b : Bundle) : Bytes :=
  leBytes 8 b.lossScale.toNat ++ leBytes 8 b.optCount.toNat ++ digestBytes b.seeds ++ zeros 16 ++
    (List.range 64).flatMap (fun i => leBytes 32 (smGet (0 : BitVec 256) b.optGroups i).toNat) ++
    (List.range 256).flatMap (fun i => leBytes 2 (smGet (0 : BitVec 16) b.windows i).toNat) ++
    b.peerTable.flatMap (fun e => leBytes 4 e.toNat) ++
    (List.range 16).flatMap (fun i => match b.groups[i]? with | some g => groupBytes i g | none => zeros 64) ++
    (List.range 16).flatMap (fun i => (List.range 2048).flatMap (fun m =>
      match (b.groups[i]?).bind (fun g => g.memberList[m]?) with | some x => memberBytes x | none => zeros 4)) ++
    leBytes 4 b.runObjects.length ++ zeros 12 ++
    b.runObjects.flatMap (fun x => leBytes 2 x.1 ++ zeros 6 ++ leBytes 8 x.2.state.toNat ++ leBytes 8 x.2.base.toNat)

/-! ### The record slabs (R397) -/

/-- The record slabs' tiles, slab 0 first. -/
def State.recordSlabs (s : State) : List Nat :=
  (rowsNorth.flatMap (rowInUse s.repair)).filter (fun t => t != s.pages.primaryTile && t != s.pages.secondTile)

/-- Bytes of a record slab's record area. -/
def recordAreaBytes : Nat := 1966080

/-- The record areas as far as the manual lays them out: first slab, slabs, record: the Kellet part of the fatal dump, the two
capture slots, the sync dump, the BATCH banks, the receipts with the phase details after them, and the Kellet image (log entry
112). -/
inductive RecordKind where
  | dump | capture (slot : Nat) | syncDump | batch (bank : Nat) | receipts | events | kellet
  deriving DecidableEq, Repr

/-- The record whose area slab `k` belongs to, and its first slab. -/
def recordKind (k : Nat) : Option (RecordKind × Nat) :=
  if k ≤ 4 then some (.dump, 0) else if k ≤ 7 then some (.capture 0, 5) else if k ≤ 10 then some (.capture 1, 8)
  else if k = 11 then some (.syncDump, 11) else if k ≤ 13 then some (.batch 0, 12) else if k ≤ 15 then some (.batch 1, 14)
  else if k = 16 then some (.receipts, 16) else if k ≤ 18 then some (.events, 17) else if k = 19 then some (.kellet, 19) else none

/-- Byte `o` of a record. -/
def State.recordByte (s : State) (r : RecordKind) (o : Nat) : Byte :=
  match r with
  | .dump => (s.trace.dumpIndex ++ s.trace.dumpKellet).getD o 0
  | .capture slot => (((s.trace.captures.find? (fun c => c.slot == slot)).map (·.image)).getD []).getD o 0
  | .syncDump => ((s.sync.dump.map (·.2)).getD []).getD o 0
  | .batch b => if o < 0x200000 then rdByte s.host.batch (0x200000 * b + o) else 0
  | .receipts =>
    if o < 0x100000 then (((s.step.receipts.reverse)[o / 4096]?.map (·.2)).getD []).getD (o % 4096) 0
    else (((s.step.details.reverse)[(o - 0x100000) / 64]?.map (·.2)).getD []).getD (o % 64) 0
  | .events => Config.dumpByte s.draws o
  | .kellet => rdByte s.host.kelletImage o

/-- Byte strings with bytes written over their own. -/
def patch (b : Bytes) (o : Nat) (v : Byte) : Bytes := b.set o v

/-- A maintenance write of one byte of a record; the held events, whose layout the manual does not give, are not reached. -/
def State.putRecordByte (s : State) (r : RecordKind) (o : Nat) (v : Byte) : State :=
  match r with
  | .dump => s.trace.dumpIndex.length |> fun n =>
    { s with trace := { s.trace with
        dumpIndex := patch s.trace.dumpIndex o v
        dumpKellet := if n ≤ o then patch s.trace.dumpKellet (o - n) v else s.trace.dumpKellet } }
  | .capture slot => { s with trace := { s.trace with
      captures := s.trace.captures.map (fun c => if c.slot = slot then { c with image := patch c.image o v } else c) } }
  | .syncDump => { s with sync := { s.sync with dump := s.sync.dump.map (fun d => (d.1, patch d.2 o v)) } }
  | .batch b => if o < 0x200000 then { s with host := { s.host with batch := wrByte s.host.batch (0x200000 * b + o) v } } else s
  | .receipts =>
    let put (l : List (BitVec 64 × Bytes)) (i at' : Nat) : List (BitVec 64 × Bytes) :=
      l.modify (l.length - 1 - i) (fun x => (x.1, patch x.2 at' v))
    if o < 0x100000 then
      if o / 4096 < s.step.receipts.length then
        { s with step := { s.step with receipts := put s.step.receipts (o / 4096) (o % 4096) } } else s
    else if (o - 0x100000) / 64 < s.step.details.length then
      { s with step := { s.step with details := put s.step.details ((o - 0x100000) / 64) (o % 64) } } else s
  | .events => s
  | .kellet => { s with host := { s.host with kelletImage := wrByte s.host.kelletImage o v } }

/-! ### Pages 0 to 10 of a slab (Tables 2-5, 2-9) -/

/-- Byte `o` of page 1 of a logical tile's slab, as what is kept there gives it; none where nothing is kept. -/
def State.pageOneByte (s : State) (t o : Nat) : Option Byte :=
  let held := decide (t = s.pages.primaryTile) || decide (t = s.pages.secondTile)
  let k := s.recordSlabs.findIdx (· == t)
  if o < 0x1000 then
    if t = s.pages.primaryTile then s.pages.primary.bytes[o]? else if t = s.pages.secondTile then s.pages.second.bytes[o]? else none
  else if o < 0x20000 then some (Config.dumpByte s.draws (pageOne o))
  else if held then ((s.survival.bundle.map Bundle.bytes).getD [])[o - 0x20000]?
  else (recordKind k).map (fun r => s.recordByte r.1 (recordAreaBytes * (k - r.2) + (o - 0x20000)))

/-- The byte at an offset of the slab of a physical tile: pages 0 and 1 and the dump area as what is kept there gives them, every
other byte as memory holds it. The places in page 0 of the slab header and the page table are not given: their bytes are free (log
entry 112). -/
def State.slabByte (s : State) (p o : Nat) : Byte :=
  let raw := rdByte s.mem (memKey p (loamBase + o))
  if o < pageBytes then Config.dumpByte s.draws (memKey p (loamBase + o))
  else if o < 2 * pageBytes then ((logicalOf s.repair p).bind (fun t => s.pageOneByte t (o - pageBytes))).getD raw
  else if o < 11 * pageBytes then ((smGet [] s.trace.dumpTiles p)[o - 2 * pageBytes]?).getD raw
  else raw

/-- Bytes of the tile registers, whose places the manual does not give (Table 2-7; log entry 112). -/
def registerBytes (s : State) (p a n : Nat) : Bytes := (List.range n).map (fun i => Config.dumpByte s.draws (memKey p (a + i)))

/-- Bytes of the kept pages from an offset of a slab. -/
def slabBytes (s : State) (p o n : Nat) : Bytes := (List.range n).map (fun i => s.slabByte p (o + i))

/-- A maintenance write of one byte at an offset of a slab: a copy of the commit record, a record, or memory. -/
def State.putSlabByte (s : State) (p o : Nat) (v : Byte) : State :=
  let s1 := s.tileWrite p (loamBase + o) [v]
  if o < pageBytes ∨ 2 * pageBytes ≤ o then s1
  else match logicalOf s.repair p with
    | none => s1
    | some t =>
      let a := o - pageBytes
      let k := s.recordSlabs.findIdx (· == t)
      if a < 128 ∧ t = s.pages.primaryTile then
        { s1 with pages := { s1.pages with primary := readRecord (patch s.pages.primary.bytes a v) } }
      else if a < 128 ∧ t = s.pages.secondTile then
        { s1 with pages := { s1.pages with second := readRecord (patch s.pages.second.bytes a v) } }
      else if 0x20000 ≤ a then match recordKind k with
        | some r => s1.putRecordByte r.1 (recordAreaBytes * (k - r.2) + (a - 0x20000)) v
        | none => s1
      else s1

/-- A maintenance write (R46, R55). -/
def State.maintStore (s : State) (p a : Nat) (b : Bytes) : State :=
  if loamBase ≤ a ∧ a < loamBase + 2 * pageBytes then
    (b.zipIdx.foldl (fun s x => s.putSlabByte p (a - loamBase + x.2) x.1) s).tileWrite p a b
  else s.tileWrite p a b

end Sys2Proof.Machine
end

