-- ==== Sys2Proof/Machine/Access.lean ====
section
/-! DEFINITION. Sys2Proof/Machine/Access.lean: what reads and writes of a tile's stores meet at run time: spans of bytes, check
words (R237, R238, R438), plate arrays, the transposing buffer's slots, canvas images and the DMA engine's window onto them, and
the faults of addresses (R54, R55, R96, R144, R154). -/

namespace Sys2Proof.Machine

/-! ### Spans -/

/-- Two address ranges share a byte. -/
def overlaps (a n b m : Nat) : Bool := decide (a < b + m) && decide (b < a + n) && decide (0 < n) && decide (0 < m)

/-- Bytes from the first row of a span to the end of its last. -/
def Span.extent (x : Span) : Nat := if x.rows = 0 then 0 else (x.rows - 1) * x.stride + x.bytes

/-- A row of a span shares a byte with a range. -/
def Span.meets (x : Span) (a n : Nat) : Bool :=
  overlaps x.addr x.extent a n && (List.range x.rows).any (fun k => overlaps (x.addr + k * x.stride) x.bytes a n)

/-- Two spans share a byte. -/
def Span.touches (x y : Span) : Bool :=
  overlaps x.addr x.extent y.addr y.extent && (List.range y.rows).any (fun k => x.meets (y.addr + k * y.stride) y.bytes)

/-! ### Check words (R237, R238, R438) -/

/-- The check word that the data of a line calls for. -/
def lineCheck (s : State) (p a : Nat) : BitVec 16 :=
  if loamBase ≤ a then burstCrc (a - loamBase) p (tileRead s p a 64) else lineCrc (tileRead s p a 32)

/-- The check word stored beside a line. -/
def storedCheck (s : State) (p a : Nat) : BitVec 16 := lineCheck s p a ^^^ smGet 0 s.checks (memKey p a)

/-- The status of a failed check of a line (Table 10-3). -/
def lineCode (a : Nat) : Code :=
  if loamBase ≤ a then 0x3002 else if a < sieveBase then 0x3001 else if a < bufferBase then 0x9005
  else if a < 0x1200000 then 0x3105 else if a < paletteBase then 0x3003 else 0x3005

/-- Lines of a tile whose stored check word is not the one that their data calls for, by tile-local address. -/
def failingLines (s : State) (p : Nat) : List Nat :=
  ((s.checks.filter (fun x => x.1 / 2 ^ 40 == p)).map (fun x => x.1 % 2 ^ 40)).filter (fun a =>
    storedCheck s p a != lineCheck s p a)

/-- The detections that reading spans of a tile's stores meets, one of each code. -/
def readDetections (s : State) (p : Nat) (reads : List Span) : List Code :=
  if s.checks.isEmpty then []
  else (((failingLines s p).filter (fun a => reads.any (fun x => x.meets a (lineBytes a)))).map lineCode).dedup

/-- Write bytes whose lines are given a check word that fails on purpose (R57). -/
def State.poisonWrite (s : State) (p a : Nat) (b : Bytes) : State :=
  let s1 := s.tileWrite p a b
  let first := memKey p a - memKey p a % lineBytes a
  let lines := (memKey p a + b.length - first + lineBytes a - 1) / lineBytes a
  { s1 with checks := (List.range lines).foldl (fun m i => smPut 0 (first + i * lineBytes a) 1 m) s1.checks }

/-! ### Plate arrays (R127, Table 6-4) -/

/-- A plate array descriptor as it stands in memory. -/
structure PlateArray where
  addr : Nat
  descTable : Nat
  slotBase : Nat
  spillBase : Nat
  spillMap : Nat
  slotBudget : Nat
  spillUnits : Nat
  plateRows : Nat
  plateCols : Nat
  elem : Nat
  heavy : Nat
  spillFree : Nat
  reserved : Nat
  deriving DecidableEq, Repr

/-- The plate array descriptor at a tile-local address. -/
def readArray (s : State) (p addr : Nat) : PlateArray :=
  let n (off len : Nat) : Nat := tileNum s p (addr + off) len
  { addr := addr, descTable := n 0 8, slotBase := n 8 8, spillBase := n 16 8, spillMap := n 24 8, slotBudget := n 32 4,
    spillUnits := n 36 4, plateRows := n 40 2, plateCols := n 42 2, elem := n 44 1, heavy := n 45 1, spillFree := n 48 4,
    reserved := n 46 2 + n 52 8 + n 60 4 }

/-- The parts of an array beside its descriptor: table, slots, spill pool, spill map (address, bytes). -/
def PlateArray.parts (a : PlateArray) : List (Nat × Nat) :=
  let plates := a.plateRows * a.plateCols
  [(a.descTable, 8 * plates), (a.slotBase, plates * a.slotBudget)] ++
    (if a.spillUnits = 0 then [] else [(a.spillBase, 1024 * a.spillUnits), (a.spillMap, (a.spillUnits + 7) / 8)])

/-- A write of `n` bytes at `a` falls into a plate array that an open sparse run of the tile reads (R144). -/
def hitsOpenArray (s : State) (p a n : Nat) : Bool :=
  let t := tileOf s p
  [t.sieve0, t.sieve1].any (fun r =>
    r.isOpen && r.arrays.any (fun d => (readArray s p d).parts.any (fun x => overlaps a n x.1 x.2)))

/-! ### The transposing buffer (R154, R158) -/

/-- Slots of the transposing buffer that `k` rows of `n` bytes from `a` touch: bit 0 slot 0, bit 1 slot 1. -/
def slotsTouched (a stride n k : Nat) : Nat :=
  let len := (k - 1) * stride + n
  b2n (overlaps a len bufferBase 0x8000) + 2 * b2n (overlaps a len (bufferBase + 0x8000) 0x8000)

/-- Slots that open runs of a tile read. -/
def openSlots (t : Tile) : Nat :=
  let f (o : Bool) (n : Nat) : Nat := if o then n else 0
  (f t.canvasA.run.isOpen t.canvasA.run.slots) ||| (f t.canvasB.run.isOpen t.canvasB.run.slots) |||
    (f t.sieve0.isOpen t.sieve0.slots) ||| (f t.sieve1.isOpen t.sieve1.slots)

/-- The slot a PLATE_TRANSPOSE or a STRATA_PUSH through the buffer chooses: the one other than the last written, slot 0 after
a command that wrote both or when none has written (R158). -/
def chooseSlot (t : Tile) : Nat := if t.lastSlot = some 0 then 1 else 0

/-- Write a result into a slot, or into both from slot 0 (2): every byte outside it is +0 (R155). -/
def State.writeSlot (s : State) (p slot : Nat) (b : Bytes) : State :=
  let base := if slot = 1 then bufferBase + 0x8000 else bufferBase
  let size := if slot = 2 then 0x10000 else 0x8000
  (s.tileClear p base size).tileWrite p base (b.take size)

/-! ### Canvas images (R96, Tables 4-10 and 4-11) -/

def pairOf (m : SMap Pair) (k : Nat) : Pair := smGet (0, 0) m k

/-- A margin cell of an image. -/
def pairBytes (m : SMap Pair) (k : Nat) : Bytes :=
  let a := pairOf m (2 * k)
  let b := pairOf m (2 * k + 1)
  leBytes 8 a.1.toNat ++ leBytes 8 a.2.toNat ++ leBytes 8 b.1.toNat ++ leBytes 8 b.2.toNat

/-- The run state of an image. -/
def runBytes (r : Run) : Bytes :=
  leBytes 8 r.openId.toNat ++ leBytes 4 r.kDone ++ leBytes 1 r.mode ++ leBytes 1 r.mMinus1 ++ leBytes 1 r.nMinus1 ++
    leBytes 1 (b2n r.ovf + 2 * b2n r.nan + 4 * b2n r.sat + 8 * b2n r.wrap + 16 * b2n r.isOpen + 32 * b2n r.intSat) ++
    zeros 16

/-- The full image of a canvas. -/
def canvasImage (c : Canvas) : Bytes :=
  let int := isIntMode c.run.mode
  ((List.range 16384).flatMap (fun k => leBytes 8 ((smGet (0 : BitVec 36) c.cells k).toNat +
      (if int && smGet false c.satd k then 2 ^ 36 else 0)))) ++
    ((List.range 128).flatMap (pairBytes c.marginRow)) ++ ((List.range 128).flatMap (pairBytes c.marginCol)) ++
    pairBytes c.corner 0 ++ runBytes c.run

/-- Bytes that the DMA engine reads at a tile-local address: the windows show the images of the canvases (R96), and pages 0 to 10 of
the slab what the Kellet complex keeps there (Table 2-5). -/
def dmaRead (s : State) (p a n : Nat) : Bytes :=
  if 0x1200000 ≤ a ∧ a < 0x1240000 then fitTo n ((canvasImage (tileOf s p).canvasA).drop (a - 0x1200000))
  else if 0x1240000 ≤ a ∧ a < 0x1280000 then fitTo n ((canvasImage (tileOf s p).canvasB).drop (a - 0x1240000))
  else if registerBase ≤ a ∧ a < loamBase then registerBytes s p a n
  else if loamBase ≤ a ∧ a < loamBase + 11 * pageBytes then slabBytes s p (a - loamBase) n
  else tileRead s p a n

/-! ### Run-time addresses (R54, R55, R96, R144, R154, R189) -/

/-- The fault of a program write of `n` bytes at `a`: outside the map, into the protected areas, or into a plate array that
an open sparse run reads. -/
def writeFault (s : State) (p a n : Nat) : Option Code :=
  if !inMap s.variant a n then some 0x3010
  else if isProtected a n then some 0x3011
  else if hitsOpenArray s p a n then some 0x9009
  else none

/-- Whether the DMA engine may store to a range: never to the Sieve, a slot, a canvas window, the palette area or the registers
(R137, R154, R96, R189). -/
def dmaWritable (a n : Nat) : Bool := decide (a + n ≤ sieveBase) || decide (loamBase ≤ a)

/-- The fault of a DMA store of `n` bytes at `a`; log entry 95 for a store into an area that only another unit writes. -/
def storeFault (s : State) (p a n : Nat) : Option Code :=
  match writeFault s p a n with
  | some c => some c
  | none => if dmaWritable a n then none else some 0x3011

/-- The fault of a program read of `n` bytes at `a`. -/
def readFault (s : State) (a n : Nat) : Option Code := if !inMap s.variant a n then some 0x3010 else none

/-- The first fault of a list. -/
def firstCode : List (Option Code) → Option Code
  | [] => none
  | some c :: _ => some c
  | none :: r => firstCode r

end Sys2Proof.Machine
end

