-- ==== Sys2Proof/Machine/Link.lean ====
section
/-! DEFINITION. Sys2Proof/Machine/Link.lean: the sending side of the Zlinks (R257 to R264, R268): flits and their CRC-32, the order in
which a sender chooses them, the replay buffer, credits and link records; and the progress of the privileged queues (R293). -/

namespace Sys2Proof.Machine

/-! ### Privileged queues (R293, Table 12-9) -/

def intakeQueue (pb : Nat) : Nat := pb
def kilnSendQueue (pb : Nat) : Nat := 24 + pb
def kilnAdderQueue (pb : Nat) : Nat := 48 + pb
def signalQueue (pb : Nat) : Nat := 72 + pb
def headEndQueue (obj : Nat) : Nat := 96 + obj % 4
def mailboxQueue : Nat := 100

/-- A privileged queue makes progress: the deadlock detector re-arms (R293, R294). -/
def State.progress (s : State) (q : Nat) : State :=
  { s with sync := { s.sync with
      armed := true
      progressAt := smPut 0 q s.now s.sync.progressAt } }

/-! ### Pairs (R268) -/

/-- The partner of a port block (R268). -/
def partnerOf (n : Nat) : Nat := if n % 2 = 0 then n + 1 else n - 1

/-- The link that carries a port block's traffic: its own, or its partner's under takeover and on odd ZW1-C blocks. -/
def linkFor (s : State) (pb : Nat) : Option Nat :=
  let l := linkOf s pb
  let q := linkOf s (partnerOf pb)
  if l.carries && !l.takenOver then some pb
  else if q.carries && (q.takeover || l.state == .absent) then some (partnerOf pb)
  else none

/-- Place of a link's status. -/
def linkPlace (n : Nat) : Place := ⟨pbCode n, 17⟩

/-! ### Flits (R258, Table 11-2) -/

/-- Bytes 0 to 251 of a flit. -/
def flitBody (f : Flit) : Bytes :=
  let r := f.reserved.toNat
  leBytes 1 (f.kind.toNat + 4 * f.channel.toNat + 16 * b2n f.som + 32 * b2n f.eom + 64 * (r % 4)) ++ leBytes 1 (r / 4 % 256) ++
    leBytes 2 f.seq.toNat ++ leBytes 2 f.ack.toNat ++ leBytes 2 f.chseq.toNat ++ leBytes 2 f.len.toNat ++
    leBytes 2 (r / 1024) ++ fitTo 240 f.body

/-- The 256 bytes of a flit. -/
def flitBytes (f : Flit) : Bytes := flitBody f ++ leBytes 4 f.crc.toNat

/-- A flit that the receiver discards: its CRC-32 fails, or it touches a codeword that the FEC could not correct (R260). -/
def flitFailed (f : Flit) : Bool := f.fec || crc32 (flitBody f) != f.crc

/-- Channel of a message type (Table 11-7). -/
def channelOf (type : Nat) : Nat :=
  if type = 1 ∨ type = 2 then 2 else if 0x10 ≤ type ∧ type ≤ 0x12 then 1 else if type = 0x20 ∨ type = 0x21 then 3 else 0

/-- The bytes of a Zlink message: its header (Table 11-6) and body. -/
def zMsgBytes (src : BitVec 16) (m : ZMsg) : Bytes :=
  leBytes 2 m.dest.toNat ++ leBytes 2 src.toNat ++ leBytes 1 m.type.toNat ++ leBytes 1 m.destPb.toNat ++ zeros 2 ++
    leBytes 4 m.body.length ++ zeros 4 ++ m.body

/-- Cut a message into the payloads of its flits. -/
def cutFlits : (n : Nat) → Bytes → List Bytes
  | 0, _ => []
  | n + 1, b => if b.length ≤ 240 then [b] else b.take 240 :: cutFlits n (b.drop 240)

/-- A DATA flit before it is sent: its sequence number, ack and CRC are set when it leaves. -/
def dataFlit (channel : Nat) (chseq : BitVec 16) (som eom : Bool) (b : Bytes) : Flit :=
  ⟨1, BitVec.ofNat 2 channel, som, eom, 0, 0, chseq, BitVec.ofNat 16 b.length, 0, fitTo 240 b, 0, false⟩

/-- The payload of a link record (Tables 11-4, 11-5; log entry 99). -/
def recordBytes (r : LinkRecord) : Bytes :=
  fitTo 240 (match r with
    | .nak m => leBytes 2 0x01 ++ leBytes 1 m.length ++ m.flatMap (fun q => leBytes 2 q.toNat)
    | .credit g => leBytes 2 0x02 ++ g.flatMap (fun q => leBytes 2 q.toNat)
    | .laneSwap lane q => leBytes 2 0x03 ++ leBytes 1 lane ++ leBytes 2 q.toNat
    | .restripe lanes => leBytes 2 0x04 ++ leBytes 1 lanes.toNat
    | .route pbs => leBytes 2 0x05 ++ leBytes 3 pbs.toNat
    | .ident id pb fw => leBytes 2 0x06 ++ leBytes 1 1 ++ leBytes 2 id.toNat ++ leBytes 1 pb ++ leBytes 8 fw.toNat)

/-- A LINK flit before it is sent. -/
def linkFlit (r : LinkRecord) : Flit := ⟨2, 0, false, false, 0, 0, 0, 240, 0, recordBytes r, 0, false⟩

/-! ### Choosing and sending (R259, R260, R262) -/

/-- A flit leaves: it takes the next sequence number, and stays in the replay buffer. -/
def Link.emit (l : Link) (f : Flit) : Link :=
  let g := { f with seq := l.txSeq, ack := l.rxNext }
  let h := { g with crc := crc32 (flitBody g) }
  { l with
    blocked := l.blocked.erase f
    credits := if f.kind = 1 then smUpd 0 f.channel.toNat (· - 1) l.credits else l.credits
    replay := l.replay ++ [h]
    wire := h :: l.wire
    txSeq := l.txSeq + 1 }

/-- The first waiting DATA flit of a channel, when a credit is there for it. -/
def Link.ready (l : Link) (c : Nat) : Option Flit :=
  if smGet 0 l.credits c = 0 then none else l.blocked.find? (fun f => f.kind == 1 && f.channel.toNat == c)

/-- The sender's next turn (R259): a LINK flit, then a CONTROL flit, then WEIGHT, KILN and BULK in turn, BULK when it has waited
three turns; none when nothing can go. Nothing but replays goes while the replay buffer is full, and only LINK flits while the link
trains. Replays go as they are asked for (`Link.resend`). -/
def Link.turn (l : Link) : Option Link :=
  if 8192 ≤ l.replay.length then none
  else match (if l.carries || l.state == .train then l.blocked.find? (fun f => f.kind == 2) else none) with
  | some f => some (l.emit f)
  | none =>
    if !l.carries then none
    else match l.ready 0 with
    | some f => some (l.emit f)
    | none =>
      let waits := (l.ready 3).isSome
      let order := if l.lastTurn = 2 then [1, 2] else [2, 1]
      match (if 3 ≤ l.bulkTurns then l.ready 3 else none) with
      | some f => some { l.emit f with bulkTurns := 0 }
      | none =>
        match order.find? (fun c => (l.ready c).isSome) with
        | some c => (l.ready c).map (fun f => { l.emit f with
            lastTurn := c
            bulkTurns := if waits then l.bulkTurns + 1 else 0 })
        | none => if waits then some { l with bulkTurns := l.bulkTurns + 1 } else none

/-- Flits go while any can. -/
def Link.pump : (fuel : Nat) → Link → Link
  | 0, l => l
  | n + 1, l => match l.turn with
    | some l' => Link.pump n l'
    | none => l

/-- Turns within which everything that can go has gone. -/
def Link.turns (l : Link) : Nat := 4 * l.blocked.length + 4

def Link.flush (l : Link) : Link := l.pump l.turns

/-- A flit named in a NAK goes again, unchanged (R260). -/
def Link.resend (l : Link) (q : BitVec 16) : Link :=
  match l.replay.find? (fun f => f.seq == q) with
  | some f => { l with
      wire := f :: l.wire
      replays := BitVec.ofNat 16 (min (l.replays.toNat + 1) 65535) }
  | none => l

/-- Put a message's flits on a channel of a link. -/
def Link.queue (l : Link) (channel : Nat) (b : Bytes) : Link :=
  let cuts := cutFlits (b.length / 240 + 1) b
  let n := cuts.length
  let c0 := smGet (0 : BitVec 16) l.txChseq channel
  { l with
    blocked := l.blocked ++ cuts.zipIdx.map (fun (x : Bytes × Nat) =>
      dataFlit channel (c0 + BitVec.ofNat 16 x.2) (x.2 == 0) (x.2 + 1 == n) x.1)
    txChseq := smPut 0 channel (c0 + BitVec.ofNat 16 n) l.txChseq }

/-- The lanes once the spare has taken the place of lane `r`. -/
def Link.swapped (l : Link) (r : Nat) : BitVec 5 := (l.lanes &&& ~~~((1 : BitVec 5) <<< r)) ||| ((1 : BitVec 5) <<< l.spare)

/-- Whether the switch to the spare is due: the flit that LANE_SWAP names is the next to leave, or to come (R266). -/
def Link.switchDue (l : Link) : Option Nat :=
  match l.switchAt with
  | some (r, q, own) =>
    let next := if own then l.txSeq else l.rxNext
    if l.state = .upSwap ∧ (next - q).toNat < 32768 then some r else none
  | none => none

/-- The switch to the spare is completed when it is due: UP, with status 0x5002 (Table 11-8). -/
def State.trySwitch (s : State) (n : Nat) : State :=
  match (linkOf s n).switchDue with
  | some r => (s.updLink n (fun l => { l with
      state := .up
      lanes := l.swapped r
      lost := 0
      retiring := none
      switchAt := none })).raise 0x5002 (linkPlace n) noCmd r
  | none => s

/-- A link sends what it can. -/
def State.flushLink (s : State) (n : Nat) : State := (s.updLink n Link.flush).trySwitch n

/-- Send a link record. -/
def State.linkRecord (s : State) (n : Nat) (r : LinkRecord) : State :=
  (s.updLink n (fun l => { l with
    records := l.records ++ [r]
    blocked := l.blocked ++ [linkFlit r] })).flushLink n

/-- Return credits of a channel to the sender (R262). -/
def State.giveCredit (s : State) (n c flits : Nat) : State :=
  if flits = 0 then s
  else (s.updLink n (fun l => { l with granted := smUpd 0 c (· + flits) l.granted })).linkRecord n
    (.credit ((List.range 4).map (fun i => if i = c then BitVec.ofNat 16 flits else 0)))

/-- Send a Zlink message from a port block; a module whose position ID is unassigned sends none (R264). -/
def State.zSend (s : State) (pb : Nat) (m : ZMsg) : State :=
  if s.boot.positionId = 0xFFFF then s
  else match linkFor s pb with
    | some n => ({ s.updLink n (fun l => l.queue (channelOf m.type.toNat) (zMsgBytes s.boot.positionId m)) with
        zOut := (n, m) :: s.zOut }).flushLink n
    | none => s

/-- Key of a peer's stream: 4 * position ID + channel. -/
def streamKey (peer : BitVec 16) (channel : Nat) : Nat := 4 * peer.toNat + channel

/-- Send a message whose bytes a SIGNAL may count (R273, R282). -/
def State.zSendCounted (s : State) (pb channel : Nat) (m : ZMsg) : State :=
  (s.zSend pb m).updPb pb (fun p => { p with
    sentBytes := smUpd 0 (streamKey m.dest channel) (· + (16 + m.body.length)) p.sentBytes })

/-! ### The intake buffer (R271) -/

/-- Flits of a weight frame's message with `n` payload bytes. -/
def frameFlits (n : Nat) : Nat := (16 + 64 + n + 239) / 240

/-- Bytes of the frames that an intake buffer holds: those that wait for an earlier one, and those that wait for their multicast. -/
def intakeUsed (p : PbState) : Nat :=
  (p.verified.map (fun (f : Frame) => 64 + f.payload.length)).sum + (p.ready.map (fun (f : Nat × Bytes) => 64 + f.2.length)).sum

/-- Space of `n` payload bytes in a port block's intake buffer is free again: WEIGHT credits go back, and the queue makes progress
(R262, R271, R293). -/
def State.freeIntake (s : State) (pb n : Nat) : State :=
  (s.giveCredit ((linkFor s pb).getD pb) 2 (frameFlits n)).progress (intakeQueue pb)

/-- The last multicast of a frame has left the port block. -/
def State.freeFrame (s : State) (pb q : Nat) : State :=
  match (pbOf s pb).ready.find? (fun f => f.1 == q) with
  | some f => (s.updPb pb (fun p => { p with ready := p.ready.filter (fun g => g.1 ≠ q) })).freeIntake pb f.2.length
  | none => s

/-- The intake buffer is empty again. -/
def State.emptyIntake (s : State) (pb : Nat) : State :=
  let p := pbOf s pb
  let sizes := p.verified.map (fun (f : Frame) => f.payload.length) ++ p.ready.map (fun (f : Nat × Bytes) => f.2.length)
  sizes.foldl (fun s n => s.freeIntake pb n) (s.setPb pb { p with verified := [], ready := [] })

end Sys2Proof.Machine
end

