-- ==== Sys2Proof/Machine/Mesh.lean ====
section
/-! DEFINITION. Sys2Proof/Machine/Mesh.lean: the scheduled mesh (R56 to R67, R175): routers stepping through their tables, hops,
hold registers, seam FIFOs, schedule holds, and the delivery of flits. Cycles pass without time: the schedule runs as far as
its holds let it whenever something becomes ready (log entry 96). Sites are logical tiles, and 2,352 and a port block. -/

namespace Sys2Proof.Machine

/-! ### Sites and links (R44, R45, R56) -/

/-- Ports and source codes of Table 3-2. -/
def portN : Nat := 1
def portS : Nat := 2
def portE : Nat := 3
def portW : Nat := 4
/-- The tile's own outgoing flit. -/
def ownFlit : Nat := 5

/-- The site of a port block. -/
def pbSiteOf (n : Nat) : Nat := logicalTiles + n

/-- The site and the port that an output leads to. -/
def neighbour (site port : Nat) : Option (Nat × Nat) :=
  if site < logicalTiles then
    let x := colOf site
    let y := rowOf site
    if port = portN then (if y = 0 then some (pbSiteOf (x / 2), if x % 2 = 0 then portW else portE) else some (site - 48, portS))
    else if port = portS then (if y < 48 then some (site + 48, portN) else none)
    else if port = portE then (if x < 47 then some (site + 1, portW) else none)
    else if port = portW then (if 0 < x then some (site - 1, portE) else none)
    else none
  else
    let n := site - logicalTiles
    if port = portW then some (tileAt (2 * n) 0, portN)
    else if port = portE then some (tileAt (2 * n + 1) 0, portN)
    else none

/-- A site of the west half. -/
def inWest (site : Nat) : Bool := if site < logicalTiles then decide (colOf site < 24) else decide (site - logicalTiles < 12)

/-- A site that the mesh reaches: a port block, or a tile whose field is not dark (R45, R248). -/
def onMesh (s : State) (site : Nat) : Bool :=
  decide (logicalTiles ≤ site) || fieldState s.repair (fieldOfLogical site) != 2

/-- The input of a site that crosses the seam, and the key of its FIFO. -/
def seamInput (site port : Nat) : Option Nat :=
  if site < logicalTiles ∧ colOf site = 24 ∧ port = portW then some (2 * rowOf site)
  else if site < logicalTiles ∧ colOf site = 23 ∧ port = portE then some (2 * rowOf site + 1)
  else none

/-- A north or south input at a field-row boundary (R61): the idle spare between is in physical row 8j + 7. -/
def boundarySpare (site port : Nat) : Option Nat :=
  let x := colOf site
  let y := rowOf site
  if site < logicalTiles ∧ port = portN ∧ y % 7 = 0 ∧ 0 < y then some (48 * (8 * (y / 7) - 1) + x)
  else if site < logicalTiles ∧ port = portS ∧ y % 7 = 6 ∧ y < 48 then some (48 * (8 * (y / 7) + 7) + x)
  else none

/-- Whether an input has a hold register through which its flits pass: its hop takes 3 cycles and is scheduled for 4 (R61, Table
3-3). -/
def holds (s : State) (site port : Nat) : Bool :=
  match boundarySpare site port with
  | some p => !s.repair.passThrough.contains p
  | none => false

/-- Cycles of a hop to an input: 4 through the router of an idle spare, otherwise 3 (Table 3-3). -/
def hopCycles (s : State) (site port : Nat) : Nat :=
  if (boundarySpare site port).isSome && !holds s site port then 4 else 3

/-- Rill code and block of an input's link, or of a site's router (port 0) (Table 13-9). -/
def meshPlace (s : State) (site port : Nat) : Place :=
  ⟨BitVec.ofNat 12 (if site < logicalTiles then physOf s.repair site else 0xB00 + (site - logicalTiles)),
    BitVec.ofNat 8 (if port = 0 then 9 else 10 + port)⟩

/-! ### Router tables (Table 3-2, R175) -/

/-- Source of an output (1 to 5) of an entry. -/
def entrySource (e : BitVec 64) (out : Nat) : Nat := bitsOf e.toNat (3 * out - 1) (3 * out - 3)

def entryRepeat (e : BitVec 64) : Nat := bitsOf e.toNat 31 16

def tableCycles (l : List (BitVec 64)) : Nat := (l.map entryRepeat).sum

/-- The entry of a table at a cycle of it; no output takes an input beyond its end. -/
def entryAt : List (BitVec 64) → Nat → BitVec 64
  | [], _ => 0
  | e :: r, c => if c < entryRepeat e then e else entryAt r (c - entryRepeat e)

/-- A table of a site: 0 the main one, L + 1 the recompute section of layer L, which a port block's image has none of (log entry
96). -/
def siteTable (s : State) (site table : Nat) : List (BitVec 64) :=
  if site < logicalTiles then
    (if table = 0 then (s.tileProg site).router else (s.tileProg site).sections.getD (table - 1) [])
  else if table = 0 then (s.pbProg (site - logicalTiles)).router
  else []

/-- The sites that have tables, and those that a flit comes to. -/
def meshSites (s : State) : List Nat :=
  (s.prog.tiles.map (·.1) ++ s.prog.pbs.map (fun x => pbSiteOf x.1) ++ (s.mesh.links ++ s.mesh.held).map (·.site)).dedup

/-- The parts of the schedule (R175): the main tables, and at each boundary the section of its layer when the layer is
checkpointed. -/
def meshParts (switch total : Nat) (cycles : Nat → Nat) : Nat → List (Nat × Nat) → List (Nat × Nat × Nat)
  | c, [] => [(0, c, total - c)]
  | c, (layer, at') :: r =>
    let main := (0, c, at' - c)
    if switch ≤ layer then main :: (layer + 1, 0, cycles layer) :: meshParts switch total cycles at' r
    else main :: meshParts switch total cycles at' r

/-- The schedule as a program starts with it: its parts, for the switch layer of the step. -/
def startMesh (s : State) : Mesh :=
  let longest (table : Nat) : Nat := ((meshSites s).map (fun x => tableCycles (siteTable s x table))).foldl Nat.max 0
  if longest 0 = 0 then {}
  else { parts := meshParts s.step.switchLayer (longest 0) (fun l => longest (l + 1)) 0 s.prog.bindings.boundaries }

/-- The table and its cycle at a schedule cycle. -/
def partAt : List (Nat × Nat × Nat) → Nat → Option (Nat × Nat)
  | [], _ => none
  | (table, first, n) :: r, c => if c < n then some (table, first + c) else partAt r (c - n)

/-- Schedule cycles until the last flit sent has arrived. -/
def Mesh.cycles (m : Mesh) : Nat := (m.parts.map (fun x => x.2.2)).sum + 4

/-- The entry of a site at a schedule cycle. -/
def meshEntry (s : State) (site n : Nat) : BitVec 64 :=
  match partAt s.mesh.parts n with
  | some x => entryAt (siteTable s site x.1) x.2
  | none => 0

/-- Whether an entry takes an input. -/
def entryTakes (e : BitVec 64) (source : Nat) : Bool := [1, 2, 3, 4, 5].any (fun o => entrySource e o == source)

def seamAwait (e : BitVec 64) : Bool := e.getLsbD 48
def seamTag (e : BitVec 64) : BitVec 16 := BitVec.ofNat 16 (bitsOf e.toNat 47 32)

/-! ### Outgoing flits (R60) -/

/-- The `k`-th outgoing flit of a list of flows: its flow, its number in it, and the flits of the flow. -/
def outgoingAt : List Outgoing → Nat → Option (Flow × Nat × Nat)
  | [], _ => none
  | o :: r, k => if k < o.flits then some (o.flow, k, o.flits) else outgoingAt r (k - o.flits)

def sentKey (site table : Nat) : Nat := 4096 * table + site

/-- The next outgoing flit of a site in a table. -/
def nextOutgoing (s : State) (site table : Nat) : Option (Flow × Nat × Nat) :=
  outgoingAt (s.prog.bindings.outgoing.filter (fun o => o.site == site && o.table == table))
    (smGet 0 s.mesh.sent (sentKey site table))

/-- The flits that a list of flows holds up to the end of each occurrence of a flow. -/
def flowEnds (flow : Flow) : List Outgoing → Nat → List Nat
  | [], _ => []
  | o :: r, k => (if o.flow == flow then [k + o.flits] else []) ++ flowEnds flow r (k + o.flits)

/-- Every occurrence of a flow in the tables that the step runs has left its site. -/
def flowLeft (s : State) (site : Nat) (flow : Flow) : Bool :=
  (s.mesh.parts.map (·.1)).all (fun table =>
    (flowEnds flow (s.prog.bindings.outgoing.filter (fun o => o.site == site && o.table == table)) 0).all (fun e =>
      decide (e ≤ smGet 0 s.mesh.sent (sentKey site table))))

def transferAt (s : State) (i : Nat) : Option Transfer := s.prog.bindings.transfers[i]?

/-- The canvas that a tile holds for a drain onto the chain. -/
def heldOf (s : State) (site : Nat) (cid : BitVec 64) : Option Held :=
  (tileOf s (physOf s.repair site)).heldCanvases.find? (fun h => h.cid == cid)

/-- An outgoing flit is ready when its producing command has written its bytes (R60). Of a drain in progress no byte is read
(R85), since a command's drain ends with it. -/
def flowReady (s : State) (site : Nat) : Flow → Bool
  | .transfer i => match transferAt s i with
    | some x => s.mesh.done.contains (x.src, x.after)
    | none => true
  | .frame q => (pbOf s (site - logicalTiles)).ready.any (fun f => f.1 == q)
  | .part cid => (heldOf s site cid).isSome
  | .sums e => decide (e < (pbOf s (site - logicalTiles)).delivered)

/-- Cells as a stream of 36-bit elements (R162). -/
def packCells (cells : List (BitVec 36)) : Bytes :=
  leBytes ((36 * cells.length + 7) / 8) (cells.zipIdx.foldl (fun a x => a + x.1.toNat * 2 ^ (36 * x.2)) 0)

/-- Two partials added cell by cell under the canvas addition rule (R208). -/
def addPartials (a b : List (BitVec 36)) : List (BitVec 36) :=
  (a.zip b).map (fun x => cellBits (marginAdd (cellVal x.1) (cellVal x.2)))

/-- A total as the chain forms it (R208): from the south northward, the southernmost canvas unchanged. -/
def chainTotal (canvases : List (List (BitVec 36))) : List (BitVec 36) :=
  match canvases with
  | [] => []
  | c :: rest => rest.foldl addPartials c

/-- The links of a logical column reach a row from its port block: no field of it down to the row is dark (R43, R45). -/
def columnReaches (s : State) (col row : Nat) : Bool := (List.range (row + 1)).all (fun y => onMesh s (tileAt col y))

/-- Tiles of a logical column from south to north whose field is in use, as far as its port block reaches them. -/
def columnTiles (s : State) (col : Nat) : List Nat :=
  ((List.range 49).map (fun y => tileAt col (48 - y))).filter (fun t =>
    fieldState s.repair (fieldOfLogical t) == 0 && columnReaches s col (rowOf t))

/-- The partial that a tile sends north for a canvas it holds (R64): the canvases of the tiles south of it and its own. -/
def partialAt (s : State) (site : Nat) (h : Held) : List (BitVec 36) :=
  chainTotal (((columnTiles s (colOf site)).filter (fun t => decide (site ≤ t))).filterMap (fun t =>
    ((tileOf s (physOf s.repair t)).heldCanvases.find? (fun g => g.total == h.total)).map (·.cells)))

/-- All bytes of a flow as its source sends them. -/
def flowBytes (s : State) (site : Nat) : Flow → Bytes
  | .transfer i => match transferAt s i with
    | some x => dmaRead s (physOf s.repair x.src) x.srcAddr x.bytes
    | none => []
  | .frame q => (((pbOf s (site - logicalTiles)).ready.find? (fun f => f.1 == q)).map (·.2)).getD []
  | .part cid => match heldOf s site cid with
    | some h => packCells (partialAt s site h)
    | none => []
  | .sums e => (((pbOf s (site - logicalTiles)).sumBuffer.find? (fun f => f.1 == e)).map (·.2)).getD []

/-! ### Deliveries (R57, R60, R63) -/

/-- Where a flit delivered at a tile lands: the binding's own transfer or another of the same bytes that names the tile (R63), the
multicast of its frame, or the destination of a sum. Answers the address of the flit's bytes, their number, and whether they go
to a RECV_ADD; the transfer's index. -/
def landing (s : State) (site : Nat) (f : MeshFlit) : Option (Nat × Nat × Bool × Option Nat) :=
  match f.flow with
  | .transfer i =>
    match transferAt s i with
    | none => none
    | some x =>
      let same (y : Transfer) : Bool := y.dst == site && y.src == x.src && y.after == x.after && y.srcAddr == x.srcAddr &&
        y.bytes == x.bytes
      ((s.prog.bindings.transfers.zipIdx.find? (fun y => same y.1)).map (fun y =>
        (y.1.dstAddr + 128 * f.index, min 128 (x.bytes - 128 * f.index), y.1.recv, some y.2)))
  | .frame q =>
    (s.prog.bindings.multicasts.find? (fun m => m.pb == colOf site / 2 && m.frameSeq == q && m.tile == site)).map (fun m =>
      (m.addr + 128 * f.index, 128, false, none))
  | .part _ => none
  | .sums e =>
    let x := (s.pbProg (colOf site / 2)).sumMap[e]?
    match x with
    | some m => if tileAt (2 * (colOf site / 2) + m.destCol) m.destRow = site then
        some (m.destAddr + 128 * f.index, 128, false, none) else none
    | none => none

/-- Bytes that an incomplete refire unit of a tile reads: those of its open runs (R239, R240). -/
def openReads (t : Tile) : List Span :=
  (if t.canvasA.run.isOpen then t.canvasA.run.reads else []) ++ (if t.canvasB.run.isOpen then t.canvasB.run.reads else []) ++
    (if t.sieve0.isOpen then t.sieve0.reads else []) ++ (if t.sieve1.isOpen then t.sieve1.reads else [])

/-- The canvas of its column that a partial adds to, by its drain's command ID. -/
def partTotal (s : State) (site : Nat) (cid : BitVec 64) : Option Nat :=
  (s.prog.bindings.chains.find? (fun c => c.cid == cid && colOf c.tile == colOf site)).map (·.total)

/-- A delivery is ready when no incomplete refire unit reads the bytes it writes and no earlier transfer to them still waits for
the command that consumes it (R60); a partial, when the tile's own canvas is held. -/
def deliveryReady (s : State) (site : Nat) (f : MeshFlit) : Bool :=
  if logicalTiles ≤ site then true
  else match f.flow with
  | .part cid =>
    match partTotal s site cid with
    | some k => (tileOf s (physOf s.repair site)).heldCanvases.any (fun h => h.total == k)
    | none => true
  | _ =>
    match landing s site f with
    | none => true
    | some (a, n, recv, which) =>
      recv || (!(openReads (tileOf s (physOf s.repair site))).any (fun x => x.meets a n) &&
        (s.prog.bindings.transfers.zipIdx.all (fun y =>
          some y.2 == which || y.1.dst != site || y.1.recv || !overlaps y.1.dstAddr y.1.bytes a n ||
            smGet 0 s.mesh.landed y.2 == 0 || s.mesh.done.contains (site, y.1.consumer))))

def State.updMesh (s : State) (f : Mesh → Mesh) : State := { s with mesh := f s.mesh }

/-- A flit is delivered into a site's local port: into the flits of a RECV_ADD, or by a DMA store; a store of a poisoned flit
leaves lines whose check fails (R57). -/
def State.deliverFlit (s : State) (site : Nat) (f : MeshFlit) : State :=
  if logicalTiles ≤ site then s
  else
    let p := physOf s.repair site
    let s1 := s.count p 14 1
    match landing s site f with
    | none =>
      match f.flow with
      | .part cid => match partTotal s site cid with
        | some k => if f.poison then s1.updMesh (fun m => { m with badParts := (site, k) :: m.badParts.filter (· ≠ (site, k)) }) else s1
        | none => s1
      | _ => s1
    | some (a, n, recv, which) =>
      let s2 := match which with
        | some i => s1.updMesh (fun m => { m with
            landed := smUpd 0 i (· + 1) m.landed
            poisoned := if f.poison && !m.poisoned.contains i then i :: m.poisoned else m.poisoned })
        | none => s1
      if recv then s2.updTile p (fun t => { t with inbox := t.inbox ++ f.payload })
      else match storeFault s p a n with
        | some c => s2.raise c ⟨BitVec.ofNat 12 p, 7⟩
        | none => if f.poison then s2.poisonWrite p a (f.payload.take n) else s2.tileWrite p a (f.payload.take n)

/-! ### One schedule cycle of a half -/

/-- The flit on an input in cycle `n`: in its hold register, at the head of its seam FIFO, or arriving. -/
def meshInput (s : State) (n site port : Nat) : Option MeshFlit :=
  match seamInput site port with
  | some k =>
    match smGet [] s.mesh.seam k with
    | x :: _ => if s.seam.awaited || decide (x.1 + 3 ≤ n) then some x.2 else none
    | [] => none
  | none =>
    if holds s site port then (s.mesh.held.find? (fun h => h.site == site && h.port == port)).map (·.flit)
    else (s.mesh.links.find? (fun h => h.site == site && h.port == port && h.due == n)).map (·.flit)

/-- Schedule holds and seam stretches (R60, R66): whether a site keeps its half from beginning cycle `n`, by reason: 8 a schedule
hold, 6 the seam, 0 none. -/
def siteHold (s : State) (n site : Nat) : Nat :=
  let e := meshEntry s site n
  let outReady := !entryTakes e ownFlit || (match partAt s.mesh.parts n with
    | some x => match nextOutgoing s site x.1 with
      | some o => flowReady s site o.1
      | none => true
    | none => true)
  let local' := entrySource e 5
  let inReady := local' == 0 || local' == ownFlit || (match meshInput s n site local' with
    | some f => deliveryReady s site f
    | none => true)
  let starved := s.seam.awaited && seamAwait e && [portE, portW].any (fun p =>
    (seamInput site p).isSome && entryTakes e p && (meshInput s n site p).isNone)
  let full := s.seam.awaited && [portE, portW].any (fun p => entrySource e p != 0 &&
    (match neighbour site p with
     | some x => match seamInput x.1 x.2 with
       | some k => decide (64 ≤ (smGet [] s.mesh.seam k).length)
       | none => false
     | none => false))
  if !outReady || !inReady then 8 else if starved || full then 6 else 0

/-- Every router checks the CRC-12 of a flit it receives; a failure sets POISON, and is reported unless the report is what
brought it (R57). -/
def State.receiveFlit (s : State) (site port : Nat) (f : MeshFlit) : State × MeshFlit :=
  let wrong := flitCrc f.payload f.last f.tag != f.crc
  if s.mesh.failing.contains (site, port) then
    (s.updMesh (fun m => { m with failing := m.failing.filter (· ≠ (site, port)) }), { f with poison := true })
  else if wrong ∧ ¬ f.poison then (s.raise 0x4001 (meshPlace s site port), { f with poison := true })
  else (s, f)

/-- A flit leaves by an output: onto a link, into a seam FIFO, or into the tile. Beyond the mesh it goes nowhere. -/
def State.emitFlit (s : State) (n site out : Nat) (f : MeshFlit) : State :=
  if out = 5 then s.deliverFlit site f
  else match neighbour site out with
    | none => s
    | some x =>
      if !onMesh s x.1 || !onMesh s site then s
      else match seamInput x.1 x.2 with
        | some k => s.updMesh (fun m => { m with seam := smUpd [] k (· ++ [(n, f)]) m.seam })
        | none => s.updMesh (fun m => { m with links := m.links ++ [⟨x.1, x.2, n + hopCycles s x.1 x.2, f⟩] })

/-- A mesh fault of a site (R59, R61, R65). -/
def State.meshFault (s : State) (site port : Nat) (code : Code) : State := s.raise code (meshPlace s site port)

/-- What becomes of one input of a site in cycle `n`: taken, with its checks; placed in the hold register; or untaken. Answers the
flit taken. -/
def State.resolveInput (s : State) (n site : Nat) (e : BitVec 64) (port : Nat) : State × Option MeshFlit :=
  let taken := entryTakes e port
  let here := meshInput s n site port
  let arriving := s.mesh.links.filter (fun h => h.site == site && h.port == port && h.due == n)
  let cleared := s.updMesh (fun m => { m with
    links := m.links.filter (fun h => !(h.site == site && h.port == port && h.due == n))
    held := m.held.filter (fun h => !(h.site == site && h.port == port))
    seam := match seamInput site port with
      | some k => if taken && here.isSome then smUpd [] k (·.drop 1) m.seam else m.seam
      | none => m.seam })
  let kept := if holds s site port then
      (if 1 < arriving.length then cleared.meshFault site 0 0x4004
       else cleared.updMesh (fun m => { m with held := m.held ++ arriving }))
    else cleared
  match here with
  | none => if taken then (kept.meshFault site 0 0x4002, none) else (kept, none)
  | some f =>
    if taken then
      let r := kept.receiveFlit site port f
      if (seamInput site port).isSome ∧ seamAwait e ∧ f.tag ≠ seamTag e then (r.1.meshFault site port 0x4005, none)
      else (r.1, some r.2)
    else if (seamInput site port).isSome then
      (if s.seam.awaited then kept else kept.meshFault site 0 0x4002, none)
    else if holds s site port then (kept.meshFault site 0 0x4004, none)
    else (kept.meshFault site 0 0x4002, none)

/-- The own outgoing flit of a site in cycle `n`, when its entry takes one. -/
def State.ownOutgoing (s : State) (n site : Nat) (e : BitVec 64) : State × Option MeshFlit :=
  if !entryTakes e ownFlit then (s, none)
  else match partAt s.mesh.parts n with
    | none => (s, none)
    | some x =>
      match nextOutgoing s site x.1 with
      | none => (s.meshFault site 0 0x4002, none)
      | some (flow, i, flits) =>
        let b := fitTo 128 (((flowBytes s site flow).drop (128 * i)).take 128)
        let last := i + 1 == flits
        let tag := BitVec.ofNat 16 x.2
        let s1 := s.updMesh (fun m => { m with sent := smUpd 0 (sentKey site x.1) (· + 1) m.sent })
        let s2 := match flow with
          | .frame q => if last && flowLeft s1 site flow then s1.freeFrame (site - logicalTiles) q else s1
          | _ => s1
        (if site < logicalTiles then s2.count (physOf s.repair site) 15 1 else s2,
          some ⟨b, false, last, flitCrc b last tag, tag, flow, i⟩)

/-- One schedule cycle of a router: its inputs, then its outputs in the order of Table 3-2 (R58, R59). -/
def State.routerCycle (n : Nat) (s : State) (site : Nat) : State :=
  let e := meshEntry s site n
  let ins := [portN, portS, portE, portW].foldl (fun (acc : State × List (Nat × MeshFlit)) p =>
    let r := acc.1.resolveInput n site e p
    (r.1, match r.2 with | some f => acc.2 ++ [(p, f)] | none => acc.2)) (s, [])
  let own := ins.1.ownOutgoing n site e
  let flits := ins.2 ++ (match own.2 with | some f => [(ownFlit, f)] | none => [])
  [1, 2, 3, 4, 5].foldl (fun s out =>
    match flits.find? (fun x => x.1 == entrySource e out) with
    | some x => s.emitFlit n site out x.2
    | none => s) own.1

/-- The sites of one half. -/
def halfSites (s : State) (west : Bool) : List Nat := (meshSites s).filter (fun x => inWest x == west)

/-- The schedule cycle that a half begins next. -/
def Mesh.at (m : Mesh) (west : Bool) : Nat := if west then m.west else m.east

/-- Why a half cannot begin its next cycle; 0 when it can. -/
def halfHold (s : State) (west : Bool) : Nat :=
  ((halfSites s west).map (siteHold s (s.mesh.at west))).foldl Nat.max 0

/-- A half runs its next cycle. -/
def State.halfCycle (s : State) (west : Bool) : State :=
  ((halfSites s west).foldl (State.routerCycle (s.mesh.at west)) s).updMesh (fun m =>
    if west then { m with west := m.west + 1 } else { m with east := m.east + 1 })

/-! ### Running (R60, R65 to R67) -/

/-- Phases of a step in which the schedule runs: from the start of the program to the end of COMMIT. -/
def meshPhases : List Phase := [.fill, .drain, .reduce, .vote, .commit]

/-- Whether a half has cycles left and may run. -/
def State.halfRuns (s : State) (west : Bool) : Bool :=
  meshPhases.contains s.step.phase && s.arbiter.fatal.isNone && decide (s.mesh.at west < s.mesh.cycles) &&
    !(s.seam.awaited && s.seam.realigning && decide (s.mesh.at (!west) < s.mesh.at west))

/-- A half of the seam in awaited mode begins its next cycle, unless it is held. -/
def State.tryHalf (s : State) (west : Bool) : State × Bool :=
  if s.halfRuns west && halfHold s west == 0 then (s.halfCycle west, true) else (s, false)

/-- One schedule cycle: of both halves in scheduled mode, of each that can in awaited mode. Answers whether one has run. -/
def State.meshCycle (s : State) : State × Bool :=
  if s.seam.awaited then
    let a := s.tryHalf true
    let b := a.1.tryHalf false
    (b.1, a.2 || b.2)
  else if s.halfRuns true && halfHold s true == 0 && halfHold s false == 0 then
    let a := s.halfCycle true
    (if a.halfRuns false then a.halfCycle false else a, true)
  else (s, false)

/-- The reason of the hold at which the schedule stands, 0 when it has come to its end. -/
def State.meshHold (s : State) : Nat :=
  Nat.max (if s.halfRuns true then halfHold s true else 0) (if s.halfRuns false then halfHold s false else 0)

/-- A hold begins: a STALL record at each site that asserts it (Table 17-3), whose cycles are a free value (log entry 4). -/
def State.noteHold (s : State) : State :=
  let hold := s.meshHold
  if hold = 0 then s.updMesh (fun m => { m with stalled := false })
  else if s.mesh.stalled then s
  else
    let sites := [true, false].flatMap (fun w => if s.halfRuns w then
      (halfSites s w).filter (fun x => siteHold s (s.mesh.at w) x != 0) else [])
    (sites.foldl (fun s x =>
      let d := s.draw
      d.2.traceAt 0x0A false (meshPlace s x 0).site noCmd (hold + 2 ^ 32 * (d.1.toNat % 2 ^ 32))) s).updMesh (fun m =>
        { m with stalled := true })

/-- The schedule runs as far as it can, at most `fuel` cycles. -/
def State.runMesh : (fuel : Nat) → State → State
  | 0, s => s
  | n + 1, s =>
    let r := s.meshCycle
    if r.2 then State.runMesh n r.1 else r.1.noteHold

/-- Something has become ready: the schedule runs on. -/
def State.pumpMesh (s : State) : State :=
  if s.mesh.parts.isEmpty then s else s.runMesh (2 * s.mesh.cycles + 1)

/-- A command of a tile has completed: its outgoing flits are ready, and what it has consumed is (R60). -/
def State.sendBound (s : State) (t : Nat) (cid : BitVec 64) : State :=
  if s.mesh.parts.isEmpty then s
  else (s.updMesh (fun m => { m with done := (t, cid) :: m.done.filter (· ≠ (t, cid)) })).pumpMesh

/-- The poisoned transfers that a command of a tile consumes (R241). -/
def poisonedFor (s : State) (t : Nat) (cid : BitVec 64) : List Nat :=
  s.mesh.poisoned.filter (fun i => match transferAt s i with
    | some x => x.dst == t && x.consumer == cid
    | none => false)

/-- A poisoned transfer is carried out again (R241): its source bytes are read by maintenance reads and written to its
destination. -/
def State.repeatTransfer (s : State) (i : Nat) : State :=
  let s1 := s.updMesh (fun m => { m with poisoned := m.poisoned.filter (· ≠ i) })
  match transferAt s i with
  | some x =>
    if x.recv then s1
    else s1.tileWrite (physOf s.repair x.dst) x.dstAddr (dmaRead s (physOf s.repair x.src) x.srcAddr x.bytes)
  | none => s1

/-- Schedule cycles by which the west half leads the east, as the seam status register reports it (Table 3-5). -/
def Mesh.lead (m : Mesh) : Int := max (-32767) (min 32767 ((m.west : Int) - m.east))

end Sys2Proof.Machine
end

