-- ==== Sys2Proof/Machine/Tile.lean ====
section
/-! DEFINITION. Sys2Proof/Machine/Tile.lean: what every tile command shares: when a sequencer issues it, its trace records,
what a detection does, refires, the suspect refire, and the address checks of run time (chapters 1, 10, 15). -/

namespace Sys2Proof.Machine

/-! ### Self-test queue and site history (R248 to R250, R355, R356) -/

/-- Key of a test target. -/
def siteKey (site block lane : Nat) : Nat := site * 65536 + block * 256 + lane

/-- 24 hours of nominal cycles (R250). -/
def dayCycles : Nat := 95040000000000

/-- Whether a target is in use (R356). -/
def inUse (s : State) (site block lane : Nat) : Bool :=
  if site < physicalTiles then
    match (fieldState s.repair (fieldOfPhys site)).toNat with
    | 0 => (logicalOf s.repair site).isSome || (block == 9 && s.repair.passThrough.contains site)
    | 1 => block == 9 || block == 15 || (decide (11 ≤ block) && decide (block ≤ 14))
    | _ => false
  else if block = 16 then
    let l := linkOf s (site - 0xB00)
    l.lanes.getLsbD lane && l.state != .down && l.state != .disabled
  else true

/-- Queue a targeted self-test of a site; a target whose test is pending or running is joined. It runs at once when no
step is in progress or the target is not in use, and otherwise at the next step boundary (R248, R355, R356). -/
def State.queueTest (s : State) (site block lane : Nat) (full recal : Bool) (owed : List Owed) : State :=
  let same (t : Test) : Bool := t.site.toNat == site && t.block.toNat == block && t.lane.toNat == lane
  if s.repair.tests.any same then
    { s with repair := { s.repair with
        tests := s.repair.tests.map (fun t => if same t then
          { t with owed := t.owed ++ owed, full := t.full || full, recalibrate := t.recalibrate || recal } else t) } }
  else
    let now := !s.step.inProgress || !(full || site = 0xFFF || inUse s site block lane)
    { s with repair := { s.repair with
        tests := s.repair.tests ++ [⟨BitVec.ofNat 16 site, BitVec.ofNat 8 block, BitVec.ofNat 8 lane, full, recal, now,
          owed⟩] } }

/-- The time that the module has been powered, by which a site's history counts (R250). -/
def State.age (s : State) : BitVec 64 := s.repair.age + s.now

/-- A detection at a site enters its history; 16 within 24 hours make it lasting (R250). -/
def State.noteDetection (s : State) (site block lane : Nat) : State :=
  let k := siteKey site block lane
  let h := smGet ({} : SiteHistory) s.repair.history k
  let d := s.age :: h.detections.filter (fun t => decide (s.age.toNat < t.toNat + dayCycles))
  let s1 := { s with repair := { s.repair with
      history := smPut {} k { h with detections := d.take 16 } s.repair.history
      fullPassed := if site < physicalTiles then s.repair.fullPassed.filter (· ≠ fieldOfPhys site)
        else s.repair.fullPassed } }
  if 16 ≤ d.length ∧ ¬ s.repair.lasting.contains k then
    ({ s1 with repair := { s1.repair with lasting := s1.repair.lasting ++ [k] } }).raise 0x2108
      ⟨BitVec.ofNat 12 site, BitVec.ofNat 8 block⟩ noCmd lane
  else s1

/-- A detection at a site: a Recoverable event that names its status, command and site, the site history, and a
targeted self-test queued for the site (R243, R248). -/
def State.detect (s : State) (code : Code) (site block lane : Nat) (cid : BitVec 64) (detail : Nat) : State :=
  ((s.raise code ⟨BitVec.ofNat 12 site, BitVec.ofNat 8 block⟩ cid detail).noteDetection site block lane).queueTest
    site block lane false false []

/-! ### Refire (R239 to R247) -/

/-- The block a detection code of a tile command names (Table 10-3). -/
def blockOfCode (unit : Nat) (code : Code) : Nat :=
  match code.toNat with
  | 0x2101 | 0x2103 => 1
  | 0x2102 | 0x3003 => 2
  | 0x9005 => 3
  | 0x3105 => 4
  | 0x2201 => 5
  | 0x3001 => 6
  | 0x9003 | 0x9004 => 7
  | 0x2301 => 8
  | 0x3002 => 10
  | _ => unit

/-- A refire begins in the current phase (R252). -/
def State.countRefire (s : State) (suspect : Bool) : State :=
  let i := s.step.phase.code - 1
  { s with step := { s.step with
      refires := (List.range 7).map (fun j =>
        let r := s.step.refires.getD j (0, 0)
        if j = i then (if suspect then (r.1, min (r.2 + 1) 0xFFFFFFFF) else (min (r.1 + 1) 0xFFFFFFFF, r.2)) else r) } }

/-- The attempts of a refire unit that fail, in order, each with the codes it detects: every code is raised, and one refire
follows while the budget lasts; an attempt too many ends in 0x2104 (R242, R243). An attempt without a code is one whose detection
has been reported already (R57). Answers the refires made so far and the code that ended the unit, 0 for none. -/
def State.refireAll (s : State) (p unitBlock : Nat) (cid : BitVec 64) (done : Nat) : List (List Code) → State × Nat × Code
  | [] => (s, done, 0)
  | cs :: r =>
    let s1 := cs.foldl (fun s c => (s.detect c p (blockOfCode unitBlock c) 0 cid 0).count p 13 1) s
    let c := cs.headD 0x4001
    if done < s.budget then
      State.refireAll (((s1.countRefire false).count p 12 1).traceAt 3 true (BitVec.ofNat 12 p) cid
        (c.toNat + 65536 * (done + 1))) p unitBlock cid (done + 1) r
    else (s1.raise 0x2104 ⟨BitVec.ofNat 12 p, BitVec.ofNat 8 unitBlock⟩ cid c.toNat, done, 0x2104)

/-- The attempts of a unit whose executions all meet the detections `computed`: those that its hardware's checks failed as well,
and as many more as its budget allows. -/
def attempts (budget : Nat) (det : List (List Code)) (computed : List Code) : List (List Code) :=
  if computed.isEmpty then det else det.map (· ++ computed) ++ List.replicate (budget + 1) computed

/-- The suspect refire of a unit (R246), whose second execution gives the digest `second`; `seen` holds the digests of the first
and the third as they came out, where they came out otherwise. Equal first and second digests settle it; otherwise 0x2105 is raised
and a third execution, which counts against the budget (0x2104 when the budget is spent, log entry 27), settles it with SUSPECT
set, or ends in 0x2106. Answers the refires counted and the code that ended the unit, 0 for none. -/
def State.suspectRefire (s : State) (p unitBlock : Nat) (cid : BitVec 64) (done : Nat) (seen : List (BitVec 64))
    (second : BitVec 64) : State × Nat × Code :=
  let s1 := ((s.countRefire true).count p 12 1).traceAt 3 true (BitVec.ofNat 12 p) cid (2 ^ 24)
  if seen.headD second = second then (s1, done, 0)
  else
    let place : Place := ⟨BitVec.ofNat 12 p, BitVec.ofNat 8 unitBlock⟩
    let s2 := s1.raise 0x2105 place cid
    if s.budget ≤ done then (s2.raise 0x2104 place cid 0x2105, done, 0x2104)
    else
      let s3 := (s2.countRefire false).count p 12 1
      if seen.getD 1 second = second then ({ s3 with step := { s3.step with suspect := true } }, done + 1, 0)
      else (s3.raise 0x2106 place cid, done + 1, 0x2106)

/-- What settles a refire unit: the attempts that fail, then, when a suspect window has marked it, its suspect refire (R245). -/
structure RefireUnit where
  block : Nat
  cid : BitVec 64
  /-- Refires already made. -/
  done : Nat := 0
  /-- A window opened while the unit was incomplete. -/
  marked : Bool := false
  /-- Detections that every execution meets. -/
  computed : List Code := []
  /-- The bytes that the unit writes and the flits it sends, in write order. -/
  result : Bytes := []

/-- The detections of a unit, then its suspect refire: its refires, and the code that ended it, 0 for none. -/
def State.settle (s : State) (t : Site) (p : Nat) (u : RefireUnit) : State × Nat × Code :=
  let r := s.refireAll p u.block u.cid u.done (attempts s.budget t.det u.computed)
  if r.2.2 ≠ 0 ∨ (t.suspect.isEmpty ∧ ¬ u.marked) then r
  else r.1.suspectRefire p u.block u.cid r.2.1 t.suspect (crc64 u.result)

/-- Raise a Step-fatal code of a tile command, which then writes nothing more. -/
def State.tileFault (s : State) (p unitBlock : Nat) (cid : BitVec 64) (code : Code) : State :=
  s.raise code ⟨BitVec.ofNat 12 p, BitVec.ofNat 8 unitBlock⟩ cid

/-! ### Issue (R26, R245, R282, R346) -/

/-- The phases in which a tile command may write what tile commands write (Table 1-2). -/
def workPhases : List Phase := [.fill, .drain, .reduce, .commit]

/-- Whether the sequencer of a logical tile issues a command now: the step is in one of the phases in which Table 1-2 lets the
command change what it changes, the tile's field is in use and its region ACTIVE, it is neither halted nor waiting, no early abort
has stopped it at a layer boundary, and no suspect window holds its region (log entry 93). -/
def State.issues (s : State) (t : Nat) (during : List Phase := workPhases) : Bool :=
  let x := tileOf s (physOf s.repair t)
  during.contains s.step.phase && s.program.isSome && s.arbiter.fatal.isNone && !x.stopped &&
  fieldState s.repair (fieldOfLogical t) == 0 && !x.halted && !x.dead && x.waiting.isNone &&
  (regionOf s.power (fieldOfLogical t)).state == .active && !(regionOf s.power (fieldOfLogical t)).suspect

/-- A command is issued: the sequencer's program offset moves on, the counters of its unit turn over, CMD_START. -/
def State.cmdStart (s : State) (p unit opcode : Nat) (cid : BitVec 64) : State :=
  ((s.updTile p (fun t => { t with issued := t.issued + 1 })).startUnit p unit cid).traceAt 1 false (BitVec.ofNat 12 p)
    cid opcode

/-- One command of a running recompute block, or the STRATA_LAYER that began it, is over (R174, R177). -/
def Strata.countRecompute (x : Strata) : Strata :=
  if x.recomputing then { x with recomputing := decide (1 < x.recomputeLeft), recomputeLeft := x.recomputeLeft - 1 } else x

/-- A command ends: CMD_END, whose stall cycles are a free value (log entry 4). -/
def State.cmdEnd (s : State) (p : Nat) (cid : BitVec 64) (status : Code) (flags : Nat) : State :=
  let d := s.draw
  (d.2.updTile p (fun t => { t with strata := t.strata.countRecompute })).traceAt 2 false (BitVec.ofNat 12 p) cid (status.toNat + 65536 * flags + 2 ^ 32 * (d.1.toNat % 2 ^ 32))

/-- What a tile command's body answers: the state, its status and completion flags. -/
structure Done where
  state : State
  status : Code := 0
  flags : Nat := 0

/-- A command that consumes a poisoned transfer (R241): the transfer is carried out again, and the command refired once for it;
the detection was reported where the router found it (R57). -/
def State.consumePoison (s : State) (t : Site) (cid : BitVec 64) : State × Site :=
  match poisonedFor s t.tile cid with
  | [] => (s, t)
  | l => (l.foldl State.repeatTransfer s, { t with det := [] :: t.det })

/-- A tile command: refused where its descriptor is one no program can hold, without effect while the sequencer does not
issue, and otherwise started, run and ended; when it completes, the schedule runs on. -/
def tileCmd (t : Site) (cid : BitVec 64) (opcode unit : Nat) (check : Option Code) (body : Site → Nat → State → Done)
    (s : State) (during : List Phase := workPhases) : Host.Outcome State Fault Refusal :=
  if logicalTiles ≤ t.tile then .next s
  else match check with
    | some c => .refused (.notLoadable c)
    | none =>
      if s.issues t.tile during then
        let p := physOf s.repair t.tile
        let c := (s.cmdStart p unit opcode cid).consumePoison t cid
        let r := body c.2 p c.1
        let e := r.state.cmdEnd p cid r.status r.flags
        .next (if r.status = 0 then e.sendBound t.tile cid else e)
      else .next s

end Sys2Proof.Machine
end

