-- ==== Sys2Proof/Machine/Vector.lean ====
section
/-! DEFINITION. Sys2Proof/Machine/Vector.lean: the vector engine (R180 to R191): VEC_OP in its eighteen operations,
PALETTE_LOAD and LOSS_REPORT, and RECV_ADD, which uses the same adders (R210, R211). -/

namespace Sys2Proof.Machine

/-! ### Elements (R181, R183, R185, Table 5-4) -/

/-- The value of a stored element of a vector format. -/
def vecVal (fmt v : Nat) : Fp := if fmt = 15 then .ofInt (signedOf 32 v) else elemVal fmt v

/-- The value an element enters an operation with: an INT32 is rounded once into FP32, other formats widen exactly. -/
def vecEntry (fmt v : Nat) : Fp := if fmt = 15 then (fp32.round (vecVal fmt v)).1 else vecVal fmt v

/-- A result rounded once into the destination format: its pattern and the flags of the conversion. -/
def vecEncode (fmt : Nat) (x : Fp) : Nat × Flags :=
  match fmt with
  | 5 => let r := toIntSat 8 x; (patternOf 8 r.1, r.2)
  | 15 => let r := toIntSat 32 x; (patternOf 32 r.1, r.2)
  | f => (elemFmt f).encode x

/-- A result of an operation: its value before the last rounding, and the flags set so far. -/
structure VecRes where
  val : Fp
  flags : Flags := {}
  deriving DecidableEq, Repr

/-- A binary32 operation inside a longer one: rounded to FP32, OVF when finite operands gave an infinity. -/
def step32 (finiteIn : Bool) (x : Fp) : VecRes :=
  let r := (fp32.round x).1
  ⟨r, vecFlags finiteIn r⟩

/-! ### Palette tables (R186 to R188) -/

/-- Segment number of an FP32 pattern under a low exponent (R187). With E_LO = 0 an exponent field of 0 takes the second row (log
entry 122). -/
def paletteSegment (eLo bits : Nat) : Nat :=
  let s := b2n (bitOf bits 31)
  let e := bitsOf bits 30 23
  let f3 := bitsOf bits 22 20
  if e = 255 then 128 * s + 127
  else if e < eLo then 128 * s
  else if e ≤ eLo + 14 then 128 * s + 1 + 8 * (e - eLo) + f3
  else 128 * s + 121 + min (e - eLo - 15) 6

/-- E_LO of a pair (Table 8-4). -/
def eLoOf (t : Tile) (pair : Nat) : Nat := bitsOf t.paletteControl.toNat (8 * pair + 7) (8 * pair)

/-- Address of a palette table: function (0) or derivative (1) of a pair. -/
def paletteTable (pair deriv : Nat) : Nat := paletteBase + pair * 0x2000 + deriv * 0x1000

/-- The polynomial of the selected segment at `x` (R188): three fused multiply-adds, or c0 at an infinity. -/
def palette (s : State) (p pair deriv : Nat) (x : Fp) : VecRes :=
  if x.isNan then ⟨.nan, { nan := true }⟩
  else
    let seg := paletteTable pair deriv + 16 * paletteSegment (eLoOf (tileOf s p) pair) (fp32.encode x).1
    let c (i : Nat) : Fp := readFp32 s p (seg + 4 * i)
    if x.isInf then ⟨c 0, { nan := (c 0).isNan }⟩
    else [2, 1, 0].foldl (fun a i =>
      let r := step32 (a.val.isFin && (c i).isFin) (fpAddExact (fpMulExact a.val x) (c i))
      ⟨r.val, a.flags.or r.flags⟩) ⟨c 3, { nan := (c 3).isNan }⟩

/-! ### Operations (Table 8-2) -/

/-- The result of an elementwise operation on one element's sources, before its rounding into dst. -/
def vecElem (s : State) (p op pair : Nat) (a b c : Fp) : VecRes :=
  let nanOf (x : Fp) : VecRes := ⟨x, { nan := x.isNan }⟩
  match op with
  | 0x00 => nanOf (fpAddExact a b)
  | 0x01 => nanOf (fpAddExact a b.neg)
  | 0x02 => nanOf (fpMulExact a b)
  | 0x03 => nanOf (fpAddExact (fpMulExact a b) c)
  | 0x04 => nanOf (vMax a b)
  | 0x05 => nanOf (vMin a b)
  | 0x06 => nanOf a.abs
  | 0x07 => nanOf a.neg
  | 0x08 => let r := divExact a b; ⟨r, vecFlags (a.isFin && b.isFin) r⟩
  | 0x09 => nanOf (sqrtExact a)
  | 0x0B => nanOf (if a.isNan || a.isZero then c else b)
  | 0x0C => ⟨if fpLt a b then .one else .zero, {}⟩
  | 0x10 => palette s p pair 0 a
  | 0x11 => let r := palette s p pair 1 a
            let x := fpMulExact r.val b
            ⟨x, r.flags.or { nan := x.isNan }⟩
  | _ => nanOf a

/-- A binary32 addition or maximum of a reduction, with its flags. -/
def redJoin (op : Nat) (a b : VecRes) : VecRes :=
  let r : VecRes := if op = 0x19 then ⟨vMax a.val b.val, { nan := a.val.isNan || b.val.isNan }⟩
    else step32 (a.val.isFin && b.val.isFin) (fpAddExact a.val b.val)
  ⟨r.val, (a.flags.or b.flags).or r.flags⟩

/-- The accumulator of lane `j`: elements j, j + 256, … in order; none when it holds no element (R182). -/
def redLane (op : Nat) (vals : List Fp) (j : Nat) : Option VecRes :=
  let mine := (vals.zipIdx.filter (fun x => x.2 % 256 == j)).map (·.1)
  match mine with
  | [] => none
  | x :: rest =>
    if op = 0x1A then
      some (mine.foldl (fun a v =>
        let r := step32 (a.val.isFin && v.isFin) (fpAddExact (fpMulExact v v) a.val)
        ⟨r.val, a.flags.or r.flags⟩) ⟨.zero, {}⟩)
    else some (rest.foldl (fun a v => redJoin op a ⟨v, {}⟩) ⟨x, {}⟩)

/-- A tree node: an empty input passes the other. -/
def redNode (op : Nat) (a b : Option VecRes) : Option VecRes :=
  match a, b with
  | some x, some y => some (redJoin op x y)
  | some x, none => some x
  | none, y => y

/-- SUM, MAXRED or SUMSQ of a list of values (R182). -/
def vecReduce (op : Nat) (vals : List Fp) : VecRes :=
  (treeRoot (redNode op) none ((List.range 256).map (redLane op vals))).getD ⟨.zero, {}⟩

/-- The palette pair that a VEC_OP names. -/
def vecPair (d : VecDesc) : Nat := bitsOf d.flags.toNat 4 2

/-- The values of source `j` of a VEC_OP at element `i`. -/
def vecSource (s : State) (p op : Nat) (d : VecDesc) (j i : Nat) : Fp :=
  if j = 1 ∧ d.flags.getLsbD 0 then fp32.decode d.src1.toNat
  else
    let base := match j with | 0 => d.src0.toNat | 1 => d.src1.toNat | _ => d.src2.toNat
    let f := vecFormat d j
    let v := tileNum s p (base + i * vecBytes f) (vecBytes f)
    if op = 0x0A then vecVal f v else vecEntry f v

/-- The last rounding of a result: times 2^LS_EXP with LSCALE (R183), then into dst (R181). -/
def vecFinish (s : State) (d : VecDesc) (r : VecRes) : Bytes × Flags :=
  let f := vecFormat d 3
  let x := vecEncode f (if d.flags.getLsbD 1 then r.val.scale s.step.lsExp else r.val)
  (leBytes (vecBytes f) x.1, r.flags.or x.2)

/-- Everything a VEC_OP writes at dst, and the flags it sets (R181, R185). -/
def vecCompute (s : State) (p op : Nat) (d : VecDesc) : Bytes × Flags :=
  let n := d.count.toNat
  let src (j i : Nat) : Fp := if j < vecArity op then vecSource s p op d j i else .zero
  let entered : Flags := { nan := (List.range n).any (fun i => [0, 1, 2].any (fun j => (src j i).isNan)) }
  if vecReduces op then
    let r := vecFinish s d (vecReduce op ((List.range n).map (src 0)))
    (r.1, entered.or r.2)
  else
    (List.range n).foldl (fun acc i =>
      let r := vecFinish s d (vecElem s p op (vecPair d) (src 0 i) (src 1 i) (src 2 i))
      (acc.1 ++ r.1, acc.2.or r.2)) ([], entered)

/-- Set flags of the vector status register (Table 8-3). -/
def State.vecFlag (s : State) (p : Nat) (f : Flags) : State :=
  s.updTile p (fun t => { t with
    vecOvf := t.vecOvf || f.ovf
    vecNan := t.vecNan || f.nan
    vecSat := t.vecSat || f.sat })

/-- Count a refired vector command (Table 8-3). -/
def State.vecRefired (s : State) (p refires : Nat) : State :=
  if refires = 0 then s
  else s.updTile p (fun t => { t with vecRefires := min (t.vecRefires + 1) 65535 })

/-- Completion flags of a vector command (Table 8-3). -/
def vecFlagBits (f : Flags) : Nat := b2n f.ovf + 2 * b2n f.nan + 4 * b2n f.sat

/-- Bytes that a VEC_OP reads: its sources, and the table of a palette operation (R186, R438). -/
def vecSpans (op : Nat) (d : VecDesc) : List Span :=
  ((List.range (vecArity op)).filterMap (fun j =>
    if j = 1 ∧ d.flags.getLsbD 0 then none
    else some (⟨(match j with | 0 => d.src0.toNat | 1 => d.src1.toNat | _ => d.src2.toNat), 0,
      d.count.toNat * vecBytes (vecFormat d j), 1⟩ : Span))) ++
    (if op = 0x10 ∨ op = 0x11 then [⟨paletteTable (vecPair d) (op - 0x10), 0, 0x1000, 1⟩] else [])

/-- A failure of the palette area that has lasted through the budget is that of a failing line, which fails until it is rewritten
(R438): the first of the table, where the checks have not said which. -/
def State.keepFailing (s : State) (t : Site) (p op : Nat) (d : VecDesc) (status : Code) : State :=
  if status = 0x2104 ∧ (op = 0x10 ∨ op = 0x11) ∧ t.det.all (·.contains 0x3005) ∧ ¬ t.det.isEmpty then
    { s with checks := smPut 0 (memKey p (paletteTable (vecPair d) (op - 0x10))) 1 s.checks }
  else s

/-- What every vector command does with its result bytes: it is recomputed until its datapaths agree (R184), and then
written whole, with its flags. -/
def vecCommit (t : Site) (cid : BitVec 64) (p dst : Nat) (reads : List Span) (out : Bytes × Flags) (s : State) : Done :=
  match writeFault s p dst out.1.length with
  | some c => { state := s.tileFault p 5 cid c, status := c }
  | none =>
    let r := s.settle t p { block := 5, cid := cid, computed := readDetections s p reads, result := out.1 }
    let s1 := r.1.vecRefired p r.2.1
    if r.2.2 ≠ 0 then { state := s1, status := r.2.2 }
    else { state := (s1.tileWrite p dst out.1).vecFlag p out.2, flags := vecFlagBits out.2 }

/-- A VEC_OP of a given operation (R181 to R185). -/
def vecOp (op : Nat) (t : Site) (d : VecDesc) (s : State) : Host.Outcome State Fault Refusal :=
  tileCmd t d.cid 0x40 1 (vecCheck op d) (fun t p s =>
    let r := vecCommit t d.cid p d.dst.toNat (vecSpans op d) (vecCompute s p op d) s
    { r with state := r.state.keepFailing t p op d r.status }) s

/-- ADD: s0 + s1. -/
def execAdd (t : Site) (d : VecDesc) (s : State) : Host.Outcome State Fault Refusal := vecOp 0x00 t d s
/-- SUB: s0 − s1. -/
def execSub (t : Site) (d : VecDesc) (s : State) : Host.Outcome State Fault Refusal := vecOp 0x01 t d s
/-- MUL: s0 × s1. -/
def execMul (t : Site) (d : VecDesc) (s : State) : Host.Outcome State Fault Refusal := vecOp 0x02 t d s
/-- FMA: s0 × s1 + s2. -/
def execFma (t : Site) (d : VecDesc) (s : State) : Host.Outcome State Fault Refusal := vecOp 0x03 t d s
/-- MAX (R115). -/
def execMax (t : Site) (d : VecDesc) (s : State) : Host.Outcome State Fault Refusal := vecOp 0x04 t d s
/-- MIN (R115). -/
def execMin (t : Site) (d : VecDesc) (s : State) : Host.Outcome State Fault Refusal := vecOp 0x05 t d s
/-- ABS: the sign cleared. -/
def execAbs (t : Site) (d : VecDesc) (s : State) : Host.Outcome State Fault Refusal := vecOp 0x06 t d s
/-- NEG: the sign inverted. -/
def execNeg (t : Site) (d : VecDesc) (s : State) : Host.Outcome State Fault Refusal := vecOp 0x07 t d s
/-- DIV: s0 ÷ s1. -/
def execDiv (t : Site) (d : VecDesc) (s : State) : Host.Outcome State Fault Refusal := vecOp 0x08 t d s
/-- SQRT: √s0. -/
def execSqrt (t : Site) (d : VecDesc) (s : State) : Host.Outcome State Fault Refusal := vecOp 0x09 t d s
/-- CVT: the exact source converted once into dst. -/
def execCvt (t : Site) (d : VecDesc) (s : State) : Host.Outcome State Fault Refusal := vecOp 0x0A t d s
/-- SELECT: s1 where s0 is non-zero and not NaN, otherwise s2. -/
def execSelect (t : Site) (d : VecDesc) (s : State) : Host.Outcome State Fault Refusal := vecOp 0x0B t d s
/-- CMP_LT: 1.0 where s0 < s1, otherwise +0. -/
def execCmpLt (t : Site) (d : VecDesc) (s : State) : Host.Outcome State Fault Refusal := vecOp 0x0C t d s
/-- PAL_F: the function table of the pair (R188). -/
def execPalF (t : Site) (d : VecDesc) (s : State) : Host.Outcome State Fault Refusal := vecOp 0x10 t d s
/-- PAL_D: the derivative table of the pair, times s1 (R188). -/
def execPalD (t : Site) (d : VecDesc) (s : State) : Host.Outcome State Fault Refusal := vecOp 0x11 t d s
/-- SUM (R182). -/
def execSum (t : Site) (d : VecDesc) (s : State) : Host.Outcome State Fault Refusal := vecOp 0x18 t d s
/-- MAXRED (R182). -/
def execMaxred (t : Site) (d : VecDesc) (s : State) : Host.Outcome State Fault Refusal := vecOp 0x19 t d s
/-- SUMSQ (R182). -/
def execSumsq (t : Site) (d : VecDesc) (s : State) : Host.Outcome State Fault Refusal := vecOp 0x1A t d s

/-! ### PALETTE_LOAD and LOSS_REPORT -/

/-- PALETTE_LOAD (R189): 8 KiB of tile memory become a pair's tables, and E_LO of that pair is set. -/
def execPaletteLoad (t : Site) (d : PaletteDesc) (s : State) : Host.Outcome State Fault Refusal :=
  tileCmd t d.cid 0x44 1 (paletteCheck d) (fun t p s =>
    let tables := tileRead s p d.srcAddr.toNat 0x2000
    let r := s.settle t p { block := 5, cid := d.cid, computed := readDetections s p [⟨d.srcAddr.toNat, 0, 0x2000, 1⟩]
                            result := tables }
    let s1 := r.1.vecRefired p r.2.1
    if r.2.2 ≠ 0 then { state := s1, status := r.2.2 }
    else
      let pair := d.pair.toNat
      let s2 := s1.tileWrite p (paletteTable pair 0) tables
      { state := s2.updTile p (fun x => { x with
          paletteControl := (x.paletteControl &&& ~~~((0xFF : BitVec 64) <<< (8 * pair))) |||
            (d.eLo.setWidth 64 <<< (8 * pair)) }) }) s

/-- LOSS_REPORT (R190, R191): the loss of a slot; nothing for an empty slot; a non-finite loss sets NF_LOSS and
NF_LOCAL. A NaN enters the loss table with its 32 bits as read (log entry 100), and sets NAN (R185). -/
def execLossReport (t : Site) (d : LossDesc) (s : State) : Host.Outcome State Fault Refusal :=
  tileCmd t d.cid 0x43 1 (lossCheck d) (fun t p s =>
    let slot := d.slot.toNat
    if s.step.current.slots.getD slot 0 = 0 then { state := s }
    else
      let v := tileNum s p d.srcAddr.toNat 4
      let r := s.settle t p { block := 5, cid := d.cid, computed := readDetections s p [⟨d.srcAddr.toNat, 0, 4, 1⟩]
                              result := leBytes 4 v }
      let s1 := r.1.vecRefired p r.2.1
      if r.2.2 ≠ 0 then { state := s1, status := r.2.2 }
      else
        let bad := !(fp32.decode v).isFin
        let nan : Flags := { nan := (fp32.decode v).isNan }
        let s2 := s1.vecFlag p nan
        { state := { s2 with step := { s2.step with
            loss := smPut none slot (some (BitVec.ofNat 32 v)) s2.step.loss
            nfLoss := s2.step.nfLoss || bad
            nfLocal := s2.step.nfLocal || bad } }
          flags := vecFlagBits nan }) s [.fill]

/-! ### RECV_ADD (R210, R211) -/

/-- Flits a RECV_ADD takes: those the schedule binds to it, or what its elements fill. -/
def recvFlits (s : State) (tile : Nat) (d : RecvDesc) : Nat :=
  match s.prog.bindings.recvFlits.find? (fun x => x.1 == tile && x.2.1 == d.cid) with
  | some x => x.2.2
  | none => (d.count.toNat * recvBytes d.format.toNat + 127) / 128

/-- One sum: binary32 rounded once into the format, or INT32 wrapping or saturating. -/
def recvSum (fmt : Nat) (sat : Bool) (old new : Nat) : Nat × Flags :=
  if fmt = 15 then
    let v := signedOf 32 old + signedOf 32 new
    if -2147483648 ≤ v ∧ v ≤ 2147483647 ∨ ¬ sat then (patternOf 32 v, {})
    else (patternOf 32 (if v < 0 then -2147483648 else 2147483647), { sat := true })
  else
    let f : Fmt := match fmt with | 0 => fp32 | 1 => bf16 | _ => fp16
    let a := f.decode old
    let b := f.decode new
    let r := step32 (a.isFin && b.isFin) (fpAddExact a b)
    let e := f.encode r.val
    (e.1, (Flags.or { nan := a.isNan || b.isNan } r.flags).or e.2)

/-- The sums of `n` elements of a RECV_ADD from element `first`, with the flits `data`. -/
def recvCompute (s : State) (p : Nat) (d : RecvDesc) (data : Bytes) (first n : Nat) : Bytes × Flags :=
  let w := recvBytes d.format.toNat
  ((List.range n).map (first + ·)).foldl (fun acc i =>
    let r := recvSum d.format.toNat (d.flags.getLsbD 0) (tileNum s p (d.dst.toNat + i * w) w) (fieldAt data (i * w) w)
    (acc.1 ++ leBytes w r.1, acc.2.or r.2)) ([], {})

/-- One pass of up to 256 elements (R211): its own refire unit, written when its datapaths agree. Answers the refires made. -/
def State.recvPass (s : State) (t : Site) (p : Nat) (d : RecvDesc) (data : Bytes) (pass : Nat) : Nat × Done :=
  let w := recvBytes d.format.toNat
  let n := min 256 (d.count.toNat - 256 * pass)
  let dst := d.dst.toNat + 256 * pass * w
  let out := recvCompute s p d data (256 * pass) n
  let r := s.settle t p { block := 5, cid := d.cid, computed := readDetections s p [⟨dst, 0, n * w, 1⟩], result := out.1 }
  (r.2.1, if r.2.2 ≠ 0 then { state := r.1, status := r.2.2 }
    else { state := (r.1.tileWrite p dst out.1).vecFlag p out.2, flags := vecFlagBits out.2 })

/-- The passes of a RECV_ADD in order, until one ends the step. Answers the refires made. -/
def State.recvPasses (s : State) (site : Nat → Site) (p : Nat) (d : RecvDesc) (data : Bytes) : List Nat → Nat × Done
  | [] => (0, { state := s })
  | k :: r =>
    let x := s.recvPass (site k) p d data k
    if x.2.status ≠ 0 then x
    else
      let y := State.recvPasses x.2.state site p d data r
      (x.1 + y.1, { y.2 with flags := x.2.flags ||| y.2.flags })

/-- Where a pass runs, with the attempts of it that fail: the first pass takes those of the command. -/
def passSite (t : Site) (passes : List (Nat × List (List Code))) (k : Nat) : Site :=
  let more := (passes.filter (fun x => x.1 == k)).flatMap (·.2)
  if k = 0 then { t with det := t.det ++ more } else ⟨t.tile, more, []⟩

/-- RECV_ADD (R210, R211): it waits, without effect, until its bound flits are there (log entry 14). -/
def execRecvAdd (t : Site) (c : RecvCmd) (s : State) : Host.Outcome State Fault Refusal :=
  let d := c.desc
  if s.issues t.tile ∧ recvCheck d = none ∧
      (tileOf s (physOf s.repair t.tile)).inbox.length < 128 * recvFlits s t.tile d then .next s
  else
    tileCmd t d.cid 0x50 1 (recvCheck d) (fun t p s =>
      match writeFault s p d.dst.toNat (d.count.toNat * recvBytes d.format.toNat) with
      | some c => { state := s.tileFault p 5 d.cid c, status := c }
      | none =>
        let n := 128 * recvFlits s t.tile d
        let data := (tileOf s p).inbox.take n
        let s1 := s.updTile p (fun x => { x with inbox := x.inbox.drop n })
        let r := s1.recvPasses (passSite t c.passes) p d data (List.range ((d.count.toNat + 255) / 256))
        { r.2 with state := r.2.state.vecRefired p r.1 }) s

end Sys2Proof.Machine
end

