-- ==== Sys2Proof/Machine/Shard.lean ====
section
/-! DEFINITION. Sys2Proof/Machine/Shard.lean: the shard slice of a tile (R192), its page table and generations (R195 to
R198), staging of owed pages (R366) and the slice digests (R253). A page key is 1024 times the logical tile plus a page. -/

namespace Sys2Proof.Machine

/-- Pages of a number of bytes. -/
def pagesOf (n : Nat) : Nat := (n + pageBytes - 1) / pageBytes

/-- Pages of the five regions of a slice (R192): master, first moments, second moments, scales, masks. -/
def Shard.regions (h : Shard) : List Nat :=
  if h.params = 0 then []
  else [pagesOf (4 * h.params), pagesOf h.params, pagesOf h.params, pagesOf (h.params / 16), pagesOf (2048 * h.maskPlates)]

/-- L: the logical shard pages of a slice. -/
def Shard.pages (h : Shard) : Nat := h.regions.sum

/-- Byte offset of a region in the logical shard. -/
def Shard.regionAt (h : Shard) (i : Nat) : Nat := (h.regions.take i).sum * pageBytes

/-- Staging places of a tile (R366): S = ⌈L ÷ 8⌉. -/
def Shard.places (h : Shard) : Nat := (h.pages + 7) / 8

/-- Key of a page of a logical tile. -/
def pageKey (t page : Nat) : Nat := 1024 * t + page

/-! ### Page-table entries (Table 8-6) -/

/-- A slot of an entry. -/
structure Slot where
  page : Nat
  valid : Bool
  tag : Nat
  deriving DecidableEq, Repr

/-- Slot 0 or 1 of an entry. -/
def slotOf (e : BitVec 64) (i : Nat) : Slot :=
  let v := e.toNat
  ⟨bitsOf v (32 * i + 9) (32 * i), bitOf v (32 * i + 10), bitsOf v (32 * i + 31) (32 * i + 11)⟩

/-- The 32 bits of a slot; an invalid slot is all zero. -/
def Slot.bits (x : Slot) : Nat := if x.valid then x.page % 1024 + 1024 + 2048 * (x.tag % 2 ^ 21) else 0

/-- An entry from its slots. -/
def packEntry (a b : Slot) : BitVec 64 := BitVec.ofNat 64 (a.bits + 2 ^ 32 * b.bits)

/-- The entry with slot `i` replaced. -/
def putSlot (e : BitVec 64) (i : Nat) (x : Slot) : BitVec 64 :=
  if i = 0 then packEntry x (slotOf e 1) else packEntry (slotOf e 0) x

/-- A generation number as a tag. -/
def tagOf (g : BitVec 64) : Nat := g.toNat % 2 ^ 21

/-- The committed slot of an entry under generation `c` (R196). -/
def committedSlot (c : BitVec 64) (e : BitVec 64) : Option Nat :=
  let ok (i : Nat) (p : Slot → Bool) : Bool := (slotOf e i).valid && p (slotOf e i)
  match [0, 1].find? (fun i => ok i (fun x => x.tag == tagOf c)) with
  | some i => some i
  | none => [0, 1].find? (fun i => ok i (fun x => x.tag != tagOf (c + 1)))

/-- The slot a read of generation C + 1 takes (R196). -/
def nextSlot (c : BitVec 64) (e : BitVec 64) : Option Nat :=
  match [0, 1].find? (fun i => (slotOf e i).valid && (slotOf e i).tag == tagOf (c + 1)) with
  | some i => some i
  | none => committedSlot c e

/-- The generation in the trusted commit record (R24, R50). -/
def State.gen (s : State) : BitVec 64 := s.pages.primary.gen

def State.entry (s : State) (t lp : Nat) : BitVec 64 := smGet 0 s.pages.table (pageKey t lp)
def State.setEntry (s : State) (t lp : Nat) (e : BitVec 64) : State :=
  { s with pages := { s.pages with table := smPut 0 (pageKey t lp) e s.pages.table } }

/-- The physical page a read takes, of the committed generation or of C + 1. -/
def State.pageOf (s : State) (next : Bool) (t lp : Nat) : Option Nat :=
  let e := s.entry t lp
  ((if next then nextSlot s.gen e else committedSlot s.gen e)).map (fun i => (slotOf e i).page)

/-- Tile-local address of a byte of a physical page. -/
def pageAddr (page off : Nat) : Nat := loamBase + page * pageBytes + off

/-! ### Reads -/

/-- The pieces of a byte range of the logical shard: logical page, offset in it, bytes. -/
def pieces (off n : Nat) : List (Nat × Nat × Nat) :=
  let first := off / pageBytes
  let last := if n = 0 then first else (off + n - 1) / pageBytes
  if n = 0 then []
  else (List.range (last + 1 - first)).map (fun i =>
    let lp := first + i
    let lo := max off (lp * pageBytes)
    let hi := min (off + n) ((lp + 1) * pageBytes)
    (lp, lo - lp * pageBytes, hi - lo))

/-- Bytes of the logical shard of a tile; none when a page-table entry yields no slot (0x2203). -/
def State.shardRead (s : State) (next : Bool) (t off n : Nat) : Option Bytes :=
  (pieces off n).foldl (fun acc x =>
    match acc, s.pageOf next t x.1 with
    | some b, some page => some (b ++ tileRead s (physOf s.repair t) (pageAddr page x.2.1) x.2.2)
    | _, _ => none) (some [])

/-- Where a byte range of the logical shard lies in the slab. -/
def State.shardSpans (s : State) (next : Bool) (t off n : Nat) : List Span :=
  (pieces off n).filterMap (fun x => (s.pageOf next t x.1).map (fun page => ⟨pageAddr page x.2.1, 0, x.2.2, 1⟩))

/-- A page of a retained generation whose detection has lasted through the budget (R244): status 0x3004, and the page is marked
lost. -/
def State.failPage (s : State) (t p page : Nat) (cid : BitVec 64) : State :=
  let s1 := s.raise 0x3004 ⟨BitVec.ofNat 12 p, 10⟩ cid page
  { s1 with
    pages := { s1.pages with lost := if s1.pages.lost.contains (pageKey t page) then s1.pages.lost
      else s1.pages.lost ++ [pageKey t page] }
    arbiter := { s1.arbiter with
      pagesLost := true
      failedPages := s1.arbiter.failedPages ++ [(t, page)] } }

/-- Settle a refire unit that reads pages of the committed generation: logical pages `lps` (R244). The page that fails is the first
with a line whose check fails, or the first of them where the checks have not said which. -/
def State.settleShard (s : State) (t : Site) (p : Nat) (lps : List Nat) (u : RefireUnit) : State × Nat × Code :=
  let r := s.settle t p u
  let last := (attempts s.budget t.det u.computed).getD (s.budget - u.done) []
  let pages := lps.filterMap (s.pageOf false t.tile)
  let bad (page : Nat) : Bool := (failingLines s p).any (fun a => decide (pageAddr page 0 ≤ a) && decide (a < pageAddr (page + 1) 0))
  if r.2.2 = 0x2104 ∧ last.contains 0x3002 then
    match (pages.find? bad).or pages.head? with
    | some page => (r.1.failPage t.tile p page u.cid, r.2)
    | none => r
  else r

/-! ### First touches (R197, R366) -/

/-- Physical pages of a tile's slab that hold something: valid slots, base, staging and parity pages. -/
def State.pagesHeld (s : State) (t : Nat) : List Nat :=
  let l := (s.tileProg t).shard.pages
  let slots := (List.range l).flatMap (fun lp =>
    let e := s.entry t lp
    ((if (slotOf e 0).valid then [(slotOf e 0).page] else []) ++ (if (slotOf e 1).valid then [(slotOf e 1).page] else [])))
  let mine (k : Nat) : Bool := k / 1024 == t
  slots ++ (s.pages.base.filter (fun x => mine x.1)).map (·.2) ++ (s.pages.nextBase.filter (fun x => mine x.1)).map (·.2) ++
    (s.pages.staged.filter (fun x => mine x.1)).map (·.2) ++ (s.pages.prior.filter (fun x => mine x.1)).map (·.2) ++
    (s.pages.lost.filter mine).map (· % 1024)

/-- Parity pages of one set (R372) under a configuration, for a slice of `l` pages. -/
def parityPages (c : ParityCfg) (l : Nat) : Nat :=
  let g := c.size.toNat
  if g < 3 then 0
  else if c.code = 0 then (l + g - 2) / (g - 1) else 2 * ((l + g - 3) / (g - 2))

/-- Pages of the pool that hold the parity sets. -/
def State.parityRange (s : State) (t : Nat) : List Nat :=
  match s.survival.config with
  | some c => (List.range (2 * parityPages c (s.tileProg t).shard.pages)).map (fun i => c.firstPage.toNat + i)
  | none => []

/-- Free pages of a tile's pool, lowest first. -/
def State.freePages (s : State) (t : Nat) : List Nat :=
  let h := (s.tileProg t).shard
  let held := s.pagesHeld t ++ s.parityRange t
  ((List.range h.poolPages).map (fun i => h.poolFirst + i)).filter (fun p => !held.contains p)

/-- Whether a write to a page is a first touch. -/
def State.untouched (s : State) (t lp : Nat) : Bool :=
  !([0, 1].any (fun i => (slotOf (s.entry t lp) i).valid && (slotOf (s.entry t lp) i).tag == tagOf (s.gen + 1)))

/-- A first touch must wait: no free page, or the page is owed to an export and the tile's staging places are taken. -/
def State.touchWaits (s : State) (t : Nat) (lps : List Nat) : Bool :=
  let new := lps.filter (s.untouched t)
  let owed := new.filter (fun lp => s.pages.owed.contains (pageKey t lp))
  let taken := (s.pages.placed.filter (fun k => k / 1024 == t)).length +
    (s.pages.staged.filter (fun x => x.1 / 1024 == t)).length
  decide ((s.freePages t).length < new.length) || decide ((s.tileProg t).shard.places < taken + owed.length)

/-- First touch of a page: the lowest free page, tagged C + 1 in the free slot, holding a copy of the committed page; an
owed page takes a staging place. -/
def State.firstTouch (s : State) (t lp : Nat) : State :=
  let e := s.entry t lp
  let p := physOf s.repair t
  let page := (s.freePages t).headD 0
  let slot := if (slotOf e 0).valid then 1 else 0
  let copied := match committedSlot s.gen e with
    | some i => s.tileWrite p (pageAddr page 0) (tileRead s p (pageAddr (slotOf e i).page 0) pageBytes)
    | none => s
  let k := pageKey t lp
  let s1 := copied.setEntry t lp (putSlot e slot ⟨page, true, tagOf (s.gen + 1)⟩)
  if s.pages.owed.contains k then { s1 with pages := { s1.pages with placed := s1.pages.placed ++ [k] } } else s1

/-- A write of bytes to generation C + 1 of a tile's slice. -/
def State.shardWrite (s : State) (t off : Nat) (b : Bytes) : State :=
  (pieces off b.length).foldl (fun s x =>
    let s1 := if s.untouched t x.1 then s.firstTouch t x.1 else s
    match s1.pageOf true t x.1 with
    | some page => s1.tileWrite (physOf s.repair t) (pageAddr page x.2.1)
        ((b.drop (x.1 * pageBytes + x.2.1 - off)).take x.2.2)
    | none => s1) s

/-- The physical page that holds a logical page of the generation of the last sealed step (R18): the committed one, but between the
commit point and SEAL the one that the commit has superseded. -/
def State.sealedPage (s : State) (t lp : Nat) : Option Nat :=
  let old := smGet 1024 s.pages.prior (pageKey t lp)
  if old < 1024 then some old else s.pageOf false t lp

/-- Logical pages of a byte range. -/
def lpsOf (off n : Nat) : List Nat := (pieces off n).map (·.1)

/-! ### Commit, skip and discard (R196, R198, R364, R366) -/

/-- Every entry of the page table rewritten. -/
def State.mapEntries (s : State) (f : Nat → BitVec 64 → BitVec 64) : State :=
  { s with pages := { s.pages with table := (s.pages.table.map (fun x => (x.1, f x.1 x.2))).filter (fun x => x.2 ≠ 0) } }

/-- The slots of an entry whose tag satisfies `p` released. -/
def dropSlots (p : Nat → Bool) (e : BitVec 64) : BitVec 64 :=
  let f (x : Slot) : Slot := if x.valid && p x.tag then ⟨0, false, 0⟩ else x
  packEntry (f (slotOf e 0)) (f (slotOf e 1))

/-- Skip or discard: slots tagged C + 1 are released and staging places returned (R198, R366). -/
def State.releaseNext (s : State) : State :=
  let s1 := s.mapEntries (fun _ e => dropSlots (· == tagOf (s.gen + 1)) e)
  { s1 with pages := { s1.pages with
      placed := []
      nextCounts := [] } }

/-- The pages superseded by the generation C that has just been committed, with their keys: the other slot of every entry
that holds a slot tagged C (R198; log entry 15). -/
def State.superseded (s : State) : List (Nat × Nat) :=
  s.pages.table.flatMap (fun x =>
    let c := tagOf s.gen
    let a := slotOf x.2 0
    let b := slotOf x.2 1
    if a.valid && b.valid && a.tag == c then [(x.1, b.page)]
    else if a.valid && b.valid && b.tag == c then [(x.1, a.page)] else [])

/-- After the commit point: superseded pages leave their slots, for the next base when `keep` (R364), for the base when they
belong to the parity generation (R364), for the staging list when an export owes them (R366), and otherwise for the pool, from
SEAL on (R18). -/
def State.releaseOld (s : State) (keep : Bool) : State :=
  let old := s.superseded
  let s1 := s.mapEntries (fun k e => if old.any (fun x => x.1 == k) then dropSlots (· != tagOf s.gen) e else e)
  let staged := old.filter (fun x => s.pages.placed.contains x.1)
  let put (m : SMap Nat) (x : Nat × Nat) : SMap Nat := smPut 1024 x.1 x.2 m
  let inParity := s.survival.parityStep ≠ 0xFFFFFFFF
  { s1 with pages := { s1.pages with
      prior := old.foldl put []
      nextBase := if keep then old.foldl put [] else []
      base := if inParity then
          (old.filter (fun x => decide (smGet 1024 s.pages.base x.1 = 1024))).foldl put s.pages.base
        else s.pages.base
      staged := s1.pages.staged ++ staged
      owed := s1.pages.owed.filter (fun k => !s.pages.placed.contains k)
      placed := []
      counts := s1.pages.nextCounts.foldl (fun m x => smPut 0 x.1 x.2 m) s1.pages.counts
      nextCounts := [] } }

/-- Between steps a tag that lags C by 2^20 or more becomes C (R196). -/
def State.retag (s : State) : State :=
  let c := tagOf s.gen
  let f (x : Slot) : Slot := if x.valid ∧ 2 ^ 20 ≤ (c + 2 ^ 21 - x.tag) % 2 ^ 21 then { x with tag := c } else x
  s.mapEntries (fun _ e => packEntry (f (slotOf e 0)) (f (slotOf e 1)))

/-! ### Digests (R253) -/

/-- A tile in use whose slice has a page that yields no slot: its digest cannot be formed (R196, R253). -/
def State.slotless (s : State) (next : Bool) : Option Nat :=
  (tilesInUse s.repair).find? (fun t => (List.range (s.tileProg t).shard.pages).any (fun lp => (s.pageOf next t lp).isNone))

/-- Digest of a tile's slice in the committed generation or C + 1: SHA-256 over its logical pages; of no bytes where it
has none. A page that yields no slot, for which the step has met 0x2203, counts as zeros. -/
def State.sliceDigest (s : State) (next : Bool) (t : Nat) : Digest :=
  let h := (s.tileProg t).shard
  sha256 ((List.range h.pages).flatMap (fun lp =>
    (s.shardRead next t (lp * pageBytes) pageBytes).getD (zeros pageBytes)))

end Sys2Proof.Machine
end

