-- ==== Sys2Proof/Machine/Masks.lean ====
section
/-! DEFINITION. Sys2Proof/Machine/Masks.lean: pruning, regrowth and mask commit (R149 to R152). A mask is a 16,384-bit number:
bit 128c + r for element (r, c). Masks, and what MASK_COMMIT changes, lie in the logical shard; the pending mask and the
values PRUNE and REGROW rank lie in tile memory (log entry 16). -/

namespace Sys2Proof.Machine

/-- Value format of a mask command: BF16 or FP32. -/
def maskFmt (d : MaskDesc) : Fmt := elemFmt ((d.policy.toNat / 2) % 16)

/-- Bytes of a value of a mask command. -/
def maskElem (d : MaskDesc) : Nat := elemBits ((d.policy.toNat / 2) % 16) / 8

/-- Rank of a value by magnitude (R149): NaN above +Inf above the finite values. -/
def maskRank (f : Fmt) (v : Nat) : Nat :=
  if (f.decode v).isNan then 2 ^ f.width else v % 2 ^ (f.width - 1)

/-- The values a PRUNE or REGROW ranks. -/
def maskValue (s : State) (p : Nat) (d : MaskDesc) (k : Nat) : Nat :=
  tileNum s p (d.valuesBase.toNat + maskElem d * k) (maskElem d)

/-- The positions of the block of position `k`. -/
def blockOf (size k : Nat) : List Nat := (List.range size).map (fun i => k / size * size + i)

/-- Whether candidate `k` is among the `count` highest-ranked of its block; equal ranks favour the lower position. -/
def chosen (count size : Nat) (rank : Nat → Nat) (cand : Nat → Bool) (k : Nat) : Bool :=
  cand k && decide (((blockOf size k).filter (fun j =>
    cand j && (decide (rank k < rank j) || (rank j == rank k && decide (j < k))))).length < count)

/-- A mask from a predicate on positions. -/
def maskOf (p : Nat → Bool) : Nat := (List.range 16384).foldl (fun m k => if p k then m + 2 ^ k else m) 0

/-- The pending mask of a PRUNE TOPK (R150). -/
def topkMask (cur count size : Nat) (rank : Nat → Nat) : Nat := maskOf (chosen count size rank cur.testBit)

/-- The pending mask of a PRUNE THRESHOLD (R150). Against a NaN threshold only NaN positions are kept (log entry 101). -/
def thresholdMask (cur : Nat) (t : Fp) (v : Nat → Fp) : Nat :=
  maskOf (fun k => cur.testBit k && ((v k).isNan || (!t.isNan && !fpLt (v k).abs t)))

/-- The pending mask of a REGROW (R151): its positions added to those of the mask already pending. -/
def regrowMask (cur pend count size : Nat) (rank : Nat → Nat) : Nat :=
  maskOf (fun k => pend.testBit k || chosen count size rank (fun j => !cur.testBit j) k)

/-- PRUNE and REGROW: the current mask is that of the committed generation; the new pending mask is written whole. -/
def maskPending (t : Site) (d : MaskDesc) (opcode op : Nat) (make : State → Nat → Nat → Nat) (s : State) :
    Host.Outcome State Fault Refusal :=
  tileCmd t d.cid opcode 2 (maskCheck op d) (fun t p s =>
    match s.shardRead false t.tile d.maskBase.toNat 2048 with
    | none => { state := s.tileFault p 10 d.cid 0x2203, status := 0x2203 }
    | some cur =>
      match firstCode [readFault s d.valuesBase.toNat (maskValueBytes d), writeFault s p d.pendingBase.toNat 2048] with
      | some c => { state := s.tileFault p 7 d.cid c, status := c }
      | none =>
        let out := leBytes 2048 (make s p (ofLE cur))
        let reads := s.shardSpans false t.tile d.maskBase.toNat 2048 ++ [⟨d.valuesBase.toNat, 0, maskValueBytes d, 1⟩] ++
          (if op = 2 then [⟨d.pendingBase.toNat, 0, 2048, 1⟩] else [])
        let r := s.settleShard t p (lpsOf d.maskBase.toNat 2048)
          { block := 7, cid := d.cid, computed := readDetections s p reads, result := out }
        if r.2.2 ≠ 0 then { state := r.1, status := r.2.2 }
        else { state := r.1.tileWrite p d.pendingBase.toNat out }) s

/-- PRUNE with TOPK. -/
def execPruneTopk (t : Site) (d : MaskDesc) (s : State) : Host.Outcome State Fault Refusal :=
  maskPending t d 0x30 0 (fun s p cur =>
    topkMask cur d.count.toNat (maskBlock d) (fun k => maskRank (maskFmt d) (maskValue s p d k))) s

/-- PRUNE with THRESHOLD. -/
def execPruneThreshold (t : Site) (d : MaskDesc) (s : State) : Host.Outcome State Fault Refusal :=
  maskPending t d 0x30 1 (fun s p cur =>
    thresholdMask cur (fp32.decode d.threshold.toNat) (fun k => (maskFmt d).decode (maskValue s p d k))) s

/-- REGROW. -/
def execRegrow (t : Site) (d : MaskDesc) (s : State) : Host.Outcome State Fault Refusal :=
  maskPending t d 0x31 2 (fun s p cur =>
    regrowMask cur (tileNum s p d.pendingBase.toNat 2048) d.count.toNat (maskBlock d)
      (fun k => maskRank (maskFmt d) (maskValue s p d k))) s

/-- Elements of `w` bytes with +0 at every position that is 0 in the pending mask or new in it (R152). -/
def maskZeroed (w cur pend : Nat) (old : Bytes) : Bytes :=
  (List.range 16384).flatMap (fun k =>
    if pend.testBit k && cur.testBit k then (old.drop (w * k)).take w else zeros w)

/-- A first touch waits for a free page: Recoverable 0x3201 (R197, R294). -/
def State.touchWait (s : State) (t : Nat) (cid : BitVec 64) : State :=
  let p := physOf s.repair t
  (s.updTile p (fun x => { x with touching := true })).raise 0x3201 ⟨BitVec.ofNat 12 p, 10⟩ cid

/-- Population of a mask. -/
def maskCount (pend : Nat) : Nat := (List.range 16384).foldl (fun n k => n + b2n (pend.testBit k)) 0

/-- MASK_COMMIT (R152): master weights and moment elements outside the pending mask, or new in it, become +0 in generation
C + 1, and the pending mask becomes its mask, with its population recorded (log entry 102); moment blocks keep their scales. -/
def execMaskCommit (t : Site) (d : MaskDesc) (s : State) : Host.Outcome State Fault Refusal :=
  let v := d.valuesBase.toNat
  let m1 := d.m1Base.toNat
  let m2 := d.m2Base.toNat
  let m := d.maskBase.toNat
  let w := maskElem d
  let lps := (lpsOf v (16384 * w) ++ lpsOf m1 16384 ++ lpsOf m2 16384 ++ lpsOf m 2048).dedup
  if s.issues t.tile [.reduce, .commit] ∧ s.touchWaits t.tile lps then .next (s.touchWait t.tile d.cid)
  else
    tileCmd t d.cid 0x32 2 (maskCheck 3 d) (fun t p s0 =>
      let s := s0.updTile p (fun x => { x with touching := false })
      match s.shardRead false t.tile m 2048, s.shardRead true t.tile v (16384 * w), s.shardRead true t.tile m1 16384,
          s.shardRead true t.tile m2 16384, s.shardRead true t.tile m 2048 with
      | some cur, some ov, some o1, some o2, some _ =>
        match readFault s d.pendingBase.toNat 2048 with
        | some c => { state := s.tileFault p 7 d.cid c, status := c }
        | none =>
          let pend := tileNum s p d.pendingBase.toNat 2048
          let c := ofLE cur
          let out := [(v, maskZeroed w c pend ov), (m1, maskZeroed 1 c pend o1), (m2, maskZeroed 1 c pend o2),
            (m, leBytes 2048 pend)]
          let reads := s.shardSpans false t.tile m 2048 ++ s.shardSpans true t.tile v (16384 * w) ++
            s.shardSpans true t.tile m1 16384 ++ s.shardSpans true t.tile m2 16384 ++ [⟨d.pendingBase.toNat, 0, 2048, 1⟩]
          let r := s.settleShard t p lps
            { block := 7, cid := d.cid, computed := readDetections s p reads, result := out.flatMap (·.2) }
          if r.2.2 ≠ 0 then { state := r.1, status := r.2.2 }
          else
            let s1 := out.foldl (fun s x => s.shardWrite t.tile x.1 x.2) r.1
            { state := { s1 with pages := { s1.pages with
                nextCounts := smPut 0 (2 ^ 32 * t.tile + m) (maskCount pend) s1.pages.nextCounts } } }
      | _, _, _, _, _ => { state := s.tileFault p 10 d.cid 0x2203, status := 0x2203 }) s [.reduce, .commit]

end Sys2Proof.Machine
end

