-- ==== Sys2Proof/Machine/Optimizer.lean ====
section
/-! DEFINITION. Sys2Proof/Machine/Optimizer.lean: moment blocks (R193, R194), group constants (R200), the optimizer step (R201
to R203), and the loss-scale register (R205, R206). -/

namespace Sys2Proof.Machine

/-! ### Binary32 arithmetic with flags -/

/-- A value read, with no flags yet. -/
def vRes (x : Fp) : VecRes := ⟨x, { nan := x.isNan }⟩

/-- A binary32 operation on results: its flags join theirs. -/
def vJoin (l : List VecRes) (exact : Fp) : VecRes :=
  let r := step32 (l.all (fun x => x.val.isFin)) exact
  ⟨r.val, l.foldl (fun f x => f.or x.flags) r.flags⟩

def rMul (a b : VecRes) : VecRes := vJoin [a, b] (fpMulExact a.val b.val)
def rAdd (a b : VecRes) : VecRes := vJoin [a, b] (fpAddExact a.val b.val)
def rFma (a b c : VecRes) : VecRes := vJoin [a, b, c] (fpAddExact (fpMulExact a.val b.val) c.val)
def rDiv (a b : VecRes) : VecRes := vJoin [a, b] (divExact a.val b.val)
def rSqrt (a : VecRes) : VecRes := vJoin [a] (sqrtExact a.val)

/-! ### Moment blocks (R193, R194) -/

/-- The value of an element code under a block scale. -/
def momentVal (e code : Nat) : Fp :=
  if 0xF6 < e then .nan else (e4m3.decode code).scale ((e : Int) - 127)

/-- Smallest E with a ≤ 448 × 2^E, limited to −127 ≤ E ≤ 119 (R194). -/
def momentExp (a : Fp) : Int :=
  match a with
  | .fin _ m e =>
    if m = 0 then -127
    else
      let x := expoOf m e
      let k := if fpLt (.fin false 7 (x - 2)) a then x - 7 else x - 8
      max (-127) (min 119 k)
  | _ => -127

/-- The code of a value in a block with exponent E, and its flags. A negative value that rounds to zero keeps its sign, as E4M3 rounds
it (log entry 103). -/
def momentCode (k : Int) (x : Fp) : Nat × Flags :=
  match x with
  | .fin n m e =>
    if m = 0 then (0, {})
    else if fpLt (.fin false 448 0) (.fin false m (e - k)) then (128 * b2n n + 0x7E, { sat := true })
    else ((e4m3.encode (.fin n m (e - k))).1, {})
  | _ => (0x7F, { nan := true })

/-- A moment block from its values: element codes, scale byte, flags (R194). -/
def momentBlock (vals : List Fp) : Bytes × Nat × Flags :=
  let a := vals.foldl (fun a x => if x.isFin && fpLt a x.abs then x.abs else a) Fp.zero
  let k := momentExp a
  let cs := vals.map (momentCode k)
  (cs.map (fun c => BitVec.ofNat 8 c.1), (k + 127).toNat, cs.foldl (fun f c => f.or c.2) {})

/-! ### Group constants (R199, R200) -/

/-- Constants of an optimizer group for a step. -/
structure GroupConsts where
  beta1 : Fp
  beta2 : Fp
  eps : Fp
  wd : Fp
  negLr : Fp
  omb1 : Fp
  omb2 : Fp
  gm : Fp
  c1 : Fp
  c2 : Fp
  deriving DecidableEq, Repr

/-- power(b, n) with binary32 multiplies in the fixed order of R200. -/
def powLoop : (fuel n : Nat) → (r p : Fp) → Fp
  | 0, _, r, _ => r
  | k + 1, n, r, p => if n = 0 then r else powLoop k (n / 2) (if n % 2 = 1 then vMul r p else r) (vMul p p)

/-- The constants of a group entry under LS_EXP and the optimizer step count S. -/
def groupConsts (entry : BitVec 256) (lsExp : Nat) (count : BitVec 64) : GroupConsts :=
  let f (off : Nat) : Fp := fp32.decode (bitsOf entry.toNat (8 * off + 31) (8 * off))
  let b1 := f 4
  let b2 := f 8
  let n := count.toNat + 1
  let c (b : Fp) : Fp := if entry.getLsbD 192 then vDiv .one (vAdd .one (powLoop 65 n .one b).neg) else .one
  { beta1 := b1, beta2 := b2, eps := f 12, wd := f 16, negLr := (f 0).neg, omb1 := vAdd .one b1.neg
    omb2 := vAdd .one b2.neg, gm := (fp32.round ((f 20).scale (-(lsExp : Int)))).1, c1 := c b1, c2 := c b2 }

/-- The constants OPEN broadcast for a group. -/
def State.consts (s : State) (g : Nat) : GroupConsts :=
  groupConsts (smGet 0 s.step.latchedGroups g) s.step.lsExp s.step.optCount

/-! ### OPT_STEP (R201 to R203) -/

/-- One parameter: new master weight, first and second moment. -/
def adamw (k : GroupConsts) (w m v x : Fp) : VecRes × VecRes × VecRes :=
  let g := rMul (vRes x) (vRes k.gm)
  let m1 := rFma (vRes k.omb1) g (rMul (vRes k.beta1) (vRes m))
  let v1 := rFma (rMul (vRes k.omb2) g) g (rMul (vRes k.beta2) (vRes v))
  let upd := rDiv (rMul m1 (vRes k.c1)) (rAdd (rSqrt (rMul v1 (vRes k.c2))) (vRes k.eps))
  (rFma (vRes k.negLr) (rFma (vRes k.wd) (vRes w) upd) (vRes w), m1, v1)

/-- The FP32 value of an XS96 element under a window exponent (R212, R117). -/
def xs96Value (w : Int) (i : Int) : Fp := (fp32.round ((Fp.ofInt i).scale (w - 79))).1

/-- The gradients of one pass of 256 parameters; none when its block writes nothing (R202). -/
def passGrads (s : State) (p : Nat) (d : OptDesc) (pass : Nat) : Option (List Fp) :=
  let base := d.gradAddr.toNat
  if d.gradFormat = 0x10 then
    let a := base + 3104 * pass
    let flags := tileNum s p (a + 18) 2
    let w := signedOf 8 (tileNum s p (a + 16) 1)
    if tileNum s p (a + 20) 2 ≠ 0 ∨ bitOf flags 0 then none
    else some ((List.range 256).map (fun e =>
      if bitOf flags 1 then .zero else xs96Value w (signedOf 96 (tileNum s p (a + 32 + 12 * e) 12))))
  else
    let f := match d.gradFormat.toNat with | 0 => fp32 | 1 => bf16 | _ => fp16
    let n := f.width / 8
    some ((List.range 256).map (fun e => f.decode (tileNum s p (base + n * (256 * pass + e)) n)))

/-- What a pass writes: (shard offset, bytes) of its five parts, and its flags. -/
def passWrites (s : State) (p t : Nat) (d : OptDesc) (pass : Nat) : List (Nat × Bytes) × Flags :=
  match passGrads s p d pass with
  | none => ([], {})
  | some xs =>
    let h := (s.tileProg t).shard
    let i0 := d.paramIndex.toNat + 256 * pass
    let k := s.consts d.group.toNat
    let rd (off n : Nat) : Bytes := (s.shardRead true t off n).getD []
    let a0 := h.regionAt 0 + 4 * i0
    let a1 := h.regionAt 1 + i0
    let a2 := h.regionAt 2 + i0
    let s1 := h.regionAt 3 + i0 / 32
    let s2 := h.regionAt 3 + h.params / 32 + i0 / 32
    let wb := rd a0 1024
    let mb := rd a1 256
    let vb := rd a2 256
    let ms := rd s1 8
    let vs := rd s2 8
    let out := (List.range 256).map (fun e =>
      adamw k (fp32.decode (fieldAt wb (4 * e) 4)) (momentVal (fieldAt ms (e / 32) 1) (fieldAt mb e 1))
        (momentVal (fieldAt vs (e / 32) 1) (fieldAt vb e 1)) (xs.getD e .zero))
    let blocks (f : VecRes × VecRes × VecRes → VecRes) : List (Bytes × Nat × Flags) :=
      (List.range 8).map (fun b => momentBlock (((out.drop (32 * b)).take 32).map (fun o => (f o).val)))
    let m := blocks (fun o => o.2.1)
    let v := blocks (fun o => o.2.2)
    let fl := out.foldl (fun f o => ((f.or o.1.flags).or o.2.1.flags).or o.2.2.flags) ({} : Flags)
    ([(a0, out.flatMap (fun o => leBytes 4 (fp32.encode o.1.val).1)), (a1, m.flatMap (·.1)), (a2, v.flatMap (·.1)),
      (s1, m.map (fun b => BitVec.ofNat 8 b.2.1)), (s2, v.map (fun b => BitVec.ofNat 8 b.2.1))],
      (m ++ v).foldl (fun f b => f.or b.2.2) fl)

/-- Logical pages an OPT_STEP touches. -/
def optPages (h : Shard) (d : OptDesc) : List Nat :=
  let i := d.paramIndex.toNat
  let n := d.count.toNat
  (lpsOf (h.regionAt 0 + 4 * i) (4 * n) ++ lpsOf (h.regionAt 1 + i) n ++ lpsOf (h.regionAt 2 + i) n ++
    lpsOf (h.regionAt 3 + i / 32) (n / 32) ++ lpsOf (h.regionAt 3 + h.params / 32 + i / 32) (n / 32)).dedup

/-- Bytes that an OPT_STEP reads. -/
def optSpans (s : State) (t : Nat) (d : OptDesc) : List Span :=
  let h := (s.tileProg t).shard
  let i := d.paramIndex.toNat
  let n := d.count.toNat
  [⟨d.gradAddr.toNat, 0, if d.gradFormat = 0x10 then 3104 * (n / 256) else
      n * (match d.gradFormat.toNat with | 0 => 4 | _ => 2), 1⟩] ++
    s.shardSpans true t (h.regionAt 0 + 4 * i) (4 * n) ++ s.shardSpans true t (h.regionAt 1 + i) n ++
    s.shardSpans true t (h.regionAt 2 + i) n ++ s.shardSpans true t (h.regionAt 3 + i / 32) (n / 32) ++
    s.shardSpans true t (h.regionAt 3 + h.params / 32 + i / 32) (n / 32)

/-- OPT_STEP (R201 to R203): generation C + 1 of its parameters; it waits while a first touch must (R197). -/
def execOptStep (t : Site) (d : OptDesc) (s : State) : Host.Outcome State Fault Refusal :=
  let h := (s.tileProg t.tile).shard
  let lps := optPages h d
  let check := match optCheck d with
    | some c => some c
    | none => if h.params < d.paramIndex.toNat + d.count.toNat then some 0x2202 else none
  if s.issues t.tile [.reduce, .commit] ∧ check = none ∧ s.touchWaits t.tile lps then .next (s.touchWait t.tile d.cid)
  else
    tileCmd t d.cid 0x48 1 check (fun t p s0 =>
      let s := s0.updTile p (fun x => { x with touching := false })
      if lps.any (fun lp => (s.pageOf true t.tile lp).isNone) then
        { state := s.tileFault p 10 d.cid 0x2203, status := 0x2203 }
      else
        let passes := (List.range (d.count.toNat / 256)).map (passWrites s p t.tile d)
        let fl := passes.foldl (fun f x => f.or x.2) ({} : Flags)
        let r := s.settleShard t p lps
          { block := 5, cid := d.cid, computed := readDetections s p (optSpans s t.tile d)
            result := passes.flatMap (fun x => x.1.flatMap (·.2)) }
        let s1 := r.1.vecRefired p r.2.1
        if r.2.2 ≠ 0 then { state := s1, status := r.2.2 }
        else
          { state := ((passes.flatMap (·.1)).foldl (fun s x => s.shardWrite t.tile x.1 x.2) s1).vecFlag p fl
            flags := vecFlagBits fl }) s [.reduce, .commit]

/-! ### The loss-scale register (R205, R206, Table 8-9) -/

/-- A field of the loss-scale register. -/
def lsField (v : BitVec 64) (hi lo : Nat) : Nat := bitsOf v.toNat hi lo

/-- Whether a write of the RW fields is accepted (R205). -/
def lsValid (v : BitVec 64) : Bool :=
  decide (lsField v 15 8 ≤ lsField v 7 0) && decide (lsField v 7 0 ≤ lsField v 23 16) &&
    decide (lsField v 23 16 ≤ 0x28) && decide (1 ≤ lsField v 31 24) && decide (lsField v 31 24 ≤ 8)

/-- The register from its fields. -/
def lsPack (v : BitVec 64) (exp good : Nat) : BitVec 64 :=
  BitVec.ofNat 64 (exp % 256 + (v.toNat % 2 ^ 48 / 256) * 256 + good % 65536 * 2 ^ 48)

/-- A host write: the RW fields; GOOD_STEPS keeps its value. -/
def lsWrite (old v : BitVec 64) : BitVec 64 := lsPack v (lsField v 7 0) (lsField old 63 48)

/-- The register after a step's verdict (R206). -/
def lsUpdate (v : BitVec 64) (skip : Bool) : BitVec 64 :=
  if skip then lsPack v (max (lsField v 15 8) (lsField v 7 0 - lsField v 31 24)) 0
  else
    let good := min (lsField v 63 48 + 1) 0xFFFF
    let g := lsField v 47 32
    if g ≠ 0 ∧ g ≤ good then lsPack v (min (lsField v 23 16) (lsField v 7 0 + 1)) 0
    else lsPack v (lsField v 7 0) good

end Sys2Proof.Machine
end

