-- ==== Sys2Proof/Machine/Dense.lean ====
section
/-! DEFINITION. Sys2Proof/Machine/Dense.lean: dense products, the margin, draining and its comparisons, canvas images
(chapters 4, 5 and R232 to R236), and the meanings of DENSE_MM, CANVAS_SAVE and CANVAS_RESTORE. -/

namespace Sys2Proof.Machine

/-! ### Operands (R74 to R80, R108) -/

/-- The array a format of an expanded value (R78). -/
def arrayAFormat (mode : Nat) (alt : Bool) : Nat :=
  if mode = 0 then b2n alt else if isIntMode mode then 5 else 3 + b2n alt

/-- A value rounded once into an array format, read back (R108, R118). -/
def toArray (fmt : Nat) (x : Fp) : Fp × Flags := (elemFmt fmt).round x

/-- The column operand of k-step `k` of a command as it enters the array, with the flags its expansion sets. -/
def columnOperand (s : State) (p : Nat) (d : DenseDesc) (k : Nat) : List (Fp × Flags) :=
  let mode := d.mode.toNat % 8
  let stored := d.aFormat.toNat % 16
  let code := (d.aFormat.toNat / 16) % 8
  let fmt := arrayAFormat mode (decide (128 ≤ d.aFormat.toNat))
  let raw := readElems s p (d.aBase.toNat + k * d.aStride.toNat) stored (operandLanes mode)
  let aux := d.auxBase.toNat
  match code with
  | 1 =>
    let table := readElems s p aux fmt 16
    raw.map (fun q => (elemVal fmt (table.getD q 0), {}))
  | 2 =>
    raw.zipIdx.map (fun (q, i) =>
      let scale := readFp32 s p (aux + 8 * i)
      let zero := signedOf 8 (tileNum s p (aux + 8 * i + 4) 1)
      toArray fmt (fpMulExact (.ofInt (signedOf (elemBits stored) q - zero)) scale))
  | 3 =>
    raw.zipIdx.map (fun (q, i) =>
      let e := tileNum s p (aux + k / 32 * d.auxStride.toNat + i) 1
      let x := if e = 255 then Fp.nan else (elemVal stored q).scale ((e : Int) - 127)
      if mode = 0 then toArray fmt x else (x, {}))
  | _ => raw.map (fun q => (elemVal stored q, {}))

/-- The row operand of k-step `k` of a command. -/
def rowOperand (s : State) (p : Nat) (d : DenseDesc) (k : Nat) : List Fp :=
  let fmt := d.bFormat.toNat % 16
  (readElems s p (d.bBase.toNat + k * d.bStride.toNat) fmt (operandLanes (d.mode.toNat % 8))).map (elemVal fmt)

/-! ### The array and its margin -/

/-- One of the independent products of the array (R76): its operand offset, first row and first column. -/
structure Prod where
  off : Nat
  row : Nat
  col : Nat
  deriving DecidableEq, Repr

/-- The products of a mode: one, or the four quadrants P0 to P3. -/
def productsOf (quad : Bool) : List Prod :=
  if quad then [⟨0, 0, 0⟩, ⟨64, 0, 64⟩, ⟨128, 64, 0⟩, ⟨192, 64, 64⟩] else [⟨0, 0, 0⟩]

/-- Margin-row pair of a product's columns, margin-column pair of its rows, corner pair (R92). -/
def Prod.rowPair (q : Prod) : Nat := q.row / 64
def Prod.colPair (q : Prod) : Nat := q.col / 64
def Prod.cornerPair (q : Prod) : Nat := (q.row / 64 + q.col / 64) % 2

/-- Rows and columns in use of a command (R73), relative to a product. -/
structure Lanes where
  rows : List Nat
  cols : List Nat
  deriving DecidableEq, Repr

def cellAt (c : Canvas) (i j : Nat) : BitVec 36 := smGet 0 c.cells (128 * i + j)

/-- The signed value of a cell in the integer modes (R82). -/
def cellInt (c : BitVec 36) : Int := signedOf 32 c.toNat

def Run.addFlags (r : Run) (f : Flags) : Run :=
  { r with ovf := r.ovf || f.ovf, nan := r.nan || f.nan, sat := r.sat || f.sat, wrap := r.wrap || f.wrap }

/-- Add the exact product of two operands to a cell (R109 to R112). -/
def Canvas.addFloat (c : Canvas) (i j : Nat) (a b : Fp) : Canvas :=
  let m := arrayProduct a b
  let v := canvasAdd (cellVal (cellAt c i j)) m.1
  { c with cells := smPut 0 (128 * i + j) (cellBits v.1) c.cells, run := c.run.addFlags (m.2.or v.2) }

/-- Add an exact integer product to a cell: saturating or wrapping (R82), marking a saturated cell (R94). -/
def Canvas.addInt (c : Canvas) (i j : Nat) (a b : Int) : Canvas :=
  let v := cellInt (cellAt c i j) + a * b
  let out : Bool := decide (v < -2147483648) || decide (2147483647 < v)
  let w := if out then (if c.run.intSat then (if v < 0 then -2147483648 else 2147483647) else signedOf 32 (patternOf 32 v))
    else v
  { c with
    cells := smPut 0 (128 * i + j) (BitVec.ofInt 36 w) c.cells
    satd := if out && c.run.intSat then smPut false (128 * i + j) true c.satd else c.satd
    run := c.run.addFlags { sat := out && c.run.intSat, wrap := out && !c.run.intSat } }

/-- Margin update of one product in a floating-point mode (R91, R92). -/
def Canvas.marginFloat (c : Canvas) (q : Prod) (l : Lanes) (a b : Nat → Fp) : Canvas :=
  let mul (x y : Fp) : Fp := (arrayProduct x y).1
  let sa := marginTree l.rows a
  let aa := marginTree l.rows (fun i => (a i).abs)
  let sb := marginTree l.cols b
  let ab := marginTree l.cols (fun j => (b j).abs)
  { c with
    marginRow := l.cols.foldl (fun m j => smUpd (0, 0) (2 * (q.col + j) + q.rowPair)
      (fun x => pairAdd x (mul sa (b j)) (mul aa (b j).abs)) m) c.marginRow
    marginCol := l.rows.foldl (fun m i => smUpd (0, 0) (2 * (q.row + i) + q.colPair)
      (fun x => pairAdd x (mul (a i) sb) (mul (a i).abs ab)) m) c.marginCol
    corner := smUpd (0, 0) q.cornerPair (fun x => pairAdd x (mul sa sb) (mul aa ab)) c.corner }

/-- Margin update of one product in an integer mode (R93). -/
def Canvas.marginInt (c : Canvas) (q : Prod) (l : Lanes) (a b : Nat → Int) : Canvas :=
  let sa := (l.rows.map a).sum
  let sb := (l.cols.map b).sum
  let add (v : Int) (x : Pair) : Pair := (x.1 + word64 v, x.2)
  { c with
    marginRow := l.cols.foldl (fun m j => smUpd (0, 0) (2 * (q.col + j) + q.rowPair) (add (sa * b j)) m) c.marginRow
    marginCol := l.rows.foldl (fun m i => smUpd (0, 0) (2 * (q.row + i) + q.colPair) (add (a i * sb)) m) c.marginCol
    corner := smUpd (0, 0) q.cornerPair (add (sa * sb)) c.corner }

/-- The integer an operand value stands for. -/
def fpInt : Fp → Int
  | .fin n m e => signedUnits n (truncUnits m e 0)
  | _ => 0

/-- One k-step of a command on a canvas: every cell in use, then the margin. -/
def Canvas.kStep (c : Canvas) (mode : Nat) (l : Lanes) (a : List (Fp × Flags)) (b : List Fp) : Canvas :=
  let av (q : Prod) (i : Nat) : Fp := (a.getD (q.off + i) (.zero, {})).1
  let bv (q : Prod) (j : Nat) : Fp := b.getD (q.off + j) .zero
  let step (c : Canvas) (q : Prod) : Canvas :=
    let flags := l.rows.foldl (fun f i => f.or (a.getD (q.off + i) (.zero, {})).2) ({} : Flags)
    let c0 : Canvas := { c with run := c.run.addFlags flags }
    if isIntMode mode then
      (l.rows.foldl (fun c i => l.cols.foldl (fun c j => c.addInt (q.row + i) (q.col + j) (fpInt (av q i)) (fpInt (bv q j))) c)
        c0).marginInt q l (fun i => fpInt (av q i)) (fun j => fpInt (bv q j))
    else
      (l.rows.foldl (fun c i => l.cols.foldl (fun c j => c.addFloat (q.row + i) (q.col + j) (av q i) (bv q j)) c)
        c0).marginFloat q l (av q) (bv q)
  (productsOf (isQuad mode)).foldl step c

/-- Bytes that an engine command reads: its operands, its auxiliary data, and with DRAIN its scale vector (R77, R101). -/
def denseSpans (d : DenseDesc) (masked : Bool) : List Span :=
  let mode := d.mode.toNat % 8
  let stored := d.aFormat.toNat % 16
  let lanes := operandLanes mode
  let k := d.kCount.toNat
  let aux := d.auxBase.toNat
  [⟨d.aBase.toNat, d.aStride.toNat, rowBytes stored lanes, k⟩,
   ⟨d.bBase.toNat, d.bStride.toNat, rowBytes (d.bFormat.toNat % 16) lanes, k⟩] ++
  (if masked then [⟨aux, 0, 2048, 1⟩] else match (d.aFormat.toNat / 16) % 8 with
   | 1 => [⟨aux, 0, if mode = 0 then 32 else 16, 1⟩]
   | 2 => [⟨aux, 0, 8 * lanes, 1⟩]
   | 3 => [⟨aux, d.auxStride.toNat, lanes, k / 32⟩]
   | _ => []) ++
  (if d.control.getLsbD 2 && d.control.getLsbD 3 then [⟨d.sBase.toNat, 0, 4 * lanes, 1⟩] else [])

/-- The fill of a command: its k-steps in order (R75: a dual-k cell takes them one after the other). -/
def Canvas.fill (c : Canvas) (s : State) (p : Nat) (d : DenseDesc) (l : Lanes) (reads : List Span) : Canvas :=
  let k := d.kCount.toNat
  let c1 := (List.range k).foldl
    (fun c k => c.kStep (d.mode.toNat % 8) l (columnOperand s p d k) (rowOperand s p d k)) c
  let slots := reads.foldl (fun n x => n ||| slotsTouched x.addr x.stride x.bytes x.rows) 0
  { c1 with run := { c1.run with
      kDone := c1.run.kDone + k
      slots := c1.run.slots ||| slots
      reads := c1.run.reads ++ reads } }

/-! ### Comparisons (R94, R232 to R234) -/

/-- Counts of a drain's comparisons. -/
structure Tally where
  passed : Nat := 0
  unchecked : Nat := 0
  failed : Nat := 0
  deriving DecidableEq, Repr

def Tally.add (a b : Tally) : Tally := ⟨a.passed + b.passed, a.unchecked + b.unchecked, a.failed + b.failed⟩

/-- |x − y| of two finite values. -/
def absDiff (x y : Fp) : Fp := (fpAddExact x y.neg).abs

/-- A floating-point comparison of a total with its margin pair under the tolerance w · 2^−s · B (Table 10-1). -/
def compareFloat (w : Nat) (sh : Int) (t c b : Fp) : Tally :=
  if !c.isFin || !b.isFin then { unchecked := 1 }
  else if !t.isFin then
    (if fpLt b (.fin false 1 126) then { failed := 1 } else { unchecked := 1 })
  else if fpLt (fpMulExact (.fin false w (-sh)) b) (absDiff t c) then { failed := 1 }
  else { passed := 1 }

/-- A corner comparison: skipped when the corner or the sum is not finite; true when it fails (R234). -/
def cornerFails (w : Nat) (sh : Int) (sum c b : Fp) : Bool :=
  sum.isFin && c.isFin && b.isFin && fpLt (fpMulExact (.fin false w (-sh)) b) (absDiff sum c)

/-- Row and column comparisons of one product in a floating-point mode. -/
def Canvas.compareProd (c : Canvas) (q : Prod) (l : Lanes) : Tally :=
  let k := c.run.kDone + 128
  let cell (i j : Nat) : Fp := cellVal (cellAt c (q.row + i) (q.col + j))
  let rows := l.rows.map (fun i =>
    let m := pairOf c.marginCol (2 * (q.row + i) + q.colPair)
    compareFloat k 21 (runningSum (l.cols.map (cell i))) (wordVal m.1) (wordVal m.2))
  let cols := l.cols.map (fun j =>
    let m := pairOf c.marginRow (2 * (q.col + j) + q.rowPair)
    compareFloat k 21 (runningSum (l.rows.map (fun i => cell i j))) (wordVal m.1) (wordVal m.2))
  (rows ++ cols).foldl Tally.add {}

/-- Row and column comparisons of one product in an integer mode (R94): equality modulo 2^32 when wrapping, exactly when
saturating unless a cell of the row or column saturated. -/
def Canvas.compareProdInt (c : Canvas) (q : Prod) (l : Lanes) : Tally :=
  let cell (i j : Nat) : Int := cellInt (cellAt c (q.row + i) (q.col + j))
  let satd (i j : Nat) : Bool := smGet false c.satd (128 * (q.row + i) + (q.col + j))
  let judge (t : Int) (m : BitVec 64) (sat : Bool) : Tally :=
    if c.run.intSat then
      (if sat then { unchecked := 1 } else if t = m.toInt then { passed := 1 } else { failed := 1 })
    else if (t - m.toInt) % 4294967296 = 0 then { passed := 1 } else { failed := 1 }
  let rows := l.rows.map (fun i => judge (l.cols.map (cell i)).sum
    (pairOf c.marginCol (2 * (q.row + i) + q.colPair)).1 (l.cols.any (satd i)))
  let cols := l.cols.map (fun j => judge (l.rows.map (fun i => cell i j)).sum
    (pairOf c.marginRow (2 * (q.col + j) + q.rowPair)).1 (l.rows.any (fun i => satd i j)))
  (rows ++ cols).foldl Tally.add {}

/-- Whether a corner comparison fails (R234): for each corner pair, the margin-row checksums of the columns it serves in
column order, and the margin-column checksums of its rows in row order. -/
def Canvas.cornerFailed (c : Canvas) (l : Lanes) : Bool :=
  let qs := productsOf (isQuad c.run.mode)
  [0, 1].any (fun n =>
    let mine := qs.filter (fun q => q.cornerPair == n)
    let byCol := (mine.filter (fun q => q.col == 0)) ++ (mine.filter (fun q => q.col != 0))
    let byRow := (mine.filter (fun q => q.row == 0)) ++ (mine.filter (fun q => q.row != 0))
    let rowSum := runningSum (byCol.flatMap (fun q => l.cols.map (fun j =>
      wordVal (pairOf c.marginRow (2 * (q.col + j) + q.rowPair)).1)))
    let colSum := runningSum (byRow.flatMap (fun q => l.rows.map (fun i =>
      wordVal (pairOf c.marginCol (2 * (q.row + i) + q.colPair)).1)))
    let k := pairOf c.corner n
    let w := c.run.kDone + 256
    !mine.isEmpty && (cornerFails w 21 rowSum (wordVal k.1) (wordVal k.2) ||
      cornerFails w 21 colSum (wordVal k.1) (wordVal k.2)))

/-- The same in an integer mode, where the corner's magnitude, and so the tolerance, is zero (R93, R234; log entry 12). -/
def Canvas.cornerFailedInt (c : Canvas) (l : Lanes) : Bool :=
  let qs := productsOf (isQuad c.run.mode)
  [0, 1].any (fun n =>
    let mine := qs.filter (fun q => q.cornerPair == n)
    let rowSum := (mine.flatMap (fun q => l.cols.map (fun j =>
      (pairOf c.marginRow (2 * (q.col + j) + q.rowPair)).1.toInt))).sum
    let colSum := (mine.flatMap (fun q => l.rows.map (fun i =>
      (pairOf c.marginCol (2 * (q.row + i) + q.colPair)).1.toInt))).sum
    let k := (pairOf c.corner n).1.toInt
    !mine.isEmpty && (rowSum != k || colSum != k))

/-- Every comparison of a drain, and whether its corner fails. -/
def Canvas.compareAll (c : Canvas) (l : Lanes) : Tally × Bool :=
  let int := isIntMode c.run.mode
  let t := (productsOf (isQuad c.run.mode)).foldl
    (fun t q => t.add (if int then c.compareProdInt q l else c.compareProd q l)) {}
  (t, if int then c.cornerFailedInt l else c.cornerFailed l)

/-- The detections a drain's comparisons give: of a failed row or column, and of a failed corner (R233, R234). -/
def tallyCodes (t : Tally) (corner : Bool) : List Code :=
  (if 0 < t.failed then [0x2101] else []) ++ (if corner then [0x2103] else [])

/-! ### Draining (R87, R88, R102) -/

/-- One drained row: bytes and flags. Row `i` of the canvas, its column segments, and the scale of each. -/
def drainRow (c : Canvas) (fmt i : Nat) (cols : List Nat) (scale : Nat → Option Fp) : Bytes × Flags :=
  cols.foldl (fun acc j =>
    let cell := cellAt c i j
    let r := if fmt = 5 then (leBytes 4 (cell.toNat % 2 ^ 32), ({} : Flags))
      else drainElem fmt (match scale (j / 64) with
        | some x => fpMulExact (cellVal cell) x
        | none => cellVal cell)
    (acc.1 ++ r.1, acc.2.or r.2)) ([], {})

/-- A completion record (Table 4-14). -/
def completionRecord (cid : BitVec 64) (status : Code) (flags passed unchecked : Nat) : Bytes :=
  leBytes 8 cid.toNat ++ leBytes 2 status.toNat ++ leBytes 2 flags ++ leBytes 2 passed ++ leBytes 2 unchecked

/-- Completion flags of a run. -/
def Run.flagBits (r : Run) (unchecked : Nat) : Nat :=
  b2n r.ovf + 2 * b2n r.nan + 4 * b2n r.sat + 8 * b2n r.wrap + 16 * b2n (decide (0 < r.refires)) +
    32 * b2n (decide (0 < unchecked))

def canvasOf (t : Tile) (b : Bool) : Canvas := if b then t.canvasB else t.canvasA
def Tile.setCanvas (t : Tile) (b : Bool) (c : Canvas) : Tile :=
  if b then { t with canvasB := c } else { t with canvasA := c }

/-- Add the counts of a completion record to the step's (R102), and a CHECK record. -/
def State.countChecks (s : State) (p : Nat) (cid : BitVec 64) (t : Tally) : State :=
  ({ s with step := { s.step with
      checksPassed := s.step.checksPassed + BitVec.ofNat 64 t.passed
      checksUnchecked := s.step.checksUnchecked + BitVec.ofNat 64 t.unchecked } }).traceAt 5
    (decide (0 < t.unchecked) || decide (0 < t.failed)) (BitVec.ofNat 12 p) cid
    (t.passed + 65536 * t.unchecked + 2 ^ 32 * t.failed)

/-- The rows a drain writes: their addresses, bytes and flags (R87). -/
def drainRows (s : State) (p : Nat) (d : DenseDesc) (c : Canvas) (l : Lanes) : List (Nat × Bytes) × Flags :=
  let quad := isQuad c.run.mode
  let rows := if quad then l.rows ++ l.rows.map (· + 64) else l.rows
  let cols := if quad then l.cols ++ l.cols.map (· + 64) else l.cols
  let scale (i seg : Nat) : Option Fp :=
    if d.control.getLsbD 3 then
      some (readFp32 s p (d.sBase.toNat + 4 * (if quad then 2 * i + seg else i)))
    else none
  rows.foldl (fun acc i =>
    let r := drainRow c d.dFormat.toNat i cols (scale i)
    (acc.1 ++ [(d.dBase.toNat + i * d.dStride.toNat, r.1)], acc.2.or r.2)) ([], {})

/-- Write rows of bytes at their addresses. -/
def State.writeRows (s : State) (p : Nat) (rows : List (Nat × Bytes)) : State :=
  rows.foldl (fun s r => s.tileWrite p r.1 r.2) s

/-- Everything a run drains: memory rows, or the packed cells that go onto the partial chain, and the flags. -/
structure Drained where
  rows : List (Nat × Bytes) := []
  chain : Option (List (BitVec 36)) := none
  flags : Flags := {}

/-- The bytes of a drain in write order: its rows, or its flits (R246). -/
def Drained.bytes (o : Drained) : Bytes :=
  o.rows.flatMap (·.2) ++ (match o.chain with | some cells => packCells cells | none => [])

/-- Command ID of a tile command. -/
def TileOp.cid : TileOp → BitVec 64
  | .dense d | .save d | .restore d | .masked d => d.cid
  | .sparse d => d.cid
  | .plate _ d => d.cid
  | .mask _ d => d.cid
  | .transpose d => d.cid
  | .push d => d.cid
  | .pop d => d.cid
  | .layer _ d => d.cid
  | .vec _ d => d.cid
  | .palette d => d.cid
  | .loss d => d.cid
  | .opt d => d.cid
  | .recv d => d.cid
  | .syncSignal d | .syncWait d => d.cid

/-- Whether a command drains onto the partial chain (R162). -/
def TileOp.chains : TileOp → Option (BitVec 64)
  | .dense d => if d.control.getLsbD 2 && d.dFormat == 6 then some d.cid else none
  | .masked d => if d.control.getLsbD 2 && d.dFormat == 6 then some d.cid else none
  | _ => none

/-- The canvas of its column that a CHAIN drain adds to: the one that the schedule binds it to, otherwise, the one whose number
is the command's among the tile's CHAIN drains (log entry 19). -/
def chainNumber (s : State) (tile : Nat) (cid : BitVec 64) : Nat :=
  match s.prog.bindings.chains.find? (fun c => c.tile == tile && c.cid == cid) with
  | some c => c.total
  | none => ((s.tileProg tile).cmds.filterMap TileOp.chains).findIdx (· == cid)

/-- A canvas is held for the chain (R162). -/
def State.holdCanvas (s : State) (tile p : Nat) (cid : BitVec 64) (cells : List (BitVec 36)) : State :=
  s.updTile p (fun x => { x with heldCanvases := x.heldCanvases ++ [⟨cid, chainNumber s tile cid, cells, false, false⟩] })

/-- The completion record of a command with DRAIN, and its counts (R102). A record that would fall into an open sparse run's array
ends in 0x9009 instead (R144). -/
def State.putRecord (s : State) (p : Nat) (cid : BitVec 64) (addr : Nat) (status : Code) (flags : Nat) (t : Tally) : State :=
  (match writeFault s p addr 16 with
   | some c => s.tileFault p 2 cid c
   | none => s.tileWrite p addr (completionRecord cid status flags t.passed t.unchecked)).countChecks p cid t

/-- What a DENSE_MM drains: a CHAIN drain sends all 16,384 cells, cell (i, j) as element 128 i + j (R162, Table 9-5). -/
def denseDrained (s : State) (p : Nat) (d : DenseDesc) (c : Canvas) (l : Lanes) : Drained :=
  if d.dFormat = 6 then
    { chain := some ((List.range 16384).map (fun k => smGet 0 c.cells k)) }
  else
    let r := drainRows s p d c l
    { rows := r.1, flags := r.2 }

/-- Rows and columns 0 to M − 1 and N − 1 of a command. -/
def denseLanes (d : DenseDesc) : Lanes := ⟨List.range (d.mMinus1.toNat + 1), List.range (d.nMinus1.toNat + 1)⟩

/-- The run a CLEAR command opens. -/
def openRun (d : DenseDesc) : Run :=
  { openId := d.cid, mode := d.mode.toNat % 8, mMinus1 := d.mMinus1.toNat, nMinus1 := d.nMinus1.toNat, isOpen := true,
    intSat := d.control.getLsbD 4 }

/-- Whether a command may continue a canvas's run (R83, R97): open, of the same mode, M, N and INT_SAT, and of at most
1,048,576 k-steps with it. DEDUCED for the last (log entry 23). -/
def continues (d : DenseDesc) (r : Run) : Bool :=
  r.isOpen && r.mode == d.mode.toNat % 8 && r.mMinus1 == d.mMinus1.toNat && r.nMinus1 == d.nMinus1.toNat &&
    (!isIntMode r.mode || r.intSat == d.control.getLsbD 4) && decide (r.kDone + d.kCount.toNat ≤ 1048576)

/-- Multiply-accumulates in lanes in use of a command (Table 17-6). -/
def macsOf (d : DenseDesc) (l : Lanes) : Nat :=
  d.kCount.toNat * l.rows.length * l.cols.length * (if isQuad (d.mode.toNat % 8) then 4 else 1)

/-- An engine command on a canvas: opens or continues a run, fills it, settles its detections, and with DRAIN closes the
run, writes what it drains, its completion record and its counts (R83, R95, R102). -/
def engineCmd (t : Site) (d : DenseDesc) (l : Lanes) (masked : Bool) (drained : State → Canvas → Drained) (p : Nat)
    (s : State) : Done :=
  let which := d.control.getLsbD 0
  let drain := d.control.getLsbD 2
  let record (s : State) (status : Code) (flags : Nat) (n : Tally) : State :=
    if drain then s.putRecord p d.cid d.cmplAddr.toNat status flags n else s
  let c0 := canvasOf (tileOf s p) which
  if !d.control.getLsbD 1 && !continues d c0.run then
    { state := record (s.tileFault p 1 d.cid 0x210A) 0x210A 0 {}, status := 0x210A }
  else
    let c1 : Canvas := if d.control.getLsbD 1 then { run := openRun d } else c0
    let reads := denseSpans d masked
    let c2 := c1.fill s p d l reads
    let lines := readDetections s p reads
    let s1 := s.count p 2 (macsOf d l)
    let put (s : State) (run : Run) : State := s.updTile p (fun x => x.setCanvas which { c2 with run := run })
    if drain then
      let cmp := c2.compareAll l
      let o := drained s c2
      let r := s1.settle t p { block := 1, cid := d.cid, done := c2.run.refires, marked := c2.run.suspect
                               computed := lines ++ tallyCodes cmp.1 cmp.2, result := o.bytes }
      let run := { c2.run with
        refires := r.2.1
        isOpen := false }
      if r.2.2 ≠ 0 then
        { state := record (put r.1 run) r.2.2 (run.flagBits cmp.1.unchecked) cmp.1, status := r.2.2 }
      else
        let run2 := run.addFlags o.flags
        let fl := run2.flagBits cmp.1.unchecked
        match firstCode (o.rows.map (fun x => writeFault s p x.1 x.2.length) ++ [writeFault s p d.cmplAddr.toNat 16]) with
        | some f => { state := record (put (r.1.tileFault p 2 d.cid f) run2) f fl cmp.1, status := f }
        | none =>
          let s2 := put r.1 run2
          let s3 := match o.chain with
            | some cells => s2.holdCanvas t.tile p d.cid cells
            | none => s2
          { state := record (s3.writeRows p o.rows) 0 fl cmp.1
            flags := fl }
    else
      let r := s1.refireAll p 1 d.cid c2.run.refires (attempts s.budget t.det lines)
      { state := put r.1 { c2.run with
          refires := r.2.1
          suspect := c2.run.suspect || !t.suspect.isEmpty }
        status := r.2.2
        flags := c2.run.flagBits 0 }

/-- DENSE_MM (R72 to R95, R98, R102). -/
def execDenseMm (t : Site) (d : DenseDesc) (s : State) : Host.Outcome State Fault Refusal :=
  tileCmd t d.cid 0x10 0 (denseCheck d false)
    (fun t p s => engineCmd t d (denseLanes d) false (fun s c => denseDrained s p d c (denseLanes d)) p s) s

/-! ### Canvas images (R96, R97, Tables 4-10 and 4-11) -/

/-- The pairs of `n` margin cells of an image from an address. -/
def readPairs (s : State) (p addr n : Nat) : SMap Pair :=
  (List.range (2 * n)).foldl (fun m k => smPut (0, 0) k
    (BitVec.ofNat 64 (tileNum s p (addr + 16 * k) 8), BitVec.ofNat 64 (tileNum s p (addr + 16 * k + 8) 8)) m) []

/-- The run state at an address, none when it breaks Table 4-11. -/
def readRun (s : State) (p addr : Nat) : Option Run :=
  let mode := tileNum s p (addr + 12) 1
  let m := tileNum s p (addr + 13) 1
  let n := tileNum s p (addr + 14) 1
  let f := tileNum s p (addr + 15) 1
  let k := tileNum s p (addr + 8) 4
  let limit := if isQuad mode then 64 else 128
  if 6 ≤ mode ∨ 1048576 < k ∨ limit ≤ m ∨ limit ≤ n ∨ 64 ≤ f ∨ (bitOf f 5 ∧ ¬ isIntMode mode) ∨
      tileNum s p (addr + 16) 16 ≠ 0 then none
  else some { openId := BitVec.ofNat 64 (tileNum s p addr 8), kDone := k, mode := mode, mMinus1 := m, nMinus1 := n,
              ovf := bitOf f 0, nan := bitOf f 1, sat := bitOf f 2, wrap := bitOf f 3, isOpen := bitOf f 4,
              intSat := bitOf f 5 }

/-- The canvas an image describes. -/
def readCanvas (s : State) (p addr : Nat) (r : Run) : Canvas :=
  let word (k : Nat) : Nat := tileNum s p (addr + 8 * k) 8
  { cells := (List.range 16384).foldl (fun m k => smPut 0 k (BitVec.ofNat 36 (word k)) m) []
    satd := if isIntMode r.mode then (List.range 16384).foldl (fun m k => smPut false k (bitOf (word k) 36) m) [] else []
    marginRow := readPairs s p (addr + 0x20000) 128
    marginCol := readPairs s p (addr + 0x21000) 128
    corner := readPairs s p (addr + 0x22000) 1
    run := r }

/-- CANVAS_SAVE (R96): the image goes to tile memory; the canvas and its run are unchanged. -/
def execCanvasSave (t : Site) (d : DenseDesc) (s : State) : Host.Outcome State Fault Refusal :=
  tileCmd t d.cid 0x18 0 (denseImageCheck d true) (fun t p s =>
    let which := d.control.getLsbD 0
    let c := canvasOf (tileOf s p) which
    match writeFault s p d.dBase.toNat 139328 with
    | some f => { state := s.tileFault p 2 d.cid f, status := f }
    | none =>
      let r := s.settle t p { block := 2, cid := d.cid, done := c.run.refires, result := canvasImage c }
      let s1 := r.1.updTile p (fun x => x.setCanvas which { c with run := { c.run with refires := r.2.1 } })
      if r.2.2 ≠ 0 then { state := s1, status := r.2.2 }
      else { state := s1.tileWrite p d.dBase.toNat (canvasImage c) }) s

/-- CANVAS_RESTORE (R96, R97): opens the run the image describes, or fails with 0x210A when its run state breaks Table
4-11. -/
def execCanvasRestore (t : Site) (d : DenseDesc) (s : State) : Host.Outcome State Fault Refusal :=
  tileCmd t d.cid 0x19 0 (denseImageCheck d false) (fun t p s =>
    let reads : List Span := [⟨d.aBase.toNat, 0, 139328, 1⟩]
    match readRun s p (d.aBase.toNat + 0x22020) with
    | none => { state := s.tileFault p 1 d.cid 0x210A, status := 0x210A }
    | some run =>
      let r := s.refireAll p 1 d.cid 0 (attempts s.budget t.det (readDetections s p reads))
      { state := r.1.updTile p (fun x => x.setCanvas (d.control.getLsbD 0)
          (readCanvas s p d.aBase.toNat { run with
            refires := r.2.1
            reads := reads
            suspect := !t.suspect.isEmpty }))
        status := r.2.2 }) s

end Sys2Proof.Machine
end

