-- ==== Sys2Proof/Machine/SyncOps.lean ====
section
/-! DEFINITION. Sys2Proof/Machine/SyncOps.lean: sync objects (chapter 12): operations at a head-end, barriers, gates and
realignment, waits of tiles, reads, hand-sets, dumps, and the messages that leave by the Rill and the Zlinks. An operation
that a tile or a port block sends is a Rill message in `rillOut`; it takes effect when its row reaches a head-end. -/

namespace Sys2Proof.Machine

/-! ### Messages -/

/-- A Rill SYNC_SIGNAL (Table 3-9): object, op byte and the sender's step in the first word, operand in the second
(log entry 17). -/
def syncMsg (src : BitVec 12) (obj op : Nat) (stepLow : BitVec 32) (operand : BitVec 64) : RillMsg :=
  ⟨BitVec.ofNat 12 (0xF00 + obj % 4), src, false, 0x01, 0,
    [BitVec.ofNat 64 (obj + 65536 * op + 2 ^ 32 * stepLow.toNat), operand]⟩

/-- A Rill SYNC_WAKE: object and the UNCOUNTED mark in the first word, the new value in the second. -/
def wakeMsg (site : BitVec 12) (obj value : Nat) (uncounted : Bool) : RillMsg :=
  ⟨site, BitVec.ofNat 12 (0xF00 + obj % 4), false, 0x02, 0,
    [BitVec.ofNat 64 (obj + 65536 * b2n uncounted), BitVec.ofNat 64 value]⟩

/-! ### Privileged queues (R293, Table 12-9) -/

/-- The queues that have made no progress for 10 ms (R294, Table 12-8), as a bitmap. -/
def blockedQueues (s : State) : BitVec 101 :=
  BitVec.ofNat 101 ((List.range 101).foldl (fun a q =>
    a + b2n (decide (11000000 ≤ (s.now - smGet 0 s.sync.progressAt q).toNat)) * 2 ^ q) 0)

/-! ### Objects (Tables 12-1 and 12-2) -/

def SyncObj.kind (o : SyncObj) : Nat := o.config.toNat % 4
def SyncObj.isRun (o : SyncObj) : Bool := o.config.getLsbD 2
def SyncObj.isGate (o : SyncObj) : Bool := o.config.getLsbD 3
def SyncObj.realigns (o : SyncObj) : Bool := o.config.getLsbD 4
def SyncObj.participants (o : SyncObj) : Nat := bitsOf o.config.toNat 19 8 + 1
def SyncObj.stride (o : SyncObj) : Nat := bitsOf o.config.toNat 63 32
def SyncObj.isRunCounter (o : SyncObj) : Bool := o.kind == 1 && o.isRun
def SyncObj.value (o : SyncObj) : Nat := bitsOf o.state.toNat 47 0
def SyncObj.setValue (o : SyncObj) (v : Nat) : SyncObj := { o with state := BitVec.ofNat 64 (v % 2 ^ 48) }
def SyncObj.round (o : SyncObj) : Nat := bitsOf o.state.toNat 15 0
def SyncObj.arrived (o : SyncObj) : Nat := bitsOf o.state.toNat 28 16
def SyncObj.leaving (o : SyncObj) : Nat := bitsOf o.state.toNat 44 32
def SyncObj.localArrivals (o : SyncObj) : Nat := bitsOf o.state.toNat 57 45

/-- A barrier's state word. -/
def barrierWord (round arrived leaving loc : Nat) : BitVec 64 :=
  BitVec.ofNat 64 (round % 65536 + 2 ^ 16 * (arrived % 8192) + 2 ^ 32 * (leaving % 8192) + 2 ^ 45 * (loc % 8192))

/-- BASE and K of a RUN counter (R288). -/
def SyncObj.baseVal (o : SyncObj) : Nat := bitsOf o.base.toNat 47 0
def SyncObj.baseK (o : SyncObj) : Nat := bitsOf o.base.toNat 63 48

/-- The target of a WAIT (R280). -/
def SyncObj.target (o : SyncObj) (threshold : Nat) : Nat :=
  if o.isRunCounter then o.baseVal + o.stride * o.baseK + threshold else threshold

/-- A last-signaller record (Table 12-6). -/
def signaller (kind : BitVec 2) (src : BitVec 16) (op : Nat) (stepLow : BitVec 32) : BitVec 64 :=
  BitVec.ofNat 64 (kind.toNat + 4 * src.toNat + 2 ^ 18 * (op % 256) + 2 ^ 32 * stepLow.toNat)

def State.obj (s : State) (i : Nat) : SyncObj := objOf s.sync i
def State.setObj (s : State) (i : Nat) (o : SyncObj) : State := { s with sync := s.sync.setObj i o }

/-- A step whose number is a multiple of realign_period (R288). -/
def State.realignStep (s : State) : Bool :=
  s.prog.realignPeriod != 0 && s.step.number.toNat % s.prog.realignPeriod == 0

/-! ### Waiters (R280) -/

/-- Insert a waiter in site order. -/
def addWaiter (w : Waiter) : List Waiter → List Waiter
  | [] => [w]
  | x :: r => if w.site.toNat < x.site.toNat then w :: x :: r else x :: addWaiter w r

/-- Remove the waiters that satisfy `p` and send each its wake. -/
def State.wakeWhere (s : State) (p : Waiter → Bool) (value : Nat) : State :=
  (s.sync.waiters.filter p).foldl (fun s w => s.sendRill (wakeMsg w.site w.obj value false))
    { s with sync := { s.sync with waiters := s.sync.waiters.filter (fun w => !p w) } }

/-- Wake the satisfied waiters of a counter. -/
def State.wakeSatisfied (s : State) (i : Nat) : State :=
  let v := (s.obj i).value
  s.wakeWhere (fun w => w.obj == i && w.op == 3 && decide (w.target ≤ v)) v

/-! ### Completing a round (R283, R285, R288) -/

/-- Realignment of one counter: BASE becomes VALUE, K 0, and a drift is reported. -/
def State.realignOne (s : State) (i : Nat) : State :=
  let o := s.obj i
  if o.isRunCounter && o.realigns then
    let drift : Int := (o.value : Int) - ((o.baseVal : Int) + o.stride * o.baseK)
    let s1 := s.setObj i { o with base := BitVec.ofNat 64 o.value }
    if drift = 0 then s1
    else s1.raise 0x6006 moduleWide noCmd i (BitVec.ofNat 64 (patternOf 49 drift))
  else s

/-- Realign every realigned counter. -/
def State.realign (s : State) : State := (s.sync.objs.map (·.1)).foldl State.realignOne s

/-- A barrier's round completes. -/
def State.completeRound (s : State) (i : Nat) : State :=
  let o := s.obj i
  let r := (o.round + 1) % 65536
  let gs := if o.gateSet then o.gateStep + 1 else low32 s.currentStep
  let o1 := { o with
    state := barrierWord r 0 o.waitArrivals 0
    waitArrivals := 0
    gateStep := if o.isGate then gs else o.gateStep
    gateSet := o.gateSet || o.isGate }
  let s1 := (s.setObj i o1).wakeWhere (fun w => w.obj == i && w.op == 4) r
  if o.realigns then s1.realign else s1

/-! ### Operations at a head-end (R279 to R285) -/

/-- A refused operation: its status, with the object as detail. -/
def State.syncFault (s : State) (m : SyncMsg) (code : Code) : State :=
  s.raise code ⟨if m.srcKind = 0 then m.src.setWidth 12 else 0xFFF, 0⟩ noCmd m.syncId.toNat

/-- The site of a Rill sender already has a wait. -/
def State.alreadyWaits (s : State) (m : SyncMsg) : Bool :=
  s.sync.waiters.any (fun w => w.site == m.src.setWidth 12)

/-- Who may send an operation: anyone ADD and ARRIVE; WAIT a site of this module or Kellet firmware; ARRIVE_WAIT and LEAVE a site
of this module (R279, R280, R283). -/
def senderMay (srcKind : BitVec 2) (code : Nat) : Bool :=
  decide (code < 3) || srcKind == 0 || (code == 3 && srcKind == 3)

/-- Whether an operation breaks R279: another code in bits [2:0], an unused object, reserved bits, a kind that does not accept it,
operand bits, or a sender that may not send it. -/
def syncInvalid (s : State) (m : SyncMsg) (code : Nat) : Bool :=
  let o := s.obj m.syncId.toNat
  m.op.toNat % 8 != code || decide (0x8000 ≤ m.syncId.toNat) || decide (m.op.toNat / 8 % 16 ≠ 0) ||
    !kindAccepts o.config code || !syncOperandOk code m.operand || !senderMay m.srcKind code

/-- ADD (R278, R281). -/
def State.syncAdd (s : State) (m : SyncMsg) : State :=
  let i := m.syncId.toNat
  let o := s.obj i
  if syncInvalid s m 1 then s.syncFault m 0x6001
  else if o.kind = 3 ∧ m.op.toNat < 128 then s.syncFault m 0x6002
  else if 2 ^ 48 ≤ o.value + m.operand.toNat then s.syncFault m 0x6003
  else (s.setObj i { o.setValue (o.value + m.operand.toNat) with
      last := signaller m.srcKind m.src m.op.toNat m.stepLow }).wakeSatisfied i

/-- WAIT (R280). -/
def State.syncWaitOp (s : State) (m : SyncMsg) : State :=
  let i := m.syncId.toNat
  let o := s.obj i
  if syncInvalid s m 3 || s.alreadyWaits m then s.syncFault m 0x6001
  else
    let tgt := o.target m.operand.toNat
    if tgt ≤ o.value then s.sendRill (wakeMsg (m.src.setWidth 12) i o.value false)
    else { s with sync := { s.sync with
      waiters := addWaiter ⟨m.src.setWidth 12, 3, i, tgt⟩ s.sync.waiters } }

/-- An arrival is answered at once with the UNCOUNTED mark, when it waits. -/
def State.uncounted (s : State) (m : SyncMsg) (waits : Bool) : State :=
  if waits then s.sendRill (wakeMsg (m.src.setWidth 12) m.syncId.toNat (s.obj m.syncId.toNat).round true) else s

/-- An arrival counts into the filling round, unless it overruns (R283, R284). -/
def State.countArrival (s : State) (m : SyncMsg) (waits : Bool) : State :=
  let i := m.syncId.toNat
  let o := s.obj i
  if o.participants < o.arrived + 1 + o.leaving then (s.setObj i { o with overrun := true }).syncFault m 0x6004
  else
    let loc := if o.isGate && m.srcKind != 1 then o.localArrivals + 1 else o.localArrivals
    let s1 := s.setObj i { o with
      state := barrierWord o.round (o.arrived + 1) o.leaving loc
      last := signaller m.srcKind m.src m.op.toNat m.stepLow
      waitArrivals := if waits then o.waitArrivals + 1 else o.waitArrivals }
    let s2 := if waits then { s1 with sync := { s1.sync with
        waiters := addWaiter ⟨m.src.setWidth 12, 4, i, (o.round + 1) % 65536⟩ s1.sync.waiters } }
      else s1
    if o.participants ≤ o.arrived + 1 then s2.completeRound i else s2

/-- ARRIVE and ARRIVE_WAIT (R283 to R285, R288). -/
def State.syncArrive (s : State) (m : SyncMsg) (waits : Bool) : State :=
  let i := m.syncId.toNat
  let o := s.obj i
  if syncInvalid s m (if waits then 4 else 2) || (waits && s.alreadyWaits m) then s.syncFault m 0x6001
  else if o.realigns && !s.realignStep then s.uncounted m waits
  else if o.isGate then
    let s0 := if o.gateSet then s else s.setObj i { o with gateStep := m.stepLow - 1, gateSet := true }
    let d := (m.stepLow - (s0.obj i).gateStep).toNat
    if d = 1 then s0.countArrival m waits
    else if d = 0 ∨ 2 ^ 31 ≤ d then s0.uncounted m waits
    else (s0.setObj i { s0.obj i with overrun := true }).syncFault m 0x6004
  else s.countArrival m waits

/-- LEAVE (R279, R283). -/
def State.syncLeave (s : State) (m : SyncMsg) : State :=
  let i := m.syncId.toNat
  let o := s.obj i
  if syncInvalid s m 5 || o.leaving == 0 then s.syncFault m 0x6001
  else s.setObj i { o with state := barrierWord o.round o.arrived (o.leaving - 1) o.localArrivals }

/-- The operation of a message by the code of its op byte; a reserved code is 0x6001 (R279). -/
def State.syncOp (s : State) (m : SyncMsg) : State :=
  match m.op.toNat % 8 with
  | 1 => s.syncAdd m
  | 2 => s.syncArrive m false
  | 3 => s.syncWaitOp m
  | 4 => s.syncArrive m true
  | 5 => s.syncLeave m
  | _ => s.syncFault m 0x6001

/-- An operation reaches its head-end, whose queue makes progress when the operation is applied: when it is not one that R279 refuses
(R293). -/
def State.atHeadEnd (s : State) (m : SyncMsg) (code : Nat) (f : State → State) : State :=
  f (if syncInvalid s m code then s else s.progress (headEndQueue m.syncId.toNat))

/-- SYNC_ADD: an ADD reaches its head-end. -/
def execSyncAdd (m : SyncMsg) (s : State) : Host.Outcome State Fault Refusal := .next (s.atHeadEnd m 1 (·.syncAdd m))
/-- ARRIVE: an arrival reaches its head-end. -/
def execArrive (m : SyncMsg) (s : State) : Host.Outcome State Fault Refusal := .next (s.atHeadEnd m 2 (·.syncArrive m false))
/-- WAIT: a wait reaches its head-end. -/
def execWait (m : SyncMsg) (s : State) : Host.Outcome State Fault Refusal := .next (s.atHeadEnd m 3 (·.syncWaitOp m))
/-- ARRIVE_WAIT: an arrival that waits reaches its head-end. -/
def execArriveWait (m : SyncMsg) (s : State) : Host.Outcome State Fault Refusal :=
  .next (s.atHeadEnd m 4 (·.syncArrive m true))
/-- LEAVE: a sequencer's LEAVE reaches its head-end. -/
def execLeave (m : SyncMsg) (s : State) : Host.Outcome State Fault Refusal := .next (s.atHeadEnd m 5 (·.syncLeave m))

/-- A wake at a tile: its sequencer issues again and returns LEAVE for a counted barrier wake (R283); a sequencer that does not wait
on that object takes no notice. -/
def State.wakeTile (s : State) (tile obj : Nat) (uncounted : Bool) : State :=
  if (tileOf s tile).waiting = some obj then
    let s1 := (s.updTile tile (fun t => { t with waiting := none })).traceAt 7 false (BitVec.ofNat 12 tile) noCmd
      (obj + 2 ^ 24)
    if (s.obj obj).kind == 2 && !uncounted then
      s1.sendRill (syncMsg (BitVec.ofNat 12 tile) obj 5 (low32 s.currentStep) 0) else s1
  else s

/-- SYNC_WAKE reaches a tile (physical index), or comes back from a dark field (R70). -/
def execSyncWake (tile obj : Nat) (value : BitVec 64) (uncounted : Bool) (s : State) : Host.Outcome State Fault Refusal :=
  if physicalTiles ≤ tile then .next s
  else .next (s.rillAt (wakeMsg (BitVec.ofNat 12 tile) obj value.toNat uncounted) (·.wakeTile tile obj uncounted))

/-! ### Tile commands (R282) -/

/-- The body of a Zlink SIGNAL (Table 11-12). -/
def signalBody (stepLow : BitVec 32) (syncId : BitVec 16) (channel op : Nat) (count : Nat) (operand : BitVec 64) : Bytes :=
  leBytes 4 stepLow.toNat ++ leBytes 2 syncId.toNat ++ leBytes 1 channel ++ leBytes 1 op ++ leBytes 8 (count % 2 ^ 48) ++
    leBytes 8 operand.toNat

/-- SYNC_SIGNAL: to a local head-end, or through the port block of the tile's column to a peer, with the bytes that port
block has sent on the stream it names. -/
def execSyncSignal (t : Site) (d : SyncDesc) (s : State) : Host.Outcome State Fault Refusal :=
  tileCmd t d.cid 0x58 3 (syncCheck true (smGet 0 s.prog.syncTable d.syncId.toNat) d) (fun t p s =>
    let s1 := s.traceAt 7 false (BitVec.ofNat 12 p) d.cid (d.syncId.toNat + 65536 * d.op.toNat)
    if d.destId = 0xFFFF then
      { state := s1.sendRill (syncMsg (BitVec.ofNat 12 p) d.syncId.toNat d.op.toNat (low32 s.currentStep) d.operand) }
    else
      let pb := colOf t.tile / 2
      let n := smGet 0 (pbOf s pb).sentBytes (streamKey d.destId d.channel.toNat)
      { state := (s1.zSend pb ⟨d.destId, 0x30, d.destPb,
          signalBody (low32 s.currentStep) d.syncId d.channel.toNat d.op.toNat n d.operand⟩).progress (signalQueue pb) })
    s (.vote :: workPhases)

/-- SYNC_WAIT: the sequencer issues nothing more until the wake. -/
def execSyncWait (t : Site) (d : SyncDesc) (s : State) : Host.Outcome State Fault Refusal :=
  tileCmd t d.cid 0x59 3 (syncCheck false (smGet 0 s.prog.syncTable d.syncId.toNat) d) (fun _ p s =>
    let s1 := s.traceAt 7 false (BitVec.ofNat 12 p) d.cid (d.syncId.toNat + 65536 * d.op.toNat)
    { state := (s1.updTile p (fun x => { x with waiting := some d.syncId.toNat })).sendRill
        (syncMsg (BitVec.ofNat 12 p) d.syncId.toNat d.op.toNat (low32 s.currentStep) d.operand) }) s (.vote :: workPhases)

/-! ### Steps (R286 to R288) -/

/-- The objects a program's sync table gives, at their reset state (R277, R302). -/
def syncInstall (table : SMap (BitVec 64)) : Sync :=
  { objs := (table.filter (fun x => x.2.toNat % 4 ≠ 0)).map (fun x => (x.1, { config := x.2 })) }

/-- OPEN (R286): STEP objects reset with their waiters, RUN objects imaged. -/
def Sync.openStep (y : Sync) : Sync :=
  let isRun (i : Nat) : Bool := (objOf y i).isRun
  { y with
    objs := y.objs.map (fun x => (x.1, if x.2.isRun then { x.2 with overrun := false, handSet := false }
      else { config := x.2.config }))
    image := y.objs.filter (fun x => x.2.isRun)
    waiters := y.waiters.filter (fun w => isRun w.obj)
    stepHandSet := false }

/-- A discard (R287). -/
def Sync.discard (y : Sync) : Sync :=
  { y with
    waiters := []
    objs := y.objs.map (fun x =>
      let o := x.2
      (x.1,
        if !o.isRun then { config := o.config, overrun := o.overrun, handSet := o.handSet }
        else if o.isGate then
          { o with
            state := barrierWord o.round (o.arrived - o.localArrivals) 0 0
            waitArrivals := 0 }
        else { objOf { y with objs := y.image } x.1 with
               config := o.config
               overrun := o.overrun
               handSet := o.handSet })) }

/-- SEAL (R288): K of every RUN counter rises, saturating. -/
def Sync.sealStep (y : Sync) : Sync :=
  { y with objs := y.objs.map (fun x => (x.1,
      if x.2.isRunCounter then
        { x.2 with base := BitVec.ofNat 64 (x.2.baseVal + 2 ^ 48 * min (x.2.baseK + 1) 65535) }
      else x.2)) }

/-! ### Records and dumps (R289, R292) -/

/-- A sync object record (Table 12-6). -/
def objRecord (y : Sync) (i : Nat) : Bytes :=
  let o := objOf y i
  leBytes 8 o.state.toNat ++ leBytes 8 o.base.toNat ++ leBytes 8 o.last.toNat ++
    leBytes 2 (y.waiters.filter (fun w => w.obj == i)).length ++
    leBytes 1 (o.config.toNat % 32 + 32 * b2n o.overrun + 64 * b2n o.handSet) ++ zeros 1 ++
    leBytes 4 (if o.isGate then o.gateStep.toNat else 0)

/-- A waiter entry (Table 12-7). -/
def waiterEntry (w : Waiter) : Bytes := leBytes 8 (w.site.toNat + 2 ^ 12 * w.op.toNat + 2 ^ 16 * (w.target % 2 ^ 48))

/-- The entry of the waiter table that a site has (R280): the physical tiles, then the port blocks, then the five Kellet cores, which
send from 0xF00 upward (log entry 17). -/
def waiterIndex (site : BitVec 12) : Nat :=
  if site.toNat < 0xB00 then site.toNat else if site.toNat < 0xF00 then physicalTiles + (site.toNat - 0xB00)
  else physicalTiles + 24 + (site.toNat - 0xF00)

/-- The waiter table of a dump: an entry of each site, zero where it is free. -/
def waiterTable (l : List Waiter) : Bytes :=
  (List.range 2717).flatMap (fun i => match l.find? (fun w => waiterIndex w.site == i) with
    | some w => waiterEntry w
    | none => zeros 8)

/-- A sync dump (Table 12-8). -/
def syncDumpBytes (s : State) (reason : Nat) (queues : BitVec 101) : Bytes :=
  leBytes 8 s.now.toNat ++ leBytes 8 s.step.number.toNat ++ leBytes 1 reason ++ leBytes 1 s.step.phase.code ++
    leBytes 2 s.sync.waiters.length ++ zeros 4 ++ leBytes 16 queues.toNat ++ zeros 24 ++
    (List.range 32768).flatMap (objRecord s.sync) ++
    waiterTable s.sync.waiters

/-- Write a sync dump. -/
def State.writeSyncDump (s : State) (reason : Nat) (queues : BitVec 101) : State :=
  { s with sync := { s.sync with dump := some (reason, syncDumpBytes s reason queues) } }

/-- Something waits (R294): a registered waiter, a half stretched or held in the schedule, a module in VOTE, a pending slot in use,
or a first touch. -/
def State.somethingWaits (s : State) : Bool :=
  !s.sync.waiters.isEmpty || s.mesh.stalled || s.step.phase == .vote || s.pbs.any (fun x => !x.2.pendingSignals.isEmpty) ||
    s.tiles.any (fun x => x.2.touching)

/-- DEADLOCK (R294): 10 ms have passed without progress of the queues of the bitmap. The detector fires when those are all 101 and
something waits; it changes no state but its dump and fires again only after a queue has made progress. -/
def execDeadlock (queues : BitVec 101) (s : State) : Host.Outcome State Fault Refusal :=
  if s.sync.armed ∧ queues = BitVec.allOnes 101 ∧ s.somethingWaits then
    let s1 := (s.raise 0x6005 moduleWide).writeSyncDump 1 queues
    .next { s1 with sync := { s1.sync with armed := false } }
  else .next s

end Sys2Proof.Machine
end

