-- ==== Sys2Proof/Machine/Reduce.lean ====
section
/-! DEFINITION. Sys2Proof/Machine/Reduce.lean: the partial chain and its totals (R208, R209), XS96 and the Kiln units (R212 to
R225), stragglers, the late pool and contributor records (R226 to R228), and the vote (R229, R230). A stream is named by
2048 * group + member. -/

namespace Sys2Proof.Machine

/-! ### XS96 (R212 to R216) -/

/-- How a cell enters XS96. -/
inductive Entry96 where
  | ok (i : Int)
  | truncated
  | overflow
  | nonfinite
  deriving DecidableEq, Repr

/-- Conversion of a value under window exponent `w`: x × 2^(79 − w) truncated toward zero. -/
def toXs96 (w : Int) (x : Fp) : Entry96 :=
  match x with
  | .fin n m e =>
    if m = 0 then .ok 0
    else if w + 1 ≤ expoOf m e then .overflow
    else
      let u := truncUnits m e (w - 79)
      if u = 0 then .truncated else .ok (signedUnits n u)
  | _ => .nonfinite

/-- Exponent of the window of a register (Table 9-3). -/
def windowExp (v : BitVec 16) : Int := signedOf 8 v.toNat

def State.window (s : State) (i : Nat) : BitVec 16 := smGet 0 s.step.windows i

/-- A block image (Table 9-2), without its CRC field's own value when `crc` is 0. -/
def blockHeader (b : Block) : Bytes :=
  leBytes 8 b.key.toNat ++ leBytes 4 b.seq.toNat ++ leBytes 4 b.stepLow.toNat ++ leBytes 1 b.w.toNat ++
    leBytes 1 b.windowId.toNat ++ leBytes 2 b.flags.toNat ++ leBytes 2 b.nf.toNat ++ leBytes 2 b.bitmapIndex.toNat ++
    leBytes 1 b.group.toNat ++ zeros 3

def blockBody (b : Block) : Bytes := b.elems.flatMap (fun x => leBytes 12 x.toNat)

def blockCrc (b : Block) : BitVec 32 := crc32c (blockHeader b ++ blockBody b)

def blockBytes (b : Block) : Bytes := blockHeader b ++ leBytes 4 b.crc.toNat ++ blockBody b

end Sys2Proof.Machine

namespace Sys2Proof

/-- The block with its CRC-32C. -/
def Block.sign (b : Block) : Block := { b with crc := Machine.blockCrc b }

def Block.ovf (b : Block) : Bool := b.flags.getLsbD 0
def Block.headerOnly (b : Block) : Bool := b.flags.getLsbD 1
def Block.isLate (b : Block) : Bool := b.flags.getLsbD 2

/-- Element `i` of a block as an integer; every element of a header-only image counts as 0. -/
def Block.elem (b : Block) (i : Nat) : Int := if b.headerOnly then 0 else (b.elems.getD i 0).toInt

end Sys2Proof

namespace Sys2Proof.Machine

/-! ### Statistics (R218, Table 9-4) -/

/-- Add one converted cell to a window's statistics. -/
def statsAdd (v : BitVec 64) (x : Fp) (e : Entry96) : BitVec 64 :=
  let n := v.toNat
  let cur := signedOf 8 n
  let ex : Int := match x with | .fin _ m k => if m = 0 then -128 else max (-127) (min 127 (expoOf m k)) | _ => -128
  let b (c : Bool) : Nat := b2n c
  let tz := min (bitsOf n 31 8 + b (e == .truncated)) 0xFFFFFF
  let ov := min (bitsOf n 47 32 + b (e == .overflow)) 0xFFFF
  let nf := min (bitsOf n 63 48 + b (e == .nonfinite)) 0xFFFF
  BitVec.ofNat 64 (patternOf 8 (max cur ex) + 2 ^ 8 * tz + 2 ^ 32 * ov + 2 ^ 48 * nf)

/-- The combined entry of a window over the 24 units. -/
def State.kilnStats (s : State) (w : Nat) : BitVec 64 :=
  (List.range 24).foldl (fun acc n =>
    let v := (smGet (0x80 : BitVec 64) (pbOf s n).stats w).toNat
    let a := acc.toNat
    BitVec.ofNat 64 (patternOf 8 (max (signedOf 8 a) (signedOf 8 v)) +
      2 ^ 8 * min (bitsOf a 31 8 + bitsOf v 31 8) 0xFFFFFF + 2 ^ 32 * min (bitsOf a 47 32 + bitsOf v 47 32) 0xFFFF +
      2 ^ 48 * min (bitsOf a 63 48 + bitsOf v 63 48) 0xFFFF)) 0x80

/-! ### Streams -/

def reduceKey (group member : Nat) : Nat := 2048 * group + member
def State.group (s : State) (g : Nat) : Group := s.prog.groups.getD g {}
/-- LATE_POLICY: 0 WAIT, 1 LATE_POOL, 2 DROP. -/
def Group.late (g : Group) : Nat := g.policy % 4
def Group.member (g : Group) (m : Nat) : Nat × Nat := g.memberList.getD m (0xFFFF, 0)

/-- Key of this module's stream of a group to an owner's position ID. -/
def outKey (dest group : Nat) : Nat := 16 * dest + group

def State.updReduce (s : State) (f : Reduce → Reduce) : State := { s with reduce := f s.reduce }

/-- An entry of a contributor record (Table 9-9); all streams are complete at first. -/
def recordOf (r : SMap (BitVec 64)) (k : Nat) : BitVec 64 := smGet 0xFFFFFFFF00000000 r k
def recState (v : BitVec 64) : Nat := v.toNat % 4
def recFrom (v : BitVec 64) : Nat := v.toNat / 2 ^ 32

/-- First seq an owner does not wait for in a stream, none when it is complete. -/
def State.mark (s : State) (k : Nat) : Option Nat :=
  let v := recordOf s.reduce.planned k
  if recState v = 0 then none else some (recFrom v)

/-- The marks as they stand become the contributor records, which REDUCE alone writes (Table 1-2). -/
def State.writeRecords (s : State) : State :=
  if s.step.phase = .reduce then s.updReduce (fun r => { r with records := r.planned }) else s

/-- REDUCE begins. -/
def State.beginReduce (s : State) : State := (s.beginPhase .reduce).writeRecords

/-- Sum-map entries a port block expects at the seqs of a stream of a group: each entry at `per_member` consecutive seqs
(log entry 18). -/
def expected (p : PbProg) (g : Nat) : List Nat :=
  p.sumMap.zipIdx.flatMap (fun x => if x.1.group == g then List.replicate x.1.perMember x.2 else [])

/-- First seq of a sum-map entry in its streams. -/
def seqBase (p : PbProg) (e : Nat) : Nat :=
  ((p.sumMap.take e).filter (fun x => x.group == ((p.sumMap.getD e ⟨0, 0, false, 0, 0, 0, 0, 0, 0⟩).group))).foldl
    (fun n x => n + x.perMember) 0

def PbProg.sumAt (p : PbProg) (e : Nat) : SumEntry := p.sumMap.getD e ⟨0, 0, false, 0, 0, 0, 0, 0, 0⟩

/-! ### Sending (R219, R221) -/

/-- A KILN message leaves by a port block: over its Zlink, or for this module over the edge links between port blocks (link 24 of
`zOut`). Handing it over makes progress of the sending queue (R293). -/
def State.kilnSend (s : State) (pb : Nat) (m : ZMsg) : State :=
  let s1 := if m.dest = s.boot.positionId then { s with zOut := (24, m) :: s.zOut } else s.zSendCounted pb 1 m
  if m.dest = s.boot.positionId ∨ (linkFor s pb).isSome then s1.progress (kilnSendQueue pb) else s1

/-- A block leaves for its owner by the port block that made it (R221). -/
def State.sendBlock (s : State) (x : Retained) : State :=
  s.kilnSend x.pb ⟨x.destId, 0x10, BitVec.ofNat 8 x.destPb, blockBytes x.block⟩

/-- A retained block as its LATE re-send carries it (R227). -/
def Retained.late (x : Retained) : Retained :=
  { x with block := ({ x.block with flags := x.block.flags ||| 4 } : Block).sign }

/-- Hand over every waiting block whose lower seqs have gone, and keep it in retention; REDUCE begins with the first (R15). -/
def State.handOver (s : State) : (fuel : Nat) → State
  | 0 => s
  | n + 1 =>
    let ready (x : Retained) (r : Reduce) : Bool :=
      let g := r.nextOut
      x.block.seq.toNat == smGet 0 g (outKey x.destId.toNat x.block.group.toNat)
    match s.reduce.outWait.find? (fun x => ready x s.reduce) with
    | none => s
    | some x =>
      let k := outKey x.destId.toNat x.block.group.toNat
      let s1 := s.updReduce (fun r => { r with
        outWait := r.outWait.filter (fun y => y != x)
        nextOut := smPut 0 k (x.block.seq.toNat + 1) r.nextOut
        retention := x :: r.retention.filter (fun y => !(y.step == x.step && y.destId == x.destId &&
          y.block.group == x.block.group && y.block.seq == x.block.seq)) })
      let s2 := if s1.step.phase = .drain then s1.beginReduce else s1
      State.handOver (s2.sendBlock x) n

/-- Queue the blocks of a converted map entry: they are chained in map order and leave in seq order. -/
def State.emitBlocks (s : State) (pb : Nat) (e : KilnEntry) (bs : List Block) : State :=
  let dest := (s.group e.group).member e.owner
  let s1 := s.updPb pb (fun p => { p with
    outChain := bs.foldl (fun h b => sha256 (digestBytes h ++ digestBytes (sha256 (blockBytes b)))) p.outChain })
  let s2 := s1.updReduce (fun r => { r with
    outWait := r.outWait ++ bs.map (fun b => ⟨s.step.current.stepNumber, BitVec.ofNat 16 dest.1, dest.2, pb, b⟩) })
  s2.handOver s2.reduce.outWait.length

/-- Header of block `b` of a map entry. -/
def mapBlock (s : State) (e : KilnEntry) (b : Nat) : Block :=
  { key := e.keyBase + BitVec.ofNat 64 b, seq := BitVec.ofNat 32 (e.firstSeq + b)
    stepLow := low32 s.step.current.stepNumber, w := (s.window e.windowId).setWidth 8
    windowId := BitVec.ofNat 8 e.windowId, flags := 0, nf := 0
    bitmapIndex := BitVec.ofNat 16 (s.group e.group).selfIndex, group := BitVec.ofNat 8 e.group, crc := 0, elems := [] }

def blocksOf (e : KilnEntry) : Nat := (e.elements + 255) / 256

/-- The blocks of a map entry from its column total (R214, R215, R219). -/
def convertTotal (s : State) (e : KilnEntry) (total : List (BitVec 36)) : List Block :=
  let w := windowExp (s.window e.windowId)
  (List.range (blocksOf e)).map (fun b =>
    let cells := ((total.take e.elements).drop (256 * b)).take 256
    let vals := cells.map (fun c => toXs96 w (cellVal c))
    let num (v : Entry96) : BitVec 96 := match v with | .ok i => BitVec.ofInt 96 i | _ => 0
    ({ mapBlock s e b with
       nf := if vals.contains Entry96.nonfinite then 1 else 0
       flags := if vals.contains Entry96.overflow then 1 else 0
       elems := (vals.map num ++ List.replicate (256 - vals.length) 0).take 256 }).sign)

/-- Every block of this module's sum maps is released. -/
def State.allReleased (s : State) : Bool :=
  (List.range 24).all (fun n => decide ((s.pbProg n).sumMap.length ≤ (pbOf s n).released))

/-- Every block this module owes has been converted and handed over. -/
def State.allSent (s : State) : Bool :=
  s.reduce.outWait.isEmpty && (List.range 24).all (fun n => decide ((s.pbProg n).kilnMap.length ≤ (pbOf s n).kilnPos))

/-- REDUCE ends once DRAIN has ended, this module's own blocks have left (log entry 22) and every block is final; a step in
which an object was hand-set is discarded then (R15, R291). -/
def State.tryVote (s : State) : State :=
  if s.step.phase == .reduce && s.step.drainDone && s.allReleased && s.allSent then
    if s.sync.stepHandSet then s.raise 0x6009 moduleWide
    else (s.endPhase .reduce).beginPhase .vote
  else s

/-! ### The partial chain (R208, R209) -/

/-- The `k`-th canvas of a column as a tile holds it. -/
def heldFor (s : State) (t k : Nat) : Option Held :=
  (tileOf s (physOf s.repair t)).heldCanvases.find? (fun h => h.total == k)

/-- The drains of a tile's program that add to the `k`-th canvas of its column. -/
def chainDrains (s : State) (t k : Nat) : List (BitVec 64) :=
  ((s.tileProg t).cmds.filterMap TileOp.chains).filter (fun c => chainNumber s t c == k)

/-- The total of the `k`-th canvas of a column can reach its port block: every tile that the program gives a CHAIN drain for it holds
its canvas, and the flits that the schedule binds to the drains have left. -/
def totalReady (s : State) (tiles : List Nat) (k : Nat) : Bool :=
  tiles.all (fun t => (chainDrains s t k).all (fun c => (heldFor s t k).isSome && flowLeft s t (.part c))) &&
    tiles.any (fun t => (heldFor s t k).isSome)

/-- The Kiln unit asks every tile of a column to send a canvas again (R209; TYPE: log entry 94). -/
def State.askCanvas (s : State) (pb k : Nat) (tiles : List Nat) : State :=
  tiles.foldl (fun s t => s.sendRill ⟨BitVec.ofNat 12 (physOf s.repair t), pbCode pb, false, 0x04, 0, [BitVec.ofNat 64 k]⟩) s

/-- The detections of a canvas's chain, attempt by attempt, each at the chain adder of a tile (R209, R243): within the refire budget,
each attempt that fails is sent again; one more ends in 0x2104. Answers whether the canvas has passed. -/
def State.refireChain (s : State) (pb k n : Nat) (tiles : List Nat) : List (List (Nat × Code)) → State × Bool
  | [] => (s, true)
  | cs :: r =>
    let s1 := cs.foldl (fun s c => s.detect c.2 (physOf s.repair c.1) 8 0 noCmd k) s
    if n < s.budget then State.refireChain ((s1.countRefire false).askCanvas pb k tiles) pb k (n + 1) tiles r
    else
      let c := cs.headD (0, 0x2301)
      (s1.raise 0x2104 ⟨BitVec.ofNat 12 (physOf s.repair c.1), 8⟩ noCmd c.2.toNat, false)

/-- The detections that the chain's own poisoned flits are (R209). -/
def poisonedParts (s : State) (col k : Nat) : List (List (Nat × Code)) :=
  let l := (s.mesh.badParts.filter (fun x => colOf x.1 == col && x.2 == k)).map (fun x => (x.1, (0x2301 : Code)))
  if l.isEmpty then [] else [l]

/-- The canvases of a total have gone: the tiles are told (R209; log entry 94). -/
def State.acknowledge (s : State) (pb k : Nat) (tiles : List Nat) : State :=
  (tiles.filter (fun t => (heldFor s t k).isSome)).foldl (fun s t =>
    let p := physOf s.repair t
    (s.updTile p (fun x => { x with
      heldCanvases := x.heldCanvases.map (fun h => if h.total = k then { h with sent := true } else h) })).sendRill
        ⟨BitVec.ofNat 12 p, pbCode pb, false, 0x03, 0, []⟩) s

/-- The total of a map entry is converted: its blocks, the window statistics, and NF_LOCAL (R214, R215, R218). -/
def State.convertEntry (s : State) (pb : Nat) (e : KilnEntry) (total : List (BitVec 36)) : State × List Block :=
  let w := windowExp (s.window e.windowId)
  let bs := convertTotal s e total
  let st (v : BitVec 64) : BitVec 64 :=
    (total.take e.elements).foldl (fun v c => statsAdd v (cellVal c) (toXs96 w (cellVal c))) v
  let s1 := s.updPb pb (fun p => { p with
    kilnPos := p.kilnPos + 1
    stats := smUpd 0x80 e.windowId st p.stats })
  (if bs.any (fun b => b.nf != 0 || b.ovf) then { s1 with step := { s1.step with nfLocal := true } } else s1, bs)

/-- COLUMN_TOTAL (R209, R214 to R219): the total of the next Kiln map entry reaches its Kiln unit, converted, sent and
acknowledged to the tiles that gave it. `det` are the attempts of its chain that fail: the tiles whose adders detect, with what. -/
def execColumnTotal (pb : Nat) (det : List (List (Nat × Code))) (s : State) : Host.Outcome State Fault Refusal :=
  if 24 ≤ pb ∨ ¬ (s.step.phase = .drain ∨ s.step.phase = .reduce) ∨ s.arbiter.fatal.isSome then .next s
  else match (s.pbProg pb).kilnMap[(pbOf s pb).kilnPos]? with
    | none => .next s
    | some e =>
      let col := 2 * pb + e.column
      let tiles := columnTiles s col
      let k := (((s.pbProg pb).kilnMap.take (pbOf s pb).kilnPos).filter (fun x => x.column == e.column)).length
      if !totalReady s tiles k then .next s
      else
        let held := tiles.filterMap (fun t => heldFor s t k)
        let r := s.refireChain pb k 0 tiles (poisonedParts s col k ++ det)
        if !r.2 then .next r.1
        else
          let s1 := if held.any (·.suspect) then r.1.countRefire true else r.1
          let c := s1.convertEntry pb e (chainTotal (held.map (·.cells)))
          .next ((c.1.acknowledge pb k tiles).emitBlocks pb e c.2).tryVote

/-- COLUMN_TOTAL_ACK reaches a tile (physical index): its oldest canvas sent is released (R209). -/
def execColumnTotalAck (tile : Nat) (s : State) : Host.Outcome State Fault Refusal :=
  if physicalTiles ≤ tile then .next s
  else .next (s.updTile tile (fun x => { x with heldCanvases := x.heldCanvases.eraseIdx (x.heldCanvases.findIdx (·.sent)) }))

/-- Early abort (R23): every block a port block still owes leaves header-only with a non-finite count of 1. -/
def State.headerOnly (s : State) (pb : Nat) : State :=
  let p := s.pbProg pb
  let s1 := (p.kilnMap.drop (pbOf s pb).kilnPos).foldl (fun s e =>
    s.emitBlocks pb e ((List.range (blocksOf e)).map (fun b =>
      ({ mapBlock s e b with
         nf := 1
         flags := 2 }).sign))) s
  s1.updPb pb (fun x => { x with kilnPos := p.kilnMap.length })

/-! ### The owner (R222 to R227) -/

def accOf (p : PbState) (e : Nat) : SumAcc := smGet {} p.accs e

/-- Whether the contributions of a member to an entry are all in or no longer waited for. -/
def memberDone (s : State) (p : PbProg) (a : SumAcc) (e m : Nat) : Bool :=
  let x := p.sumAt e
  let k := reduceKey x.group m
  let base := seqBase p e
  let got := smGet 0 a.got m
  let onTime := decide (x.perMember ≤ got) || (match s.mark k with | some f => decide (f ≤ base + got) | none => false)
  let first := smGet 0 s.reduce.lateIn k
  let owed := if first = 0 then 0 else base + x.perMember - max base (first - 1)
  onTime && (a.lateClosed || decide (owed ≤ smGet 0 a.lateGot m))

/-- Whether every contribution of an entry is added or settled. -/
def entryDone (s : State) (p : PbProg) (a : SumAcc) (e : Nat) : Bool :=
  (List.range (s.group (p.sumAt e).group).members).all (memberDone s p a e)

/-- Element range of R213 in units. -/
def xs96InRange (v : Int) : Bool := decide (-(2 ^ 95 : Int) ≤ v) && decide (v ≤ (2 ^ 95 : Int) - 1)

/-- A block becomes final: an element out of range sets OVF and clears every element. -/
def SumAcc.finalize (a : SumAcc) : SumAcc :=
  if a.sums.all (fun x => xs96InRange x.2) then { a with isFinal := true }
  else { a with
         isFinal := true
         ovf := true
         sums := [] }

/-- Make an entry final when it is done. -/
def State.settleEntry (s : State) (pb e : Nat) : State :=
  let a := accOf (pbOf s pb) e
  if !a.isFinal && entryDone s (s.pbProg pb) a e then
    let f := a.finalize
    let s1 := s.updPb pb (fun p => { p with accs := smPut {} e f p.accs })
    { s1 with step := { s1.step with
        ovfBlock := s1.step.ovfBlock || f.ovf
        nfReceived := s1.step.nfReceived || decide (0 < f.nf) } }
  else s

/-- The final image of an entry. -/
def finalImage (s : State) (p : PbProg) (e : Nat) (a : SumAcc) : Block :=
  let x := p.sumAt e
  ({ key := x.key, seq := BitVec.ofNat 32 e, stepLow := low32 s.step.current.stepNumber
     w := (s.window x.windowId).setWidth 8, windowId := BitVec.ofNat 8 x.windowId
     flags := BitVec.ofNat 16 (8 + b2n a.ovf), nf := BitVec.ofNat 16 a.nf, bitmapIndex := 0xFFFF
     group := BitVec.ofNat 8 x.group, crc := 0
     elems := (List.range 256).map (fun i => BitVec.ofInt 96 (smGet 0 a.sums i)) } : Block).sign

/-- The output of a released entry (R223). -/
def sumOutput (s : State) (p : PbProg) (e : Nat) (a : SumAcc) : Bytes :=
  if (p.sumAt e).xs96 then blockBytes (finalImage s p e a)
  else if a.ovf || decide (0 < a.nf) then (List.range 256).flatMap (fun _ => leBytes 4 0x7FC00000)
  else
    let w := windowExp (s.window (p.sumAt e).windowId)
    (List.range 256).flatMap (fun i => leBytes 4 (fp32.encode ((Fp.ofInt (smGet 0 a.sums i)).scale (w - 79))).1)

/-- First appearances only, in order. -/
def firstSeen : List Nat → List Nat → List Nat
  | _, [] => []
  | seen, i :: r => if seen.contains i then firstSeen seen r else i :: firstSeen (i :: seen) r

/-- Deliver the batch of released entries that the sum buffer holds (R223, R282): from now on the column's schedule may take their
outputs, and each object named gets one FENCED ADD. -/
def State.deliverBatch (s : State) (pb : Nat) : State :=
  let p := s.pbProg pb
  let x := pbOf s pb
  let ids := ((List.range x.released).drop x.delivered).map (fun e => (p.sumAt e).syncId)
  ((firstSeen [] ids).foldl (fun s i =>
    s.sendRill (syncMsg (pbCode pb) i 0x81 (low32 s.currentStep) (BitVec.ofNat 64 (ids.filter (· == i)).length))) s).updPb pb
      (fun y => { y with delivered := x.released })

/-- Release final entries in sum-map order; a batch of 16, or the last, is delivered. -/
def State.release (s : State) (pb : Nat) : (fuel : Nat) → State
  | 0 => s
  | n + 1 =>
    let p := s.pbProg pb
    let x := pbOf s pb
    let e := x.released
    let a := accOf x e
    if p.sumMap.length ≤ e ∨ ¬ a.isFinal then s
    else
      let img := finalImage s p e a
      let s1 := s.updPb pb (fun y => { y with
        released := e + 1
        sumChain := sha256 (digestBytes y.sumChain ++ digestBytes (sha256 (blockBytes img)))
        sumBuffer := y.sumBuffer ++ [(e, sumOutput s p e a)] })
      let s2 := (s1.updReduce (fun r => { r with nfTotal := min (r.nfTotal + a.nf) 0xFFFFFFFF })).progress (kilnAdderQueue pb)
      let s3 := if (e + 1) % 16 = 0 ∨ e + 1 = p.sumMap.length then s2.deliverBatch pb else s2
      State.release s3 pb n

/-- Settle and release what a port block can. -/
def State.advance (s : State) (pb : Nat) : State :=
  let n := (s.pbProg pb).sumMap.length
  (((List.range n).foldl (fun s e => s.settleEntry pb e) s).release pb n).pumpMesh

/-- Key of a block of a stream: LATE blocks last. -/
def imageKey (k : Nat) (b : Block) : Nat := 2 ^ 34 * k + 2 ^ 33 * b2n b.isLate + b.seq.toNat

/-- The hash of a stream's blocks, in seq order. -/
def streamHash (m : SMap Bytes) (k : Nat) : Digest := sha256 ((m.filter (fun x => x.1 / 2 ^ 34 == k)).flatMap (·.2))

/-- A duplicate (R224): folded into the second hash; once that covers every block of the first, they are compared. -/
def State.foldDuplicate (s : State) (pb k : Nat) (b : Block) : State :=
  let s1 := s.updReduce (fun r => { r with
    secondImages := smPut [] (imageKey k b) (blockBytes b) r.secondImages })
  let r := s1.reduce
  let mine (m : SMap Bytes) : List Nat := (m.filter (fun x => x.1 / 2 ^ 34 == k)).map (·.1)
  if (mine r.firstImages).all (fun i => (mine r.secondImages).contains i) &&
      streamHash r.firstImages k != streamHash r.secondImages k then
    s1.raise 0x2304 ⟨pbCode pb, 17⟩ noCmd b.bitmapIndex.toNat
  else s1

/-- Add a contribution to the accumulator of an entry. -/
def State.addBlock (s : State) (pb e k : Nat) (b : Block) : State :=
  let m := b.bitmapIndex.toNat
  let s1 := s.updPb pb (fun p =>
    let a := accOf p e
    let one := smUpd 0 m (· + 1)
    { p with
      accs := smPut {} e { a with
        sums := (List.range 256).foldl (fun t i => smUpd 0 i (· + b.elem i) t) a.sums
        nf := min (a.nf + b.nf.toNat) 65535
        ovf := a.ovf || b.ovf
        started := true
        got := if b.isLate then a.got else one a.got
        lateGot := if b.isLate then one a.lateGot else a.lateGot } p.accs })
  (s1.updReduce (fun r => { r with
    firstImages := smPut [] (imageKey k b) (blockBytes b) r.firstImages })).progress (kilnAdderQueue pb)

/-- Ask a sender to re-send blocks of its stream from retention, over an edge link when it is this module (R222, R224; body: log entry
104). `late`: they are LATE blocks. -/
def State.askResend (s : State) (pb group member : Nat) (fromSeq toSeq : Nat) (stepLow : BitVec 32) (late : Bool := false) :
    State :=
  let d := (s.group group).member member
  let m : ZMsg := ⟨BitVec.ofNat 16 d.1, 0x11, BitVec.ofNat 8 d.2, leBytes 1 pb ++ leBytes 1 group ++ leBytes 1 (b2n late) ++
    zeros 1 ++ leBytes 4 fromSeq ++ leBytes 4 toSeq ++ leBytes 4 stepLow.toNat⟩
  if m.dest = s.boot.positionId then { s with zOut := (24, m) :: s.zOut } else s.zSendCounted pb 1 m

/-- A BLOCK record (Table 17-3). -/
def State.traceBlock (s : State) (pb : Nat) (b : Block) (dup : Bool) : State :=
  s.traceAt 9 false (pbCode pb) noCmd (b.seq.toNat + 2 ^ 32 * b.bitmapIndex.toNat + 2 ^ 48 * b2n b.isLate + 2 ^ 49 * b2n dup)

/-- The sender whose contribution completed the latest block (R396). -/
def State.noteLast (s : State) (pb e : Nat) (sender : BitVec 16) : State :=
  if (accOf (pbOf s pb) e).isFinal then
    { s with step := { s.step with
      reduceLast := sender
      reduceLastTime := s.now } }
  else s

/-- Take one block whose turn it is or that needs none; answers whether a following block may now be due. -/
def State.takeBlock (s : State) (pb : Nat) (sender : BitVec 16) (b : Block) : State × Bool :=
  let p := s.pbProg pb
  let g := b.group.toNat
  let m := b.bitmapIndex.toNat
  let k := reduceKey g m
  let cur := s.step.current.stepNumber
  let want := if b.isLate then low32 (cur - 1) else low32 cur
  let place : Place := ⟨pbCode pb, 17⟩
  match (expected p g)[b.seq.toNat]? with
  | none => (s.raise 0x2305 place noCmd m, false)
  | some e =>
    let x := p.sumAt e
    if b.stepLow ≠ want ∨ (s.group g).members ≤ m ∨ x.key ≠ b.key then (s.raise 0x2305 place noCmd m, false)
    else if b.windowId.toNat ≠ x.windowId ∨ b.w ≠ (s.window x.windowId).setWidth 8 then
      (s.raise 0x2303 place noCmd b.windowId.toNat, false)
    else if b.isLate then
      let first := smGet 0 s.reduce.lateIn k
      let a := accOf (pbOf s pb) e
      if (s.reduce.firstImages.any (fun y => y.1 == imageKey k b)) then
        ((s.traceBlock pb b true).foldDuplicate pb k b, false)
      else if first = 0 ∨ b.seq.toNat + 1 < first ∨ a.lateClosed ∨ a.isFinal then (s, false)
      else ((((s.traceBlock pb b false).addBlock pb e k b).advance pb).noteLast pb e sender, false)
    else
      let next := smGet 0 s.reduce.nextIn k
      let marked := match s.mark k with | some f => decide (f ≤ b.seq.toNat) | none => false
      if b.seq.toNat < next then ((s.traceBlock pb b true).foldDuplicate pb k b, false)
      else if marked then (s, false)
      else if next < b.seq.toNat then
        (s.updReduce (fun r => { r with early := r.early ++ [⟨pb, sender, b⟩] }), false)
      else
        let s1 := s.updReduce (fun r => { r with nextIn := smPut 0 k (next + 1) r.nextIn })
        ((((s1.traceBlock pb b false).addBlock pb e k b).advance pb).noteLast pb e sender, true)

/-- Take the held blocks of the step that have become due, in stream order. -/
def State.drainEarly (s : State) : (fuel : Nat) → State
  | 0 => s
  | n + 1 =>
    let due (x : Early) : Bool :=
      let k := reduceKey x.block.group.toNat x.block.bitmapIndex.toNat
      if x.block.isLate then x.block.stepLow == low32 (s.step.current.stepNumber - 1)
      else x.block.stepLow == low32 s.step.current.stepNumber &&
        x.block.seq.toNat == smGet 0 s.reduce.nextIn k
    match s.reduce.early.find? due with
    | none => s
    | some x =>
      let s1 := s.updReduce (fun r => { r with early := r.early.eraseIdx (r.early.findIdx due) })
      State.drainEarly (s1.takeBlock x.pb x.sender x.block).1 n

/-- XS96_BLOCK (R221 to R224): a contribution reaches the Kiln unit of its owner. -/
def execXs96Block (pb : Nat) (sender : BitVec 16) (b : Block) (s0 : State) : Host.Outcome State Fault Refusal :=
  let s := s0.wake
  if 24 ≤ pb ∨ b.resv then .next s
  else if s.step.phase = .discarding ∨ (¬ s.step.inProgress ∧ s.step.lastOutcome = 3) then .next s
  else if blockCrc b ≠ b.crc then
    .next ((s.detect 0x2302 (0xB00 + pb) 17 0 noCmd b.seq.toNat).askResend pb b.group.toNat b.bitmapIndex.toNat
      b.seq.toNat b.seq.toNat b.stepLow b.isLate)
  else if (s.step.inProgress = false ∨ s.reduce.voteSent) ∧
      b.stepLow = (if b.isLate then low32 (s.currentStep - 1) else low32 s.currentStep) then
    .next (s.updReduce (fun r => { r with early := r.early ++ [⟨pb, sender, b⟩] }))
  else
    let r := s.takeBlock pb sender b
    let s1 := if r.2 then r.1.drainEarly r.1.reduce.early.length else r.1
    .next s1.tryVote

/-- RESEND_REQUEST (R222, R224, R347): the blocks of a stream to `requester` from retention, with LATE set when they are asked for as
LATE blocks; a block no longer held is 0x2306. Blocks of the current step not yet sent follow in their order. -/
def execResendRequest (requester : BitVec 16) (pb : Nat) (group : BitVec 8) (fromSeq toSeq : BitVec 32) (mark : StepMark)
    (s0 : State) : Host.Outcome State Fault Refusal :=
  let s := s0.wake
  if 24 ≤ pb then .next s
  else
    let mine (x : Retained) : Bool := x.destId == requester && x.block.group == group && low32 x.step == mark.stepLow &&
      decide (fromSeq.toNat ≤ x.block.seq.toNat) && decide (x.block.seq.toNat ≤ toSeq.toNat)
    let found := s.reduce.retention.filter mine
    let cur := if s.step.inProgress then s.step.current.stepNumber else s.step.expected
    let total := ((List.range 24).flatMap (fun n => (s.pbProg n).kilnMap)).foldl (fun a e =>
      if e.group = group.toNat ∧ ((s.group e.group).member e.owner).1 = requester.toNat then a + blocksOf e else a) 0
    let k := outKey requester.toNat group.toNat
    let sent := if mark.stepLow = low32 cur then smGet 0 s.reduce.nextOut k else total
    let last := min (toSeq.toNat + 1) sent
    let known := mark.stepLow = low32 cur ∨ mark.stepLow = low32 (cur - 1)
    if ¬ known ∨ found.length < last - fromSeq.toNat then
      .next (s.raise 0x2306 ⟨pbCode pb, 17⟩ noCmd fromSeq.toNat)
    else
      .next ((List.range (last - fromSeq.toNat)).foldl (fun s i =>
        match found.find? (fun x => x.block.seq.toNat == fromSeq.toNat + i) with
        | some x => s.sendBlock (if mark.late then x.late else x)
        | none => s) s)

/-- Mark a member of a group late from a seq (R226, R227). -/
def State.markLate (s : State) (pb g m fromSeq : Nat) : State :=
  let k := reduceKey g m
  let old := recordOf s.reduce.planned k
  let drop := (s.group g).late = 2
  let f := if recState old = 0 then fromSeq else min fromSeq (recFrom old)
  let v := BitVec.ofNat 64 ((if drop then 2 else 1) + 4 * bitsOf old.toNat 3 2 + 2 ^ 32 * f)
  let s1 := (s.updReduce (fun r => { r with planned := smPut 0xFFFFFFFF00000000 k v r.planned })).writeRecords.raise 0x2307
    ⟨pbCode pb, 17⟩ noCmd m
  if drop ∧ recState old = 0 then s1.raise 0x2308 ⟨pbCode pb, 17⟩ noCmd m else s1

/-- LATE blocks of a member that an expired deadline drops (R227). -/
def State.dropLate (s : State) (pb g m : Nat) : State :=
  (s.updReduce (fun r => { r with
    planned := smUpd 0xFFFFFFFF00000000 (reduceKey g m) (· ||| 8) r.planned })).writeRecords.raise 0x2308 ⟨pbCode pb, 17⟩ noCmd m

/-- Whether the replay directive rules a group in the step in progress (R399). -/
def State.directed (s : State) (g : Nat) : Bool :=
  match s.prog.directive with
  | some d => d.step == s.step.current.stepNumber && d.groups.getLsbD g
  | none => false

/-- STRAGGLER_DEADLINE (R226, R227): the deadline of a block whose timer runs expires. -/
def execStragglerDeadline (pb entry : Nat) (s : State) : Host.Outcome State Fault Refusal :=
  if 24 ≤ pb then .next s
  else
    let p := s.pbProg pb
    let x := p.sumAt entry
    let g := s.group x.group
    let a := accOf (pbOf s pb) entry
    if p.sumMap.length ≤ entry ∨ ¬ a.started ∨ a.isFinal ∨ g.late = 0 ∨ s.directed x.group ∨ s.step.phase = .discarding then .next s
    else
      let base := seqBase p entry
      let ms := List.range g.members
      let s1 := ms.foldl (fun s m =>
        let got := smGet 0 a.got m
        let marked := match s.mark (reduceKey x.group m) with | some f => decide (f ≤ base + got) | none => false
        if got < x.perMember && !marked then s.markLate pb x.group m (base + got) else s) s
      let s2 := ms.foldl (fun s m =>
        let first := smGet 0 s.reduce.lateIn (reduceKey x.group m)
        let owed := if first = 0 then 0 else base + x.perMember - max base (first - 1)
        if smGet 0 a.lateGot m < owed ∧ ¬ a.lateClosed then s.dropLate pb x.group m else s) s1
      let s3 := s2.updPb pb (fun y => { y with accs := smUpd {} entry (fun b => { b with lateClosed := true }) y.accs })
      .next (s3.advance pb).tryVote

/-! ### The vote (R229, R230) -/

/-- The vote group, and its members' position IDs. -/
def State.voters (s : State) : List Nat :=
  match s.prog.groups.find? (·.vote) with
  | some g => (g.memberList.take g.members).map (·.1)
  | none => [s.boot.positionId.toNat]

/-- Contributor records of the groups this module sums, in group and member order (R228). -/
def State.recordBytes (s : State) : Bytes :=
  s.prog.groups.zipIdx.flatMap (fun x =>
    if (List.range 24).any (fun n => (s.pbProg n).sumMap.any (fun e => e.group == x.2)) then
      (List.range x.1.members).flatMap (fun m => leBytes 8 (recordOf s.reduce.records (reduceKey x.2 m)).toNat)
    else [])

/-- The late entries of this step: (position ID of the member, entry). -/
def State.lateEntries (s : State) : List (Nat × LateEntry) :=
  (s.reduce.records.filter (fun x => recState x.2 ≠ 0)).map (fun x =>
    (((s.group (x.1 / 2048)).member (x.1 % 2048)).1,
      ⟨BitVec.ofNat 16 (x.1 % 2048), BitVec.ofNat 8 (x.1 / 2048), BitVec.ofNat 32 (recFrom x.2)⟩))

/-- A vote message (Table 9-10). -/
def voteBytes (v : VoteMsg) : Bytes :=
  leBytes 8 v.step.toNat ++ leBytes 2 v.positionId.toNat ++ leBytes 2 v.flags.toNat ++ leBytes 4 v.nfTotal.toNat ++
    leBytes 2 v.late.length ++ zeros 6 ++ digestBytes v.recordDigest ++ zeros 8 ++
    v.late.flatMap (fun e => leBytes 2 e.member.toNat ++ leBytes 1 e.group.toNat ++ zeros 1 ++ leBytes 4 e.fromSeq.toNat)

/-- The vote of this module. -/
def State.ownVote (s : State) : VoteMsg :=
  let t := s.step
  { step := t.current.stepNumber, positionId := s.boot.positionId
    flags := BitVec.ofNat 16 (b2n (t.nfLocal || t.ovfBlock || t.nfReceived) + 2 * b2n t.nfLocal + 4 * b2n t.ovfBlock +
      8 * b2n t.nfReceived)
    nfTotal := BitVec.ofNat 32 s.reduce.nfTotal, recordDigest := sha256 s.recordBytes
    late := s.lateEntries.map (·.2) }

/-- A held vote; when every member's is held, VOTE ends with its verdict and COMMIT begins (R230). -/
def State.judge (s : State) : State :=
  let have' (id : Nat) : Option VoteMsg := s.reduce.votes.find? (fun v => v.positionId.toNat == id)
  if s.step.phase == .vote && s.reduce.voteSent && s.voters.all (fun id => (have' id).isSome) then
    let skip := s.reduce.votes.any (fun v => v.flags.getLsbD 0)
    let s1 := ((s.endPhase .vote).beginPhase .commit).updReduce (fun r => { r with verdict := some skip })
    { s1 with step := { s1.step with voteSkip := skip } }
  else s

/-- The parity gate of R374: the vote for s + 1, s a refresh step, waits until refresh generation s is held complete. -/
def State.parityGate (s : State) : Bool :=
  match s.survival.config with
  | some c =>
    let prev := s.step.current.stepNumber - 1
    !(s.survival.formed && c.interval != 0 && prev.toNat % c.interval.toNat == 0 && s.survival.refresh == some (low32 prev))
  | none => true

/-- VOTE_SEND (R229, R374): the vote and its late entries go to every member of the vote group and to the late members
outside it. A step in which an object has been hand-set by now is discarded before it sends a vote (R291). -/
def execVoteSend (s : State) : Host.Outcome State Fault Refusal :=
  if s.step.phase == .vote && !s.reduce.voteSent && s.parityGate && s.arbiter.fatal.isNone then
    if s.sync.stepHandSet then .next (s.raise 0x6009 moduleWide) else
    let v := s.ownVote
    let me := s.boot.positionId.toNat
    let dests := s.voters ++ (s.lateEntries.map (·.1)).filter (fun id => !s.voters.contains id)
    let s1 := ((firstSeen [] dests).filter (· ≠ me)).foldl (fun s id =>
      let pb := ((s.prog.groups.flatMap (·.memberList)).find? (fun x => x.1 == id)).map (·.2)
      s.kilnSend (pb.getD 0) ⟨BitVec.ofNat 16 id, 0x12, BitVec.ofNat 8 (pb.getD 0), voteBytes v⟩) s
    .next (s1.updReduce (fun r => { r with
      votes := r.votes ++ [v]
      voteSent := true
      recordDigest := v.recordDigest })).judge
  else .next s

/-- VOTE (R229, R230): a member's vote is held, also while the step it names is to be opened again, and its entries that
name this module are kept for the next step's re-sends; a vote for another step is 0x2305. -/
def execVote (v : VoteMsg) (s0 : State) : Host.Outcome State Fault Refusal :=
  let s := s0.wake
  if v.resv then .next s
  else if v.step ≠ s.step.number then .next (s.raise 0x2305 ⟨0xF00, 0⟩ noCmd v.positionId.toNat)
  else
    let mine := v.late.filter (fun e => decide ((s.group e.group.toNat).selfIndex = e.member.toNat) &&
      decide (e.member.toNat < (s.group e.group.toNat).members))
    let held := s.reduce.votes.any (fun x => x.positionId == v.positionId)
    let s1 := s.updReduce (fun r => { r with
      lateOwed := if held then r.lateOwed else r.lateOwed ++ mine.map (fun e => (v.step, v.positionId, e))
      votes := if s.voters.contains v.positionId.toNat ∧ ¬ held then r.votes ++ [v] else r.votes })
    let s2 := { s1 with step := { s1.step with
      voteLast := v.positionId
      voteLastTime := s.now } }
    .next s2.judge

end Sys2Proof.Machine
end

