-- ==== Sys2Proof/Machine/Zlink.lean ====
section
/-! DEFINITION. Sys2Proof/Machine/Zlink.lean: the Zlinks (chapter 11): flits, replay, credits and channel order (R258 to R263),
link states (R266 to R269), weight frames and the intake (R270 to R272), and remote signals (R273, R274). -/

namespace Sys2Proof.Machine

/-! ### Link states (Table 11-8) -/

/-- Number of lanes in a mask. -/
def laneCount (m : BitVec 5) : Nat := ((List.range 5).filter m.getLsbD).length

/-- No link serves the columns of a pair (R269): neither link carries traffic, trains, or waits for its firmware. -/
def pairLost (s : State) (n : Nat) : Bool :=
  [n, partnerOf n].all (fun k => [LinkState.down, .disabled, .absent].contains (linkOf s k).state)

/-- Takeover of a pair by link `a` (R268): it begins when `a` alone carries traffic, and ends when both do. -/
def State.setTakeover (s : State) (a b : Nat) : State :=
  let la := linkOf s a
  let lb := linkOf s b
  if la.carries && !lb.carries && !la.takeover then
    ((s.updLink a (fun l => { l with takeover := true })).updLink b (fun l => { l with takenOver := true })).linkRecord a
      (.route (BitVec.ofNat 24 (2 ^ a + 2 ^ b)))
  else if la.carries && lb.carries && la.takeover then
    (((s.updLink a (fun l => { l with takeover := false })).updLink b (fun l => { l with takenOver := false })).linkRecord
      a (.route (BitVec.ofNat 24 (2 ^ a)))).linkRecord b (.route (BitVec.ofNat 24 (2 ^ b)))
  else s

/-- Takeover at the end of a discard, at a step boundary, and as a link leaves service between steps (R268). -/
def State.setTakeovers (s : State) : State :=
  if s.variant = .c then s
  else (List.range 24).foldl (fun s n => s.setTakeover n (partnerOf n)) s

/-- A link goes to DOWN or DISABLED: its own takeover ends with it; 0x5004 when it leaves service, 0x5005 when its pair is lost with
it (R268, R269). -/
def State.linkStop (s : State) (n : Nat) (st : LinkState) : State :=
  let l := linkOf s n
  let s1 := s.updLink n (fun l => { l with
    state := st
    lanes := 0
    lost := 0
    retiring := none
    switchAt := none
    takeover := false
    lastAttempt := s.now })
  let s2 := if l.takeover then s1.updLink (partnerOf n) (fun q => { q with takenOver := false }) else s1
  let s3 := if l.carries then s2.raise 0x5004 (linkPlace n) noCmd n else s2
  let s4 := if pairLost s2 n && !pairLost s n then s3.raise 0x5005 (linkPlace n) noCmd n else s3
  if s.step.inProgress then s4 else s4.setTakeovers

/-- A protocol fault of a link (R262, R263): 0x5007, and DOWN. -/
def State.linkFault (s : State) (n : Nat) (code : Code) : State := (s.raise code (linkPlace n) noCmd n).linkStop n .down

/-- Flits of buffer that a channel has at the receiver (R262): the intake buffer for WEIGHT (R271), otherwise a free value of the
implementation (log entry 20). -/
def bufferFlits (c : Nat) : Nat := if c = 2 then 8388608 / 240 else Config.linkBuffer c

/-- A link reaches UP on four lanes, and each channel's buffer is granted. -/
def State.linkUp (s : State) (n : Nat) : State :=
  (s.updLink n (fun l => { l with
    state := .up
    lanes := 0xF
    spare := 4
    lost := 0
    replays := 0
    miswired := false
    credits := []
    granted := (List.range 4).foldl (fun m c => smPut 0 c (bufferFlits c) m) [] })).linkRecord n
      (.credit ((List.range 4).map (fun c => BitVec.ofNat 16 (bufferFlits c))))

/-- A link's training starts. -/
def State.startTraining (s : State) (n : Nat) : State :=
  s.updLink n (fun l => { l with
    state := .train
    lastAttempt := s.now })

/-- A link's site is lasting (R250): it is not trained again. -/
def linkLasting (s : State) (n : Nat) : Bool := s.repair.lasting.any (fun k => k / 65536 == 0xB00 + n && k / 256 % 256 != 16)

/-- A peer-table entry is written (R267): DISABLE holds the link in DISABLED, and its clearing lets it train. -/
def State.setPeer (s : State) (n : Nat) (e : BitVec 32) : State :=
  let s1 := s.updLink n (fun l => { l with peerTable := e })
  if (linkOf s n).state = .absent then s1
  else if e.getLsbD 18 then (if (linkOf s n).state = .disabled then s1 else s1.linkStop n .disabled)
  else if (linkOf s n).state = .disabled ∧ !linkLasting s n then s1.startTraining n
  else s1

/-- The spare lane can still be used. -/
def Link.spareFree (l : Link) : Bool := !l.spareFailed && !l.lanes.getLsbD l.spare

/-- Rows about a link that the module does not have, or that never leaves ABSENT. -/
def onLink (n : Nat) (s : State) (f : Link → State) : Host.Outcome State Fault Refusal :=
  if 24 ≤ n then .next s
  else if (linkOf s n).state = .absent then .next s
  else .next (f (linkOf s n))

/-- IDENT (R267): training has come to its end, at which each end sends its own; the link reaches UP if kind and position ID agree
with the peer table. -/
def execIdent (link : Nat) (kind : BitVec 8) (positionId : BitVec 16) (_pb : BitVec 8) (_fw : BitVec 64) (s : State) :
    Host.Outcome State Fault Refusal :=
  onLink link s (fun l =>
    if l.state ≠ .train then s
    else
      let ek := bitsOf l.peerTable.toNat 17 16
      let eid := bitsOf l.peerTable.toNat 15 0
      let s1 := (s.linkRecord link (.ident s.boot.positionId link
        (BitVec.ofNat 64 (s.boot.measurement.toNat / 2 ^ 192)))).updLink link (fun l => { l with
          peerId := positionId
          peerStore := kind == 2 })
      if (kind = 1 ∨ kind = 2) ∧ (ek = 0 ∨ ek = kind.toNat) ∧ (eid = 0xFFFF ∨ eid = positionId.toNat) then s1.linkUp link
      else ((s1.updLink link (fun l => { l with miswired := true })).raise 0x5006 (linkPlace link) noCmd
        positionId.toNat).linkStop link .down)

/-- TRAIN_TIMEOUT: training has taken longer than 50 ms. -/
def execTrainTimeout (link : Nat) (s : State) : Host.Outcome State Fault Refusal :=
  onLink link s (fun l => if l.state = .train then s.linkStop link .down else s)

/-- DOWN_RETRY: 1 s after the last attempt. -/
def execDownRetry (link : Nat) (s : State) : Host.Outcome State Fault Refusal :=
  onLink link s (fun l => if l.state = .down then s.startTraining link else s)

/-- LANE_DEGRADING: a spare swap begins while traffic continues. -/
def execLaneDegrading (link lane : Nat) (s : State) : Host.Outcome State Fault Refusal :=
  onLink link s (fun l =>
    if l.state = .up ∧ l.lanes.getLsbD lane ∧ l.spareFree then
      s.updLink link (fun l => { l with
        state := .upSwap
        retiring := some lane })
    else s)

/-- LANE_LOST (R266, Table 11-8): restripe onto the remaining lanes; swap, UP_3 or DOWN. -/
def execLaneLost (link lane : Nat) (s : State) : Host.Outcome State Fault Refusal :=
  onLink link s (fun l =>
    if !l.carries then s
    else if !l.lanes.getLsbD lane then
      (if lane = l.spare then s.updLink link (fun l => { l with spareFailed := true }) else s)
    else
      let left := l.lanes &&& ~~~((1 : BitVec 5) <<< lane)
      if laneCount left < 3 then s.linkStop link .down
      else
        let s1 := (s.updLink link (fun l => { l with
          lanes := left
          lost := l.lost + 1 })).linkRecord link (.restripe left)
        if l.state = .upSwap then s1.updLink link (fun l => { l with
          retiring := some lane
          switchAt := none })
        else if l.spareFree then s1.updLink link (fun l => { l with
          state := .upSwap
          retiring := some lane })
        else (s1.updLink link (fun l => { l with state := .up3 })).raise 0x5003 (linkPlace link) noCmd lane)

/-- SPARE_TRAINED: both ends are to switch to the spare at the seq that this end's LANE_SWAP names, or it has failed. -/
def execSpareTrained (link : Nat) (ok : Bool) (switchSeq : BitVec 16) (s : State) : Host.Outcome State Fault Refusal :=
  onLink link s (fun l =>
    if l.state ≠ .upSwap then s
    else
      let r := l.retiring.getD l.spare
      if ok then
        (s.updLink link (fun l => { l with switchAt := some (r, switchSeq, true) })).linkRecord link (.laneSwap r switchSeq)
      else if l.lost = 0 then s.updLink link (fun l => { l with
        state := .up
        spareFailed := true
        retiring := none })
      else (s.updLink link (fun l => { l with
        state := .up3
        spareFailed := true
        retiring := none })).raise 0x5003 (linkPlace link) noCmd r)

/-- LANE_SWAP: the peer's record in a swap; this end switches at the seq it names (Table 11-8: from UP_SWAP alone). -/
def execLaneSwap (link : Nat) (retiring : BitVec 8) (switchSeq : BitVec 16) (s : State) : Host.Outcome State Fault Refusal :=
  onLink link s (fun l =>
    if l.state ≠ .upSwap ∨ 5 ≤ retiring.toNat then s
    else (s.updLink link (fun l => { l with
      retiring := some retiring.toNat
      switchAt := some (retiring.toNat, switchSeq, false) })).trySwitch link)

/-- RESTRIPE: the peer's record names the lanes that remain. -/
def execRestripe (link : Nat) (lanes : BitVec 8) (s : State) : Host.Outcome State Fault Refusal :=
  onLink link s (fun l =>
    let left := lanes.setWidth 5
    if !l.carries then s
    else if laneCount left < 3 then s.linkStop link .down
    else
      let s1 := s.updLink link (fun l => { l with
        lanes := left
        lost := l.lost + (laneCount l.lanes - laneCount left) })
      if laneCount left = 3 ∧ l.state = .up then
        (if l.spareFree then s1.updLink link (fun l => { l with
          state := .upSwap
          retiring := (List.range 4).find? (fun i => !left.getLsbD i) })
        else (s1.updLink link (fun l => { l with state := .up3 })).raise 0x5003 (linkPlace link) noCmd)
      else s1)

/-- ROUTE (R268): the port blocks whose traffic the link carries; takeover begins or ends. -/
def execRoute (link : Nat) (pbs : BitVec 24) (s : State) : Host.Outcome State Fault Refusal :=
  onLink link s (fun l =>
    if !l.carries then s
    else
      let both := pbs.getLsbD (partnerOf link)
      (s.updLink link (fun l => { l with takeover := both })).updLink (partnerOf link) (fun l => { l with takenOver := both }))

/-! ### Replay and credits (R260, R262) -/

/-- Whether `a` lies below `b` modulo 2^16. -/
def seqBelow (a b : BitVec 16) : Bool := decide (0 < (b - a).toNat) && decide ((b - a).toNat < 32768)

/-- The peer's ack covers every flit below it, of which a later one may bear the number again. -/
def State.takeAck (s : State) (n : Nat) (ack : BitVec 16) : State :=
  (s.updLink n (fun l => { l with
    replay := l.replay.filter (fun f => !seqBelow f.seq ack)
    nakCounts := l.nakCounts.filter (fun x => decide (65536 ≤ x.1) || !seqBelow (BitVec.ofNat 16 x.1) ack) })).flushLink n

/-- NAK (R260): the named flits go again, unchanged; a seq named in 16 NAKs makes the link fail. -/
def execNak (link : Nat) (missing : List (BitVec 16)) (s : State) : Host.Outcome State Fault Refusal :=
  onLink link s (fun l =>
    if !l.carries then s
    else
      let counts := missing.foldl (fun m q => smUpd 0 q.toNat (· + 1) m) l.nakCounts
      let again := missing.filter (fun q => l.replay.any (fun f => f.seq == q))
      let s1 := s.updLink link (fun l => again.foldl Link.resend { l with nakCounts := counts })
      let s2 := again.foldl (fun s _ => s.raise 0x5001 (linkPlace link) noCmd) s1
      if missing.any (fun q => decide (16 ≤ smGet 0 counts q.toNat)) then s2.linkStop link .down else s2)

/-- CREDIT (R262): flits of buffer granted per channel. -/
def execCredit (link : Nat) (grants : List (BitVec 16)) (s : State) : Host.Outcome State Fault Refusal :=
  onLink link s (fun l =>
    if !l.carries then s
    else (s.updLink link (fun l => { l with
      credits := (grants.take 4).zipIdx.foldl (fun m (g : BitVec 16 × Nat) => smUpd 0 g.2 (· + g.1.toNat) m) l.credits })).flushLink
        link)

/-! ### Remote signals (R273, R274) -/

/-- A released signal leaves the port block as a FENCED Rill SYNC_SIGNAL. -/
def State.releaseSignal (s : State) (n : Nat) (m : SignalMsg) : State :=
  (s.sendRill (syncMsg (pbCode n) m.syncId.toNat (m.op.toNat ||| 0x80) m.stepLow m.operand)).progress
    (signalQueue n)

/-- Whether a signal's stream has delivered the bytes it states. -/
def signalMet (s : State) (n : Nat) (m : SignalMsg) : Bool :=
  decide (m.count.toNat % 2 ^ 48 ≤ smGet 0 (pbOf s n).streams (streamKey m.src m.channel.toNat))

def sameStream (a b : SignalMsg) : Bool := a.src == b.src && a.channel == b.channel

/-- Release every pending signal whose count is reached and that is the first of its stream. -/
def State.releasePending (s : State) (n : Nat) : (fuel : Nat) → State
  | 0 => s
  | k + 1 =>
    let p := (pbOf s n).pendingSignals
    let first (m : SignalMsg) : Bool := (p.find? (sameStream m)) == some m
    match p.find? (fun m => first m && signalMet s n m) with
    | none => s
    | some m => State.releasePending ((s.updPb n (fun x => { x with
        pendingSignals := x.pendingSignals.eraseP (fun y => y == m) })).releaseSignal n m) n k

/-- SIGNAL (R273, R274): released at once, or pending until its stream's data has arrived. The checks of 0x5009 come before that of
0x5008 (log entry 105). -/
def execSignal (link : Nat) (m : SignalMsg) (s0 : State) : Host.Outcome State Fault Refusal :=
  let s := s0.wake
  if 24 ≤ link then .next s
  else
    let p := pbOf s link
    let place := linkPlace link
    let key := streamKey m.src m.channel.toNat
    if m.stepLow ≠ low32 s.currentStep ∨ 0x8000 ≤ m.syncId.toNat ∨ (m.channel ≠ 1 ∧ m.channel ≠ 3) ∨
        m.count.toNat / 2 ^ 48 ≠ 0 ∨ (¬ p.streams.any (fun x => x.1 == key) ∧ 512 ≤ p.streams.length) then
      .next (s.raise 0x5009 place noCmd m.syncId.toNat)
    else if 256 ≤ p.pendingSignals.length then .next (s.linkFault link 0x5008)
    else if signalMet s link m ∧ ¬ p.pendingSignals.any (sameStream m) then .next (s.releaseSignal link m)
    else .next (s.updPb link (fun x => { x with pendingSignals := x.pendingSignals ++ [m] }))

/-! ### Flits (R258 to R263) -/

/-- A whole message: discarded with 0x5007 when its type, channel or a reserved field is wrong, with the link going down, or when it
is not for this module (R263, R265). WEIGHT credits of a message that is no frame for the intake go back here (R262). -/
def State.deliverMessage (s : State) (n c : Nat) (msg : Bytes) : State :=
  let type := fieldAt msg 4 1
  let known := [0x01, 0x02, 0x10, 0x11, 0x12, 0x20, 0x21, 0x30, 0x40, 0x41].contains type
  let mine := BitVec.ofNat 16 (fieldAt msg 0 2) == s.boot.positionId
  if !known || channelOf type != c || fieldAt msg 6 2 != 0 || fieldAt msg 12 4 != 0 then s.linkFault n 0x5007
  else
    let s1 := if c = 2 ∧ (type = 2 ∨ !mine) then s.giveCredit n 2 ((msg.length + 239) / 240) else s
    if mine then s1.updLink n (fun l => { l with delivered := l.delivered ++ [(c, msg)] })
    else s1.raise 0x5007 (linkPlace n) noCmd type

/-- A DATA flit leaves the link layer in channel order (R261): its credit goes back, but on CONTROL, where it has, and on WEIGHT (R262);
its bytes join the message being assembled; KILN and BULK bytes count in the stream table (R273); and a whole message is checked. -/
def State.leaveLink (s : State) (n : Nat) (f : Flit) : State :=
  let c := f.channel.toNat
  let bytes := f.body.take f.len.toNat
  let msg := (if f.som then [] else smGet [] (linkOf s n).assembling c) ++ bytes
  let key := streamKey (BitVec.ofNat 16 (fieldAt msg 2 2)) c
  let counted := decide (c = 1 ∨ c = 3)
  let fresh := counted && !((pbOf s n).streams.any (fun x => x.1 == key))
  let s0 := if counted then s.giveCredit n c 1 else s
  if fresh && decide (512 ≤ (pbOf s n).streams.length) then s0.raise 0x5009 (linkPlace n) noCmd c
  else
    let s1 := if counted then s0.updPb n (fun p => { p with streams := smUpd 0 key (· + bytes.length) p.streams }) else s0
    let s2 := s1.updLink n (fun l => { l with assembling := smPut [] c (if f.eom then [] else msg) l.assembling })
    let s3 := if counted then s2.releasePending n 256 else s2
    if f.eom then s3.deliverMessage n c msg else s3

/-- Deliver the flits of a channel that have become due. -/
def State.deliverChannel (s : State) (n c : Nat) : (fuel : Nat) → State
  | 0 => s
  | k + 1 =>
    let l := linkOf s n
    match l.reorder.find? (fun f => f.channel.toNat == c && f.chseq == smGet 0 l.rxChseq c) with
    | none => s
    | some f =>
      let s1 := s.updLink n (fun l => { l with
        reorder := l.reorder.eraseP (fun g => g == f)
        rxChseq := smUpd 0 c (· + 1) l.rxChseq })
      State.deliverChannel (s1.leaveLink n f) n c k

/-- Sequence numbers from `a` up to and without `b`. -/
def seqRange (a b : BitVec 16) : List (BitVec 16) := (List.range (b - a).toNat).map (fun i => a + BitVec.ofNat 16 i)

/-- Advance the next expected seq over those already seen. -/
def Link.advanceRx : (fuel : Nat) → Link → Link
  | 0, l => l
  | n + 1, l => if l.rxSeen.contains l.rxNext then
      Link.advanceRx n { l with
        rxSeen := l.rxSeen.filter (fun q => q ≠ l.rxNext)
        rxNext := l.rxNext + 1 }
    else l

/-- The records of a list of seqs, 32 in each. -/
def nakChunks : (fuel : Nat) → List (BitVec 16) → List (List (BitVec 16))
  | 0, _ => []
  | n + 1, qs => if qs.isEmpty then [] else qs.take 32 :: nakChunks n (qs.drop 32)

/-- Name missing seqs in NAK records of at most 32; a seq named 16 times makes the link fail. -/
def State.nameMissing (s : State) (n : Nat) (qs : List (BitVec 16)) : State :=
  let s1 := s.updLink n (fun l => { l with nakCounts := qs.foldl (fun t q => smUpd 0 (65536 + q.toNat) (· + 1) t) l.nakCounts })
  let s2 := (nakChunks qs.length qs).foldl (fun s m => s.linkRecord n (.nak m)) s1
  if qs.any (fun q => decide (16 ≤ smGet 0 (linkOf s2 n).nakCounts (65536 + q.toNat))) then s2.linkStop n .down else s2

/-- Seqs below the highest received that have not come. -/
def Link.missing (l : Link) : List (BitVec 16) :=
  let hi := l.rxSeen.foldl (fun a q => if (a - l.rxNext).toNat < (q - l.rxNext).toNat then q else a) l.rxNext
  (seqRange l.rxNext hi).filter (fun q => !l.rxSeen.contains q)

/-- A flit that no rule allows (R258, R262): a reserved kind or bit, a length that its kind does not have (log entry 99), or a link
record of a reserved type. -/
def flitIllegal (f : Flit) : Bool :=
  let len := f.len.toNat
  f.kind == 3 || f.reserved != 0 ||
    (f.kind != 0 && (len == 0 || decide (240 < len))) || (f.kind == 1 && !f.eom && len != 240) ||
    (f.kind == 2 && (fieldAt f.body 0 1 == 0 || decide (6 < fieldAt f.body 0 1) || fieldAt f.body 1 1 != 0))

/-- A DATA or LINK flit that comes for the first time: seqs it skips are named, and a DATA flit waits for its turn in its channel. -/
def State.acceptFlit (s : State) (link : Nat) (f : Flit) : State :=
  let l := linkOf s link
  let skipped := (seqRange l.rxNext f.seq).filter (fun q =>
    !l.rxSeen.contains q && smGet 0 l.nakCounts (65536 + q.toNat) == 0)
  let s1 := (s.updLink link (fun l =>
    let l1 := { l with
      rxSeen := f.seq :: l.rxSeen
      nakCounts := smPut 0 (65536 + f.seq.toNat) 0 l.nakCounts }
    l1.advanceRx l1.rxSeen.length)).nameMissing link skipped
  if !(linkOf s1 link).carries ∨ f.kind = 2 then s1.trySwitch link
  else
    let s2 := s1.updLink link (fun l => { l with
      granted := smUpd 0 f.channel.toNat (· - 1) l.granted
      reorder := l.reorder ++ [f] })
    let s3 := if f.channel = 0 then s2.giveCredit link 0 1 else s2
    (s3.deliverChannel link f.channel.toNat (linkOf s3 link).reorder.length).trySwitch link

/-- ZLINK_FLIT (R258 to R263). A failed flit is discarded and the seqs still missing, or the next one, are named in a NAK
(log entry 21). -/
def execZlinkFlit (link : Nat) (f : Flit) (s : State) : Host.Outcome State Fault Refusal :=
  onLink link s (fun l =>
    if !l.carries then s
    else if flitFailed f then s.nameMissing link (if l.missing.isEmpty then [l.rxNext] else l.missing)
    else if flitIllegal f then s.linkFault link 0x5007
    else
      let s1 := if f.kind = 1 then (s.takeAck link f.ack).wake else s.takeAck link f.ack
      if f.kind = 0 ∨ seqBelow f.seq l.rxNext ∨ l.rxSeen.contains f.seq then s1
      else if f.kind = 1 ∧ smGet 0 l.granted f.channel.toNat = 0 then s1.linkFault link 0x5007
      else s1.acceptFlit link f)

/-! ### Weight frames (R270 to R272) -/

/-- Bytes 0 to 23 of a frame. -/
def frameHead (f : Frame) : Bytes :=
  leBytes 8 f.key.toNat ++ leBytes 4 f.frameSeq.toNat ++ leBytes 4 f.stepLow.toNat ++ leBytes 1 f.format.toNat ++
    leBytes 1 f.form.toNat ++ leBytes 1 f.targetPb.toNat ++ zeros 1 ++ leBytes 4 f.length.toNat

/-- Ask the store for a frame again, or give up after the refire budget (R272). -/
def State.requestFrame (s : State) (n : Nat) (f : Frame) : State :=
  let k := f.frameSeq.toNat
  if smGet 0 (pbOf s n).requests k < s.budget then
    (s.updPb n (fun p => { p with requests := smUpd 0 k (· + 1) p.requests })).zSend n
      ⟨(linkOf s ((linkFor s n).getD n)).peerId, 0x02, 0xFF, leBytes 4 f.stepLow.toNat ++ leBytes 1 n ++ zeros 3 ++ leBytes 4 k⟩
  else s.raise 0x5013 (linkPlace n) noCmd k

/-- A verified frame, in frame_seq order (R63, R225, R271, R272, R282): chained, available to the column's scheduled multicast, its
object signalled. A frame that the schedule does not send takes no more space (log entry 106). -/
def State.takeFrame (s : State) (n : Nat) (e : IntakeEntry) (f : Frame) : State :=
  let k := f.frameSeq.toNat
  let s1 := s.updPb n (fun p => { p with
    weightChain := sha256 (digestBytes p.weightChain ++ digestBytes f.sha)
    ready := p.ready ++ [(k, f.payload)] })
  let s2 := (s1.sendRill (syncMsg (pbCode n) e.syncId 0x81 (low32 s.currentStep) 1)).traceAt 8 false (pbCode n) noCmd
    (k + 2 ^ 32 * n)
  if flowLeft s2 (pbSiteOf n) (.frame k) then s2.freeFrame n k else s2

/-- Take verified frames while the next expected one is there. -/
def State.takeFrames (s : State) (n : Nat) : (fuel : Nat) → State
  | 0 => s
  | k + 1 =>
    let p := pbOf s n
    match p.expected with
    | [] => s
    | (q, e) :: rest =>
      match p.verified.find? (fun f => f.frameSeq.toNat == q) with
      | none => s
      | some f =>
        let s1 := s.updPb n (fun x => { x with
          expected := rest
          verified := x.verified.filter (fun g => g.frameSeq.toNat ≠ q) })
        State.takeFrames (s1.takeFrame n e f) n k

/-- The checks of a frame at its intake, in the order of R272; a frame discarded takes no more space. -/
def State.intake (s : State) (n : Nat) (f : Frame) : State :=
  let p := pbOf s n
  let k := f.frameSeq.toNat
  let place := linkPlace n
  let now := low32 s.step.current.stepNumber
  let drop (s : State) : State := s.freeIntake n f.payload.length
  if f.resv ∨ (s.step.inProgress ∧ f.stepLow = now ∧ p.done.contains k) then drop s
  else
    let entry := (p.expected.find? (fun x => x.1 == k)).map (·.2)
    match entry with
    | none => (drop s).raise 0x5012 place noCmd k
    | some e =>
      if ¬ s.step.inProgress ∨ f.stepLow ≠ now ∨ f.key ≠ e.key ∨ f.format.toNat ≠ e.format ∨ f.form.toNat ≠ e.form ∨
          f.length.toNat ≠ e.length then (drop s).raise 0x5012 place noCmd k
      else if crc32c (frameHead f ++ f.payload) ≠ f.crc then ((drop s).raise 0x5010 place noCmd k).requestFrame n f
      else if sha256 (frameHead f ++ f.payload) ≠ f.sha then ((drop s).raise 0x5011 place noCmd k).requestFrame n f
      else
        let s1 := s.updPb n (fun x => { x with
          done := k :: x.done
          verified := x.verified ++ [f] })
        ((s1.takeFrames n (p.verified.length + 1)).progress (intakeQueue n)).pumpMesh

/-- WEIGHT_FRAME (R272): a frame reaches port block `pb`; one for its partner under takeover crosses the edge link. -/
def execWeightFrame (pb : Nat) (f : Frame) (s0 : State) : Host.Outcome State Fault Refusal :=
  let s := s0.wake
  if 24 ≤ pb then .next s
  else if s.step.phase = .discarding then .next (s.freeIntake pb f.payload.length)
  else
    let t := f.targetPb.toNat
    if t = pb then .next (s.intake pb f)
    else if t = partnerOf pb ∧ ((linkOf s pb).takeover ∨ s.variant = .c) then .next (s.intake t f)
    else .next ((s.freeIntake pb f.payload.length).raise 0x5007 (linkPlace pb) noCmd t)

end Sys2Proof.Machine
end

