-- ==== Sys2Proof/Machine/Supply.lean ====
section
/-! DEFINITION. Sys2Proof/Machine/Supply.lean: region and module power states (R338 to R340), waking, unloading a program
(R301, R324, R360), the provisioning record's fields, and moving contents between physical tiles. -/

namespace Sys2Proof.Machine

/-! ### The provisioning record in force (Tables 18-4 and 18-5) -/

/-- A field of the record in force; `d` when the record is absent (R414). -/
def State.recordField (s : State) (off n d : Nat) : Nat := if s.boot.record = [] then d else fieldAt s.boot.record off n

/-- Feed ID (R371). -/
def State.feedId (s : State) : BitVec 16 := BitVec.ofNat 16 (s.recordField 48 2 0xFFFF)

/-- A policy bit: 0 HAND_SET, 1 DUMP_DATA, 2 REPLAY_READ. -/
def State.policy (s : State) (i : Nat) : Bool := bitOf (s.recordField 40 8 0) i

/-! ### Standby and unloading -/

/-- The module is in STANDBY: field regions that are ACTIVE enter RETENTION, the mesh stops (Table 14-4). -/
def State.toStandby (s : State) : State :=
  { s with power := { s.power.fieldRegions .active .retention with
      state := .standby
      meshRun := false
      stretching := false
      held := none } }

/-- The program and its tables go (R301): program areas, router tables, sync objects, Kiln and intake maps. -/
def State.unloadProgram (s : State) : State :=
  let s1 := (List.range physicalTiles).foldl (fun s p => s.tileClear p programBase 0x100000) s
  { s1 with
    program := none
    mesh := {}
    sync := { syncInstall [] with
              dump := s.sync.dump
              armed := s.sync.armed }
    host := { s1.host with
      programImage := []
      programOpen := false
      installing := none
      kelletImage := [] } }

/-! ### Contents of tiles -/

/-- Copy `n` bytes from key `src` to key `dst`. -/
def copyRange (m : List Host.Cell) (src dst n : Nat) : List Host.Cell :=
  let cells := m.filter (fun c => decide (src ≤ c.1) && decide (c.1 < src + n))
  cells.foldl (fun m c => wrByte m (c.1 - src + dst) c.2) (clearRange m dst (dst + n))

/-- Copy a tile-local range from one physical tile to another. Every line is written anew, with a check word formed for its new place
(R238); one whose check failed as it was read fails there too. -/
def State.copyTile (s : State) (src dst addr n : Nat) : State :=
  let bad := (failingLines s src).filter (fun a => decide (addr ≤ a) && decide (a < addr + n))
  let kept := cureLines s.checks (memKey dst addr) (memKey dst addr + n)
  { s with
    mem := copyRange s.mem (memKey src addr) (memKey dst addr) n
    checks := bad.foldl (fun m a => smPut 0 (memKey dst a) 1 m) kept }

/-- A tile loses what needs VCORE (R324): memories, canvases, Sieve, buffer, palette tables, router tables. -/
def State.clearVolatile (s : State) (p : Nat) : State :=
  let t := tileOf s p
  (s.tileClear p 0 loamBase).setTile p { dead := t.dead, heartbeat := t.heartbeat }

/-- Physical tiles of a field. -/
def fieldTiles (i : Nat) : List Nat := (List.range physicalTiles).filter (fun p => fieldOfPhys p == i)

/-- Logical tiles of a field. -/
def fieldLogical (i : Nat) : List Nat := (List.range logicalTiles).filter (fun t => fieldOfLogical t == i)

end Sys2Proof.Machine
end

