-- ==== Sys2Proof/Machine/Survive.lean ====
section
/-! DEFINITION. Sys2Proof/Machine/Survive.lean: generations kept for recovery, snapshots, parity groups, lost pages and their
rebuild, and restores (chapter 16). -/

namespace Sys2Proof.Machine

/-! ### Slices -/

/-- Logical shard pages of a tile. -/
def State.slicePages (s : State) (t : Nat) : Nat := (s.tileProg t).shard.pages

/-- Logical tiles that hold a slice. -/
def State.sliceTiles (s : State) : List Nat := (List.range logicalTiles).filter (fun t => decide (0 < s.slicePages t))

/-- Number of the last sealed step: the expected one, or the one in progress, less one (R19). -/
def State.lastSealed (s : State) : BitVec 64 := s.step.expected - 1

/-- Bytes of a physical page of a logical tile. -/
def State.physPage (s : State) (t page : Nat) : Bytes := tileRead s (physOf s.repair t) (pageAddr page 0) pageBytes

/-- The generation digest of the committed generation or of C + 1 (R253). -/
def State.genDigest (s : State) (next : Bool) : Digest :=
  sha256 ((List.range logicalTiles).flatMap (fun t => digestBytes (s.sliceDigest next t)))

/-- The physical page that holds a logical page of the parity generation: its base page, or the committed one (R364). -/
def State.basePage (s : State) (t lp : Nat) : Option Nat :=
  let b := smGet 1024 s.pages.base (pageKey t lp)
  if b < 1024 then some b else s.pageOf false t lp

/-- Bytes of a page of the parity generation. -/
def State.baseBytes (s : State) (t lp : Nat) : Bytes := ((s.basePage t lp).map (s.physPage t)).getD (zeros pageBytes)

/-- Digest of a slice given page by page. -/
def digestOfPages (s : State) (page : Nat → Nat → Bytes) (t : Nat) : Digest :=
  sha256 ((List.range (s.slicePages t)).flatMap (page t))

/-- Generation digest of slices given page by page. -/
def genOfPages (s : State) (page : Nat → Nat → Bytes) : Digest :=
  sha256 ((List.range logicalTiles).flatMap (fun t => digestBytes (digestOfPages s page t)))

/-! ### The restore bundle (R369, Table 16-4) -/

/-- The bundle of the last sealed step: the state as it stands between steps, and within a step as it was latched at OPEN (R369). -/
def State.makeBundle (s : State) (step : BitVec 64) : Bundle :=
  let inside := s.step.inProgress
  let counted := inside && s.step.committed && !s.step.voteSkip
  { step := step
    lossScale := if inside then s.step.latchedScale else s.step.lossScale
    optCount := if counted then s.step.optCount - 1 else s.step.optCount
    seeds := s.step.seedRecord
    optGroups := s.step.optGroups, windows := s.step.windows
    peerTable := (List.range 24).map (fun n => (smGet ({} : Link) s.links n).peerTable)
    groups := s.prog.groups
    runObjects := if inside then s.sync.image else s.sync.objs.filter (fun x => x.2.isRun)
    gen := if counted then s.pages.primary.before else s.pages.primary.after }

/-- A group entry and its members from their bytes. -/
def readGroup (e members : Bytes) : Group :=
  { members := fieldAt e 0 2, selfIndex := fieldAt e 2 2, policy := fieldAt e 4 1 % 4, vote := bitOf (fieldAt e 4 1) 2
    deadlineUs := fieldAt e 8 4, retention := fieldAt e 12 1, retentionBase := BitVec.ofNat 64 (fieldAt e 24 8)
    retentionBytes := BitVec.ofNat 64 (fieldAt e 32 8)
    memberList := (List.range (fieldAt e 0 2)).map (fun m => (fieldAt members (4 * m) 2, fieldAt members (4 * m + 2) 1)) }

/-- A sparse table of `n` fields of `w` bytes. -/
def readTable (d : Nat) (b : Bytes) (off w n bits : Nat) : SMap (BitVec bits) :=
  (List.range n).foldl (fun m i => smPut (BitVec.ofNat bits d) i (BitVec.ofNat bits (fieldAt b (off + w * i) w)) m) []

/-- A bundle from its bytes; `objs` give the configurations of its RUN objects. -/
def readBundle (step : BitVec 64) (gen : Digest) (objs : SMap SyncObj) (b : Bytes) : Bundle :=
  { step := step, lossScale := BitVec.ofNat 64 (fieldAt b 0 8), optCount := BitVec.ofNat 64 (fieldAt b 8 8)
    seeds := BitVec.ofNat 256 (ofBE ((b.drop 16).take 32)), optGroups := readTable 0 b 64 32 64 256
    windows := readTable 0 b 2112 2 256 16
    peerTable := (List.range 24).map (fun i => BitVec.ofNat 32 (fieldAt b (2624 + 4 * i) 4))
    groups := ((List.range 16).map (fun i => readGroup ((b.drop (2720 + 64 * i)).take 64)
      ((b.drop (3744 + 8192 * i)).take 8192))).filter (fun g => g.members ≠ 0)
    runObjects := (List.range (fieldAt b 134816 4)).foldl (fun m i =>
      let id := fieldAt b (134832 + 24 * i) 2
      smPut {} id { smGet ({} : SyncObj) objs id with
        state := BitVec.ofNat 64 (fieldAt b (134840 + 24 * i) 8)
        base := BitVec.ofNat 64 (fieldAt b (134848 + 24 * i) 8) } m) []
    gen := gen }

/-! ### Snapshot images (R368, Table 16-3) -/

def variantCode : Variant → Nat
  | .a => 0
  | .b => 1
  | .c => 2

/-- Offset of an image's directory and data for a bundle of `n` bytes. -/
def dirOffset (n : Nat) : Nat := roundUp (4096 + n) 4096
def dataOffset (n : Nat) : Nat := roundUp (dirOffset n + 112896) pageBytes

/-- Pages of the slices before tile `t`. -/
def State.pagesBefore (s : State) (t : Nat) : Nat := ((List.range t).map s.slicePages).sum

/-- The image of a generation given page by page. -/
def State.snapshotImage (s : State) (step : BitVec 64) (bundle : Bundle) (page : Nat → Nat → Bytes) : Bytes :=
  let bb := bundle.bytes
  let n := bb.length
  let dataAt := dataOffset n
  let total := dataAt + s.pagesBefore logicalTiles * pageBytes
  let head := [0x5A, 0x53, 0x4E, 0x50] ++ leBytes 2 1 ++ leBytes 1 (variantCode s.variant) ++ zeros 1 ++
    leBytes 8 step.toNat ++ leBytes 2 s.boot.positionId.toNat ++ zeros 14 ++ digestBytes s.prog.digest ++
    digestBytes (genOfPages s page) ++ leBytes 16 (fieldMapValue s.repair) ++ leBytes 8 total ++ leBytes 8 n ++
    digestBytes (sha256 bb) ++ zeros 3936
  let dir := (List.range logicalTiles).flatMap (fun t =>
    leBytes 4 (s.tileProg t).shard.params ++ leBytes 4 (s.slicePages t) ++
      leBytes 8 (if s.slicePages t = 0 then 0 else dataAt + s.pagesBefore t * pageBytes) ++
      digestBytes (digestOfPages s page t))
  fitTo dataAt (fitTo (dirOffset n) (head ++ bb) ++ dir) ++
    s.sliceTiles.flatMap (fun t => (List.range (s.slicePages t)).flatMap (page t))

/-- Bytes of a page of the generation of the last sealed step (R18). -/
def State.sealedBytes (s : State) (t lp : Nat) : Bytes := ((s.sealedPage t lp).map (s.physPage t)).getD (zeros pageBytes)

/-! ### Bulk messages (R382, Table 16-9) -/

/-- Member index of this module in its parity group; 0xFF outside one. -/
def State.selfMember (s : State) : Nat := match s.survival.config with | some c => c.selfIndex.toNat | none => 0xFF

/-- A BULK_WRITE body. -/
def bulkBody (kind role tile : Nat) (stepLow : BitVec 32) (address : Nat) (sender : Nat) (payload : Bytes) : Bytes :=
  leBytes 1 kind ++ leBytes 1 role ++ leBytes 2 tile ++ leBytes 4 stepLow.toNat ++ leBytes 8 address ++
    leBytes 4 payload.length ++ leBytes 4 (if payload = [] then 0 else (crc32c payload).toNat) ++ leBytes 1 sender ++
    zeros 7 ++ payload

/-- Send a BULK_WRITE through a port block. -/
def State.sendBulk (s : State) (pb : Nat) (dest : BitVec 16) (destPb : Nat) (body : Bytes) : State :=
  s.zSendCounted pb 3 ⟨dest, 0x20, BitVec.ofNat 8 destPb, body⟩

/-- Position IDs of the parity group with their member indices, this module excepted. -/
def State.peersInGroup (s : State) : List (Nat × BitVec 16) :=
  match s.survival.config with
  | some c => ((List.range c.size.toNat).filter (· ≠ c.selfIndex.toNat)).map (fun i => (i, c.members.getD i 0xFFFF))
  | none => []

/-- Send a message without page to every other member. -/
def State.sendGroup (s : State) (kind : Nat) (stepLow : BitVec 32) (payload : Bytes) : State :=
  s.peersInGroup.foldl (fun s m => s.sendBulk 0 m.2 0 (bulkBody kind 0 0xFFFF stepLow 0 s.selfMember payload)) s

/-- Cut bytes into pieces of 2 MiB with their offsets. -/
def chunks : (n : Nat) → Nat → Bytes → List (Nat × Bytes)
  | 0, _, _ => []
  | n + 1, off, b => if b = [] then [] else (off, b.take pageBytes) :: chunks n (off + pageBytes) (b.drop pageBytes)

/-- Write an image to a store region: SNAP_DATA messages, each slice through its column's port block. -/
def State.sendImage (s : State) (store : BitVec 16) (address : Nat) (step : BitVec 64) (image : Bytes) : State :=
  (chunks (image.length / pageBytes + 1) 0 image).foldl (fun s c =>
    let t := (s.sliceTiles.find? (fun t =>
      let lo := dataOffset (fieldAt image 120 8) + s.pagesBefore t * pageBytes
      decide (lo ≤ c.1) && decide (c.1 < lo + s.slicePages t * pageBytes))).getD 0
    s.sendBulk (colOf t / 2) store 0xFF
      (bulkBody 1 0 (if dataOffset (fieldAt image 120 8) ≤ c.1 then t else 0xFFFF) (low32 step) (address + c.1) 0xFF c.2)) s

/-! ### Exports (R366, R367) -/

/-- An export ends: staged pages return to the pool, its COMMAND_DONE carries `status`. -/
def State.endExport (s : State) (status : Code) : State :=
  match s.survival.exporting with
  | none => s
  | some e =>
    ({ s with
        survival := { s.survival with exporting := none }
        pages := { s.pages with
          owed := []
          placed := []
          staged := [] } }).commandDone e.owed status

/-- SNAPSHOT_EXPORT accepted (R367): the image of the last sealed generation, whose pages are owed until the export ends, or
of the base. -/
def State.startExport (s : State) (r : ExportReq) (o : Owed) : State :=
  let s0 := s.wake
  let base := decide (r.which = 1)
  let step := if base then (s0.survival.bundle.map (·.step)).getD 0 else s0.lastSealed
  let bundle := if base then s0.survival.bundle.getD (s0.makeBundle step) else s0.makeBundle step
  let image := s0.snapshotImage step bundle (if base then s0.baseBytes else s0.sealedBytes)
  let all := if base then [] else s0.sliceTiles.flatMap (fun t => (List.range (s0.slicePages t)).map (pageKey t))
  let s1 := { s0 with
    survival := { s0.survival with exporting := some { req := r, owed := o, image := image } }
    pages := { s0.pages with
      owed := all.filter (fun k => smGet 1024 s0.pages.prior k = 1024)
      staged := s0.pages.staged ++ if base then [] else s0.pages.prior } }
  if r.dest = 0 then s1.sendImage r.storeId r.storeAddress.toNat step image else s1

/-- Whether byte ranges cover `[0, n)`, each taken once it begins at or below what is covered. -/
def coverFrom : (fuel : Nat) → Nat → List (Nat × Nat) → Nat
  | 0, c, _ => c
  | k + 1, c, l =>
    match l.find? (fun x => decide (x.1 ≤ c) && decide (c < x.1 + x.2)) with
    | some x => coverFrom k (x.1 + x.2) l
    | none => c

/-- EXPORT_COMPLETE: the last flit is acknowledged, or the last byte of the image has been read. -/
def execExportComplete (s : State) : Host.Outcome State Fault Refusal :=
  match s.survival.exporting with
  | none => .next s
  | some e =>
    if e.req.dest = 1 ∧ coverFrom e.ranges.length 0 e.ranges < e.image.length then .next s
    else .next (s.endExport 0)

/-! ### Parity geometry (R372) -/

/-- The stripe of unit `p` of member `j`: its row q and the member h that gives it its name. -/
def stripeOf (code g j p : Nat) : Nat × Nat :=
  if code = 0 then
    let r := p % (g - 1)
    (p / (g - 1), if j ≤ r then r + 1 else r)
  else
    let hs := (List.range g).filter (fun h => h ≠ j ∧ h ≠ (j + g - 1) % g)
    (p / (g - 2), hs.getD (p % (g - 2)) 0)

/-- Data units of a stripe: member and unit. -/
def stripeUnits (code g : Nat) (st : Nat × Nat) : List (Nat × Nat) :=
  (List.range g).filterMap (fun j =>
    if code = 0 then
      if j = st.2 then none else some (j, st.1 * (g - 1) + (if j < st.2 then st.2 - 1 else st.2))
    else if j = st.2 ∨ j = (st.2 + 1) % g then none
    else
      let hs := (List.range g).filter (fun h => h ≠ j ∧ h ≠ (j + g - 1) % g)
      some (j, st.1 * (g - 2) + hs.findIdx (· = st.2)))

/-- Holder and parity page of the P page, and of the Q page, of a stripe. -/
def pPlace (code : Nat) (st : Nat × Nat) : Nat × Nat := (st.2, if code = 0 then st.1 else 2 * st.1)
def qPlace (g : Nat) (st : Nat × Nat) : Nat × Nat := ((st.2 + 1) % g, 2 * st.1 + 1)

/-- What member `h`'s parity page `k` holds: its stripe, and whether it is a Q page. -/
def parityContent (code g h k : Nat) : (Nat × Nat) × Bool :=
  if code = 0 then ((k, h), false)
  else if k % 2 = 0 then ((k / 2, h), false) else ((k / 2, (h + g - 1) % g), true)

/-- A data unit as a Q page adds it. -/
def qTerm (j : Nat) (b : Bytes) : Bytes := b.map (gfScale j)

/-- Parity pages of member `h` that cover unit `p` of member `j`. -/
def covering (code g h j p : Nat) : List (Nat × Bool) :=
  let st := stripeOf code g j p
  (if (pPlace code st).1 = h then [((pPlace code st).2, false)] else []) ++
    (if code ≠ 0 ∧ (qPlace g st).1 = h then [((qPlace g st).2, true)] else [])

/-- Units that parity page `k` of member `h` sums for a slice of `l` pages. -/
def pageUnits (code g h k l : Nat) : List (Nat × Nat) :=
  (stripeUnits code g (parityContent code g h k).1).filter (fun x => decide (x.2 < l))

/-! ### Refresh (R363, R373) -/

def State.updSurvival (s : State) (f : Survival → Survival) : State := { s with survival := f s.survival }

/-- Every parity page this module holds is complete. -/
def State.parityComplete (s : State) : Bool :=
  match s.survival.config with
  | none => false
  | some c =>
    s.sliceTiles.all (fun t =>
      let l := s.slicePages t
      (List.range (parityPages c l)).all (fun k =>
        (pageUnits c.code.toNat c.size.toNat c.selfIndex.toNat k l).all (fun u =>
          s.survival.units.contains (pageKey t k, u.1, u.2))))

/-- The refresh generation is held complete once every member's PARITY_DONE is. -/
def State.checkRefresh (s : State) : State :=
  match s.survival.config, s.survival.refresh with
  | some c, some st =>
    if (List.range c.size.toNat).all (fun i => s.survival.doneBy.contains i) then
      s.updSurvival (fun v => { v with
        readyStep := st
        refresh := none })
    else s
  | _, _ => s

/-- When its last page is complete, the module sends PARITY_DONE to every member. -/
def State.checkOwnParity (s : State) : State :=
  match s.survival.config, s.survival.refresh with
  | some c, some st =>
    if s.parityComplete && !s.survival.doneBy.contains c.selfIndex.toNat then
      ((s.sendGroup 4 st []).updSurvival (fun v => { v with doneBy := v.doneBy ++ [c.selfIndex.toNat] })).checkRefresh
    else s
  | _, _ => s

/-- Send member `h` every unit of the refresh generation that its pages cover; it is that of the last sealed step, since the step
after it is not sealed before the refresh is complete (R374). -/
def State.sendUnits (s : State) (h : Nat) (st : BitVec 32) : State :=
  match s.survival.config with
  | none => s
  | some c =>
    let dest := c.members.getD h 0xFFFF
    s.sliceTiles.foldl (fun s t => (List.range (s.slicePages t)).foldl (fun s p =>
      if covering c.code.toNat c.size.toNat h c.selfIndex.toNat p = [] then s
      else s.sendBulk (colOf t / 2) dest (colOf t / 2)
        (bulkBody 2 0 t st p c.selfIndex.toNat (s.sealedBytes t p))) s) s

/-- SEAL of a refresh step (R373): PARITY_READY to every member; members already ready get their units. -/
def State.beginRefresh (s : State) (step : BitVec 64) : State :=
  match s.survival.config with
  | none => s
  | some c =>
    if s.survival.formed && c.interval != 0 && step.toNat % c.interval.toNat == 0 then
      let st := low32 step
      let s1 := (s.wake.sendGroup 3 st []).updSurvival (fun v => { v with
        refresh := some st
        inactive := []
        units := []
        doneBy := (v.doneEarly.filter (fun x => x.2 = st)).map (·.1)
        doneEarly := []
        ready := v.ready.filter (fun x => x.2 = st)
        nextBundle := some (s.makeBundle step) })
      (s1.survival.ready.foldl (fun s x => s.sendUnits x.1 st) s1).checkOwnParity
    else s

/-- SEAL of the step after a refresh step whose generation is held complete: it becomes the parity generation, and the
previous base and active set are released (R363, R364). -/
def State.advanceParity (s : State) (step : BitVec 64) : State :=
  let prev := low32 (step - 1)
  if s.survival.formed && s.survival.readyStep == prev && s.survival.parityStep != prev then
    { s.updSurvival (fun v => { v with
        parityStep := prev
        activeSet := v.inactive
        inactive := []
        bundle := v.nextBundle
        nextBundle := none }) with
      pages := { s.pages with
        base := s.pages.nextBase
        nextBase := [] } }
  else s

/-- PARITY_READY (R373): the member gets its units once this module has sealed the step too. -/
def execParityReady (sender : BitVec 8) (stepLow : BitVec 32) (s : State) : Host.Outcome State Fault Refusal :=
  let s1 := s.wake.updSurvival (fun v => { v with
    ready := if v.ready.contains (sender.toNat, stepLow) then v.ready else v.ready ++ [(sender.toNat, stepLow)] })
  .next (if s.survival.refresh = some stepLow ∨ (s.survival.readyStep = stepLow ∧ s.survival.refresh = none) then
    s1.sendUnits sender.toNat stepLow else s1)

/-- PARITY_UNIT (R372, R373, R382): a unit is added into the inactive pages that cover it, once; for one that fails its check, this
module's PARITY_READY goes to the member again (log entry 117). -/
def execParityUnit (m : UnitMsg) (s : State) : Host.Outcome State Fault Refusal :=
  match s.survival.config with
  | none => .next s
  | some c =>
    if m.resv ∨ s.survival.refresh ≠ some m.stepLow ∨ m.role ≠ 0 ∨ c.size.toNat ≤ m.sender.toNat then .next s
    else if crc32c m.payload ≠ m.crc then
      .next (s.wake.sendBulk 0 (c.members.getD m.sender.toNat 0xFFFF) 0 (bulkBody 3 0 0xFFFF m.stepLow 0 s.selfMember []))
    else
      let j := m.sender.toNat
      let p := m.address.toNat
      let pages := covering c.code.toNat c.size.toNat c.selfIndex.toNat j p
      .next ((pages.foldl (fun s k =>
        let key := pageKey m.tile.toNat k.1
        if s.survival.units.contains (key, j, p) then s
        else s.updSurvival (fun v => { v with
          units := v.units ++ [(key, j, p)]
          inactive := smUpd (zeros pageBytes) key (fun b => xorBytes b (if k.2 then qTerm j m.payload else m.payload))
            v.inactive })) s.wake).checkOwnParity)

/-- PARITY_DONE (R363): it counts for the refresh in progress, or is held for one that this module has not begun. -/
def execParityDone (sender : BitVec 8) (stepLow : BitVec 32) (s : State) : Host.Outcome State Fault Refusal :=
  if s.survival.refresh = some stepLow then
    if s.survival.doneBy.contains sender.toNat then .next s
    else .next ((s.updSurvival (fun v => { v with doneBy := v.doneBy ++ [sender.toNat] })).checkRefresh)
  else if s.survival.readyStep = stepLow ∨ s.survival.doneEarly.contains (sender.toNat, stepLow) then .next s
  else .next (s.updSurvival (fun v => { v with doneEarly := v.doneEarly ++ [(sender.toNat, stepLow)] }))

/-! ### The group (R370, R371) -/

/-- Layout digest: SHA-256 of the 2,352 shard descriptors (Table 8-5). -/
def State.layoutDigest (s : State) : Digest :=
  sha256 ((List.range logicalTiles).flatMap (fun t =>
    let h := (s.tileProg t).shard
    leBytes 4 h.params ++ leBytes 4 h.maskPlates ++ leBytes 4 h.poolFirst ++ leBytes 4 h.poolPages))

/-- Pages a slice's pool must hold (R365). -/
def poolNeed (c : ParityCfg) (l : Nat) : Nat := 3 * l + 2 * parityPages c l + (l + 7) / 8

/-- Whether a configuration is rejected (R370, R365). -/
def parityInvalid (s : State) (c : ParityCfg) : Bool :=
  let g := c.size.toNat
  let ids := (c.members.take g).map (·.toNat)
  if g = 0 then
    c.code != 0 || c.interval != 0 || c.selfIndex != 0 || c.firstPage != 0 || c.storeId != 0 || c.rebuildAddress != 0
  else
    decide (g < 4) || decide (16 < g) || decide (2 ≤ c.code.toNat) || c.interval == 0 || decide (1024 < c.interval.toNat) ||
      decide (g ≤ c.selfIndex.toNat) || c.members.getD c.selfIndex.toNat 0xFFFF != s.boot.positionId ||
      ids.dedup.length != ids.length ||
      s.sliceTiles.any (fun t =>
        let h := (s.tileProg t).shard
        decide (h.poolPages < poolNeed c h.pages) || decide (c.firstPage.toNat < h.poolFirst) ||
          decide (h.poolFirst + h.poolPages < c.firstPage.toNat + 2 * parityPages c h.pages))

/-- A join agrees with this module's configuration. -/
def joinAgrees (s : State) (c : ParityCfg) (m : JoinMsg) : Bool :=
  m.code == c.code && m.size == c.size && m.interval == c.interval && m.layout == s.layoutDigest

/-- A join held is compared with this module's configuration (R371). A feed ID of 0xFFFF matches no other. -/
def State.judgeJoin (s : State) (c : ParityCfg) (m : JoinMsg) : State :=
  let s1 := if joinAgrees s c m then s else s.raise 0x3204 moduleWide noCmd m.sender.toNat
  if m.feedId = s.feedId ∧ m.feedId ≠ 0xFFFF then
    (s1.updSurvival (fun v => { v with correlated := true })).raise 0x3205 moduleWide noCmd m.sender.toNat
  else s1

/-- The group is formed when every member's join is held and agrees (R371). -/
def State.formGroup (s : State) (c : ParityCfg) : State :=
  let all := s.peersInGroup.all (fun x => s.survival.joins.any (fun j => j.sender.toNat == x.1 && joinAgrees s c j))
  s.updSurvival (fun v => { v with formed := all })

/-- An accepted configuration replaces the previous one; PARITY_JOIN goes to every member, and the joins that have come count for it
(log entry 118). -/
def State.configureParity (s : State) (c : ParityCfg) : State :=
  let s1 := { s with
    survival := { ({} : Survival) with
      config := if c.size = 0 then none else some c
      joins := s.survival.joins
      exporting := s.survival.exporting
      restoring := s.survival.restoring
      rollback := s.survival.rollback }
    pages := { s.pages with
      base := []
      nextBase := [] } }
  if c.size = 0 then s1
  else
    let s2 := s1.wake.sendGroup 5 0 (leBytes 2 s.feedId.toNat ++ leBytes 1 c.code.toNat ++ leBytes 1 c.size.toNat ++
      leBytes 2 c.interval.toNat ++ zeros 2 ++ digestBytes s.layoutDigest ++ zeros 24)
    let held := s.survival.joins.filter (fun j => s2.peersInGroup.any (fun x => x.1 == j.sender.toNat))
    (held.foldl (fun s j => s.judgeJoin c j) s2).formGroup c

/-- PARITY_JOIN (R371): the group forms when every member's join is held and agrees. -/
def execParityJoin (m : JoinMsg) (s : State) : Host.Outcome State Fault Refusal :=
  let s0 := s.wake.updSurvival (fun v => { v with joins := v.joins.filter (fun x => x.sender ≠ m.sender) ++ [m] })
  match s.survival.config with
  | none => .next s0
  | some c => .next ((s0.judgeJoin c m).formGroup c)

/-! ### Lost pages and rebuild (R349, R376, R377) -/

/-- Page-table entries of a tile, by logical page. -/
def State.entries (s : State) (t : Nat) : List (Nat × BitVec 64) :=
  (s.pages.table.filter (fun x => x.1 / 1024 == t)).map (fun x => (x.1 % 1024, x.2))

/-- Pages of a tile's slab that must survive a step: shard pages of every retained generation, base and staging. -/
def State.persistent (s : State) (t : Nat) : List Nat :=
  let slots := (s.entries t).flatMap (fun x =>
    (if (slotOf x.2 0).valid then [(slotOf x.2 0).page] else []) ++ (if (slotOf x.2 1).valid then [(slotOf x.2 1).page] else []))
  let mine (k : Nat) : Bool := k / 1024 == t
  (slots ++ (s.pages.base.filter (fun x => mine x.1)).map (·.2) ++ (s.pages.nextBase.filter (fun x => mine x.1)).map (·.2) ++
    (s.pages.staged.filter (fun x => mine x.1)).map (·.2) ++ (s.pages.prior.filter (fun x => mine x.1)).map (·.2)).dedup

/-- The committed generation is a refresh generation held complete. -/
def State.committedComplete (s : State) : Bool :=
  s.survival.formed && s.survival.readyStep == low32 s.lastSealed && s.survival.readyStep != 0xFFFFFFFF && !s.step.committed

/-- More units of a page's stripe cannot be reached than the code tolerates (R376; log entry 30). -/
def State.outOfReach (s : State) (c : ParityCfg) (t index : Nat) : Bool :=
  let g := c.size.toNat
  let l := s.slicePages t
  let st := if index < l then stripeOf c.code.toNat g c.selfIndex.toNat index
    else (parityContent c.code.toNat g c.selfIndex.toNat (index - l)).1
  let holders := ((stripeUnits c.code.toNat g st).filter (fun u => decide (u.2 < l))).map (·.1) ++
    [(pPlace c.code.toNat st).1] ++ (if c.code = 0 then [] else [(qPlace g st).1])
  let missing := (holders.filter (· ≠ c.selfIndex.toNat)).length + 1
  (linkFor s (colOf t / 2)).isNone && decide ((if c.code = 0 then 1 else 2) < missing)

/-- Ask the group for a page of the generation of a step: REBUILD_REQUEST to every member, or 0x3207 when too much of its stripe is
out of reach. -/
def State.requestPage (s : State) (t index : Nat) (lostFrom : Option Nat) (step : BitVec 32) : State :=
  match s.survival.config with
  | none => s
  | some c =>
    let w : Wanted := ⟨pageKey t index, lostFrom, step⟩
    let s1 := s.updSurvival (fun v => { v with
      wanted := v.wanted.filter (fun x => !(x.key == w.key && x.step == step)) ++ [w] })
    if s.outOfReach c t index then s1.raise 0x3207 moduleWide noCmd t
    else s1.peersInGroup.foldl (fun s m => s.sendBulk (colOf t / 2) m.2 (colOf t / 2)
      (bulkBody 6 0 t step index c.selfIndex.toNat [])) s1

/-- What follows the marking of a page (R376): a page of the base, and one of a refresh generation held complete, is asked for; the
loss of any other page of the committed generation calls for a rollback; a staged one ends the export. -/
def State.handleLost (s : State) (t page : Nat) (dark : Bool) : State :=
  let from' := if dark then none else some page
  let mine (x : Nat × Nat) : Bool := x.1 / 1024 == t && x.2 == page
  let v := s.survival
  let hasParity := v.formed && v.parityStep != 0xFFFFFFFF
  let s0 := if s.pages.staged.any mine then s.endExport 0x320A else s
  match s.pages.base.find? mine, s.pages.nextBase.find? mine with
  | some x, _ => s0.requestPage t (x.1 % 1024) from' v.parityStep
  | none, some x => s0.requestPage t (x.1 % 1024) from' v.readyStep
  | none, none =>
    match ((s.entries t).map (·.1)).find? (fun lp => s.pageOf false t lp == some page) with
    | none => s0
    | some lp =>
      let shared := hasParity && decide (smGet 1024 s.pages.base (pageKey t lp) = 1024)
      if s.committedComplete then s0.requestPage t lp from' v.readyStep
      else if shared then s0.requestPage t lp from' v.parityStep
      else (s0.updSurvival (fun v => { v with rollback := true })).raise 0x3206 moduleWide noCmd t

/-- Mark pages of a tile lost and start what R376 gives them. -/
def State.losePages (s : State) (t : Nat) (pages : List Nat) (dark : Bool) : State :=
  let new := pages.filter (fun p => !s.pages.lost.contains (pageKey t p))
  let s1 := { s with
    pages := { s.pages with lost := s.pages.lost ++ new.map (pageKey t) }
    arbiter := { s.arbiter with pagesLost := s.arbiter.pagesLost || !new.isEmpty } }
  new.foldl (fun s p => s.handleLost t p dark) s1

/-- The records that lay in lost slabs are gone (R397); a copy of the commit record is taken from the other (R50). -/
def State.dropRecords (s : State) (tiles : List Nat) : State :=
  let slabs := s.recordSlabs
  let hit (lo hi : Nat) : Bool := ((slabs.drop lo).take (hi + 1 - lo)).any tiles.contains
  let bank (m : List Host.Cell) (gone : Bool) (b : Nat) : List Host.Cell :=
    if gone then clearRange m (0x200000 * b) (0x200000 * (b + 1)) else m
  let lost0 := tiles.contains s.pages.primaryTile
  let lost1 := tiles.contains s.pages.secondTile
  { s with
    trace := { s.trace with
      dumpIndex := if hit 0 4 then [] else s.trace.dumpIndex
      dumpKellet := if hit 0 4 then [] else s.trace.dumpKellet
      captures := s.trace.captures.filter (fun c => !(c.slot == 0 && hit 5 7) && !(c.slot == 1 && hit 8 10))
      dumpTiles := s.trace.dumpTiles.filter (fun x => !tiles.any (fun t => physOf s.repair t == x.1)) }
    sync := { s.sync with dump := if hit 11 11 then none else s.sync.dump }
    host := { s.host with
      batch := bank (bank s.host.batch (hit 12 13) 0) (hit 14 15) 1
      kelletImage := if hit 19 19 then [] else s.host.kelletImage
      sessions := if hit 17 18 then s.host.sessions.map (fun x => { x with
          unacked := []
          reserved := [] }) else s.host.sessions }
    step := { s.step with
      receipts := if hit 16 16 then [] else s.step.receipts
      details := if hit 16 16 then [] else s.step.details }
    pages := { s.pages with
      primary := if lost0 && !lost1 then s.pages.second else s.pages.primary
      second := if lost1 && !lost0 then s.pages.primary else s.pages.second } }

/-- The slab of a logical tile is lost: its contents, its parity pages, and the marks of its persistent pages. -/
def State.loseSlab (s : State) (t : Nat) (dark : Bool) : State :=
  let keep := s.persistent t
  let mine (x : Nat × Bytes) : Bool := x.1 / 1024 == t
  let s1 := (s.tileClear (physOf s.repair t) loamBase (slabPages s.variant * pageBytes)).updSurvival (fun v => { v with
    inactive := v.inactive.filter (fun x => !mine x)
    activeSet := v.activeSet.filter (fun x => !mine x) })
  let emptied (r : Ring) : Ring := { state := r.state, postLeft := r.postLeft }
  let s2 := s1.updTrace (fun x => { x with rings := smUpd {} (physOf s.repair t) emptied x.rings })
  s2.losePages t keep dark

/-- XOR of all. -/
def xorAll (l : List Bytes) : Bytes := l.foldl xorBytes (zeros pageBytes)

/-- Solve for a data unit from the others of its stripe with P, with Q, or with both when another unit is missing. -/
def solveUnit (j : Nat) (have' : List (Nat × Bytes)) (missing : List Nat) (p q : Option Bytes) : Option Bytes :=
  let sumP := xorAll (have'.map (·.2))
  let sumQ := xorAll (have'.map (fun x => qTerm x.1 x.2))
  match missing, p, q with
  | [], some pb, _ => some (xorBytes pb sumP)
  | [], none, some qb => some ((xorBytes qb sumQ).map (gfMul (gfInv (gfScale j 1))))
  | [k], some pb, some qb =>
    -- D_j = (Q' + 2^k P') / (2^j + 2^k)
    let p' := xorBytes pb sumP
    let q' := xorBytes qb sumQ
    let d := gfInv (gfScale j 1 ^^^ gfScale k 1)
    some ((xorBytes q' (qTerm k p')).map (gfMul d))
  | _, _, _ => none

/-- A wanted page of the generation of a step from what has been gathered for it, if that is enough. -/
def State.solve (s : State) (key : Nat) (step : BitVec 32) : Option Bytes :=
  match s.survival.config with
  | none => none
  | some c =>
    let g := c.size.toNat
    let code := c.code.toNat
    let j := c.selfIndex.toNat
    let t := key / 1024
    let l := s.slicePages t
    let got := s.survival.gathered.filter (fun x => x.key == key && x.step == step)
    let role (r : Nat) : Option Bytes := (got.find? (fun x => x.role == r)).map (·.bytes)
    let dataOf (u : Nat × Nat) : Option (Nat × Bytes) :=
      (got.find? (fun x => x.role == 0 && x.sender == u.1 && x.index == u.2)).map (fun x => (u.1, x.bytes))
    if key % 1024 < l then
      let units := (stripeUnits code g (stripeOf code g j (key % 1024))).filter (fun u => u.1 ≠ j ∧ u.2 < l)
      solveUnit j (units.filterMap dataOf) ((units.filter (fun u => (dataOf u).isNone)).map (·.1)) (role 1) (role 2)
    else
      let pc := parityContent code g j (key % 1024 - l)
      let units := (stripeUnits code g pc.1).filter (fun u => u.2 < l)
      let found := units.filterMap dataOf
      let whole := match (units.filter (fun u => (dataOf u).isNone)).map (·.1) with
        | [] => some found
        | [k] => (solveUnit k found [] (role 1) (role 2)).map (fun b => (k, b) :: found)
        | _ => none
      whole.map (fun l => if pc.2 then xorAll (l.map (fun x => qTerm x.1 x.2)) else xorAll (l.map (·.2)))

/-- A rebuilt page goes into a free pool page in place of the lost one, and its mark clears. -/
def State.placeRebuilt (s : State) (t lp page : Nat) (b : Bytes) : State :=
  let new := (s.freePages t).headD page
  let swap (x : Slot) : Slot := if x.valid && x.page == page then { x with page := new } else x
  let e := s.entry t lp
  let s1 := (s.tileWrite (physOf s.repair t) (pageAddr new 0) b).setEntry t lp (packEntry (swap (slotOf e 0)) (swap (slotOf e 1)))
  let move (m : SMap Nat) : SMap Nat := m.map (fun x => if x.1 = pageKey t lp ∧ x.2 = page then (x.1, new) else x)
  { s1 with pages := { s1.pages with
      base := move s1.pages.base
      nextBase := move s1.pages.nextBase
      prior := move s1.pages.prior
      lost := s1.pages.lost.filter (· ≠ pageKey t page) } }

/-- Base pages of a generation with the rebuilt pages of dark slices in place. -/
def State.rescuedBytes (s : State) (t lp : Nat) : Bytes :=
  match s.survival.rebuilt.find? (fun x => x.1 == pageKey t lp) with
  | some x => x.2
  | none => s.baseBytes t lp

/-- When every wanted page of the dark fields is rebuilt, the base image goes to the store at rebuild_address and their marks
clear (R377). -/
def State.rescueDark (s : State) : State :=
  let dark (k : Nat) : Bool := fieldState s.repair (fieldOfLogical (k / 1024)) == 2
  if s.survival.restoring.isNone && s.pages.lost.any dark && !(s.survival.wanted.any (fun w => dark w.key)) then
    match s.survival.config, s.survival.bundle with
    | some c, some b =>
      let s1 := s.sendImage c.storeId c.rebuildAddress.toNat b.step (s.snapshotImage b.step b s.rescuedBytes)
      { s1 with
        pages := { s1.pages with lost := s1.pages.lost.filter (fun k => !dark k) }
        survival := { s1.survival with rebuilt := [] } }
    | _, _ => s
  else s

/-- After a mark has cleared: 0x3208 when it was the last (R376). -/
def State.lastMark (s : State) (before : Nat) : State :=
  if before ≠ 0 ∧ s.pages.lost = [] then s.raise 0x3208 moduleWide else s

/-! ### Restores (R378, R379) -/

/-- The RUN objects a restore brings back (R379). -/
def State.restoreObjects (s : State) (b : Bundle) : Sync :=
  let put (y : Sync) (x : Nat × SyncObj) : Sync :=
    let o := objOf y x.1
    if o.isRun then y.setObj x.1 { o with
      state := x.2.state
      base := x.2.base
      gateStep := if o.isGate then low32 b.step else o.gateStep
      gateSet := o.gateSet || o.isGate }
    else y
  b.runObjects.foldl put s.sync

/-- The bundle reinstated. -/
def State.applyBundle (s : State) (b : Bundle) : State :=
  let s1 := (b.peerTable.zipIdx).foldl (fun s e => s.setPeer e.2 e.1) s
  { s1 with
    step := { s1.step with
      lossScale := b.lossScale
      optCount := b.optCount
      optGroups := b.optGroups
      windows := b.windows
      seedRecord := b.seeds }
    sync := s1.restoreObjects b
    program := s1.program.map (fun p => { p with groups := b.groups }) }

/-- The write of the commit record that names the restored step (R379). `pages` gives the page table of the restored
generation. -/
def State.reinstate (s : State) (b : Bundle) (gen : Digest) (table : List (Nat × Nat)) (active : SMap Bytes) : State :=
  let c := s.gen + 1
  let s1 := (s.applyBundle b).writeRecord ⟨b.step, c, s.pages.primary.after, gen⟩
  { s1 with
    pages := { s1.pages with
      table := table.foldl (fun m x => smPut 0 x.1 (packEntry ⟨x.2, true, tagOf c⟩ ⟨0, false, 0⟩) m) []
      lost := []
      base := []
      nextBase := []
      prior := []
      owed := []
      placed := []
      staged := [] }
    step := { s1.step with
      expected := b.step + 1
      anyNumber := false
      attempt := 0 }
    reduce := { s1.reduce with
      lateOwed := []
      lateIn := []
      prevRecords := []
      records := []
      planned := [] }
    survival := { s1.survival with
      parityStep := low32 b.step
      readyStep := low32 b.step
      refresh := none
      activeSet := active
      inactive := []
      bundle := some { b with gen := gen }
      nextBundle := none
      rollback := false
      restoring := none
      wanted := []
      gathered := []
      rebuilt := [] } }

/-- Write pages of a generation into free pool pages: the table it gives. -/
def State.installPages (s : State) (page : Nat → Nat → Bytes) : State × List (Nat × Nat) :=
  s.sliceTiles.foldl (fun acc t =>
    let free := acc.1.freePages t
    (List.range (s.slicePages t)).foldl (fun acc lp =>
      let p := free.getD lp 0
      (acc.1.tileWrite (physOf acc.1.repair t) (pageAddr p 0) (page t lp), acc.2 ++ [(pageKey t lp, p)])) acc) (s, [])

/-- A restore ends. -/
def State.endRestore (s : State) (o : Owed) (status : Code) : State :=
  (s.updSurvival (fun v => { v with
    restoring := none
    wanted := if v.restoring.isSome then [] else v.wanted
    rebuilt := if v.restoring.isSome then [] else v.rebuilt })).commandDone o status

/-- RESTORE source 1 (R378): the module's own generation held complete. -/
def State.restoreBase (s : State) (r : RestoreReq) (o : Owed) : State :=
  let want := low32 r.stepNumber
  let isBase := s.survival.formed && s.survival.parityStep == want && want != 0xFFFFFFFF
  let isLast := s.committedComplete && s.lastSealed == r.stepNumber
  let page (t lp : Nat) : Option Nat := if isLast then s.pageOf false t lp else s.basePage t lp
  let bytes (t lp : Nat) : Bytes := ((page t lp).map (s.physPage t)).getD (zeros pageBytes)
  let bundle := if isLast then s.survival.nextBundle.orElse (fun _ => s.survival.bundle) else s.survival.bundle
  let gen := genOfPages s bytes
  match bundle with
  | none => s.endRestore o 0x3209
  | some b =>
    if !(isBase || isLast) || b.step != r.stepNumber || gen != r.expectedGen then s.endRestore o 0x3209
    else
      let table := s.sliceTiles.flatMap (fun t => (List.range (s.slicePages t)).map (fun lp =>
        (pageKey t lp, (page t lp).getD 0)))
      (s.reinstate b gen table (if isLast && !isBase then s.survival.inactive else s.survival.activeSet)).endRestore o 0

/-- The next BULK_READ of a restore from a store: the header first, then 2 MiB at a time. -/
def State.readMore (s : State) (r : Restore) : State :=
  let n := r.image.length
  let total := if n < 4096 then 4096 else fieldAt r.image 112 8
  let len := min (total - n) pageBytes
  s.zSendCounted 0 3 ⟨r.req.storeId, 0x21, 0xFF, leBytes 8 (r.req.storeAddress.toNat + n) ++ leBytes 4 len ++ leBytes 4 n⟩

/-- An image has arrived whole: its checks, and the restore (R378). -/
def State.restoreImage (s : State) (r : Restore) : State :=
  let b := r.image
  let n := fieldAt b 120 8
  let at' (t : Nat) : Nat := dirOffset n + 48 * t
  let page (t lp : Nat) : Bytes := (b.drop (fieldAt b (at' t + 8) 8 + lp * pageBytes)).take pageBytes
  let gen := genOfPages s page
  let bundleOk := sha256 ((b.drop 4096).take n) == BitVec.ofNat 256 (ofBE ((b.drop 128).take 32))
  let layoutOk := (List.range logicalTiles).all (fun t =>
    fieldAt b (at' t) 4 == (s.tileProg t).shard.params && fieldAt b (at' t + 4) 4 == s.slicePages t)
  let digestsOk := (List.range logicalTiles).all (fun t =>
    ofBE ((b.drop (at' t + 16)).take 32) == (digestOfPages s page t).toNat)
  if ofBE ((b.drop 32).take 32) ≠ s.prog.digest.toNat ∨ fieldAt b 16 2 ≠ s.boot.positionId.toNat ∨
      fieldAt b 8 8 ≠ r.req.stepNumber.toNat ∨ !layoutOk ∨ !digestsOk ∨ !bundleOk ∨
      gen.toNat ≠ ofBE ((b.drop 64).take 32) ∨ gen ≠ r.req.expectedGen then s.endRestore r.owed 0x3209
  else
    let w := s.installPages page
    let bundle := readBundle r.req.stepNumber gen s.sync.objs ((b.drop 4096).take n)
    (w.1.reinstate bundle gen w.2 []).endRestore r.owed 0

/-- Every page of a restore by rebuild is there: the digest check, and the restore. -/
def State.restoreRebuilt (s : State) (r : Restore) : State :=
  let page (t lp : Nat) : Bytes := smGet (zeros pageBytes) s.survival.rebuilt (pageKey t lp)
  let gen := genOfPages s page
  if gen ≠ r.req.expectedGen then s.endRestore r.owed 0x3209
  else
    let w := s.installPages page
    let active := (s.survival.rebuilt.filter (fun x => decide (s.slicePages (x.1 / 1024) ≤ x.1 % 1024))).map
      (fun x => (x.1 - s.slicePages (x.1 / 1024), x.2))
    (w.1.reinstate (s.makeBundle r.req.stepNumber) gen w.2 active).endRestore r.owed 0

/-- RESTORE accepted (R378): any export ends, any refresh is abandoned, and the source is read. -/
def State.startRestore (s : State) (source : Nat) (r : RestoreReq) (o : Owed) : State :=
  let s1 := (s.wake.endExport 0x320A).updSurvival (fun v => { v with refresh := none })
  let rs : Restore := { source := source, req := r, owed := o }
  match source with
  | 1 => s1.restoreBase r o
  | 0 => (s1.updSurvival (fun v => { v with restoring := some rs })).readMore rs
  | _ =>
    match s1.survival.config with
    | none => s1.endRestore o 0x3209
    | some c =>
      if !s1.survival.formed then s1.endRestore o 0x3209
      else
        let s2 := s1.updSurvival (fun v => { v with
          restoring := some rs
          rebuilt := []
          wanted := []
          gathered := [] })
        let keys := s2.sliceTiles.flatMap (fun t =>
          (List.range (s2.slicePages t + parityPages c (s2.slicePages t))).map (fun i => (t, i)))
        if keys.any (fun k => s2.outOfReach c k.1 k.2) then s2.endRestore o 0x3207
        else if keys = [] then s2.restoreRebuilt rs
        else keys.foldl (fun s k => s.requestPage k.1 k.2 none (low32 r.stepNumber)) s2

/-- READ_DATA (R378, R382): the store's answer; on a CRC failure the piece is asked for again. -/
def execReadData (address : BitVec 64) (crc : BitVec 32) (data : Bytes) (s : State) : Host.Outcome State Fault Refusal :=
  match s.survival.restoring with
  | none => .next s
  | some r =>
    if r.source ≠ 0 ∨ address.toNat ≠ r.req.storeAddress.toNat + r.image.length then .next s
    else if crc32c data ≠ crc ∨ data = [] then .next (s.readMore r)
    else
      let r1 := { r with image := r.image ++ data }
      let s1 := s.updSurvival (fun v => { v with restoring := some r1 })
      if 4096 ≤ r1.image.length ∧ fieldAt r1.image 112 8 ≤ r1.image.length then .next (s1.restoreImage r1)
      else .next (s1.readMore r1)

/-- REBUILD_REQUEST (R376, R378): the units and parity pages that this module holds of the stripe of the page named: page
`index` of the requester's slice, or its parity page index − L. -/
def execRebuildRequest (sender : BitVec 8) (tile : BitVec 16) (stepLow : BitVec 32) (page : BitVec 64) (s : State) :
    Host.Outcome State Fault Refusal :=
  match s.survival.config with
  | none => .next s
  | some c =>
    let holds := stepLow = s.survival.readyStep ∨ stepLow = s.survival.parityStep
    let t := tile.toNat
    if ¬ holds ∨ stepLow = 0xFFFFFFFF ∨ logicalTiles ≤ t ∨ c.size.toNat ≤ sender.toNat then .next s
    else
      let g := c.size.toNat
      let code := c.code.toNat
      let me := c.selfIndex.toNat
      let l := s.slicePages t
      let i := page.toNat
      let st := if i < l then stripeOf code g sender.toNat i else (parityContent code g sender.toNat (i - l)).1
      let dest := c.members.getD sender.toNat 0xFFFF
      let set := if stepLow = s.survival.parityStep then s.survival.activeSet else s.survival.inactive
      let send (s : State) (role idx : Nat) (b : Bytes) : State :=
        s.sendBulk (colOf t / 2) dest (colOf t / 2) (bulkBody 7 role t stepLow idx me b)
      let page (lp : Nat) : Option Nat := if stepLow = s.survival.parityStep then s.basePage t lp else s.sealedPage t lp
      let s1 := (stripeUnits code g st).foldl (fun s u =>
        match (if u.1 = me ∧ u.2 < l then page u.2 else none) with
        | some p => if s.pages.lost.contains (pageKey t p) then s else send s 0 u.2 (s.physPage t p)
        | none => s) s.wake
      let parity (s : State) (pl : Nat × Nat) (role : Nat) : State :=
        if pl.1 = me then
          match set.find? (fun x => x.1 == pageKey t pl.2) with
          | some x => send s role pl.2 x.2
          | none => s
        else s
      let s2 := parity s1 (pPlace code st) 1
      .next (if code = 0 then s2 else parity s2 (qPlace g st) 2)

/-- REBUILD_UNIT (R376 to R378): a unit or parity page is gathered for every wanted page of its stripe; a page that can be
solved is rebuilt. -/
def execRebuildUnit (m : UnitMsg) (s : State) : Host.Outcome State Fault Refusal :=
  match s.survival.config with
  | none => .next s
  | some c =>
    let g := c.size.toNat
    let code := c.code.toNat
    let me := c.selfIndex.toNat
    let t := m.tile.toNat
    let l := s.slicePages t
    let stripe (i : Nat) : Nat × Nat := if i < l then stripeOf code g me i else (parityContent code g me (i - l)).1
    let fits (i : Nat) : Bool :=
      let st := stripe i
      match m.role.toNat with
      | 0 => (stripeUnits code g st).contains (m.sender.toNat, m.address.toNat)
      | 1 => pPlace code st == (m.sender.toNat, m.address.toNat)
      | 2 => code != 0 && qPlace g st == (m.sender.toNat, m.address.toNat)
      | _ => false
    let keys := (s.survival.wanted.filter (fun w => w.step == m.stepLow && w.key / 1024 == t && fits (w.key % 1024))).map (·.key)
    if m.resv then .next s
    else if crc32c m.payload ≠ m.crc then
      .next (keys.foldl (fun s k =>
        s.sendBulk (colOf t / 2) (c.members.getD m.sender.toNat 0xFFFF) (colOf t / 2)
          (bulkBody 6 0 t m.stepLow (k % 1024) me [])) s)
    else if keys = [] then .next s.wake
    else
      let before := s.pages.lost.length
      let s1 := s.wake.updSurvival (fun v => { v with
        gathered := v.gathered ++ keys.map (fun k => ⟨k, m.stepLow, m.role.toNat, m.sender.toNat, m.address.toNat, m.payload⟩) })
      let s2 := keys.foldl (fun s k =>
        match s.solve k m.stepLow with
        | none => s
        | some b =>
          let lostFrom := (s.survival.wanted.find? (fun w => w.key == k && w.step == m.stepLow)).bind (·.lostFrom)
          let kept := s.survival.restoring.isSome || m.stepLow == s.survival.parityStep
          let s' := s.updSurvival (fun v => { v with
            wanted := v.wanted.filter (fun w => !(w.key == k && w.step == m.stepLow))
            gathered := v.gathered.filter (fun x => !(x.key == k && x.step == m.stepLow))
            rebuilt := if lostFrom.isNone ∧ kept then smPut [] k b v.rebuilt else v.rebuilt })
          match lostFrom with
          | some page => s'.placeRebuilt t (k % 1024) page b
          | none => s') s1
      match s2.survival.restoring with
      | some r => .next (if r.source = 2 ∧ s2.survival.wanted = [] then s2.restoreRebuilt r else s2)
      | none => .next (s2.rescueDark.lastMark before)

/-! ### The survival status register (Table 16-8) -/

/-- The register as a number of 128 bits. -/
def State.survivalStatus (s : State) : Nat :=
  let v := s.survival
  let staged := (List.range logicalTiles).foldl (fun n t => max n (s.pages.staged.filter (fun x => x.1 / 1024 == t)).length) 0
  b2n v.formed + 2 * b2n v.correlated + 4 * b2n v.refresh.isSome + 8 * b2n v.exporting.isSome +
    16 * b2n (!s.pages.lost.isEmpty) + 32 * b2n v.rollback + 2 ^ 8 * (staged % 256) + 2 ^ 64 * v.parityStep.toNat +
    2 ^ 96 * v.readyStep.toNat

end Sys2Proof.Machine
end

