-- ==== Sys2Proof/Machine/Repairs.lean ====
section
/-! DEFINITION. Sys2Proof/Machine/Repairs.lean: column shift (R36 to R41, R62, R436), fencing (R42, R43), dark regions (R326, R352),
sparing out (Table 10-5), self-tests (R248 to R250, R355 to R358), and the work of a step boundary. -/

namespace Sys2Proof.Machine

/-! ### Fencing (R43) -/

def State.updRepair (s : State) (f : Repair → Repair) : State := { s with repair := f s.repair }

/-- A field takes a new state: the field map has changed (R7), and the Kellet complex loads the Rill's routing tables anew (R69). -/
def State.setField (s : State) (i : Nat) (v : BitVec 2) : State :=
  ({ s.updRepair (fun r => { r with
      fieldMap := smPut 0 i v r.fieldMap
      fullPassed := r.fullPassed.filter (· ≠ i) }) with
    arbiter := { s.arbiter with fenced := true } }).loadRill

/-! ### Injection points (R329) -/

/-- Field of an injection point: points 0 to 7 lie in the west half, 8 to 15 in the east, four in row 1, then four in
row 5. -/
def injectionField (i : Nat) : Nat := 8 * (if i % 8 < 4 then 1 else 5) + 4 * (i / 8) + i % 4

/-- Whether every injection point of a half is lost, in dark fields included. -/
def Power.halfUnlocked (w : Power) (r : Repair) (h : Nat) : Bool :=
  (List.range 8).all (fun i => w.lostLocks.contains (8 * h + i) || fieldState r (injectionField (8 * h + i)) == 2)

/-- An injection point loses lock. -/
def State.loseLock (s : State) (point : Nat) : State :=
  if s.power.lostLocks.contains point then s
  else
    let s1 := { s with power := { s.power with lostLocks := s.power.lostLocks ++ [point] } }.raise 0x7008 moduleWide noCmd point
    if s1.power.halfUnlocked s1.repair (point / 8) then s1.raise 0x7009 moduleWide noCmd (point / 8) else s1

/-- The oscillators of a field stop: an injection point in it is lost. -/
def State.stopField (s : State) (i : Nat) : State :=
  ((List.range 16).filter (fun k => injectionField k == i)).foldl State.loseLock s

/-! ### Dark fields -/

/-- A field becomes fenced and dark (state 0b10): its tiles, routers and slabs are lost. -/
def State.darken (s : State) (i : Nat) : State :=
  let s1 := ((s.dropRecords (fieldLogical i)).setField i 2).moveRecord
  let s2 := (fieldLogical i).foldl (fun s t => s.loseSlab t true) s1
  let s3 := (fieldTiles i).foldl State.clearVolatile s2
  ({ s3 with power := s3.power.updRegion i (·.enter .off) }.stopField i).rescueDark

/-- A field is fenced: 0b01 when every router in it passes its test, 0b10 otherwise. A dark field stays dark. -/
def State.fenceField (s : State) (i : Nat) (routersOk : Bool) : State :=
  if fieldState s.repair i = 2 then s
  else if routersOk then (s.setField i 1).moveRecord else s.darken i

/-! ### Column shift (R37 to R41, R62, R436) -/

/-- Physical tile at row `r` (0 to 7) of field column `k`. -/
def columnTile (k r : Nat) : Nat := 48 * (8 * (k / 6 / 8) + r) + 6 * (k / 6 % 8) + k % 6

/-- The tile on `src` moves to `dst`: its persistent pages, program, palette tables and trace ring. -/
def State.moveTile (s : State) (t src dst : Nat) : State :=
  let s1 := (s.persistent t).foldl (fun s page => s.copyTile src dst (pageAddr page 0) pageBytes) s
  let s2 := (s1.copyTile src dst programBase 0x100000).copyTile src dst paletteBase 0x10000
  let s3 := s2.updTile dst (fun x => { x with paletteControl := (tileOf s src).paletteControl })
  { s3 with trace := { s3.trace with
      rings := smPut {} src {} (smPut {} dst (ringAt s src) s3.trace.rings) } }

/-- A logical tile whose old place cannot be read comes to `dst` with its program and its router table, and the palette tables of
its image (R62). -/
def State.reloadTile (s : State) (t src dst : Nat) : State :=
  let s1 := s.copyTile src dst programBase 0x100000
  let off := tileNum s1 dst (programBase + 36) 4
  let g := s.tileProg t
  if g.hasPalette then
    (s1.tileWrite dst paletteBase (tileRead s1 dst (programBase + off) 0x10000)).updTile dst (fun x => { x with
      paletteControl := g.paletteControl })
  else s1.tileClear dst paletteBase 0x10000

/-- The repair-map entry of a field column is written, and the bypass links and port selections are switched as the map then calls
for (R39, R40). -/
def State.setEntryOf (s : State) (k : Nat) (d : BitVec 4) : State :=
  s.updRepair (fun r => ({ r with repairMap := smPut 0xF k d r.repairMap } : Repair).switched)

/-- Field columns north and south of a field column's boundary. -/
def northColumn (k : Nat) : Option Nat := if k / 6 < 8 then none else some (k - 48)
def southField (i : Nat) : Option Nat := if i + 8 < 56 then some (i + 8) else none

/-- Apply a column shift at row `d`: the tiles from the dead one southward move, south to north; the dead tile's pages move
when its Loam port and router pass, and are lost otherwise. Each moved tile's router table goes with it (R62). -/
def State.shiftColumn (s : State) (k d : Nat) (loamOk : Bool) : State :=
  let tile (j : Nat) : Nat := 48 * (7 * (k / 6 / 8) + j) + 6 * (k / 6 % 8) + k % 6
  let js := (List.range (7 - d)).map (6 - ·)
  let s1 := js.foldl (fun s j =>
    if j = d ∧ ¬ loamOk then s.reloadTile (tile j) (columnTile k j) (columnTile k (j + 1))
    else s.moveTile (tile j) (columnTile k j) (columnTile k (j + 1))) s
  let through := match northColumn k with
    | some n => if d = 0 ∧ repairEntry s.repair n = 0xF then [columnTile n 7] else []
    | none => []
  let s2 := (s1.setEntryOf k (BitVec.ofNat 4 d)).updRepair (fun r => { r with
    passThrough := (r.passThrough.filter (· ≠ columnTile k 7)) ++ through })
  let s3 := { s2 with arbiter := { s2.arbiter with
    repaired := true
    copying := s2.arbiter.copying ++ [(k, columnTile k d)] } }
  if loamOk then s3 else (s3.dropRecords [tile d]).losePages (tile d) (s3.persistent (tile d)) false

/-- A dead spare is entered in the repair map; the field south of it, whose dead row 0 its pass-through table serves, is fenced
(R436, Table 10-5). -/
def State.spareDead (s : State) (p : Nat) (ok : Nat → Bool) : State :=
  let s1 := (s.setEntryOf (fieldColOfPhys p) 7).updRepair (fun r => { r with
    passThrough := r.passThrough.filter (· ≠ p) })
  if s.repair.passThrough.contains p then
    match southField (fieldOfPhys p) with
    | some f => s1.fenceField f (ok f)
    | none => s1
  else s1

/-- The repair of a dead physical tile (R38, R40, R351, R436). `badRouters` are the physical tiles whose routers fail their test,
`others` the other tiles whose repair is due: a field column with two of them is not shifted. -/
def State.repairTile (s : State) (p : Nat) (loamOk : Bool) (badRouters others : List Nat) : State :=
  let i := fieldOfPhys p
  let k := fieldColOfPhys p
  let d := rowOf p % 8
  let e := repairEntry s.repair k
  let ok (f : Nat) : Bool := !badRouters.any (fun q => fieldOfPhys q == f)
  let s0 := s.updTile p (fun t => { t with dead := true })
  let lose (s : State) : State := match logicalOf s.repair p with
    | some t => if loamOk then s else (s.dropRecords [t]).loseSlab t false
    | none => s
  match (fieldState s.repair i).toNat with
  | 0 =>
    if d = 7 ∧ e = 0xF then s0.spareDead p ok
    else if d = 7 ∧ e = 7 then s0
    else if e = 0xF ∧ ¬ s.arbiter.copying.any (fun x => x.1 == k) ∧ ¬ others.any (fun q => q ≠ p && fieldColOfPhys q == k) then
      let blocked := match northColumn k with
        | some n => d == 0 && repairEntry s.repair n == 7
        | none => false
      if blocked then (lose s0).fenceField i (ok i) else s0.shiftColumn k d (loamOk && !badRouters.contains p)
    else if e ≠ 0xF ∧ e.toNat = d then s0
    else (lose s0).fenceField i (ok i)
  | 1 =>
    let s1 := if d = 7 ∧ e = 0xF then s0.spareDead p ok else s0
    if badRouters.contains p then s1.darken i else lose s1
  | _ => s0

/-! ### Breakers (R325, R326, R352) -/

/-- A field region's breaker opens: the region is broken at once; the rest follows in the discard, or at once between
steps. -/
def State.openBreaker (s : State) (i : Nat) : State :=
  let w := s.power.updRegion i (fun r => { r.enter .off with
    state := .broken
    vcore := 0
    vloam := 0
    suspect := false })
  { s with
    power := w
    arbiter := { s.arbiter with darkFields := if s.arbiter.darkFields.contains i then s.arbiter.darkFields
      else s.arbiter.darkFields ++ [i] } }.stopField i

/-- Row 7 for dark fields. -/
def State.darkRepairs (s : State) : State :=
  let s1 := s.arbiter.darkFields.foldl (fun s i => if fieldState s.repair i = 2 then s else s.darken i) s
  { s1 with arbiter := { s1.arbiter with darkFields := [] } }

/-! ### Sparing out a lasting site (Table 10-5) -/

/-- Spare out a site by its key. A tile that its failed self-tests have made lasting is dead: 0x4009 (Table 3-10). -/
def State.spareSite (s : State) (key : Nat) : State :=
  let site := key / 65536
  let block := key / 256 % 256
  let lane := key % 256
  let s0 := s.updRepair (fun r => { r with spared := r.spared ++ [key] })
  if site < physicalTiles then
    if block = 15 then s0.updRepair (fun r => { r with failedHops := r.failedHops ++ [(BitVec.ofNat 12 site, BitVec.ofNat 8 lane)] })
    else if (tileOf s site).dead then s0
    else
      let failed := decide (2 ≤ (smGet ({} : SiteHistory) s.repair.history key).failures.length)
      let s1 := if failed then s0.raise 0x4009 ⟨BitVec.ofNat 12 site, BitVec.ofNat 8 block⟩ noCmd lane else s0
      ({ s1 with arbiter := { s1.arbiter with deadTiles := s1.arbiter.deadTiles.filter (· ≠ site) } }).repairTile site
        (block != 10) (if block = 9 then [site] else []) []
  else if 0xB00 ≤ site ∧ site < 0xB18 then
    let n := site - 0xB00
    if block = 16 then
      let l := linkOf s0 n
      if l.state = .up ∧ l.lanes.getLsbD lane ∧ l.spareFree then s0.updLink n (fun l => { l with
        state := .upSwap
        retiring := some lane })
      else if lane = l.spare ∧ ¬ l.lanes.getLsbD lane then s0.updLink n (fun l => { l with spareFailed := true })
      else s0
    else s0.linkStop n .disabled
  else s0

/-- Spare out every lasting site not yet spared. -/
def State.spareLasting (s : State) : State :=
  (s.repair.lasting.filter (fun k => !s.repair.spared.contains k)).foldl State.spareSite s

/-! ### Step boundary (R248 to R250, R268, R324, R348, R356) -/

/-- The work of a step boundary: dark fields, lasting regions and sites, tests of dead tiles, queued tests, takeovers, and the
end of a program that a core reset took. Nothing during a step. -/
def State.boundary (s : State) : State :=
  if s.step.inProgress then s
  else
    let lasting := (List.range 56).filter (fun i => (regionOf s.power i).lasting && (regionOf s.power i).state != .broken)
    let s1 := (lasting.foldl (fun s i =>
      (s.openBreaker i).raise 0x7006 moduleWide noCmd i) s).darkRepairs.spareLasting
    let s2 := s1.arbiter.deadTiles.foldl (fun s p => s.queueTest p 0 0 false false []) s1
    let s2w := if s2.repair.tests.isEmpty then s2 else s2.wake
    let s3 := (s2w.updRepair (fun r => { r with tests := r.tests.map (fun t => { t with running := true }) })).setTakeovers
    if s3.arbiter.unload then
      { s3.unloadProgram.toStandby with arbiter := { s3.arbiter with unload := false } }
    else s3

/-- Whether OPEN must wait: tests, copies or repairs run (R249, R348). -/
def State.openWaits (s : State) : Bool :=
  s.repair.tests.any (·.running) || !s.arbiter.copying.isEmpty || !s.arbiter.deadTiles.isEmpty

/-! ### The end of a self-test (R249, R250, R355 to R358) -/

/-- Scratch stores that a test of a block leaves zeroed (R357); block 0 is every block. Free Loam pages keep their
bytes (log entry 123). -/
def State.testScrub (s : State) (p block : Nat) : State :=
  let hit (b : Nat) : Bool := block == 0 || block == b
  let s1 := if hit 6 then s.tileClear p 0 tileMemBytes else s
  let s2 := if hit 3 then s1.tileClear p sieveBase 0x100000 else s1
  let s3 := if hit 4 then s2.tileClear p bufferBase 0x10000 else s2
  s3.updTile p (fun t => { t with
    canvasA := if hit 1 || hit 2 then {} else t.canvasA
    canvasB := if hit 1 || hit 2 then {} else t.canvasB
    sieve0 := if hit 3 then {} else t.sieve0
    sieve1 := if hit 3 then {} else t.sieve1
    sieveCheck := if hit 3 then [] else t.sieveCheck })

/-- A failed test enters a site's history; two failures within 24 hours make it lasting (R250). -/
def State.noteFailure (s : State) (site block lane : Nat) : State :=
  let k := siteKey site block lane
  let h := smGet ({} : SiteHistory) s.repair.history k
  let f := (s.age :: h.failures).take 2
  let s1 := (s.updRepair (fun r => { r with
      history := smPut {} k { h with failures := f } r.history
      fullPassed := if site < physicalTiles then r.fullPassed.filter (· ≠ fieldOfPhys site) else r.fullPassed })).raise
    0x2107 ⟨BitVec.ofNat 12 site, BitVec.ofNat 8 block⟩ noCmd lane
  let again := f.length = 2 ∧ s.age.toNat < (f.getD 1 0).toNat + dayCycles
  if again ∧ ¬ s.repair.lasting.contains k then
    (s1.updRepair (fun r => { r with lasting := r.lasting ++ [k] })).raise 0x2108
      ⟨BitVec.ofNat 12 site, BitVec.ofNat 8 block⟩ noCmd lane
  else s1

/-- A requested test or recalibration of an active lane: the spare takes its place and the released lane is the spare
(R358). -/
def State.swapLane (s : State) (n lane : Nat) : State :=
  let l := linkOf s n
  if l.carries ∧ l.lanes.getLsbD lane ∧ l.spareFree then
    ((s.updLink n (fun l => { l with
      lanes := l.swapped lane
      spare := lane })).linkRecord n (.laneSwap lane l.txSeq)).raise 0x5002 (linkPlace n) noCmd lane
  else s

/-- A self-test or calibration ends. -/
def State.testDone (s : State) (site block lane : Nat) (r : TestResult) : State :=
  let mine (t : Test) : Bool := t.site.toNat == site && t.block.toNat == block && t.lane.toNat == lane && t.running
  match s.repair.tests.find? mine with
  | none => s
  | some t =>
    let s0 := s.updRepair (fun x => { x with tests := x.tests.filter (fun y => !mine y) })
    let tiles := if site = 0xFFF then List.range physicalTiles else if t.full then fieldTiles (fieldOfPhys site) else if site < physicalTiles then [site] else []
    let s1 := tiles.foldl (fun s p => s.testScrub p block) s0
    let s2 := match (if site < physicalTiles then logicalOf s.repair site else none) with
      | some x => s1.losePages x r.badPages false
      | none => s1
    let s3 := if 0xB00 ≤ site ∧ block = 16 then s2.swapLane (site - 0xB00) lane else s2
    let failed := !r.failed.isEmpty || !r.badPages.isEmpty
    let blocks := if r.failed.isEmpty && !r.badPages.isEmpty then [(10 : BitVec 8)] else r.failed
    let s4 := blocks.foldl (fun s b => s.noteFailure site b.toNat lane) s3
    let s5 := if t.full ∧ ¬ failed then s4.updRepair (fun x => { x with
        fullPassed := fieldOfPhys site :: x.fullPassed.filter (· ≠ fieldOfPhys site) }) else s4
    let s6 := t.owed.foldl (fun s o => s.commandDone o (if failed then 0x2107 else 0)) s5
    let s7 := if s6.arbiter.deadTiles.contains site then
        let s' := { s6 with arbiter := { s6.arbiter with deadTiles := s6.arbiter.deadTiles.filter (· ≠ site) } }
        s'.repairTile site (!r.failed.contains 10) (if r.failed.contains 9 then [site] else []) s'.arbiter.deadTiles
      else s6
    if s7.step.inProgress then s7 else s7.spareLasting

end Sys2Proof.Machine
end

