-- ==== Sys2Proof/Machine/Power.lean ====
section
/-! DEFINITION. Sys2Proof/Machine/Power.lean: rails, resets and breakers (R320 to R326), clock ratios, droop stretch and
injection (R328 to R333), temperature and cooling (R334, R335), suspect windows (R245, R247), idling (R340), and the status
records of chapter 14. A half is 0 (west) or 1 (east). -/

namespace Sys2Proof.Machine

def State.updPower (s : State) (f : Power → Power) : State := { s with power := f s.power }

/-- Regions of the module: 56 field regions and the edge region. -/
def regionCount : Nat := 57

/-- Rows about a region that the module does not have. -/
def onRegion (i : Nat) (s : State) (f : Region → State) : Host.Outcome State Fault Refusal :=
  if regionCount ≤ i then .next s else .next (f (regionOf s.power i))

/-- A region whose rails are up. -/
def Region.powered (r : Region) : Bool := r.state = .active || r.state = .retention

/-- Half of a field region. -/
def halfOf (i : Nat) : Nat := if i % 8 < 4 then 0 else 1

/-- Regions that act on a half (R334). -/
def regionsOfHalf (h : Nat) : List Nat := (List.range regionCount).filter (fun i => i == edgeRegion || halfOf i == h)

/-! ### Suspect windows (R245, R247) -/

/-- A SUSPECT record (Table 17-3). -/
def State.traceSuspect (s : State) (i : Nat) (opened : Bool) : State :=
  s.traceAt 0x0D true 0xF00 noCmd (i + 256 * b2n opened)

/-- The refire units of a tile that are incomplete: its open runs, and the canvases that it holds for the chain, become suspect
(R245). -/
def Tile.markSuspect (t : Tile) : Tile :=
  let run (r : Run) : Run := { r with suspect := r.suspect || r.isOpen }
  let part (r : SieveRun) : SieveRun := { r with suspect := r.suspect || r.isOpen }
  { t with
    canvasA := { t.canvasA with run := run t.canvasA.run }
    canvasB := { t.canvasB with run := run t.canvasB.run }
    sieve0 := part t.sieve0
    sieve1 := part t.sieve1
    heldCanvases := t.heldCanvases.map (fun h => { h with suspect := true }) }

/-- A suspect window opens in a region, whose tiles' incomplete units become suspect; one in the edge region during a step is
0x2106. -/
def State.openSuspect (s : State) (i : Nat) : State :=
  if (regionOf s.power i).suspect then s
  else
    let s0 := if i = edgeRegion then s else (fieldTiles i).foldl (fun s p => s.updTile p Tile.markSuspect) s
    let s1 := (s0.updPower (·.updRegion i (fun r => { r with suspect := true }))).traceSuspect i true
    if i = edgeRegion ∧ s.step.inProgress then s1.raise 0x2106 moduleWide noCmd i else s1

/-- INPUT_WARNING (R323): every powered field region opens a suspect window. -/
def execInputWarning (mv : Nat) (s : State) : Host.Outcome State Fault Refusal :=
  let s1 := s.updPower (fun w => { w with
    inputMv := mv
    inputLow := true })
  let s2 := ((List.range 56).filter (fun i => (regionOf s.power i).powered)).foldl State.openSuspect s1
  .next (s2.raise 0x7004 moduleWide noCmd mv)

/-- RAIL_WARNING (R323): a VCORE warning opens a suspect window; the event's detail is the region, its detail2 the rail
(0 VCORE, 1 VLOAM). -/
def execRailWarning (region : Nat) (rail : Rail) (mv : Nat) (s : State) : Host.Outcome State Fault Refusal :=
  onRegion region s (fun r =>
    if !r.powered then s
    else match rail with
      | .vcore =>
        ((s.updPower (·.updRegion region (fun r => { r with
          vcore := mv
          railLow := true }))).openSuspect region).raise 0x7001 moduleWide noCmd region 0
      | .vloam =>
        if region = edgeRegion then s
        else (s.updPower (·.updRegion region (fun r => { r with vloam := mv }))).raise 0x7001 moduleWide noCmd region 1)

/-- SUSPECT_WINDOW_CLOSE (R245): what held the window open has stayed clear for 5 µs. -/
def execSuspectWindowClose (region : Nat) (s : State) : Host.Outcome State Fault Refusal :=
  onRegion region s (fun r =>
    if !r.suspect then s
    else
      (s.updPower (fun w => { w.updRegion region (fun r => { r with
          suspect := false
          railLow := false
          vcore := if r.railLow then nominalMv r.state else r.vcore }) with
        inputLow := w.inputLow && region == edgeRegion
        inputMv := if w.inputLow && region != edgeRegion then 54000 else w.inputMv })).traceSuspect region false)

/-- SUSPECT_WINDOW_TIMEOUT (R247): a window open for 1 ms. -/
def execSuspectWindowTimeout (region : Nat) (s : State) : Host.Outcome State Fault Refusal :=
  onRegion region s (fun r => if r.suspect then s.raise 0x2106 moduleWide noCmd region else s)

/-! ### Resets and breakers (R324 to R326) -/

/-- A field-region reset enters the site history; a second within 24 hours makes the region lasting. -/
def Region.noteReset (r : Region) (age : BitVec 64) : Region :=
  let old := r.resets.filter (fun t => decide (age.toNat < t.toNat + dayCycles))
  { r with
    resets := age :: old
    lasting := r.lasting || !old.isEmpty }

/-- CORE_RESET (R324): the region's volatile stores are lost and the module has no program. -/
def execCoreReset (region : Nat) (s : State) : Host.Outcome State Fault Refusal :=
  onRegion region s (fun r =>
    if region = edgeRegion ∨ !r.powered then s
    else
      let s1 := (fieldTiles region).foldl State.clearVolatile s
      let s2 := s1.updPower (·.updRegion region (fun r => { r.noteReset s.age with
        vcore := nominalMv r.state
        suspect := false
        railLow := false }))
      let s3 := (s2.raise 0x7002 moduleWide noCmd region).raise 0x2106 moduleWide noCmd region
      { s3 with arbiter := { s3.arbiter with unload := s3.arbiter.unload || s3.program.isSome } }.boundary)

/-- LOAM_RAIL_RESET (R324): the region's slabs are lost. -/
def execLoamRailReset (region : Nat) (s : State) : Host.Outcome State Fault Refusal :=
  onRegion region s (fun r =>
    if region = edgeRegion ∨ !r.powered then s
    else
      let s1 := (s.updPower (·.updRegion region (fun r => { r.noteReset s.age with vloam := 1100 }))).dropRecords
        (fieldLogical region)
      let s2 := s1.raise 0x7003 moduleWide noCmd region
      ((fieldLogical region).foldl (fun s t => s.loseSlab t false) s2).boundary)

/-- Codes of Tables 14-9 and 14-7. -/
def RegionState.code : RegionState → Nat
  | .off => 0 | .ramp => 1 | .retention => 2 | .active => 3 | .broken => 4
def PowerState.code : PowerState → Nat
  | .dormant => 0 | .standby => 1 | .idle => 2 | .active => 3

/-- The power record (R337): time-stamp, code and region states, then the readings. -/
def State.makePowerRecord (s : State) (code : Code) : Bytes :=
  leBytes 8 s.now.toNat ++ leBytes 2 code.toNat ++
    leBytes 22 ((List.range regionCount).foldl (fun n i => n + (regionOf s.power i).state.code * 8 ^ i) 0) ++ zeros 32 ++
    (Config.powerRecordTail s.now).toList

/-- The Kellet complex and every region lose power: what stays is module flash, the warden, and what has been sent. -/
def State.powerLost (s : State) (code : Code) : State :=
  { ({} : State) with
    pending := s.pending
    variant := s.variant
    now := s.now
    draws := s.draws
    tiles := (s.tiles.filter (fun x => x.2.dead)).map (fun x => (x.1, { dead := true }))
    zOut := s.zOut
    rillOut := s.rillOut
    host := {
      sent := s.host.sent
      leases := s.host.leases.filter (fun x => x.1 == 2) }
    repair := { s.repair with
      tests := []
      fullPassed := []
      bypassed := []
      ports := [] }
    pages := {
      primaryTile := s.pages.primaryTile
      secondTile := s.pages.secondTile }
    trace := { flashDump := s.trace.flashDump }
    power := {
      wardenOn := s.power.wardenOn
      inputMv := s.power.inputMv
      powerRecord := s.makePowerRecord code
      regions := (s.power.regions.map (fun x => (x.1, { ({} : Region) with
        state := if x.2.state = .broken then .broken else .off
        resets := x.2.resets
        lasting := x.2.lasting }))).filter (fun x => x.2 ≠ {}) }
    boot := { s.boot with
      stage := 0
      port := .service
      waiting := none
      unraised := if s.boot.firmwareRuns then [] else s.boot.unraised
      header := []
      body := []
      measurement := 0
      record := []
      queued := []
      firmwareRuns := false } }

/-- INPUT_OR_EDGE_RESET (R320, R324): the module returns to DORMANT. -/
def execInputOrEdgeReset (cause : Code) (mv : Nat) (s : State) : Host.Outcome State Fault Refusal :=
  if !s.power.wardenOn then .next s
  else .next ((s.powerLost cause).updPower (fun w => { w with inputMv := mv }))

/-- BREAKER_OPEN (R325, R326): a field region goes dark and is fenced; the edge region's trip is an edge reset. -/
def execBreakerOpen (region : Nat) (s : State) : Host.Outcome State Fault Refusal :=
  onRegion region s (fun r =>
    if r.state = .broken then s
    else if region = edgeRegion then
      (s.powerLost 0x7006).updPower (·.updRegion edgeRegion (fun r => { r with state := .broken }))
    else ((s.openBreaker region).raise 0x7006 moduleWide noCmd region).boundary)

/-! ### Clock ratios, the peak limiter and the seam (R321, R332, R333, R67) -/

/-- A change of the requests: the seam enters awaited mode when the effective ratios first differ, and realigns when they are
equal again. An IDLE module only records it (R332). -/
def State.ratios (s : State) (f : Power → Power) : State :=
  let s1 := s.updPower f
  if s.power.state = .idle then s1.updPower (fun w => { w with held := s.power.held.or (some (s.power.effWest, s.power.effEast)) })
  else if s1.power.effWest ≠ s1.power.effEast then { s1 with seam := ⟨true, false⟩ }
  else if s1.seam.awaited then ({ s1 with seam := { s1.seam with realigning := true } }).pumpMesh
  else s1

/-- SEAM_REALIGNED (R67): both halves have reached the same schedule cycle. -/
def execSeamRealigned (s : State) : Host.Outcome State Fault Refusal :=
  .next (if s.seam.realigning ∧ s.mesh.west = s.mesh.east then ({ s with seam := {} }).pumpMesh else s)

/-- PEAK_LIMIT (R321): one division step is added to both halves. -/
def execPeakLimit (watts : Nat) (s : State) : Host.Outcome State Fault Refusal :=
  if watts ≤ 26500 ∨ (2 ≤ s.power.limitWest ∧ 2 ≤ s.power.limitEast) then .next s
  else .next ((s.ratios (fun w => { w with
    limitWest := min 2 (w.limitWest + 1)
    limitEast := min 2 (w.limitEast + 1) })).raise 0x7007 moduleWide noCmd watts)

/-- PEAK_LIMIT_RELEASE (R321): one step is removed after 10 ms below 24 kW. -/
def execPeakLimitRelease (watts : Nat) (s : State) : Host.Outcome State Fault Refusal :=
  if 24000 ≤ watts then .next s
  else .next (s.ratios (fun w => { w with
    limitWest := w.limitWest - 1
    limitEast := w.limitEast - 1 }))

/-- CLOCK_RATIO_SET's effect (R333). -/
def State.setRatio (s : State) (half ratio : BitVec 8) : State :=
  s.ratios (fun w => { w with
    hostWest := if half = 1 then w.hostWest else ratio.toNat
    hostEast := if half = 0 then w.hostEast else ratio.toNat })

/-! ### Droop and injection (R329, R331) -/

/-- DROOP_STRETCH_BEGIN: the lowest VCORE of an ACTIVE region is below 720 mV. -/
def execDroopStretchBegin (region mv : Nat) (s : State) : Host.Outcome State Fault Refusal :=
  onRegion region s (fun r =>
    if r.state ≠ .active ∨ 720 ≤ mv then s
    else s.updPower (fun w => { w.updRegion region (fun r => { r with vcore := mv }) with
      stretching := true
      stretchMv := if w.stretching then min w.stretchMv mv else mv }))

/-- DROOP_STRETCH_END: the lowest VCORE is back at 720 mV or above. -/
def execDroopStretchEnd (region mv : Nat) (s : State) : Host.Outcome State Fault Refusal :=
  onRegion region s (fun _ =>
    if mv < 720 ∨ !s.power.stretching then s
    else s.updPower (fun w => { w.updRegion region (fun r => if r.state = .active then { r with vcore := mv } else r) with
      stretching := false }))

/-- INJECTION_LOCK_LOSS (R329). -/
def execInjectionLockLoss (point : Nat) (s : State) : Host.Outcome State Fault Refusal :=
  .next (if 16 ≤ point then s else s.loseLock point)

/-! ### Temperature and cooling (R334, R335, Table 14-8) -/

def Power.therm (w : Power) (h : Nat) : Nat := if h = 0 then w.thermWest else w.thermEast
def Power.setTherm (w : Power) (h n : Nat) : Power :=
  if h = 0 then { w with thermWest := n } else { w with thermEast := n }

/-- A region's new temperature: the warning once per crossing, and the critical response. -/
def State.takeTemp (s : State) (i : Nat) (t : BitVec 8) : State :=
  let r := regionOf s.power i
  let s1 := s.updPower (·.updRegion i (fun r => { r with
    temp := t
    warned := decide (95 ≤ t.toNat) }))
  let s2 := if 95 ≤ t.toNat ∧ ¬ r.warned then s1.raise 0x700A moduleWide noCmd i else s1
  let slow := if i = edgeRegion then s.power.thermWest == 2 || s.power.thermEast == 2 else s.power.therm (halfOf i) == 2
  if 105 ≤ t.toNat ∧ slow then s2.raise 0x700C moduleWide noCmd i else s2

/-- TEMPERATURE_SAMPLE (R334): the highest reading of each region. -/
def execTemperatureSample (temps : List (BitVec 8)) (s : State) : Host.Outcome State Fault Refusal :=
  let s1 := ((temps.take regionCount).zipIdx).foldl (fun s (x : BitVec 8 × Nat) => s.takeTemp x.2 x.1) s
  .next (if temps.any (fun t => decide (80 ≤ t.toNat)) then s1.updPower (fun w => { w with hotAt := s.now }) else s1)

/-- Whether some region that acts on a half is at `t` degrees or above. -/
def Power.halfAt (w : Power) (h t : Nat) : Bool := (regionsOfHalf h).any (fun i => decide (t ≤ (regionOf w i).temp.toNat))

/-- THERMAL_THROTTLE (R334): one division step is added to a half at 100 °C or above. -/
def execThermalThrottle (half : Nat) (s : State) : Host.Outcome State Fault Refusal :=
  if 2 ≤ half then .next s
  else if s.power.halfAt half 100 ∧ s.power.therm half < 2 then
    .next ((s.ratios (fun w => w.setTherm half (w.therm half + 1))).raise 0x700B moduleWide noCmd half)
  else .next s

/-- THERMAL_RELEASE (R334): one step is removed from a half below 95 °C; not during loss of cooling (R335). -/
def execThermalRelease (half : Nat) (s : State) : Host.Outcome State Fault Refusal :=
  if 2 ≤ half then .next s
  else if s.power.halfAt half 95 ∨ s.power.coolingLoss then .next s
  else .next (s.ratios (fun w => w.setTherm half (w.therm half - 1)))

/-- COOLING_LOSS (R335): both halves' thermal requests go to 1:4. -/
def execCoolingLoss (s : State) : Host.Outcome State Fault Refusal :=
  if s.power.coolingLoss then .next s
  else .next ((s.ratios (fun w => { w with
    coolingLoss := true
    thermWest := 2
    thermEast := 2 })).raise 0x700D moduleWide)

/-- COOLING_RESTORED (R335): both values have been within limits for 1 s. -/
def execCoolingRestored (s : State) : Host.Outcome State Fault Refusal :=
  .next (s.updPower (fun w => { w with coolingLoss := false }))

/-- COOLING_FAILED (R335): the loss has lasted 5 s. -/
def execCoolingFailed (s : State) : Host.Outcome State Fault Refusal :=
  .next (if s.power.coolingLoss then s.raise 0x700E moduleWide else s)

/-! ### Idling (R340) -/

/-- Work that needs the wafer is running. -/
def State.busy (s : State) : Bool :=
  s.step.inProgress || s.survival.exporting.isSome || s.survival.restoring.isSome || s.survival.refresh.isSome ||
    !s.survival.wanted.isEmpty || s.repair.tests.any (·.running) || !s.host.fetches.isEmpty || !s.host.samplings.isEmpty ||
    s.host.waitingOpen.isSome || !s.arbiter.copying.isEmpty

/-- IDLE_ENTRY: nothing that needs the wafer has run for idle_us. -/
def execIdleEntry (s : State) : Host.Outcome State Fault Refusal :=
  if s.power.state = .active ∧ s.program.isSome ∧ s.prog.idleUs ≠ 0 ∧ ¬ s.busy then
    .next { s with power := { s.power.fieldRegions .active .retention with
      state := .idle
      meshRun := false
      stretching := false } }
  else .next s

/-! ### Status records (Tables 14-6, 14-7, 14-11) -/

/-- The clock status register. -/
def Power.clockStatus (w : Power) : Nat :=
  w.effWest + 4 * w.effEast + 16 * w.hostWest + 64 * w.hostEast + 256 * w.limitWest + 1024 * w.limitEast +
    4096 * w.thermWest + 16384 * w.thermEast + 2 ^ 16 * b2n w.meshRun + 2 ^ 17 * b2n w.stretching +
    2 ^ 18 * b2n w.coolingLoss + 2 ^ 32 * min (w.stretchAcc / 440) 0xFFFFFFFF

/-- A region status entry. -/
def Region.entry (r : Region) : Nat :=
  r.state.code + 8 * b2n r.suspect + 256 * r.temp.toNat + 2 ^ 16 * r.vcore

/-- POWER_STATUS_READ's payload; the two power readings are free values (log entry 4). -/
def State.powerStatus (s : State) : State × Bytes :=
  let a := s.draw
  let b := a.2.draw
  (b.2, leBytes 1 s.power.state.code ++ zeros 3 ++ leBytes 4 s.power.inputMv ++ leBytes 4 (a.1.toNat % 2 ^ 32) ++
    leBytes 4 (b.1.toNat % 2 ^ 32) ++ leBytes 8 s.power.clockStatus ++
    (List.range regionCount).flatMap (fun i => leBytes 4 (regionOf s.power i).entry))

/-- The seam status register (Table 3-5). -/
def State.seamStatus (s : State) : Nat :=
  s.power.effWest + 4 * s.power.effEast + 16 * b2n s.seam.awaited + 32 * b2n s.seam.realigning +
    2 ^ 16 * (BitVec.ofInt 16 s.mesh.lead).toNat

end Sys2Proof.Machine
end

