-- ==== Sys2Proof/Machine/Plates.lean ====
section
/-! DEFINITION. Sys2Proof/Machine/Plates.lean: plates, the compressor and plate arrays (R122 to R134, R146, R147), and the
meanings of the plate commands. A plate is the list of its 16,384 element patterns in column-major order, element (r, c) at
position 128c + r. -/

namespace Sys2Proof.Machine

/-- Bytes of a plate element (Table 6-1). -/
def plateElemBytes (fmt : Nat) : Nat := elemBits fmt / 8

/-- Bytes of a dense plate. -/
def denseBytes (fmt : Nat) : Nat := 16384 * plateElemBytes fmt

/-- Whether a pattern is a zero element (R123): +0 or −0 in a float format, 0x00 in INT8. -/
def isZeroElem (fmt v : Nat) : Bool := if fmt = 5 then v == 0 else v % 2 ^ (elemBits fmt - 1) == 0

def plateElem (pl : List Nat) (r c : Nat) : Nat := pl.getD (128 * c + r) 0

/-! ### Array descriptors (Table 6-4, R127, R146) -/

/-- Every part of an array, its descriptor included, lies in tile memory or in the Loam slab (R127). -/
def arrayOneMemory (v : Variant) (a : PlateArray) : Bool :=
  let all := (a.addr, 64) :: a.parts
  all.all (fun x => inTmem x.1 x.2) ||
    all.all (fun x => decide (loamBase ≤ x.1) && decide (x.1 + x.2 ≤ loamBase + slabPages v * pageBytes))

/-- An array descriptor obeys Table 6-4 and R127. -/
def arrayValid (v : Variant) (a : PlateArray) : Bool :=
  decide (a.elem ≤ 5) && decide (a.descTable % 8 = 0) && decide (a.slotBase % 32 = 0) && decide (a.spillBase % 32 = 0) &&
    decide (a.spillUnits ≤ 65535) && (a.spillUnits != 0 || a.spillBase == 0) && decide (a.slotBudget % 32 = 0) &&
    decide (a.slotBudget ≤ denseBytes a.elem) && a.plateRows != 0 && a.plateCols != 0 && a.reserved == 0 &&
    arrayOneMemory v a

/-! ### Plate descriptors (Table 6-3) -/

/-- A plate descriptor. -/
structure PlateHead where
  form : Nat
  spilled : Bool
  heavy : Nat
  nnz : Nat
  location : Nat
  deriving DecidableEq, Repr

def decodeHead (w : Nat) : PlateHead :=
  ⟨bitsOf w 1 0, bitOf w 2, bitsOf w 7 3, bitsOf w 22 8, bitsOf w 63 32⟩

def PlateHead.word (h : PlateHead) : Nat :=
  h.form + 4 * b2n h.spilled + 8 * h.heavy + 256 * h.nnz + 2 ^ 32 * h.location

/-- The plate's index in its array. -/
def plateIndex (a : PlateArray) (pr pc : Nat) : Nat := pr * a.plateCols + pc

/-- The plate descriptor of a plate. -/
def readHead (s : State) (p : Nat) (a : PlateArray) (i : Nat) : PlateHead :=
  decodeHead (tileNum s p (a.descTable + 8 * i) 8)

/-- Where a stored form lies. -/
def formAddr (a : PlateArray) (h : PlateHead) : Nat := (if h.spilled then a.spillBase else a.slotBase) + h.location

/-- Ones among the first `n` bits of a number. -/
def popCount (v n : Nat) : Nat := (List.range n).foldl (fun acc i => acc + b2n (v.testBit i)) 0

/-- Unrounded size of a stored form, the residue counted from its bitmask (Table 6-2). -/
def formSize (s : State) (p addr fmt : Nat) (h : PlateHead) : Nat :=
  match h.form with
  | 1 => denseBytes fmt
  | 2 => 2048 + (if h.heavy = 0 then 0 else 16 + 128 * h.heavy * plateElemBytes fmt) +
      plateElemBytes fmt * popCount (tileNum s p addr 2048) 16384
  | _ => 0

/-- A plate descriptor obeys Table 6-3 (R126). A form whose extent, from its bitmask, overruns its slot or pool has its LOCATION
outside (log entry 120). -/
def headValid (s : State) (p : Nat) (a : PlateArray) (i : Nat) (h : PlateHead) : Bool :=
  let size := formSize s p (formAddr a h) a.elem h
  bitsOf (tileNum s p (a.descTable + 8 * i) 8) 31 23 == 0 && decide (h.nnz ≤ 16384) && decide (h.form ≤ 2) && decide (h.heavy ≤ 16) && (h.form == 2 || h.heavy == 0) &&
    (if h.form = 0 then !h.spilled && h.location == 0
     else if h.spilled then decide (h.location + size ≤ 1024 * a.spillUnits)
     else h.location == i * a.slotBudget && decide (size ≤ a.slotBudget))

/-! ### Stored forms (R122 to R125) -/

/-- Strip row list of a compressed form. -/
def stripList (s : State) (p addr h : Nat) : List Nat :=
  (List.range h).map (fun e => tileNum s p (addr + 2048 + e) 1)

/-- The strip row list is HEAVY row numbers in ascending order, then 0xFF (R134). -/
def stripListOk (s : State) (p addr h : Nat) : Bool :=
  let l := stripList s p addr h
  h == 0 || (l.all (fun r => decide (r < 128)) && decide (l.Pairwise (· < ·)) &&
    (List.range (16 - h)).all (fun e => tileNum s p (addr + 2048 + h + e) 1 == 255))

/-- Scatter packed residue values to the positions their bitmask names, in bitmask order. -/
def scatterResidue (mask : Nat) (vals : Nat → Nat) : (n pos idx : Nat) → List Nat
  | 0, _, _ => []
  | n + 1, pos, idx =>
    if mask.testBit pos then vals idx :: scatterResidue mask vals n (pos + 1) (idx + 1)
    else 0 :: scatterResidue mask vals n (pos + 1) idx

/-- The dense plate a stored form stands for; a zero element reads as +0 from a compressed or empty form (R123). -/
def expandForm (s : State) (p addr fmt : Nat) (h : PlateHead) : List Nat :=
  let w := plateElemBytes fmt
  match h.form with
  | 1 => (List.range 16384).map (fun k => tileNum s p (addr + w * k) w)
  | 2 =>
    let mask := tileNum s p addr 2048
    let strip := stripList s p addr h.heavy
    let stripAt := addr + 2064
    let resAt := addr + 2048 + (if h.heavy = 0 then 0 else 16 + 128 * h.heavy * w)
    (scatterResidue mask (fun i => tileNum s p (resAt + w * i) w) 16384 0 0).zipIdx.map (fun (v, k) =>
      let v := match strip.findIdx? (· == k % 128) with
        | some e => tileNum s p (stripAt + w * (128 * e + k / 128)) w
        | none => v
      if isZeroElem fmt v then 0 else v)
  | _ => List.replicate 16384 0

/-- Non-zero elements of a plate. -/
def nnzOf (fmt : Nat) (pl : List Nat) : Nat := pl.foldl (fun n v => n + b2n (!isZeroElem fmt v)) 0

/-- Population of a stored form as a reader counts it (R134): its bitmask and the non-zeros of its strip. -/
def countedNnz (s : State) (p addr fmt : Nat) (h : PlateHead) : Nat :=
  let w := plateElemBytes fmt
  match h.form with
  | 1 => nnzOf fmt (expandForm s p addr fmt h)
  | 2 => popCount (tileNum s p addr 2048) 16384 +
      nnzOf fmt ((List.range (128 * h.heavy)).map (fun k => tileNum s p (addr + 2064 + w * k) w))
  | _ => 0

/-- The detection a reader of a plate makes (R134). -/
def plateDetection (s : State) (p addr fmt : Nat) (h : PlateHead) : List Code :=
  if countedNnz s p addr fmt h ≠ h.nnz ∨ (h.form = 2 ∧ ¬ stripListOk s p addr h.heavy) then [0x9003] else []

/-! ### The compressor (R130, R131) -/

/-- Non-zeros of each plate row. -/
def rowCounts (fmt : Nat) (pl : List Nat) : List Nat :=
  (List.range 128).map (fun r => (List.range 128).foldl (fun n c => n + b2n (!isZeroElem fmt (plateElem pl r c))) 0)

/-- The strip of a plate: rows above the threshold, the 16 fullest when there are more, ties to the lower row, ascending. -/
def selectStrip (threshold : Nat) (counts : List Nat) : List Nat :=
  let t := if threshold = 0 then 64 else threshold
  let rows := counts.zipIdx.filter (fun x => decide (threshold < 128) && decide (t < x.1))
  let best := (rows.mergeSort (fun a b => decide (b.1 < a.1) || (a.1 == b.1 && decide (a.2 ≤ b.2)))).take 16
  (List.range 128).filter (fun r => best.any (fun x => x.2 == r))

/-- The compressed form of a plate with a strip (Table 6-2): its bytes. -/
def compressWith (fmt : Nat) (pl : List Nat) (strip : List Nat) : Bytes :=
  let w := plateElemBytes fmt
  let residue := pl.zipIdx.filter (fun x => !isZeroElem fmt x.1 && !strip.contains (x.2 % 128))
  let mask := residue.foldl (fun m x => m + 2 ^ x.2) 0
  leBytes 2048 mask ++
    (if strip.isEmpty then []
     else strip.map (BitVec.ofNat 8) ++ List.replicate (16 - strip.length) 0xFF ++
       strip.flatMap (fun r => (List.range 128).flatMap (fun c =>
         let v := plateElem pl r c
         leBytes w (if isZeroElem fmt v then 0 else v)))) ++
    residue.flatMap (fun x => leBytes w x.1)

/-- The form the compressor chooses (R125, R130): FORM, HEAVY, NNZ and the stored bytes. -/
def compress (fmt threshold : Nat) (pl : List Nat) : PlateHead × Bytes :=
  let n := nnzOf fmt pl
  let dense := denseBytes fmt
  let strip := selectStrip threshold (rowCounts fmt pl)
  let full := compressWith fmt pl strip
  let strip' := if dense ≤ full.length then [] else strip
  let form := if dense ≤ full.length then compressWith fmt pl [] else full
  if n = 0 then (⟨0, false, 0, 0, 0⟩, [])
  else if form.length < dense then (⟨2, false, strip'.length, n, 0⟩, form)
  else (⟨1, false, 0, n, 0⟩, pl.flatMap (leBytes (plateElemBytes fmt)))

/-! ### Placement (R128, R129) -/

/-- The lowest-numbered run of `n` free units of a spill map. -/
def firstFit (map n total : Nat) : Option Nat :=
  (List.range (total + 1 - n)).find? (fun u => (List.range n).all (fun i => !map.testBit (u + i)))

/-- Set or clear units `u` to `u + n - 1` of a spill map. -/
def setUnits (map u n : Nat) (on : Bool) : Nat :=
  (List.range n).foldl (fun m i =>
    let b := 2 ^ (u + i)
    if m.testBit (u + i) then (if on then m else m - b) else (if on then m + b else m)) map

/-- Spill units of a stored size. -/
def unitsOf (size : Nat) : Nat := (roundUp size 32 + 1023) / 1024

/-- The writes by which a formed plate enters an array, in the order of R129, or the Step-fatal code that prevents them: a
malformed old descriptor of a spilled plate, whose units it frees, no free run of spill units, or a write the tile may not make. -/
def storeForm (s : State) (p : Nat) (a : PlateArray) (i : Nat) (h : PlateHead) (b : Bytes) : Except Code (List (Nat × Bytes)) :=
  let old := readHead s p a i
  if old.spilled && !headValid s p a i old then .error 0x9001
  else
    let size := roundUp b.length 32
    let map := if a.spillUnits = 0 then 0 else tileNum s p a.spillMap ((a.spillUnits + 7) / 8)
    let units := unitsOf b.length
    let spills := h.form != 0 && decide (a.slotBudget < size)
    match (if spills then firstFit map units a.spillUnits else some 0) with
    | none => .error 0x9002
    | some u =>
      let head : PlateHead := { h with
        spilled := spills
        location := if h.form = 0 then 0 else if spills then 1024 * u else i * a.slotBudget }
      let at_ := formAddr a head
      match firstCode [if b.isEmpty then none else writeFault s p at_ b.length, writeFault s p (a.descTable + 8 * i) 8,
          if a.spillUnits = 0 then none else writeFault s p a.spillMap ((a.spillUnits + 7) / 8),
          if a.spillUnits = 0 then none else writeFault s p (a.addr + 48) 4] with
      | some c => .error c
      | none =>
        let oldUnits := if old.spilled then unitsOf (formSize s p (formAddr a old) a.elem old) else 0
        let map1 := if spills then setUnits map u units true else map
        let map2 := if old.spilled then setUnits map1 (old.location / 1024) oldUnits false else map1
        let free := a.spillFree + oldUnits - (if spills then units else 0)
        .ok ([(at_, b), (a.descTable + 8 * i, leBytes 8 head.word)] ++
          (if a.spillUnits = 0 then []
           else [(a.spillMap, leBytes ((a.spillUnits + 7) / 8) map2), (a.addr + 48, leBytes 4 free)]))

/-! ### Plate commands (R130, R133, R147) -/

/-- The dense side of a plate command: position (r, c) at `addr`, row- or column-major with a stride. -/
def denseSide (colMajor : Bool) (addr stride w r c : Nat) : Nat :=
  if colMajor then addr + c * stride + r * w else addr + r * stride + c * w

/-- The dense source of a store. -/
def readDense (s : State) (p : Nat) (colMajor : Bool) (addr stride fmt : Nat) : List Nat :=
  let w := plateElemBytes fmt
  (List.range 16384).map (fun k => tileNum s p (denseSide colMajor addr stride w (k % 128) (k / 128)) w)

/-- The bytes of a plate's dense side in ascending address order. -/
def denseImage (colMajor : Bool) (fmt : Nat) (pl : List Nat) : Bytes :=
  (List.range 16384).flatMap (fun k =>
    leBytes (plateElemBytes fmt) (if colMajor then pl.getD k 0 else plateElem pl (k / 128) (k % 128)))

/-- Write a plate to its dense side. -/
def State.writeDense (s : State) (p : Nat) (colMajor : Bool) (addr stride fmt : Nat) (pl : List Nat) : State :=
  let w := plateElemBytes fmt
  pl.zipIdx.foldl (fun s x => s.tileWrite p (denseSide colMajor addr stride w (x.2 % 128) (x.2 / 128)) (leBytes w x.1)) s

/-- The run-time checks of a plate command on one of its arrays (R146). -/
def arrayChecks (s : State) (a : PlateArray) (pr pc stride : Nat) (useStride : Bool) : Option Code :=
  if !arrayValid s.variant a || decide (a.plateRows ≤ pr) || decide (a.plateCols ≤ pc) ||
      (useStride && decide (stride < 128 * plateElemBytes a.elem)) then some 0x9008 else none

/-- Bytes of a stored plate that a reader takes: its array descriptor, its plate descriptor and its form. -/
def plateSpans (s : State) (p : Nat) (a : PlateArray) (i : Nat) : List Span :=
  let h := readHead s p a i
  [⟨a.addr, 0, 64, 1⟩, ⟨a.descTable + 8 * i, 0, 8, 1⟩, ⟨formAddr a h, 0, formSize s p (formAddr a h) a.elem h, 1⟩]

/-- Finish a plate command that stores: its detections, then the store. `lead`: bytes it has written before them. -/
def plateStoreDone (t : Site) (p : Nat) (cid : BitVec 64) (a : PlateArray) (i : Nat) (computed : List Code)
    (h : PlateHead) (b : Bytes) (s : State) (lead : Bytes := []) : Done :=
  let plan := storeForm s p a i h b
  let out := match plan with | .ok w => w.flatMap (·.2) | .error _ => []
  let r := s.settle t p { block := 7, cid := cid, computed := computed, result := lead ++ out }
  if r.2.2 ≠ 0 then { state := r.1, status := r.2.2 }
  else match plan with
    | .ok w => { state := r.1.writeRows p w }
    | .error c => { state := r.1.tileFault p 7 cid c, status := c }

/-- PLATE_STORE (R130 to R132). -/
def execPlateStore (t : Site) (d : PlateDesc) (s : State) : Host.Outcome State Fault Refusal :=
  tileCmd t d.cid 0x20 2 (plateCheck 0 d) (fun t p s =>
    let a := readArray s p d.arrayDesc.toNat
    match firstCode [readFault s d.arrayDesc.toNat 64,
        arrayChecks s a d.plateRow.toNat d.plateCol.toNat d.denseStride.toNat true] with
    | some c => { state := s.tileFault p 7 d.cid c, status := c }
    | none =>
      let pl := readDense s p (d.layout.getLsbD 0) d.denseAddr.toNat d.denseStride.toNat a.elem
      let f := compress a.elem a.heavy pl
      let reads : List Span := [⟨a.addr, 0, 64, 1⟩,
        ⟨d.denseAddr.toNat, d.denseStride.toNat, 128 * plateElemBytes a.elem, 128⟩]
      plateStoreDone t p d.cid a (plateIndex a d.plateRow.toNat d.plateCol.toNat) (readDetections s p reads) f.1 f.2 s) s

/-- PLATE_LOAD (R133, R134). -/
def execPlateLoad (t : Site) (d : PlateDesc) (s : State) : Host.Outcome State Fault Refusal :=
  tileCmd t d.cid 0x21 2 (plateCheck 1 d) (fun t p s =>
    let a := readArray s p d.arrayDesc.toNat
    let i := plateIndex a d.plateRow.toNat d.plateCol.toNat
    let h := readHead s p a i
    let stride := d.denseStride.toNat
    match firstCode [readFault s d.arrayDesc.toNat 64, arrayChecks s a d.plateRow.toNat d.plateCol.toNat stride true,
        if headValid s p a i h then none else some 0x9001,
        firstCode ((List.range 128).map (fun k => writeFault s p (d.denseAddr.toNat + k * stride)
          (128 * plateElemBytes a.elem)))] with
    | some c => { state := s.tileFault p 7 d.cid c, status := c }
    | none =>
      let at_ := formAddr a h
      let pl := expandForm s p at_ a.elem h
      let major := d.layout.getLsbD 0
      let r := s.settle t p { block := 7, cid := d.cid
                              computed := readDetections s p (plateSpans s p a i) ++ plateDetection s p at_ a.elem h
                              result := denseImage major a.elem pl }
      if r.2.2 ≠ 0 then { state := r.1, status := r.2.2 }
      else { state := r.1.writeDense p major d.denseAddr.toNat stride a.elem pl }) s

/-- PLATE_TRANSPOSE (R147): the plate expands into the transposing buffer, and its transpose is stored. -/
def execPlateTranspose (t : Site) (d : PlateDesc) (s : State) : Host.Outcome State Fault Refusal :=
  tileCmd t d.cid 0x22 2 (plateCheck 2 d) (fun t p s =>
    let a := readArray s p d.arrayDesc.toNat
    let b := readArray s p d.destDesc.toNat
    let i := plateIndex a d.plateRow.toNat d.plateCol.toNat
    let h := readHead s p a i
    let slot := chooseSlot (tileOf s p)
    match firstCode [readFault s d.arrayDesc.toNat 64, readFault s d.destDesc.toNat 64,
        arrayChecks s a d.plateRow.toNat d.plateCol.toNat 0 false, arrayChecks s b d.destRow.toNat d.destCol.toNat 0 false,
        if a.elem ≠ b.elem ∨ (plateElemBytes a.elem = 4 ∧ (openSlots (tileOf s p)).testBit (1 - slot)) then some 0x9008
          else none,
        if headValid s p a i h then none else some 0x9001] with
    | some c => { state := s.tileFault p 7 d.cid c, status := c }
    | none =>
      let at_ := formAddr a h
      let pl := expandForm s p at_ a.elem h
      let tr := (List.range 16384).map (fun k => plateElem pl (k / 128) (k % 128))
      let f := compress b.elem b.heavy tr
      let w := plateElemBytes a.elem
      let staged := pl.flatMap (leBytes w)
      let s1 := (s.updTile p (fun x => { x with lastSlot := some slot })).writeSlot p
        (if w = 4 then 2 else slot) staged
      plateStoreDone t p d.cid b (plateIndex b d.destRow.toNat d.destCol.toNat)
        (readDetections s p (plateSpans s p a i ++ [⟨b.addr, 0, 64, 1⟩]) ++ plateDetection s p at_ a.elem h) f.1 f.2 s1
        staged) s

/-- The image of a PLATE_ADOPT at `addr - 8` is sound (R133, Table 6-3). -/
def imageValid (s : State) (p addr fmt : Nat) (h : PlateHead) : Bool :=
  bitsOf (tileNum s p (addr - 8) 8) 31 23 == 0 && decide (h.nnz ≤ 16384) &&
  !h.spilled && h.location == 0 && decide (h.form ≤ 2) && decide (h.heavy ≤ 16) && (h.form == 2 || h.heavy == 0) &&
    countedNnz s p addr fmt h == h.nnz &&
    (h.form != 2 || (stripListOk s p addr h.heavy && decide (formSize s p addr fmt h < denseBytes fmt)))

/-- PLATE_ADOPT (R133). -/
def execPlateAdopt (t : Site) (d : PlateDesc) (s : State) : Host.Outcome State Fault Refusal :=
  tileCmd t d.cid 0x23 2 (plateCheck 3 d) (fun t p s =>
    let a := readArray s p d.arrayDesc.toNat
    let at_ := d.denseAddr.toNat
    let h := decodeHead (tileNum s p at_ 8)
    let size := formSize s p (at_ + 8) a.elem h
    match firstCode [readFault s d.arrayDesc.toNat 64, arrayChecks s a d.plateRow.toNat d.plateCol.toNat 0 false,
        if inTmem at_ (8 + size) then none else some 0x3010,
        if imageValid s p (at_ + 8) a.elem h then none else some 0x9001] with
    | some c => { state := s.tileFault p 7 d.cid c, status := c }
    | none =>
      plateStoreDone t p d.cid a (plateIndex a d.plateRow.toNat d.plateCol.toNat)
        (readDetections s p [⟨a.addr, 0, 64, 1⟩, ⟨at_, 0, 8 + size, 1⟩]) h (tileRead s p (at_ + 8) size) s) s

end Sys2Proof.Machine
end

