-- ==== Sys2Proof/Machine/Sparse.lean ====
section
/-! DEFINITION. Sys2Proof/Machine/Sparse.lean: the Sieve, sparse runs and their drain (R135 to R146), masked weight gradients
(R148), and the meanings of SPARSE_MM and MASKED_MM. -/

namespace Sys2Proof.Machine

/-! ### The conflict queues (R139) -/

/-- The engine's take of a cycle: the longest prefix of the remaining rows that holds at most 128 and sends no bank more than
its room. Answers the take and the room left. -/
def takeRows : (n : Nat) → List Nat → List Nat → List Nat × List Nat
  | 0, _, room => ([], room)
  | _, [], room => ([], room)
  | n + 1, r :: rest, room =>
    let b := r % 32
    if room.getD b 0 = 0 then ([], room)
    else
      let t := takeRows n rest (room.set b (room.getD b 0 - 1))
      (r :: t.1, t.2)

/-- The takes of one column, cycle by cycle: a column occupies at least one cycle, and a cycle applies up to 4 entries of each
bank's queue before the take joins. Answers the takes and the queue lengths after. -/
def issueColumn : (fuel : Nat) → List Nat → List Nat → List (List Nat) × List Nat
  | 0, _, q => ([], q)
  | f + 1, pending, q =>
    let t := takeRows 128 pending (q.map (fun n => 16 - n))
    let q1 := q.map (fun n => n - 4)
    let q2 := t.1.foldl (fun q r => q.set (r % 32) (q.getD (r % 32) 0 + 1)) q1
    let rest := pending.drop t.1.length
    if rest.isEmpty then ([t.1], q2)
    else
      let r := issueColumn f rest q2
      (t.1 :: r.1, r.2)

/-! ### Row updates (R138) -/

/-- What a sparse command changes as it runs: the tile-local memories (the Sieve cells), the check column and the run. -/
structure SieveAcc where
  mem : List Host.Cell
  check : SMap Pair
  run : SieveRun
  queues : List Nat

def sieveCellKey (p row j : Nat) : Nat := memKey p (sieveBase + 512 * row + 4 * j)

/-- One row update: every cell in use under the Sieve addition rule, then the check cell under the canvas rule. -/
def SieveAcc.rowUpdate (x : SieveAcc) (p row : Nat) (a : Fp) (b : List Fp) (sb ab : Fp) : SieveAcc :=
  let step (x : SieveAcc) (jb : Fp × Nat) : SieveAcc :=
    let m := arrayProduct a jb.1
    let key := sieveCellKey p row jb.2
    let v := sieveAdd (fp32.decode (rdLE x.mem key 4)) m.1
    let f := m.2.or v.2
    { x with
      mem := wrBytes x.mem key (leBytes 4 (fp32.encode v.1).1)
      run := { x.run with ovf := x.run.ovf || f.ovf, nan := x.run.nan || f.nan } }
  let y := b.zipIdx.foldl step x
  { y with
    check := smUpd (0, 0) row (fun c => pairAdd c (arrayProduct a sb).1 (arrayProduct a.abs ab).1) y.check }

/-- The margin-row and corner updates of one cycle, from the elements it takes; a cycle that takes none updates nothing. -/
def SieveAcc.marginUpdate (x : SieveAcc) (take strip : List Fp) (b : List Fp) (sb ab : Fp) : SieveAcc :=
  if take.isEmpty && strip.isEmpty then x
  else
    let total (f : Fp → Fp) : Fp :=
      match take with
      | [] => runningSum (strip.map f)
      | _ => (strip.map f).foldl marginAdd (marginTreeOf (take.map f))
    let sa := total id
    let aa := total Fp.abs
    { x with run := { x.run with
        marginRow := b.zipIdx.foldl (fun m jb => smUpd (0, 0) jb.2
          (fun c => pairAdd c (arrayProduct sa jb.1).1 (arrayProduct aa jb.1.abs).1) m) x.run.marginRow
        corner := pairAdd x.run.corner (arrayProduct sa sb).1 (arrayProduct aa ab).1 } }

/-- A plate of the block with its rows offset in the Sieve: its elements, its strip rows when the strip path is in use. -/
structure BlockPlate where
  plateRow : Nat
  elems : List Nat
  strip : List Nat

/-- One k-step (R135, R141): the residue rows of column `c` in row order, cycle by cycle, and the strip rows, whose elements
enter the margin sums of the first cycle. A NaN in the row operand sets NAN (R120). -/
def SieveAcc.kStep (x : SieveAcc) (p base fmt c : Nat) (plates : List BlockPlate) (b : List Fp) : SieveAcc :=
  let sb := marginTreeOf b
  let ab := marginTreeOf (b.map Fp.abs)
  let val (q : BlockPlate) (r : Nat) : Nat := plateElem q.elems r c
  let nz (q : BlockPlate) (r : Nat) : Bool := !isZeroElem fmt (val q r)
  let residue := plates.flatMap (fun q =>
    ((List.range 128).filter (fun r => nz q r && !q.strip.contains r)).map (fun r => (128 * q.plateRow + r, val q r)))
  let strips := plates.flatMap (fun q => (q.strip.filter (nz q)).map (fun r => (128 * q.plateRow + r, val q r)))
  let v (e : Nat × Nat) : Fp := elemVal fmt e.2
  let cycles := issueColumn (5 * (residue.length + 1)) (residue.map (fun e => base + e.1)) x.queues
  let y := (residue ++ strips).foldl (fun x e => x.rowUpdate p (base + e.1) (v e) b sb ab) x
  let run := cycles.1.foldl (fun (acc : SieveAcc × List (Nat × Nat) × Bool) t =>
    let now := acc.2.1.take t.length
    (acc.1.marginUpdate (now.map v) (if acc.2.2 then strips.map v else []) b sb ab, acc.2.1.drop t.length, false))
    (y, residue, true)
  { run.1 with
    run := { run.1.run with nan := run.1.run.nan || b.any Fp.isNan }
    queues := cycles.2 }

/-! ### Sparse runs (R142) -/

def sieveOf (t : Tile) (part : Bool) : SieveRun := if part then t.sieve1 else t.sieve0
def Tile.setSieve (t : Tile) (part : Bool) (r : SieveRun) : Tile :=
  if part then { t with sieve1 := r } else { t with sieve0 := r }

/-- The run a CLEAR command opens. -/
def openSieve (d : SparseDesc) : SieveRun :=
  { isOpen := true, smode := d.smode.toNat, nMinus1 := d.nMinus1.toNat, halves := d.control.getLsbD 4,
    plateRow0 := d.plateRow0.toNat, rowsUsed := d.plateRowsUsed.toNat }

/-- Whether a command may continue the run of its part (R142). -/
def sieveContinues (d : SparseDesc) (r : SieveRun) : Bool :=
  r.isOpen && r.smode == d.smode.toNat && r.nMinus1 == d.nMinus1.toNat && r.halves == d.control.getLsbD 4 &&
    r.plateRow0 == d.plateRow0.toNat && r.rowsUsed == d.plateRowsUsed.toNat &&
    decide (r.kDone + 128 * d.kPlates.toNat ≤ 1048576)

/-- First Sieve row of a command's part, and the rows of the part. -/
def partBase (d : SparseDesc) : Nat := if d.control.getLsbD 4 && d.control.getLsbD 0 then 1024 else 0
def partRows (d : SparseDesc) : Nat := if d.control.getLsbD 4 then 1024 else 2048

/-- Bytes of the strip scratch. -/
def scratchBytes (d : SparseDesc) : Nat := 16 * d.plateRowsUsed.toNat * 544

/-- CLEAR: the part's cells and check cells, the margin state and the strip scratch become zero (R142). -/
def State.clearSieve (s : State) (p : Nat) (d : SparseDesc) : State :=
  let b := partBase d
  let n := partRows d
  let s1 := s.tileClear p (sieveBase + 512 * b) (512 * n)
  let s2 := if d.stripScratch = 0 then s1 else s1.tileClear p d.stripScratch.toNat (scratchBytes d)
  s2.updTile p (fun t => { t with sieveCheck := t.sieveCheck.filter (fun x => decide (x.1 < b) || decide (b + n ≤ x.1)) })

/-- The plates of one plate column of the block. -/
def blockPlates (s : State) (p : Nat) (a : PlateArray) (d : SparseDesc) (pc : Nat) : List BlockPlate :=
  (List.range d.plateRowsUsed.toNat).map (fun i =>
    let h := readHead s p a (plateIndex a (d.plateRow0.toNat + i) pc)
    let at_ := formAddr a h
    ⟨i, expandForm s p at_ a.elem h, if d.stripScratch = 0 || h.form != 2 then [] else stripList s p at_ h.heavy⟩)

/-- After a plate column, the scratch entries its strip rows used hold their rows and check pairs (R141). -/
def writeScratch (x : SieveAcc) (p base scratch : Nat) (plates : List BlockPlate) : SieveAcc :=
  let entry (q : BlockPlate) (m : List Host.Cell) (re : Nat × Nat) : List Host.Cell :=
    let row := base + 128 * q.plateRow + re.1
    let at_ := memKey p (scratch + 544 * (16 * q.plateRow + re.2))
    let c := pairOf x.check row
    wrBytes m at_ (rdBytes m (memKey p (sieveBase + 512 * row)) 512 ++ leBytes 8 c.1.toNat ++ leBytes 8 c.2.toNat)
  { x with mem := plates.foldl (fun m q => q.strip.zipIdx.foldl (entry q) m) x.mem }

/-- Bytes that a SPARSE_MM reads beside its array's plates: its array descriptor, row operands, strip scratch, its rows of the
Sieve, and with DRAIN its scale vector (R142, R144). -/
def sparseSpans (d : SparseDesc) : List Span :=
  [⟨d.arrayDesc.toNat, 0, 64, 1⟩,
   ⟨d.bBase.toNat, d.bStride.toNat, rowBytes d.bFormat.toNat (d.nMinus1.toNat + 1), 128 * d.kPlates.toNat⟩,
   ⟨sieveBase + 512 * partBase d, 0, 65536 * d.plateRowsUsed.toNat, 1⟩] ++
  (if d.stripScratch = 0 then [] else [⟨d.stripScratch.toNat, 0, scratchBytes d, 1⟩]) ++
  (if d.control.getLsbD 2 && d.control.getLsbD 3 then [⟨d.sBase.toNat, 0, 512 * d.plateRowsUsed.toNat, 1⟩] else [])

/-- Strip-scratch entries that a SPARSE_MM writes: all of them with CLEAR, otherwise those its plates' strip rows use (R141, R142). -/
def scratchWrites (s : State) (p : Nat) (a : PlateArray) (d : SparseDesc) : List (Nat × Nat) :=
  if d.stripScratch = 0 then []
  else if d.control.getLsbD 1 then [(d.stripScratch.toNat, scratchBytes d)]
  else (List.range d.kPlates.toNat).flatMap (fun kp => (blockPlates s p a d (d.plateCol0.toNat + kp)).flatMap (fun q =>
    (List.range q.strip.length).map (fun e => (d.stripScratch.toNat + 544 * (16 * q.plateRow + e), 544))))

/-- The accumulation of a SPARSE_MM: plate columns in order, 128 k-steps each. -/
def sparseFill (s : State) (p : Nat) (a : PlateArray) (d : SparseDesc) (run : SieveRun) : SieveAcc :=
  let base := partBase d
  let n := d.nMinus1.toNat + 1
  let fmt := d.bFormat.toNat
  let start : SieveAcc := ⟨s.mem, (tileOf s p).sieveCheck, run, List.replicate 32 0⟩
  let x := (List.range d.kPlates.toNat).foldl (fun x kp =>
    let plates := blockPlates s p a d (d.plateCol0.toNat + kp)
    let y := (List.range 128).foldl (fun x c =>
      let b := (readElems s p (d.bBase.toNat + (128 * kp + c) * d.bStride.toNat) fmt n).map (elemVal fmt)
      x.kStep p base a.elem c plates b) x
    if d.stripScratch = 0 then y else writeScratch y p base d.stripScratch.toNat plates) start
  let k := 128 * d.kPlates.toNat
  { x with run := { x.run with
      kDone := x.run.kDone + k
      arrays := x.run.arrays ++ [d.arrayDesc.toNat]
      reads := x.run.reads ++ sparseSpans d
      slots := x.run.slots ||| slotsTouched d.bBase.toNat d.bStride.toNat (rowBytes fmt 128) k } }

/-! ### Draining a sparse run (R143, R232, R234) -/

def sieveCell (s : State) (p row j : Nat) : Fp := fp32.decode (rdLE s.mem (sieveCellKey p row j) 4)

/-- The comparisons of a sparse drain and whether its corner fails. -/
def sieveCompare (s : State) (p : Nat) (d : SparseDesc) (r : SieveRun) : Tally × Bool :=
  let base := partBase d
  let h := 128 * r.rowsUsed
  let rows := List.range h
  let cols := List.range (r.nMinus1 + 1)
  let check := (tileOf s p).sieveCheck
  let w := r.kDone + h
  let rt := rows.map (fun i =>
    let c := pairOf check (base + i)
    compareFloat w 17 (runningSum (cols.map (sieveCell s p (base + i)))) (wordVal c.1) (wordVal c.2))
  let ct := cols.map (fun j =>
    let c := pairOf r.marginRow j
    compareFloat w 17 (runningSum (rows.map (fun i => sieveCell s p (base + i) j))) (wordVal c.1) (wordVal c.2))
  let s1 := runningSum (cols.map (fun j => wordVal (pairOf r.marginRow j).1))
  let s2 := runningSum (rows.map (fun i => wordVal (pairOf check (base + i)).1))
  let k := wordVal r.corner.1
  let m := wordVal r.corner.2
  ((rt ++ ct).foldl Tally.add {}, cornerFails (w + 128) 17 s1 k m || cornerFails (w + 128) 17 s2 k m)

/-- The rows a sparse drain writes, and its flags. -/
def sieveDrainRows (s : State) (p : Nat) (d : SparseDesc) (r : SieveRun) : List (Nat × Bytes) × Flags :=
  (List.range (128 * r.rowsUsed)).foldl (fun acc i =>
    let row := (List.range (r.nMinus1 + 1)).foldl (fun (x : Bytes × Flags) j =>
      let v := sieveCell s p (partBase d + i) j
      let e := drainElem d.dFormat.toNat
        (if d.control.getLsbD 3 then fpMulExact v (readFp32 s p (d.sBase.toNat + 4 * i)) else v)
      (x.1 ++ e.1, x.2.or e.2)) ([], {})
    (acc.1 ++ [(d.dBase.toNat + i * d.dStride.toNat, row.1)], acc.2.or row.2)) ([], {})

/-- The run-time checks of SPARSE_MM on its array and plates (R126, R146). -/
def sparseArrayFault (s : State) (p : Nat) (a : PlateArray) (d : SparseDesc) : Option Code :=
  let fmts := if d.smode = 1 then [3, 4] else [0, 1]
  let rows := List.range d.plateRowsUsed.toNat
  if !arrayValid s.variant a || !inTmem a.descTable 8 || !fmts.contains a.elem ||
      decide (a.plateRows < d.plateRow0.toNat + d.plateRowsUsed.toNat) ||
      decide (a.plateCols < d.plateCol0.toNat + d.kPlates.toNat) then some 0x9008
  else if (List.range d.kPlates.toNat).all (fun kp => rows.all (fun i =>
      let n := plateIndex a (d.plateRow0.toNat + i) (d.plateCol0.toNat + kp)
      headValid s p a n (readHead s p a n))) then none else some 0x9001

/-- The detections SPARSE_MM makes on what it reads: lines that fail their check, and plates whose count is wrong (R134, R144). -/
def sparseDetections (s : State) (p : Nat) (a : PlateArray) (d : SparseDesc) : List Code :=
  let plates := (List.range d.kPlates.toNat).flatMap (fun kp => (List.range d.plateRowsUsed.toNat).map (fun i =>
    plateIndex a (d.plateRow0.toNat + i) (d.plateCol0.toNat + kp)))
  readDetections s p (sparseSpans d ++ plates.flatMap (plateSpans s p a)) ++
    (plates.flatMap (fun i =>
      let h := readHead s p a i
      plateDetection s p (formAddr a h) a.elem h)).dedup

/-- Other Sieve part's run conflicts with a command's HALVES (R142). -/
def halvesConflict (t : Tile) (d : SparseDesc) : Bool :=
  let h := d.control.getLsbD 4
  (t.sieve0.isOpen && t.sieve0.halves != h) || (t.sieve1.isOpen && t.sieve1.halves != h)

/-- Completion flags of a sparse run. -/
def SieveRun.flagBits (r : SieveRun) (unchecked : Nat) : Nat :=
  b2n r.ovf + 2 * b2n r.nan + 16 * b2n (decide (0 < r.refires)) + 32 * b2n (decide (0 < unchecked))

/-- The bytes of a sparse unit (R246): the rows of the Sieve that it has built, then what it drains. -/
def sieveResult (s : State) (p : Nat) (d : SparseDesc) (rows : List (Nat × Bytes)) : Bytes :=
  tileRead s p (sieveBase + 512 * partBase d) (65536 * d.plateRowsUsed.toNat) ++ rows.flatMap (·.2)

/-- SPARSE_MM (R135 to R146). A CLEAR on a part whose run is open, with the same HALVES, abandons that run without a status (log
entry 98). -/
def execSparseMm (t : Site) (d : SparseDesc) (s : State) : Host.Outcome State Fault Refusal :=
  tileCmd t d.cid 0x11 0 (sparseCheck d) (fun t p s =>
    let part := d.control.getLsbD 0
    let clear := d.control.getLsbD 1
    let drain := d.control.getLsbD 2
    let a := readArray s p d.arrayDesc.toNat
    let old := sieveOf (tileOf s p) part
    let record (s : State) (code : Code) (fl : Nat) (c : Tally) : State :=
      if drain then s.putRecord p d.cid d.cmplAddr.toNat code fl c else s
    let put (s : State) (run : SieveRun) : State := s.updTile p (fun x => x.setSieve part run)
    let hits (x : Nat × Nat) : Bool := hitsOpenArray s p x.1 x.2 || a.parts.any (fun y => overlaps x.1 x.2 y.1 y.2)
    let early := firstCode [
      if (!clear && !sieveContinues d old) || halvesConflict (tileOf s p) d then some 0x9006 else none,
      sparseArrayFault s p a d,
      if (scratchWrites s p a d).any hits then some 0x9009 else none]
    match early with
    | some c => { state := record (s.tileFault p 3 d.cid c) c 0 {}, status := c }
    | none =>
      let s0 := if clear then s.clearSieve p d else s
      let x := sparseFill s0 p a d (if clear then openSieve d else old)
      let nnz := (List.range d.kPlates.toNat).foldl (fun n kp => (blockPlates s0 p a d (d.plateCol0.toNat + kp)).foldl
        (fun n q => n + nnzOf a.elem q.elems) n) 0
      let s1 := (({ s0 with mem := x.mem }).updTile p (fun t => { t with sieveCheck := x.check })).count p 2
        (nnz * (d.nMinus1.toNat + 1))
      let det := sparseDetections s0 p a d
      if !drain then
        let r := s1.refireAll p 3 d.cid x.run.refires (attempts s.budget t.det det)
        { state := put r.1 { x.run with
            refires := r.2.1
            suspect := x.run.suspect || !t.suspect.isEmpty }
          status := r.2.2 }
      else
        let cmp := sieveCompare s1 p d x.run
        let o := sieveDrainRows s1 p d x.run
        let r := s1.settle t p { block := 3, cid := d.cid, done := x.run.refires, marked := x.run.suspect
                                 computed := det ++ tallyCodes cmp.1 cmp.2, result := sieveResult s1 p d o.1 }
        let run := { x.run with
          refires := r.2.1
          isOpen := false }
        if r.2.2 ≠ 0 then
          { state := record (put r.1 run) r.2.2 (run.flagBits cmp.1.unchecked) cmp.1, status := r.2.2 }
        else
          let run2 := { run with
            ovf := run.ovf || o.2.ovf
            nan := run.nan || o.2.nan }
          let fl := run2.flagBits cmp.1.unchecked
          let s2 := put s1 x.run
          match firstCode (o.1.map (fun y => writeFault s2 p y.1 y.2.length) ++ [writeFault s2 p d.cmplAddr.toNat 16]) with
          | some f => { state := record (put (r.1.tileFault p 3 d.cid f) run2) f fl cmp.1, status := f }
          | none =>
            { state := record ((put r.1 run2).writeRows p o.1) 0 fl cmp.1
              flags := fl }) s

/-! ### Masked weight gradients (R148) -/

/-- Rows and columns of a mask that hold a mask bit. -/
def maskLanes (mask : Nat) : Lanes :=
  ⟨(List.range 128).filter (fun r => (List.range 128).any (fun c => mask.testBit (128 * c + r))),
   (List.range 128).filter (fun c => (List.range 128).any (fun r => mask.testBit (128 * c + r)))⟩

/-- Mask positions in packed order: row ascending, then column ascending. -/
def maskPositions (mask : Nat) : List (Nat × Nat) :=
  (List.range 128).flatMap (fun r => ((List.range 128).filter (fun c => mask.testBit (128 * c + r))).map (fun c => (r, c)))

/-- What a MASKED_MM drains: the packed mask positions, to the chain or contiguously from d_base. -/
def maskedDrained (d : DenseDesc) (mask : Nat) (c : Canvas) : Drained :=
  let cells := (maskPositions mask).map (fun q => cellAt c q.1 q.2)
  if d.dFormat = 6 then { chain := some cells }
  else
    let r := cells.foldl (fun (x : Bytes × Flags) cell =>
      let e := drainElem d.dFormat.toNat (cellVal cell)
      (x.1 ++ e.1, x.2.or e.2)) ([], {})
    { rows := [(d.dBase.toNat, r.1)], flags := r.2 }

/-- MASKED_MM (R148): the rows and columns without a mask bit are gated. -/
def execMaskedMm (t : Site) (d : DenseDesc) (s : State) : Host.Outcome State Fault Refusal :=
  tileCmd t d.cid 0x12 0 (denseCheck d true) (fun t p s =>
    let mask := tileNum s p d.auxBase.toNat 2048
    engineCmd t d (maskLanes mask) true (fun _ c => maskedDrained d mask c) p s) s

end Sys2Proof.Machine
end

