-- ==== Sys2Proof/Machine/Strata.lean ====
section
/-! DEFINITION. Sys2Proof/Machine/Strata.lean: the transposing buffer (R154 to R160) and the Strata (R163 to R177), with the
meanings of their commands. Log entry 13 says where in the window the bytes of an entry lie. -/

namespace Sys2Proof.Machine

/-! ### TRANSPOSE (R155, R156) -/

/-- An element as the result holds it: widened exactly into the program's gradient format with WIDEN, otherwise its bits. -/
def widenElem (s : State) (d : TransDesc) (v : Nat) : Nat :=
  if d.dest.getLsbD 3 then ((elemFmt s.prog.gradFormat).encode (elemVal (d.srcFormat.toNat % 16) v)).1 else v

/-- Row `c` of the result: column `c` of the source. -/
def transRow (s : State) (p : Nat) (d : TransDesc) (c : Nat) : Bytes :=
  let sz := transSizes d
  (List.range (d.rowsMinus1.toNat + 1)).flatMap (fun r =>
    leBytes sz.2 (widenElem s d (tileNum s p (d.srcAddr.toNat + r * d.srcStride.toNat + c * sz.1) sz.1)))

/-- TRANSPOSE (R155): the transpose goes to its slot, and with TO_MEMORY on to tile memory. -/
def execTranspose (t : Site) (d : TransDesc) (s : State) : Host.Outcome State Fault Refusal :=
  tileCmd t d.cid 0x24 2 (transCheck d) (fun t p s =>
    let rows := (List.range (d.colsMinus1.toNat + 1)).map (transRow s p d)
    let slot := d.dest.toNat % 4
    let mem := d.dest.getLsbD 2
    let dst (c : Nat) : Nat := d.dstAddr.toNat + c * d.dstStride.toNat
    match (if mem then firstCode (rows.zipIdx.map (fun r => writeFault s p (dst r.2) r.1.length)) else none) with
    | some c => { state := s.tileFault p 4 d.cid c, status := c }
    | none =>
      let staged := rows.flatMap (fitTo (128 * (transSizes d).2))
      let reads : List Span := [⟨d.srcAddr.toNat, d.srcStride.toNat, (d.colsMinus1.toNat + 1) * (transSizes d).1,
        d.rowsMinus1.toNat + 1⟩]
      let r := s.settle t p { block := 4, cid := d.cid, computed := readDetections s p reads
                              result := staged ++ (if mem then rows.flatten else []) }
      if r.2.2 ≠ 0 then { state := r.1, status := r.2.2 }
      else
        let s1 := (r.1.updTile p (fun x => { x with lastSlot := some slot })).writeSlot p slot staged
        { state := if mem then s1.writeRows p (rows.zipIdx.map (fun r => (dst r.2, r.1))) else s1 }) s

/-! ### The Strata's regions (R164 to R166, R177) -/

/-- Bytes of an entry in its region: its 32-byte header and its payload. -/
def entryBytes (e : Entry) : Nat := 32 + e.bytes
def occupancy (l : List Entry) : Nat := l.foldl (fun n e => n + entryBytes e) 0

/-- Bytes of the main region and of the checkpoint reserve. -/
def mainBytes (b : Backward) : Nat := (b.bodyPages - b.bodyPages / 16) * pageBytes
def reserveBytes (b : Backward) : Nat := b.bodyPages / 16 * pageBytes

/-- First byte of the main region and of the reserve in the tile's address map: the body pages' first, and the first after the
main region (R164). -/
def mainBase (b : Backward) : Nat := loamBase + b.bodyFirst * pageBytes
def reserveBase (b : Backward) : Nat := mainBase b + mainBytes b

/-- The entry that a push of `n` payload bytes makes on a region (R165). -/
def newEntry (l : List Entry) (id : BitVec 64) (kind n : Nat) : Entry :=
  ⟨id, kind, n, l.head?.map (·.offset), occupancy l⟩

def entryHeader (e : Entry) : Bytes := (Config.strataHeader e.id e.bytes e.kind e.prev).toList

/-- Where `n` bytes at an offset of the main region lie in the window (log entry 13): the window holds a stretch of the region,
each byte at its offset modulo the window's size. -/
def windowSpans (b : Backward) (off n : Nat) : List Span :=
  let a := off % b.topBytes
  if a + n ≤ b.topBytes then [⟨b.topBase + a, 0, n, 1⟩]
  else [⟨b.topBase + a, 0, b.topBytes - a, 1⟩, ⟨b.topBase, 0, n - (b.topBytes - a), 1⟩]

/-- The bytes of spans, one after another. -/
def readSpans (s : State) (p : Nat) (l : List Span) : Bytes := l.flatMap (fun x => tileRead s p x.addr x.bytes)

/-- Write bytes to spans, one after another; with lines that fail on purpose when they were read from lines that failed. -/
def State.writeSpans (s : State) (p : Nat) (bad : Bool) : List Span → Bytes → State
  | [], _ => s
  | x :: r, b =>
    State.writeSpans (if bad then s.poisonWrite p x.addr (b.take x.bytes) else s.tileWrite p x.addr (b.take x.bytes)) p bad r
      (b.drop x.bytes)

/-- Bytes of the entries in the window. -/
def windowBytes (x : Strata) : Nat := occupancy (x.main.take x.inWindow)

def State.updStrata (s : State) (p : Nat) (f : Strata → Strata) : State :=
  s.updTile p (fun y => { y with strata := f y.strata })

/-- An entry moves between window and body, header and payload. A line whose check code fails fails where it comes to as well
(log entry 13). -/
def State.moveEntry (s : State) (p : Nat) (from' to' : List Span) : State :=
  s.writeSpans p (!(readDetections s p from').isEmpty) to' (readSpans s p from')

def bodySpan (b : Backward) (e : Entry) : Span := ⟨mainBase b + e.offset, 0, entryBytes e, 1⟩

/-- The oldest entry of the window is written back to the body (R166). -/
def State.writeBackOne (s : State) (p : Nat) (b : Backward) : State :=
  let x := (tileOf s p).strata
  match x.main[x.inWindow - 1]? with
  | some e => if x.inWindow = 0 then s else
      (s.moveEntry p (windowSpans b e.offset (entryBytes e)) [bodySpan b e]).updStrata p (fun y =>
        { y with inWindow := y.inWindow - 1 })
  | none => s

/-- The newest entry of the body is brought into the window (R166). -/
def State.refillOne (s : State) (p : Nat) (b : Backward) : State :=
  let x := (tileOf s p).strata
  match x.main[x.inWindow]? with
  | some e => (s.moveEntry p [bodySpan b e] (windowSpans b e.offset (entryBytes e))).updStrata p (fun y =>
      { y with inWindow := y.inWindow + 1 })
  | none => s

/-- Room in the window for `n` more bytes: while a push finds it full, entries are written back, oldest first. The wait changes
only timing (R166). -/
def State.makeRoom (s : State) (p : Nat) (b : Backward) (n : Nat) : (fuel : Nat) → State
  | 0 => s
  | k + 1 =>
    if b.topBytes < windowBytes (tileOf s p).strata + n then State.makeRoom (s.writeBackOne p b) p b n k else s

/-- A stashed entry, in the window (R166). -/
def State.pushEntry (s : State) (p : Nat) (b : Backward) (id : BitVec 64) (payload : Bytes) : State :=
  let x := (tileOf s p).strata
  let e := newEntry x.main id 0 payload.length
  ((s.makeRoom p b (entryBytes e) x.inWindow).writeSpans p false (windowSpans b e.offset (entryBytes e))
    (entryHeader e ++ payload)).updStrata p (fun y => { y with
      main := e :: y.main
      inWindow := y.inWindow + 1
      mainHwm := max y.mainHwm ((occupancy (e :: y.main) + 65535) / 65536) })

/-- A checkpoint entry, in the reserve (R164, R166). -/
def State.pushCheckpoint (s : State) (p : Nat) (b : Backward) (id : BitVec 64) (payload : Bytes) : State :=
  let e := newEntry (tileOf s p).strata.reserve id 1 payload.length
  (s.tileWrite p (reserveBase b + e.offset) (entryHeader e ++ payload)).updStrata p (fun y => { y with
      reserve := e :: y.reserve
      checkpointing := true
      reserveHwm := max y.reserveHwm ((occupancy (e :: y.reserve) + 4095) / 4096) })

/-- A layer at or above the switch layer is checkpointed (R171). -/
def checkpointed (x : Strata) (layer : Nat) : Bool := decide (x.switchLayer ≤ layer)

/-! ### Strata commands -/

/-- The payload of a push (R167): contiguous, or through the transposing buffer unit by unit, stored as token rows. -/
def pushPayload (s : State) (p : Nat) (d : PushDesc) (units : Nat) : Bytes :=
  if d.flags.getLsbD 0 then
    let w := elemBits d.elemFormat.toNat / 8
    (List.range units).flatMap (fun u => (List.range 128).flatMap (fun tok => (List.range 128).flatMap (fun f =>
      tileRead s p (d.srcAddr.toNat + u * 128 * w + f * d.srcStride.toNat + tok * w) w)))
  else tileRead s p d.srcAddr.toNat (d.fixedBytes.toNat + d.unitBytes.toNat * units)

/-- The slots that a push through the buffer writes (R158): its chosen slot, or both when its elements are of 4 bytes. -/
def pushSlot (t : Tile) (d : PushDesc) : Nat := if elemBits d.elemFormat.toNat = 32 then 2 else chooseSlot t

/-- A push through the buffer counts as the command that last wrote its slot, whether or not it has units to pass or is skipped:
the choice of slots follows from program order alone (R158). -/
def State.notePushSlot (s : State) (p : Nat) (d : PushDesc) : State :=
  if d.flags.getLsbD 0 then s.updTile p (fun y => { y with lastSlot := some (pushSlot y d) }) else s

/-- Bytes that a push reads. -/
def pushSpan (d : PushDesc) (units : Nat) : Span :=
  if d.flags.getLsbD 0 then
    ⟨d.srcAddr.toNat, d.srcStride.toNat, units * 128 * (elemBits d.elemFormat.toNat / 8), 128⟩
  else ⟨d.srcAddr.toNat, 0, d.fixedBytes.toNat + d.unitBytes.toNat * units, 1⟩

/-- STRATA_PUSH (R167, R172, R173): without effect in a checkpointed layer's forward commands; a push that finds the main
region full raises 0x3101. -/
def execStrataPush (t : Site) (d : PushDesc) (s : State) : Host.Outcome State Fault Refusal :=
  tileCmd t d.cid 0x28 2 (pushCheck d) (fun t p s =>
    let x := (tileOf s p).strata
    let b := (s.tileProg t.tile).backward
    if x.skipPushes && s.step.phase == .fill then
      { state := (s.notePushSlot p d).updStrata p (fun y => { y with skipped := y.skipped + 1 }) }
    else
      let n := d.fixedBytes.toNat + d.unitBytes.toNat * x.tokenUnits
      let span := pushSpan d x.tokenUnits
      if mainBytes b < occupancy x.main + 32 + n then { state := s.tileFault p 10 d.cid 0x3101, status := 0x3101 }
      else if !inTmem d.srcAddr.toNat span.extent then { state := s.tileFault p 6 d.cid 0x3010, status := 0x3010 }
      else
        let pay := pushPayload s p d x.tokenUnits
        let r := s.settle t p { block := 6, cid := d.cid, computed := readDetections s p [span]
                                result := entryHeader (newEntry x.main d.cid 0 n) ++ pay }
        if r.2.2 ≠ 0 then { state := r.1, status := r.2.2 }
        else
          let s1 := r.1.pushEntry p b d.cid pay
          let staged := if d.flags.getLsbD 0 ∧ 0 < x.tokenUnits then
              s1.writeSlot p (pushSlot (tileOf s p) d) (pay.drop (d.unitBytes.toNat * (x.tokenUnits - 1)))
            else s1
          { state := staged.notePushSlot p d }) s

/-- The top stashed entry leaves the Strata (R168); the entry below it is the next. -/
def Strata.dropTop (x : Strata) : Strata := { x with
  main := x.main.tail
  inWindow := x.inWindow - 1 }

/-- Where the payload of the top stashed entry lies: in the window, or still in the body, from which the engine then refills. -/
def topSpans (b : Backward) (x : Strata) (e : Entry) : List Span :=
  if x.inWindow = 0 then [bodySpan b e] else windowSpans b e.offset (entryBytes e)

/-- STRATA_POP (R168): 0x3102 when the stack is empty or its top entry was pushed by another command. -/
def execStrataPop (t : Site) (d : PopDesc) (s : State) : Host.Outcome State Fault Refusal :=
  tileCmd t d.cid 0x29 2 (popCheck d) (fun t p s =>
    let x := (tileOf s p).strata
    let b := (s.tileProg t.tile).backward
    match x.main.head? with
    | none => { state := s.tileFault p 10 d.cid 0x3102, status := 0x3102 }
    | some e =>
      if e.id ≠ d.expectId then { state := s.tileFault p 10 d.cid 0x3102, status := 0x3102 }
      else match writeFault s p d.dstAddr.toNat e.bytes with
        | some c => { state := s.tileFault p 6 d.cid c, status := c }
        | none =>
          let spans := topSpans b x e
          let pay := (readSpans s p spans).drop 32
          let r := s.settle t p { block := 10, cid := d.cid, computed := readDetections s p spans, result := pay }
          if r.2.2 ≠ 0 then { state := r.1, status := r.2.2 }
          else
            let s1 := if x.inWindow = 0 then r.1.refillOne p b else r.1
            { state := (s1.updStrata p Strata.dropTop).tileWrite p d.dstAddr.toNat pay }) s

/-- Checkpoint bytes of a layer for a tile's token units. -/
def ckBytes (d : LayerDesc) (units : Nat) : Nat := d.ckFixedBytes.toNat + d.ckUnitBytes.toNat * units

/-- At a layer boundary with EARLY_ABORT set and the local non-finite flag set, the tile stops issuing (R23). -/
def State.abortHere (s : State) (p : Nat) : State :=
  { s.updTile p (fun y => { y with stopped := true }) with
    step := { s.step with earlyAborted := true } }

/-- Whether a layer boundary is the one an early abort stops at. -/
def abortsNow (s : State) : Bool := s.step.current.flags.getLsbD 0 && s.step.nfLocal

/-- STRATA_LAYER in FILL (R173): a checkpointed layer's input goes into the reserve. -/
def execStrataLayerFill (t : Site) (d : LayerDesc) (s : State) : Host.Outcome State Fault Refusal :=
  tileCmd t d.cid 0x2A 2 (layerCheck false d) (fun t p s =>
    let x := (tileOf s p).strata
    let b := (s.tileProg t.tile).backward
    let n := ckBytes d x.tokenUnits
    if abortsNow s then { state := s.abortHere p }
    else if !checkpointed x d.layer.toNat then
      { state := s.updStrata p (fun y => { y with skipPushes := false }) }
    else if reserveBytes b < occupancy x.reserve + 32 + n then { state := s.tileFault p 10 d.cid 0x3101, status := 0x3101 }
    else if !inTmem d.ckAddr.toNat n then { state := s.tileFault p 6 d.cid 0x3010, status := 0x3010 }
    else
      let pay := tileRead s p d.ckAddr.toNat n
      let r := s.settle t p { block := 6, cid := d.cid, computed := readDetections s p [⟨d.ckAddr.toNat, 0, n, 1⟩]
                              result := entryHeader (newEntry x.reserve d.cid 1 n) ++ pay }
      if r.2.2 ≠ 0 then { state := r.1, status := r.2.2 }
      else
        { state := (r.1.pushCheckpoint p b d.cid pay).updStrata p (fun y => { y with skipPushes := true }) }) s

/-- The command ID of the FILL-phase STRATA_LAYER of a layer, from the tile's image (R174). -/
def fillLayerId (g : TileProg) (layer : Nat) : Option (BitVec 64) :=
  g.cmds.findSome? (fun c => match c with
    | .layer false d => if d.layer.toNat = layer then some d.cid else none
    | _ => none)

/-- The command IDs of the commands of a layer's recompute block (Table 7-6). -/
def recomputeIds (g : TileProg) (d : LayerDesc) : List (BitVec 64) :=
  ((g.cmds.drop ((d.recomputeFirst.toNat - g.cmdOffset) / 64)).take d.recomputeCount.toNat).map TileOp.cid

/-- The commands of a recompute block are to run again: what the schedule sends of theirs from here on waits for that (R60,
R175). -/
def State.redo (s : State) (t : Nat) (ids : List (BitVec 64)) : State :=
  s.updMesh (fun m => { m with done := m.done.filter (fun x => !(x.1 == t && ids.contains x.2)) })

/-- STRATA_LAYER in DRAIN (R174): a checkpointed layer's checkpoint returns to tile memory and its recompute block begins;
the block's commands are their own commands. -/
def execStrataLayerDrain (t : Site) (d : LayerDesc) (s : State) : Host.Outcome State Fault Refusal :=
  tileCmd t d.cid 0x2A 2 (layerCheck true d) (fun t p s =>
    let x := (tileOf s p).strata
    let g := s.tileProg t.tile
    if abortsNow s then { state := s.abortHere p }
    else if !checkpointed x d.layer.toNat then { state := s }
    else match x.reserve.head? with
      | none => { state := s.tileFault p 10 d.cid 0x3102, status := 0x3102 }
      | some e =>
        if some e.id ≠ fillLayerId g d.layer.toNat then
          { state := s.tileFault p 10 d.cid 0x3102, status := 0x3102 }
        else match writeFault s p d.ckAddr.toNat e.bytes with
          | some c => { state := s.tileFault p 6 d.cid c, status := c }
          | none =>
            let span : Span := ⟨reserveBase g.backward + e.offset, 0, entryBytes e, 1⟩
            let pay := (readSpans s p [span]).drop 32
            let r := s.settle t p { block := 10, cid := d.cid, computed := readDetections s p [span], result := pay }
            if r.2.2 ≠ 0 then { state := r.1, status := r.2.2 }
            else
              let n := d.recomputeCount.toNat
              { state := ((r.1.updStrata p (fun y => { y with
                    reserve := y.reserve.tail
                    recomputing := decide (0 < n)
                    recomputeLeft := n + 1 })).tileWrite p d.ckAddr.toNat pay).redo t.tile (recomputeIds g d) }) s

/-- The Strata engine writes the oldest entry of the window back to the body while the window is more than half full
(R166). -/
def execStrataWriteback (tile : Nat) (s : State) : Host.Outcome State Fault Refusal :=
  let p := physOf s.repair tile
  let b := (s.tileProg tile).backward
  if tile < logicalTiles ∧ b.topBytes < 2 * windowBytes (tileOf s p).strata then .next (s.writeBackOne p b) else .next s

/-- The Strata engine refills the window from the body, newest first, while it is less than half full (R166). -/
def execStrataRefill (tile : Nat) (s : State) : Host.Outcome State Fault Refusal :=
  let p := physOf s.repair tile
  let b := (s.tileProg tile).backward
  if tile < logicalTiles ∧ 2 * windowBytes (tileOf s p).strata < b.topBytes then .next (s.refillOne p b) else .next s

/-- The Strata status register (Table 7-7). -/
def Strata.status (x : Strata) (switch : Nat) : Nat :=
  switch + 2 ^ 13 * b2n x.checkpointing + 2 ^ 14 * b2n x.recomputing + 2 ^ 16 * (x.mainHwm % 65536) +
    2 ^ 32 * (x.reserveHwm % 65536)

end Sys2Proof.Machine
end

