-- ==== Sys2Proof/Machine/StepFlow.lean ====
section
/-! DEFINITION. Sys2Proof/Machine/StepFlow.lean: the course of a step: the checks and work of OPEN (R19, R171, R172, R217, R286),
the ends of FILL and DRAIN (R15, R23, R176), the commit point (R22, R24, R25), SEAL and its receipt (R251 to R254, R396), replay
capture (R398), and the course of a discard (R31, R342 to R345). -/

namespace Sys2Proof.Machine

/-! ### Footprints and the switch layer (R165, R170 to R172) -/

/-- Token units of a logical row for `units` units (R167, R302). -/
def State.tokenUnits (s : State) (units row : Nat) : Nat := ((s.prog.placement.take units).filter (· == row)).length

/-- The pushes of each FILL layer of a tile image, layer 0 first. -/
def layerPushes (g : TileProg) : List (List PushDesc) :=
  ((g.cmds.take g.drainFirst).foldl (fun (acc : List (List PushDesc)) c => match c, acc with
    | .layer false _, l => [] :: l
    | .push d, x :: l => (x ++ [d]) :: l
    | _, l => l) []).reverse

/-- The FILL boundaries of a tile image, layer 0 first. -/
def fillLayers (g : TileProg) : List LayerDesc :=
  (g.cmds.take g.drainFirst).filterMap (fun c => match c with | .layer false d => some d | _ => none)

/-- The DRAIN boundary of a layer. -/
def drainLayer (g : TileProg) (layer : Nat) : Option LayerDesc :=
  g.cmds.findSome? (fun c => match c with | .layer true d => if d.layer.toNat = layer then some d else none | _ => none)

/-- The commands of a layer's recompute block; empty when it has none. -/
def recomputeBlock (g : TileProg) (layer : Nat) : List TileOp :=
  match drainLayer g layer with
  | some d => (g.cmds.drop ((d.recomputeFirst.toNat - g.cmdOffset) / 64)).take d.recomputeCount.toNat
  | none => []

def pushesOf (l : List TileOp) : List PushDesc := l.filterMap (fun c => match c with | .push d => some d | _ => none)

def pushPayloadBytes (units : Nat) (d : PushDesc) : Nat := d.fixedBytes.toNat + d.unitBytes.toNat * units

/-- Bytes of the entries of pushes, headers included. -/
def pushBytes (units : Nat) (l : List PushDesc) : Nat := (l.map (fun d => 32 + pushPayloadBytes units d)).sum

/-- fp and rc of each layer for a number of token units; no rc is an infinite one. -/
def footprints (g : TileProg) (units : Nat) : List (Nat × Option Nat) :=
  (layerPushes g).zipIdx.map (fun (x : List PushDesc × Nat) =>
    (pushBytes units x.1,
      if x.1 = [] then some 0
      else if recomputeBlock g x.2 = [] then none
      else some (pushBytes units (pushesOf (recomputeBlock g x.2)))))

/-- Switch point `k` is feasible in a main region of `main` bytes. -/
def feasible (f : List (Nat × Option Nat)) (main k : Nat) : Bool :=
  (f.drop k).all (·.2.isSome) &&
    decide (((f.take k).map (·.1)).sum + ((f.drop k).map (fun x => x.2.getD 0)).foldl max 0 ≤ main)

/-- The largest feasible switch point of a tile image. -/
def largestFeasible (g : TileProg) (units : Nat) : Option Nat :=
  let f := footprints g units
  (List.range (f.length + 1)).reverse.find? (feasible f (mainBytes g.backward))

/-- The switch layer: the smallest limit that a tile in use places, or the largest n (R171). A tile without a feasible point
counts as 0. -/
def State.chooseSwitch (s : State) (units : Nat) : Nat :=
  let use := tilesInUse s.repair
  let n (t : Nat) : Nat := (fillLayers (s.tileProg t)).length
  let best (t : Nat) : Nat := (largestFeasible (s.tileProg t) (s.tokenUnits units (rowOf t))).getD 0
  match (use.filter (fun t => decide (best t < n t))).map best with
  | [] => (use.map n).foldl max 0
  | x :: l => l.foldl min x

/-- Whether OPEN finds the stash of a tile exhausted under a switch layer (R165, R172). -/
def stashFails (g : TileProg) (units switch : Nat) : Bool :=
  (largestFeasible g units).isNone ||
    ((footprints g units).drop switch).any (·.2.isNone) ||
    decide (reserveBytes g.backward < (((fillLayers g).drop switch).map (fun d => 32 + ckBytes d units)).sum) ||
    (pushesOf g.cmds).any (fun d => decide (g.backward.topBytes < 2 * pushPayloadBytes units d))

/-! ### STEP_OPEN's checks (R19, R43, R269) -/

/-- Tokens of the step and its slots. -/
def slotTokens (p : StepOpen) : Nat := ((p.slots.take 16).map (·.toNat)).sum
def slotsActive (p : StepOpen) : Nat := ((p.slots.take 16).filter (· ≠ 0)).length

/-- The status with which a STEP_OPEN is rejected (R19). Among several failing conditions the program and the field map come before
the step number (log entry 67: R19 orders none). -/
def openRejects (s : State) (resv : Bool) (p : StepOpen) : Option Code :=
  firstFail [
    (s.step.inProgress, 0x1005),
    (resv || decide (4 ≤ p.flags.toNat), 0x1003),
    (s.program.isNone || s.prog.digest != p.programDigest, 0x1008),
    (s.prog.fieldMap.toNat != fieldMapValue s.repair, 0x1010),
    (!s.step.anyNumber && s.step.expected != p.stepNumber, 0x1007),
    (p.slots.any (fun x => x.toNat % 128 != 0) || decide (131072 < slotTokens p) ||
      decide (s.prog.maxTokens < slotTokens p) || decide (slotTokens p = 0), 0x1009),
    ((List.range 12).any (fun k => pairLost s (2 * k)), 0x5005)]

/-! ### The work of OPEN -/

/-- The batch as FILL reads it: the token buffers of the step's bank (R300). -/
def State.batchBytes (s : State) (p : StepOpen) : Bytes :=
  rdBytes s.host.batch (0x200000 * (p.stepNumber.toNat % 2)) (slotTokens p * s.prog.tokenBytes)

/-- The batch digest (Table 10-6). -/
def State.batchDigestOf (s : State) (p : StepOpen) : Digest :=
  sha256 ((List.range 16).flatMap (fun i => leBytes 4 (p.slots.getD i 0).toNat) ++ s.batchBytes p)

/-- The first value of a hash chain (R225). -/
def State.chainStart (s : State) (step : BitVec 64) (pb kind : Nat) : Digest :=
  sha256 (leBytes 8 step.toNat ++ leBytes 2 s.boot.positionId.toNat ++ leBytes 1 pb ++ leBytes 1 kind)

/-- A canvas or a Sieve part with no run open. -/
def Canvas.closed (c : Canvas) : Canvas := { c with run := {} }

/-- What a tile is at OPEN: both canvases are cleared (R83). -/
def Tile.atOpen (t : Tile) (units switch : Nat) : Tile :=
  { t with
    canvasA := {}
    canvasB := {}
    sieve0 := {}
    sieve1 := {}
    lastSlot := none
    strata := { ({} : Strata) with
      tokenUnits := units
      switchLayer := switch }
    vecOvf := false
    vecNan := false
    vecSat := false
    vecRefires := 0
    halted := false
    stopped := false
    waiting := none
    touching := false
    issued := 0
    heldCanvases := []
    inbox := []
    counters := t.counters.map (fun x => (x.1, { x.2 with total := 0 })) }

/-- What a port block is at OPEN: its maps begin, its chains start, its window statistics go on. -/
def State.pbAtOpen (s : State) (p : StepOpen) (switch n : Nat) : PbState :=
  { stats := (pbOf s n).stats
    weightChain := s.chainStart p.stepNumber n 0
    outChain := s.chainStart p.stepNumber n 1
    sumChain := s.chainStart p.stepNumber n 2
    expected := ((s.pbProg n).intake.zipIdx.filter (fun (x : IntakeEntry × Nat) =>
      !(x.1.recompute && decide (x.1.layer < switch)))).map (fun (x : IntakeEntry × Nat) => (x.2, x.1)) }

/-- The LATE streams the step waits for, from the records of the step before (R227), within a replay directive's LATE_IN. -/
def State.lateStreams (s : State) : SMap Nat :=
  (s.reduce.prevRecords.filter (fun x => recState x.2 == 1 &&
    (!s.directed (x.1 / 2048) || (match s.prog.directive with
      | some d => (smGet 0 d.records x.1).getLsbD 2
      | none => true)))).foldl (fun m x => smPut 0 x.1 (recFrom x.2 + 1) m) []

/-- Contributor records at OPEN: LATE_IN of the LATE streams, and the marks of a replay directive. -/
def State.openRecords (s : State) (late : SMap Nat) : SMap (BitVec 64) :=
  let m := late.foldl (fun m x => smPut 0xFFFFFFFF00000000 x.1 (0xFFFFFFFF00000004 : BitVec 64) m) []
  match s.prog.directive with
  | none => m
  | some d =>
    (d.records.filter (fun x => s.directed (x.1 / 2048) && recState x.2 != 0 &&
      decide (x.1 % 2048 < (s.group (x.1 / 2048)).members))).foldl (fun m x =>
      smPut 0xFFFFFFFF00000000 x.1 (BitVec.ofNat 64 (recState x.2 + 4 * b2n (smGet 0 late x.1 != 0) + 2 ^ 32 * recFrom x.2)) m)
      m

/-- The reduction state at OPEN: blocks and votes that came early are kept, retention of step n − 2 goes (R221). The marks of the step
enter its contributor records as REDUCE begins (R17). -/
def State.reduceAtOpen (s : State) (n : BitVec 64) : Reduce :=
  let late := s.lateStreams
  { early := s.reduce.early
    retention := s.reduce.retention.filter (fun x => x.step == n || x.step == n - 1)
    prevRecords := s.reduce.prevRecords
    planned := s.openRecords late
    lateIn := late
    lateOwed := s.reduce.lateOwed.filter (fun o => o.1 == n || o.1 == n - 1)
    votes := s.reduce.votes.filter (fun v => v.step == n && v.positionId != s.boot.positionId) }

/-- The LATE re-sends this module owes from the step before, to the owners of groups under LATE_POOL (R227). -/
def State.resendLate (s : State) (owed : List (BitVec 64 × BitVec 16 × LateEntry)) (prev : BitVec 64) : State :=
  (owed.filter (fun o => o.1 == prev && (s.group o.2.2.group.toNat).late == 1)).foldl (fun s o =>
    (s.reduce.retention.filter (fun x => x.destId == o.2.1 && x.step == prev && x.block.group == o.2.2.group &&
      !x.block.isLate && decide (o.2.2.fromSeq.toNat ≤ x.block.seq.toNat))).reverse.foldl (fun s x =>
        s.sendBlock x.late) s) s

/-- A re-issued step asks every sender for its stream from seq 0 (R224). -/
def State.askAll (s : State) : State :=
  (List.range 24).foldl (fun s n =>
    s.prog.groups.zipIdx.foldl (fun s (g : Group × Nat) =>
      let count := (expected (s.pbProg n) g.2).length
      if count = 0 then s
      else ((List.range g.1.members).filter (fun m => (g.1.member m).1 != s.boot.positionId.toNat)).foldl (fun s m =>
        s.askResend n g.2 m 0 (count - 1) (low32 s.step.current.stepNumber)) s) s) s

/-- Raise the marks a replay directive makes before any block arrives. -/
def State.raiseMarks (s : State) : State :=
  (s.reduce.planned.filter (fun x => recState x.2 != 0)).foldl (fun s x =>
    let s1 := s.raise 0x2307 moduleWide noCmd (x.1 % 2048)
    if recState x.2 = 2 then s1.raise 0x2308 moduleWide noCmd (x.1 % 2048) else s1) s

/-- The status with which OPEN ends the step, and its place (R172, R217, R247, R348). -/
def State.openFails (s : State) (units switch : Nat) : Option (Code × Place) :=
  if (regionOf s.power edgeRegion).suspect then some (0x2106, moduleWide)
  else if s.pages.lost ≠ [] then some (0x3004, moduleWide)
  else if (List.range 24).any (fun n => (s.pbProg n).kilnMap.any (fun e => !(s.window e.windowId).getLsbD 8)) then
    some (0x2303, moduleWide)
  else ((tilesInUse s.repair).find? (fun t => stashFails (s.tileProg t) (s.tokenUnits units (rowOf t)) switch)).map
    (fun t => (0x3101, ⟨BitVec.ofNat 12 (physOf s.repair t), 10⟩))

/-- The step's latches and cleared flags (R15, R34). -/
def State.latchStep (s : State) (p : StepOpen) (switch : Nat) : State :=
  let again := s.step.lastOutcome = 3 ∧ s.step.current.stepNumber = p.stepNumber
  { s with step := { s.step with
      nfLocal := false
      ovfBlock := false
      nfLoss := false
      voteSkip := false
      earlyAborted := false
      recomputed := decide (switch < ((tilesInUse s.repair).map (fun t => (fillLayers (s.tileProg t)).length)).foldl max 0)
      suspect := false
      nfReceived := false
      slotsActive := slotsActive p
      expected := p.stepNumber
      anyNumber := false
      current := p
      attempt := if again then s.step.attempt + 1 else 0
      committed := false
      drainDone := false
      timers := []
      refires := []
      lsExp := lsField s.step.lossScale 7 0
      latchedScale := s.step.lossScale
      latchedWindows := s.step.windows
      latchedGroups := s.step.optGroups
      openRepairMap := repairMapValue s.repair
      openFieldMap := fieldMapValue s.repair
      loss := []
      checksPassed := 0
      checksUnchecked := 0
      switchLayer := switch
      batchDigest := s.batchDigestOf p } }

/-- OPEN (Table 1-1). Answers its status and the response payload (Table 13-7). -/
def State.openStep (s0 : State) (p : StepOpen) : State × Code × Bytes :=
  let s := s0.wake
  let again := s.step.lastOutcome = 3 ∧ s.step.current.stepNumber = p.stepNumber
  let units := slotTokens p / 128
  let switch := s.chooseSwitch units
  let s1 := (s.latchStep p switch).beginPhase .opening
  let r := s1.reduceAtOpen p.stepNumber
  let owed := s1.reduce.lateOwed
  let s2 := ((List.range logicalTiles).filter (fun t => fieldState s1.repair (fieldOfLogical t) != 2)).foldl (fun s t =>
    s.updTile (physOf s.repair t) (fun x => x.atOpen (s.tokenUnits units (rowOf t)) switch)) s1.setTakeovers
  let s3 := (List.range 24).foldl (fun s n => (s.emptyIntake n).setPb n (s.pbAtOpen p switch n)) s2
  let s4 := { s3 with
    sync := s3.sync.openStep
    reduce := r
    seam := { awaited := decide (s3.power.effWest ≠ s3.power.effEast) }
    mesh := {}
    pages := { s3.pages with prior := [] }
    power := { s3.power with stretchAcc := 0 } }
  match s4.openFails units switch with
  | some f => ((s4.raise f.1 f.2 noCmd).endPhase .opening, f.1, [])
  | none =>
    let s5 := s4.raiseMarks.resendLate owed (p.stepNumber - 1)
    let s6 := if again then s5.askAll else s5
    let s7 := (s6.drainEarly s6.reduce.early.length).endPhase .opening
    match s7.arbiter.latched.head?, s7.step.phase with
    | some l, .discarding => (s7, l.code, [])
    | _, _ =>
    let s8 := s7.beginPhase .fill
    let s9 := ({ s8 with mesh := startMesh s8 }).pumpMesh
    (s9, 0, leBytes 8 p.stepNumber.toNat ++ leBytes 2 switch ++ zeros 6 ++ leBytes 8 s9.now.toNat)

/-! ### The ends of FILL and DRAIN -/

/-- Release every tile's Strata, keeping its status fields. -/
def Strata.released (x : Strata) : Strata :=
  { x with
    main := []
    reserve := []
    inWindow := 0
    recomputing := false
    recomputeLeft := 0
    skipPushes := false }

def State.mapTiles (s : State) (f : Tile → Tile) : State :=
  (s.tiles.map (·.1)).foldl (fun s p => s.updTile p f) s

/-- Activations, gradient buffers and runs are released. -/
def Tile.dropScratch (t : Tile) : Tile :=
  { t with
    canvasA := t.canvasA.closed
    canvasB := t.canvasB.closed
    sieve0 := {}
    sieve1 := {}
    heldCanvases := []
    inbox := []
    strata := t.strata.released }

/-- An early-aborted module's tiles: each has stopped at its layer boundary, and releases its Strata and activations (R23). -/
def State.stopTiles (s : State) : State :=
  (tilesInUse s.repair).foldl (fun s t => s.updTile (physOf s.repair t) (fun x => { x with stopped := true }))
    (s.mapTiles Tile.dropScratch)

/-- REDUCE of an early-aborted module (R23, R176): every block it owes goes header-only. -/
def State.abortToReduce (s : State) : State :=
  let s1 := if s.step.phase = .reduce then s else s.beginReduce
  let s2 := { s1.stopTiles with step := { s1.step with drainDone := true } }
  ((List.range 24).foldl (fun s n => s.headerOnly n) s2).tryVote

/-- FILL_END: the last tile has finished its last forward command. FILL and DRAIN of a module that stopped in FILL count as
phases that did not run (R16). -/
def execFillEnd (last : Nat) (s : State) : Host.Outcome State Fault Refusal :=
  if logicalTiles ≤ last ∨ s.step.phase ≠ .fill ∨ s.arbiter.fatal.isSome then .next s
  else
    let s1 := { s with step := { s.step with
      fillLast := last
      fillLastTime := s.now } }
    if s1.step.earlyAborted then
      let s2 := s1.voidPhase .fill
      .next { s2 with step := s2.step.setTimer 2 (s.now, s.now) }.abortToReduce
    else .next ((s1.endPhase .fill).beginPhase .drain)

/-- The first tile in use whose Strata is not empty (R176). -/
def State.residue (s : State) : Option Nat :=
  (tilesInUse s.repair).find? (fun t =>
    let x := (tileOf s (physOf s.repair t)).strata
    !x.main.isEmpty || !x.reserve.isEmpty)

/-- DRAIN_END: the last tile has finished its last backward command. REDUCE begins here when no block is left to leave. The
DRAIN of a module that stopped in it counts as a phase that did not run (R16). -/
def execDrainEnd (last : Nat) (s : State) : Host.Outcome State Fault Refusal :=
  if logicalTiles ≤ last ∨ !(s.step.phase == .drain || s.step.phase == .reduce) ∨ s.step.drainDone ∨
    s.arbiter.fatal.isSome then .next s
  else
    let s0 := { s with step := { s.step with
      drainLast := last
      drainLastTime := s.now } }
    let s1 := s0.endPhase .drain
    if s1.step.earlyAborted then .next (s0.voidPhase .drain).abortToReduce
    else match s1.residue with
      | some t => .next (s1.raise 0x3103 ⟨BitVec.ofNat 12 (physOf s1.repair t), 10⟩)
      | none =>
        let s2 := { s1 with step := { s1.step with drainDone := true } }
        .next (if s2.step.phase = .drain ∧ s2.allSent then s2.beginReduce else s2).tryVote

/-! ### The commit point (R22, R24, R25, R198, R206) -/

/-- A skip: the pages of g + 1 go, the loss scale backs off, LATE blocks of this step and for it are lost. -/
def State.skipStep (s : State) : State :=
  let s1 := s.releaseNext.mapTiles Tile.dropScratch
  { s1 with
    step := { s1.step with
      lossScale := lsUpdate s1.step.lossScale true
      committed := true }
    reduce := { s1.reduce with
      lateOwed := []
      prevRecords := []
      lateIn := [] } }

/-- A commit: the commit record names g + 1, and the superseded pages leave their slots. -/
def State.commitStep (s : State) : State :=
  let prev := low32 (s.step.current.stepNumber - 1)
  let rec' : CommitRec := ⟨s.step.current.stepNumber, s.gen + 1, s.pages.primary.after, s.genDigest true⟩
  let keep := s.survival.formed && (s.survival.readyStep == prev && s.survival.readyStep != s.survival.parityStep)
  let s1 := { s.writeRecord rec' with
    step := { s.step with
      optCount := s.step.optCount + 1
      lossScale := lsUpdate s.step.lossScale false
      committed := true } }
  let s2 := (s1.releaseOld keep).mapTiles Tile.dropScratch
  { s2 with reduce := { s2.reduce with prevRecords := s2.reduce.records } }

/-- COMMIT_POINT: the optimizer has finished; the verdict takes effect and SEAL begins. The optimizer work of a skipped step does
not run, so its COMMIT is recorded without length (R16). A step in which an object has been hand-set never commits (R291), nor one
whose generation has a page without a slot, which the digests read (R196, R253). -/
def execCommitPoint (s : State) : Host.Outcome State Fault Refusal :=
  if s.step.phase ≠ .commit ∨ s.step.committed ∨ s.arbiter.fatal.isSome then .next s
  else match s.reduce.verdict with
    | none => .next s
    | some skip =>
      if s.sync.stepHandSet then .next (s.raise 0x6009 moduleWide)
      else match (if skip then none else s.slotless true) with
      | some t => .next (s.raise 0x2203 ⟨BitVec.ofNat 12 (physOf s.repair t), 10⟩)
      | none => .next ((if skip then s.skipStep.voidPhase .commit else s.commitStep.endPhase .commit).beginPhase .sealing)

/-! ### The receipt (R251 to R254) -/

/-- Digest of the settings latched at OPEN. -/
def State.settingsDigest (s : State) : Digest :=
  sha256 (leBytes 8 s.step.latchedScale.toNat ++
    (List.range 256).flatMap (fun i => leBytes 2 (smGet (0 : BitVec 16) s.step.latchedWindows i).toNat) ++
    (List.range 64).flatMap (fun i => leBytes 32 (smGet (0 : BitVec 256) s.step.latchedGroups i).toNat))

/-- One digest of the 24 chains of a kind. -/
def State.chainDigest (s : State) (f : PbState → Digest) : Digest :=
  sha256 ((List.range 24).flatMap (fun n => digestBytes (f (pbOf s n))))

/-- Members with a stream whose STATE is not complete (Table 10-6). -/
def State.lateCount (s : State) : Nat := ((s.lateEntries.map (·.1)).dedup).length

/-- The receipt's flags. -/
def State.receiptFlags (s : State) : Nat :=
  b2n s.step.suspect + 2 * b2n s.step.recomputed + 4 * b2n s.step.earlyAborted + 8 * b2n s.step.nfLocal +
    16 * b2n s.step.ovfBlock + 32 * b2n (decide (0 < s.lateCount)) + 64 * b2n s.step.nfReceived

/-- The phase record (Table 10-7). -/
def State.phaseRecord (s : State) : Bytes :=
  (List.range 7).flatMap (fun i =>
    let r := s.step.refires.getD i (0, 0)
    leBytes 8 (s.step.timer i).1.toNat ++ leBytes 8 (s.step.timer i).2.toNat ++ leBytes 4 r.1 ++ leBytes 4 r.2)

/-- First 8 bytes of SHA-256 of the public keys. -/
def keyIdBytes : Bytes := (digestBytes (sha256 (beBytes 32 Config.identityEd.toNat ++ Config.identityMl.toList))).take 8

/-- Bytes 0 to 567 of a receipt (Table 10-6); for a discarded attempt (`sealed` false) the fields known at OPEN and zeros. -/
def State.receiptBody (s : State) (isSealed : Bool) : Bytes :=
  let z (n : Nat) (b : Bytes) : Bytes := if isSealed then b else zeros n
  let outcome := if s.step.voteSkip then 2 else 1
  ([0x5A, 0x52, 0x43, 0x50] : Bytes) ++ leBytes 2 1 ++ leBytes 2 3949 ++ leBytes 8 s.step.current.stepNumber.toNat ++
    leBytes 2 s.boot.positionId.toNat ++ leBytes 1 (variantCode s.variant) ++ z 1 (leBytes 1 outcome) ++
    leBytes 4 (if isSealed then s.receiptFlags else 2 * b2n s.step.recomputed) ++ z 8 (leBytes 8 s.step.optCount.toNat) ++
    digestBytes s.step.current.programDigest ++ z 32 (digestBytes (s.chainDigest (·.weightChain))) ++
    z 32 (digestBytes s.step.batchDigest) ++ digestBytes (sha256 (digestBytes s.step.current.seeds)) ++
    digestBytes s.settingsDigest ++
    digestBytes (if isSealed ∧ ¬ s.step.voteSkip then s.pages.primary.before else s.pages.primary.after) ++
    z 32 (digestBytes s.pages.primary.after) ++ z 32 (digestBytes (s.chainDigest (·.outChain))) ++
    z 32 (digestBytes (s.chainDigest (·.sumChain))) ++ z 32 (digestBytes s.reduce.recordDigest) ++
    leBytes 16 s.step.openFieldMap ++ z 8 (leBytes 8 s.step.checksPassed.toNat) ++
    z 8 (leBytes 8 s.step.checksUnchecked.toNat) ++ leBytes 2 s.voters.length ++ z 2 (leBytes 2 s.lateCount) ++
    leBytes 1 s.step.lsExp ++ zeros 1 ++ leBytes 2 s.step.switchLayer ++ zeros 8 ++ z 168 s.phaseRecord

/-- "ZW1 step receipt" in ASCII. -/
def receiptContext : Bytes := [0x5A, 0x57, 0x31, 0x20, 0x73, 0x74, 0x65, 0x70, 0x20, 0x72, 0x65, 0x63, 0x65, 0x69, 0x70, 0x74]

/-- The signed receipt. -/
def State.receipt (s : State) : Bytes :=
  let m := s.receiptBody true ++ keyIdBytes
  m ++ beBytes 64 (Config.signEd m).toNat ++ (Config.signMl receiptContext m).toList

/-- The phase detail (Table 17-8); the sum of the TOUCH_WAIT totals, in cycles, is a free value (log entry 4). -/
def State.phaseDetail (s : State) (touch : Nat) : Bytes :=
  let t := s.step
  leBytes 8 t.current.stepNumber.toNat ++ leBytes 2 t.fillLast ++ leBytes 2 t.drainLast ++ leBytes 2 t.reduceLast.toNat ++
    leBytes 2 t.voteLast.toNat ++ leBytes 8 t.fillLastTime.toNat ++ leBytes 8 t.drainLastTime.toNat ++
    leBytes 8 t.reduceLastTime.toNat ++ leBytes 8 t.voteLastTime.toNat ++ leBytes 8 (s.power.stretchAcc / 440) ++
    leBytes 8 (touch % 2 ^ 64)

/-! ### Replay capture (R398, Table 17-9) -/

/-- A sparse run of 24-byte slots of the RUN objects' OPEN image. -/
def State.runImage (s : State) : Bytes :=
  (List.range 32768).flatMap (fun i =>
    let o := smGet ({} : SyncObj) s.sync.image i
    if o.isRun then leBytes 2 i ++ zeros 6 ++ leBytes 8 o.state.toNat ++ leBytes 8 o.base.toNat else zeros 24)

/-- Whether this module sums blocks of a group. -/
def State.sums (s : State) (g : Nat) : Bool :=
  (List.range 24).any (fun n => (s.pbProg n).sumMap.any (fun e => e.group == g))

/-- A field for each group and member this module sums; zeros elsewhere. -/
def State.perMember (s : State) (n : Nat) (f : Nat → Bytes) : Bytes :=
  (List.range 16).flatMap (fun g => (List.range 2048).flatMap (fun m =>
    if s.sums g && decide (m < (s.group g).members) then f (reduceKey g m) else zeros n))

/-- The capture image of the step as it has ended. -/
def State.captureImage (s : State) (outcome : Nat) (cause : Code) : Bytes :=
  let t := s.step
  let p := t.current
  ([0x5A, 0x52, 0x50, 0x4C] : Bytes) ++ leBytes 2 t.attempt ++ leBytes 1 outcome ++ zeros 1 ++ leBytes 2 cause.toNat ++ zeros 6 ++
    leBytes 8 (t.timer 0).1.toNat ++ leBytes 168 t.openRepairMap ++ s.receiptBody (outcome != 3) ++ zeros 3336 ++
    (leBytes 8 p.stepNumber.toNat ++ leBytes 4 p.flags.toNat ++ zeros 4 ++ digestBytes p.programDigest ++
      digestBytes p.seeds ++ (List.range 16).flatMap (fun i => leBytes 4 (p.slots.getD i 0).toNat)) ++ zeros 112 ++
    leBytes 8 t.latchedScale.toNat ++ zeros 248 ++
    (List.range 256).flatMap (fun i => leBytes 2 (smGet (0 : BitVec 16) t.latchedWindows i).toNat) ++
    (List.range 64).flatMap (fun i => leBytes 32 (smGet (0 : BitVec 256) t.latchedGroups i).toNat) ++
    (List.range 16).flatMap (fun i => match smGet none t.loss i with
      | some v => leBytes 4 v.toNat ++ leBytes 4 1
      | none => zeros 8) ++ zeros 896 ++
    fitTo 4096 ((s.sync.handSets.take 256).flatMap (fun h =>
      leBytes 2 h.obj ++ leBytes 1 h.action ++ zeros 5 ++ leBytes 8 h.value.toNat)) ++
    s.runImage ++ s.perMember 8 (fun k => leBytes 8 (recordOf s.reduce.records k).toNat) ++
    s.perMember 32 (fun k => digestBytes (streamHash s.reduce.firstImages k)) ++
    rdBytes s.host.batch (0x200000 * (p.stepNumber.toNat % 2)) 0x200000

/-- A step opened with REPLAY_CAPTURE is captured into the slot not written last. -/
def State.capture (s : State) (outcome : Nat) (cause : Code) : State :=
  let slot := match s.trace.captures with | c :: _ => 1 - c.slot | [] => 0
  if s.step.current.flags.getLsbD 1 then
    { s with trace := { s.trace with
        captures := ⟨s.step.current.stepNumber, s.step.attempt, outcome, cause, slot, s.captureImage outcome cause⟩ ::
          s.trace.captures.filter (fun c => c.slot ≠ slot) } }
  else s

/-! ### SEAL (R28, R251, R288, R363, R396) -/

/-- SEAL_END: the receipt has been signed and sent; the step number advances. After a Module-fatal code no receipt is made (R33). The
event carries severity Notice (log entry 11). -/
def execSealEnd (s : State) : Host.Outcome State Fault Refusal :=
  if s.step.phase ≠ .sealing ∨ s.arbiter.fatal.isSome then .next s
  else
    let s1 := s.endPhase .sealing
    let n := s1.step.current.stepNumber
    let outcome := if s1.step.voteSkip then 2 else 1
    let receipt := s1.receipt
    let d := (s1.capture outcome 0).draw
    let s2 := d.2.sendEvent { s1.mkEvent 3 0 1 moduleWide noCmd 0 0 with receipt := receipt }
    let s3 := { s2 with
      step := { s2.step with
        phase := .idle
        lastOutcome := outcome
        expected := n + 1
        committed := false
        seedRecord := s2.step.current.seeds
        receipts := ((n, receipt) :: s2.step.receipts.filter (fun x => x.1 ≠ n)).take 256
        details := ((n, s1.phaseDetail d.1.toNat) :: s2.step.details.filter (fun x => x.1 ≠ n)).take 256 }
      pages := { s2.pages with prior := [] }
      sync := { s2.sync.sealStep with
        handSets := []
        stepHandSet := false } }
    .next ((s3.retag.advanceParity n).beginRefresh n).boundary

/-! ### The course of a discard (R342 to R345) -/

/-- Precedence of a cause (Table 15-2). -/
def causeRank (c : Code) : Nat :=
  let n := c.toNat
  if n / 4096 = 7 then 1
  else if n = 0x4009 ∨ n = 0x400A then 2
  else if n / 4096 = 5 then 3
  else if n = 0x3004 then 4
  else 5

/-- Whether a latched code comes before another as the cause. -/
def Latched.before (a b : Latched) : Bool :=
  let ra := causeRank a.code
  let rb := causeRank b.code
  decide (ra < rb) || (ra == rb && (decide (a.time.toNat < b.time.toNat) ||
    (a.time == b.time && decide (a.place.site.toNat < b.place.site.toNat))))

/-- The cause among latched codes. -/
def chooseCause : List Latched → Option Latched
  | [] => none
  | a :: r => some (r.foldl (fun best x => if x.before best then x else best) a)

/-- CAUSE_WINDOW_CLOSE: 20 µs after the first code. -/
def execCauseWindowClose (s : State) : Host.Outcome State Fault Refusal :=
  if s.step.phase = .discarding ∧ s.arbiter.windowOpen ∧ s.arbiter.fatal.isNone then
    .next { s with arbiter := { s.arbiter with
      windowOpen := false
      cause := chooseCause s.arbiter.latched } }
  else .next s

/-- Row 6: what a discard releases. -/
def State.releaseStep (s : State) : State :=
  let s1 := s.releaseNext.mapTiles (fun t => { t.dropScratch with
    halted := true
    waiting := none
    touching := false })
  let s2 := (s1.pbs.map (·.1)).foldl (fun s n => (s.emptyIntake n).updPb n (fun p => { p with
    accs := []
    sumBuffer := []
    expected := []
    streams := []
    pendingSignals := []
    sentBytes := [] })) s1
  { s2 with
    sync := s2.sync.discard
    seam := { s2.seam with
      realigning := false }
    mesh := {}
    reduce := { s2.reduce with
      early := []
      outWait := []
      lateIn := []
      prevRecords := [] }
    step := { s2.step with committed := false }
    arbiter := { s2.arbiter with released := true } }

/-- REPEATS (R344). -/
def causeRepeats (l : Latched) : Bool :=
  [0x3101, 0x3102, 0x3103, 0x9002, 0x9006, 0x9008, 0x9009, 0x210A, 0x6001, 0x6002, 0x6003, 0x6004, 0x3010, 0x3011,
    0x2203].contains l.code.toNat || (l.code == 0x2303 && l.place.site == 0xFFF)

/-- STEP_DISCARDED's detail (Table 15-3). -/
def Arbiter.detail (a : Arbiter) (cause : Latched) : Nat :=
  let n := a.latched.length - 1
  b2n (causeRepeats cause) + 2 * b2n a.repaired + 4 * b2n a.fenced + 8 * b2n a.pagesLost + 16 * b2n (decide (0 < n)) +
    32 * b2n a.takeover + 256 * min n 255

/-- Rows 8 and 9: the event is sent, the step has ended, queued tests run. -/
def State.finishDiscard (s : State) : State :=
  match s.arbiter.cause with
  | none => s
  | some c =>
    let first := s.arbiter.latched.headD c
    let e := s.mkEvent 2 c.code 3 c.place noCmd (s.arbiter.detail c)
      (BitVec.ofNat 64 (first.code.toNat + 65536 * first.place.site.toNat))
    let s1 := (s.capture 3 c.code).sendEvent e
    ({ s1 with
      step := { s1.step with
        phase := .idle
        lastOutcome := 3
        expected := s1.step.current.stepNumber }
      arbiter := { s1.arbiter with
        latched := []
        cause := none
        released := false } }).boundary

/-- Pages of retained generations that failed through a budget: what R376 gives a lost page (R244). -/
def State.rescueFailed (s : State) : State :=
  s.arbiter.failedPages.foldl (fun s x => s.handleLost x.1 x.2 false) { s with arbiter := { s.arbiter with failedPages := [] } }

/-- Row 7: the repairs that the latched codes require, with what the tests of the dead tiles found; the module goes on with the copy
of the commit record that it trusts (R50). -/
def State.discardRepairs (s : State) (tests : List DeadTest) : State :=
  let bad := (tests.filter (fun t => !t.routerOk)).map (·.phys)
  let loam (p : Nat) : Bool := !tests.any (fun t => t.phys == p && !t.loamOk)
  let s1 := (s.writeRecord s.trusted).darkRepairs.rescueFailed
  let dead := s1.arbiter.deadTiles
  let s2 := dead.foldl (fun s p => s.repairTile p (loam p) bad dead) { s1 with arbiter := { s1.arbiter with deadTiles := [] } }
  let s3 := s2.setTakeovers
  let new := (List.range 24).any (fun n => (linkOf s3 n).takeover && !(linkOf s2 n).takeover)
  { s3 with arbiter := { s3.arbiter with takeover := s3.arbiter.takeover || new } }

/-- DISCARD_RELEASE (rows 6 to 8): the discard ends here unless copies of a column shift run. -/
def execDiscardRelease (tests : List DeadTest) (s : State) : Host.Outcome State Fault Refusal :=
  if s.step.phase ≠ .discarding ∨ s.arbiter.windowOpen ∨ s.arbiter.released ∨ s.arbiter.fatal.isSome then .next s
  else
    let s1 := s.releaseStep.discardRepairs tests
    .next (if s1.arbiter.copying.isEmpty then s1.finishDiscard else s1)

end Sys2Proof.Machine
end

