-- ==== Sys2Proof/Machine/Trace.lean ====
section
/-! DEFINITION. Sys2Proof/Machine/Trace.lean: time and peer offsets (R384, R385), the trace (R386 to R392), counter samples
(R395, R396), replay captures and the fatal dump as they are fetched (R398, R401 to R403), and the end of a fetch (R311). -/

namespace Sys2Proof.Machine

/-! ### Fetches (R311) -/

/-- A fetch command has been accepted: its data, or the status it will end with. -/
def State.startFetch (s0 : State) (o : Owed) (data : Bytes) (status : Code) : State :=
  let s := s0.wake
  { s with host := { s.host with fetches := s.host.fetches ++ [⟨o, data, status⟩] } }

/-- FETCH_COMPLETE: the oldest fetch ends; its data fills the session's RESULT (Table 13-3). -/
def execFetchComplete (s : State) : Host.Outcome State Fault Refusal :=
  match s.host.fetches with
  | [] => .next s
  | f :: r =>
    let s1 := { s with host := { s.host with fetches := r } }
    let s2 := if f.status = 0 then s1.updSession f.owed.session (fun x => { x with result := f.data }) else s1
    .next (s2.commandDone f.owed f.status)

/-! ### Peer offsets (R384, R385) -/

/-- A measurement begins: one entry for each other module of the vote group. -/
def State.beginOffsets (s : State) : State :=
  let peers := s.voters.filter (fun id => id ≠ s.boot.positionId.toNat)
  s.updTrace (fun t => { t with
    offsets := peers.map (fun id => { peer := BitVec.ofNat 16 id })
    offsetsTime := s.now })

/-- TIME_PROBE and TIME_REPLY bodies (Table 17-1). -/
def timeBody (m : TimeMsg) : Bytes :=
  leBytes 4 m.probeId.toNat ++ leBytes 1 m.index.toNat ++ zeros 3 ++ leBytes 8 m.t1.toNat ++ leBytes 8 m.t2.toNat ++
    leBytes 8 m.t3.toNat

/-- Send a CONTROL message straight on a link. -/
def State.sendOn (s : State) (n : Nat) (m : ZMsg) : State :=
  if s.boot.positionId = 0xFFFF then s
  else ({ s.updLink n (fun l => l.queue (channelOf m.type.toNat) (zMsgBytes s.boot.positionId m)) with
          zOut := (n, m) :: s.zOut }).flushLink n

def State.updOffset (s : State) (peer : BitVec 16) (f : PeerOffset → PeerOffset) : State :=
  s.updTrace (fun t => { t with offsets := t.offsets.map (fun x => if x.peer = peer then f x else x) })

/-- PEER_OFFSET_EXCHANGE: the next of the eight probes to a peer, over the lowest-numbered link in UP. -/
def execPeerOffsetExchange (peer : BitVec 16) (s : State) : Host.Outcome State Fault Refusal :=
  match s.trace.offsets.find? (fun x => x.peer == peer) with
  | none => .next s
  | some x =>
    if 8 ≤ x.sentIndex then .next s
    else
      let d := s.wake.draw
      let id := BitVec.ofNat 32 d.1.toNat
      let s1 := d.2.updOffset peer (fun y => { y with
        sentIndex := y.sentIndex + 1
        probes := y.probes ++ [(id, y.sentIndex)] })
      match (List.range 24).find? (fun n => (linkOf s1 n).state == .up) with
      | none => .next s1
      | some n => .next (s1.sendOn n ⟨peer, 0x40, BitVec.ofNat 8 n,
          timeBody ⟨peer, id, BitVec.ofNat 8 x.sentIndex, s.now, 0, 0⟩⟩)

/-- TIME_PROBE: the probe is stamped on arrival and answered over the link it came by. -/
def execTimeProbe (link : Nat) (m : TimeMsg) (s : State) : Host.Outcome State Fault Refusal :=
  onLink link s (fun l =>
    if !l.carries then s
    else s.wake.sendOn link ⟨m.peer, 0x41, BitVec.ofNat 8 link, timeBody { m with
      t2 := s.now
      t3 := s.now }⟩)

/-- Round trip and offset of an exchange. -/
def exchange (m : TimeMsg) (t4 : BitVec 64) : Int × Int :=
  let t1 : Int := m.t1.toNat
  let t2 : Int := m.t2.toNat
  let t3 : Int := m.t3.toNat
  let t4 : Int := t4.toNat
  ((t4 - t1) - (t3 - t2), Int.tdiv ((t2 - t1) + (t3 - t4)) 2)

/-- TIME_REPLY: the exchange with the smallest round trip is kept, the earliest of several equal. -/
def execTimeReply (link : Nat) (m : TimeMsg) (s : State) : Host.Outcome State Fault Refusal :=
  onLink link s (fun l =>
    if !l.carries then s
    else
      let e := exchange m s.now
      s.wake.updOffset m.peer (fun x =>
        if x.probes.contains (m.probeId, m.index.toNat) then
          { x with
            probes := x.probes.filter (fun p => p.1 ≠ m.probeId)
            best := match x.best with
              | some b => if e.1 < b.1 then some e else some b
              | none => some e }
        else x))

/-- TIME_PROBE_TIMEOUT: an exchange not answered within 1 ms leaves its peer recorded as absent. -/
def execTimeProbeTimeout (peer : BitVec 16) (index : BitVec 8) (s : State) : Host.Outcome State Fault Refusal :=
  .next (s.updOffset peer (fun x =>
    if x.probes.any (fun p => p.2 == index.toNat) then
      { x with
        probes := x.probes.filter (fun p => p.2 ≠ index.toNat)
        absent := true }
    else x))

/-- PTP_SYNC: the map between time-stamps and PTP time. -/
def execPtpSync (time : PtpTime) (rate : BitVec 32) (net : Net) (s : State) :
    Host.Outcome State Fault Refusal :=
  if netOk net ∧ s.boot.firmwareRuns then
    .next (s.updTrace (fun t => { t with
      tsRef := s.now
      ptpSeconds := time.seconds
      ptpNanoseconds := time.nanoseconds
      ptpRate := rate }))
  else .next s

/-! ### Trace rings (R386 to R391) -/

/-- TRACE: a record from a port block reaches the module ring. -/
def execTrace (r : TraceRec) (s : State) : Host.Outcome State Fault Refusal :=
  .next (if s.boot.firmwareRuns then s.traceTo moduleRing r else s)

/-- Every ring of the module: the tiles' and the module ring. -/
def State.allRings (s : State) : List Nat := (List.range 2689).filter (fun k => decide (0 < ringCapacity s k))

/-- TRACE_CONFIG fails with 0x1004 for a reserved code or a value out of range (R389, Table 17-4). -/
def traceCfgInvalid (c : TraceCfg) : Bool :=
  decide (983039 < c.postCount.toNat) || decide (3 < c.trigger.toNat) || decide (8 < c.phase.toNat)

/-- Arm every ring (TRACE_CONFIG actions 0 and 2); action 2 empties them first. The peer offsets are measured again. -/
def State.armTrace (s : State) (c : TraceCfg) (empty : Bool) : State :=
  let armed (r : Ring) : Ring := { state := 0, general := if empty then [] else r.general }
  let s1 := s.updTrace (fun t => { t with
    config := some c
    armed := true
    fired := none
    rings := s.allRings.foldl (fun m k => smUpd {} k armed m) t.rings })
  s1.beginOffsets

/-- Disarm and freeze every ring (action 1). -/
def State.disarmTrace (s : State) : State := s.freezeRings

/-- The TRIGGER record of a ring. -/
def triggerRec (s : State) (k : Nat) (m : BitVec 64 × BitVec 12) (c : TraceCfg) : TraceRec :=
  ⟨m.1, noCmd, 0x0B, true, if k = moduleRing then 0xF00 else BitVec.ofNat 12 k, low32 s.step.number,
    BitVec.ofNat 64 (m.2.toNat + 2 ^ 12 * (c.trigger.toNat % 16))⟩

/-- TRACE_TRIGGER: the broadcast reaches a ring, which writes its TRIGGER record; what it has written since the match counts
among its post_count. -/
def execTraceTrigger (ring : Nat) (s : State) : Host.Outcome State Fault Refusal :=
  if moduleRing < ring then .next s
  else
    let cap := ringCapacity s ring
    let r := ringAt s ring
    match s.trace.config, s.trace.fired with
    | some c, some m =>
      if cap = 0 ∨ r.state ≠ 0 ∨ !s.trace.armed then .next s
      else
        let post := min c.postCount.toNat (15 * cap / 16 - 1)
        .next (s.setRing ring { r.append cap (triggerRec s ring m c) with
          state := 1
          postLeft := post - r.since
          since := 0 })
    | _, _ => .next s

/-- TRACE_FREEZE: a ring that has written its post_count freezes. -/
def execTraceFreeze (ring : Nat) (s : State) : Host.Outcome State Fault Refusal :=
  if moduleRing < ring then .next s
  else
    let r := ringAt s ring
    .next (if r.state = 1 ∧ r.postLeft = 0 then s.setRing ring { r with state := 2 } else s)

/-! ### Fetching a trace (R392, Table 17-5) -/

def recBytes (x : TraceRec) : Bytes :=
  leBytes 8 x.time.toNat ++ leBytes 8 x.cid.toNat ++ leBytes 1 x.kind.toNat ++ leBytes 1 (b2n x.keep) ++
    leBytes 2 x.site.toNat ++ leBytes 4 x.stepLow.toNat ++ leBytes 8 x.data.toNat

/-- Rill code under which a ring is shown. -/
def ringSite (k : Nat) : Nat := if k = moduleRing then 0xF00 else k

/-- The drop summary in a ring's last slot (R391). -/
def Ring.summary (k : Nat) (r : Ring) : List TraceRec :=
  if r.dropped = 0 then []
  else [⟨r.dropTime, noCmd, 0x0C, true, BitVec.ofNat 12 (ringSite k), r.dropStep,
    BitVec.ofNat 64 (r.dropped + 2 ^ 32 * r.dropKinds.toNat)⟩]

/-- A section of the output: ring header, general part, reserve and summary. -/
def Ring.section (k : Nat) (r : Ring) : Bytes :=
  let res := r.reserve ++ r.summary k
  leBytes 2 (ringSite k) ++ leBytes 1 r.state ++ zeros 5 ++ leBytes 4 r.general.length ++ leBytes 4 res.length ++
    leBytes 4 0 ++ zeros 12 ++ (r.general ++ res).flatMap recBytes

/-- The trace header. -/
def State.traceHeader (s : State) : Bytes :=
  let t := s.trace
  let m := t.fired.getD (0xFFFFFFFFFFFFFFFF, 0)
  ([0x5A, 0x54, 0x52, 0x43] : Bytes) ++ leBytes 2 s.boot.positionId.toNat ++ leBytes 2 t.offsets.length ++
    leBytes 8 s.now.toNat ++ leBytes 8 m.1.toNat ++ leBytes 2 m.2.toNat ++ zeros 6 ++ leBytes 8 t.tsRef.toNat ++
    leBytes 8 t.ptpSeconds.toNat ++ leBytes 8 (t.ptpNanoseconds.toNat + 2 ^ 32 * t.ptpRate.toNat) ++
    leBytes 8 t.offsetsTime.toNat ++
    t.offsets.flatMap (fun x =>
      let e := if x.absent then (0xFFFFFFFF, 0) else x.best.getD (0xFFFFFFFF, 0)
      leBytes 2 x.peer.toNat ++ zeros 2 ++ leBytes 4 (patternOf 32 e.1) ++ leBytes 8 (patternOf 64 e.2))

/-- TRACE_FETCH's output; none when its range or its size is out of bounds. -/
def State.traceData (s : State) (first count : Nat) (withModule : Bool) : Option Bytes :=
  let tiles := ((List.range count).map (fun i => physOf s.repair (first + i))).filter (fun p =>
    decide (0 < ringCapacity s p) && fieldState s.repair (fieldOfPhys p) != 2)
  let out := s.traceHeader ++ ((if withModule then [moduleRing] else []) ++ tiles).flatMap (fun k =>
    (ringAt s k).section k)
  if logicalTiles < first + count ∨ 2 ^ 30 < out.length then none else some out

/-! ### Counters (R393 to R396) -/

/-- Counters whose values the model does not compute: cycles and Loam bytes (log entry 4). -/
def freeCounters : List Nat := [0, 1, 3, 4, 5, 6, 7, 8, 9, 10, 11]

/-- One counter sample entry (Table 17-7). -/
def counterEntry (s : State) (c : Counter) (i : Nat) : State × Bytes :=
  let shadow := c.runningId.isSome && c.startedAt == s.now
  let idle := !s.step.inProgress || c.runningId.isNone
  let a := s.draw
  let b := a.2.draw
  let free := freeCounters.contains i
  let value := if free then a.1.toNat % 2 ^ 64 else if shadow then c.shadow.toNat else c.live.toNat
  let total := if free then b.1.toNat % 2 ^ 64 else c.total.toNat
  let id := if shadow then c.shadowId else if idle then noCmd else c.runningId.getD noCmd
  (if free then b.2 else s,
    leBytes 1 i ++ leBytes 1 (b2n shadow + 2 * b2n (idle && !shadow)) ++ zeros 6 ++ leBytes 8 value ++
      leBytes 8 id.toNat ++ leBytes 8 total)

/-- A tile's samples: its header and an entry for each counter in the mask. -/
def State.sampleTile (s : State) (t : Nat) (mask : BitVec 16) : State × Bytes :=
  let p := physOf s.repair t
  let r := ((List.range 16).filter mask.getLsbD).foldl (fun (r : State × Bytes) i =>
    let e := counterEntry r.1 (smGet ({} : Counter) (tileOf r.1 p).counters i) i
    (e.1, r.2 ++ e.2)) (s, [])
  (r.1, leBytes 2 t ++ leBytes 2 p ++ zeros 4 ++ leBytes 8 s.now.toNat ++ r.2)

/-- COUNTER_READ with selector 0 fails with 0x1004 (R395). -/
def counterReadInvalid (s : State) (first count : Nat) (time : BitVec 64) : Bool :=
  decide (count < 1) || decide (logicalTiles < first + count) ||
    (time != 0 && decide (s.now.toNat + 1100000000 < time.toNat))

/-- The samples are set for their moment; tiles of dark fields are left out. -/
def State.startSampling (s0 : State) (o : Owed) (mask : BitVec 16) (first count : Nat) (time : BitVec 64) : State :=
  let s := s0.wake
  let tiles := ((List.range count).map (first + ·)).filter (fun t => fieldState s.repair (fieldOfLogical t) != 2)
  if tiles.isEmpty then s.startFetch o [] 0
  else { s with host := { s.host with
      samplings := s.host.samplings ++ [⟨o, mask, tiles, if time = 0 then s.now + 22000 else time, []⟩] } }

/-- COUNTER_SAMPLE: a tile whose copy has reached the sample time takes its samples; after the last, the output is
gathered. -/
def execCounterSample (tile : Nat) (s : State) : Host.Outcome State Fault Refusal :=
  if logicalTiles ≤ tile then .next s
  else
    let due (x : Sampling) : Bool := x.tiles.contains tile && decide (x.time.toNat ≤ s.now.toNat)
    match s.host.samplings.find? due with
    | none => .next s
    | some x =>
      let r := s.sampleTile tile x.mask
      let y : Sampling := { x with
        tiles := x.tiles.filter (· ≠ tile)
        got := smPut [] tile r.2 x.got }
      let others := s.host.samplings.eraseP due
      if y.tiles.isEmpty then
        .next ({ r.1 with host := { r.1.host with samplings := others } }.startFetch x.owed (y.got.flatMap (fun (g : Nat × Bytes) => g.2)) 0)
      else
        .next { r.1 with host := { r.1.host with
          samplings := r.1.host.samplings.map (fun z => if z = x then y else z) } }

/-- COUNTER_READ with selector 1: the phase details, oldest first; all ones for a step that has none (R396). -/
def State.phaseDetails (s : State) (first : BitVec 64) (count : Nat) : Bytes :=
  (List.range count).flatMap (fun i =>
    match s.step.details.find? (fun x => x.1 == first + BitVec.ofNat 64 i) with
    | some x => x.2
    | none => leBytes 8 (2 ^ 64 - 1) ++ zeros 56)

/-! ### Replay captures (R398) -/

def State.captureOf (s : State) (step : BitVec 64) (attempt : Nat) : Option Capture :=
  s.trace.captures.find? (fun c => c.step == step && c.attempt == attempt)

/-! ### Link status (Table 11-11) -/

def LinkState.code : LinkState → Nat
  | .off => 0 | .train => 1 | .up => 2 | .upSwap => 3 | .up3 => 4 | .down => 5 | .disabled => 6 | .absent => 7

/-- A link status register. -/
def State.linkStatus (s : State) (n : Nat) : Nat :=
  let l := linkOf s n
  l.state.code + 8 * l.lanes.toNat + 2 ^ 8 * b2n l.peerStore + 2 ^ 9 * b2n l.takeover + 2 ^ 10 * b2n l.takenOver +
    2 ^ 11 * b2n l.miswired + 2 ^ 16 * l.peerId.toNat + 2 ^ 32 * l.replays.toNat +
    2 ^ 48 * (pbOf s n).pendingSignals.length

/-! ### The fatal dump (R359, R401 to R403) -/

/-- `n` bytes whose contents the manual does not give. -/
def freeBytes (counter n : Nat) : Bytes := (List.range n).map (Config.dumpByte counter)

/-- The loss table as LOSS_READ and the dump give it (Table 17-9). -/
def Step.lossBytes (t : Step) : Bytes :=
  (List.range 16).flatMap (fun i => match smGet none t.loss i with
    | some v => leBytes 4 v.toNat ++ leBytes 4 1
    | none => zeros 8)

/-- The module registers of the Kellet part, in the order R401 lists them. -/
def State.registerBytes (s : State) : Bytes :=
  leBytes 4 s.step.status.toNat ++ s.step.lossBytes ++ leBytes 8 s.step.lossScale.toNat ++ leBytes 8 s.power.clockStatus ++
    leBytes 8 s.seamStatus ++ leBytes 16 s.survivalStatus ++ (List.range 24).flatMap (fun n => leBytes 8 (s.linkStatus n))

/-- An entry of the sync engine's table in Kellet SRAM (Table 2-8). -/
def syncEntry (y : Sync) (i : Nat) : Bytes :=
  let o := objOf y i
  leBytes 8 o.config.toNat ++ leBytes 8 o.state.toNat ++ leBytes 8 o.base.toNat ++ leBytes 8 o.last.toNat

/-- The 8 MiB of Kellet SRAM (Table 2-8); its last 512 KiB are free. -/
def State.sramBytes (s : State) (counter : Nat) : Bytes :=
  let r := ringAt s moduleRing
  let part (n : Nat) (l : List TraceRec) : Bytes := fitTo n (l.flatMap recBytes)
  fitTo 0x600000 s.boot.body ++ part (15 * 0x8000) r.general ++ part (0x8000 - 32) r.reserve ++
    part 32 (r.summary moduleRing) ++ (List.range 32768).flatMap (syncEntry s.sync) ++ freeBytes counter 0x80000

/-- The Kellet part without its index: registers, receipts and SRAM. -/
def State.kelletPart (s : State) (counter : Nat) : Bytes :=
  fitTo 0xF000 s.registerBytes ++ fitTo 0x100000 (s.step.receipts.reverse.flatMap (fun x => fitTo 4096 x.2)) ++
    s.sramBytes counter

/-- Index code of a physical tile (Table 17-10): 1 dark, 2 dead, else what the tile did. -/
def State.dumpCode (s : State) (absent : List (Nat × BitVec 8)) (p : Nat) : Nat :=
  if fieldState s.repair (fieldOfPhys p) = 2 then 1
  else if (tileOf s p).dead then 2
  else match absent.find? (fun x => x.1 == p) with
    | some x => if x.2 = 4 then 4 else 3
    | none => 0

/-- The dump index. -/
def State.dumpIndexBytes (s : State) (absent : List (Nat × BitVec 8)) (flash : Bool) : Bytes :=
  let a := s.arbiter
  ([0x5A, 0x44, 0x4D, 0x50] : Bytes) ++ leBytes 2 1 ++ leBytes 2 s.boot.positionId.toNat ++ leBytes 8 a.fatalTime.toNat ++
    leBytes 2 (a.fatal.getD 0).toNat ++ leBytes 2 a.secondFatal.toNat ++
    leBytes 1 (b2n (s.power.halfUnlocked s.repair 0 || s.power.halfUnlocked s.repair 1) + 2 * b2n flash) ++
    leBytes 1 a.fatalPhase.code ++ zeros 2 ++ leBytes 8 s.step.number.toNat ++ leBytes 8 s.now.toNat ++
    digestBytes s.prog.digest ++ leBytes 16 (fieldMapValue s.repair) ++ leBytes 168 (repairMapValue s.repair) ++
    ((List.range physicalTiles).map (fun p => BitVec.ofNat 8 (s.dumpCode absent p))) ++ s.pages.primary.bytes ++
    s.pages.second.bytes ++ zeros 896

/-- Where a tile part shows a tile-local address (Table 17-11): the tile memory and the Sieve cells as they lie, the transposing
buffer and the palette tables behind the canvases. -/
def partOffset (a : Nat) : Option Nat :=
  if a < bufferBase then some a
  else if a < bufferBase + 0x10000 then some (0x1180000 + (a - bufferBase))
  else if paletteBase ≤ a ∧ a < paletteBase + 0x10000 then some (0x1190000 + (a - paletteBase))
  else none

/-- The lines of a tile part that fail their check codes as they are read, by their 32-byte line of the part (R402, log entry
112). -/
def State.badLines (s : State) (p : Nat) : List Nat :=
  s.checks.filterMap (fun x => if x.1 / 2 ^ 40 = p then (partOffset (x.1 % 2 ^ 40)).map (· / 32) else none)

/-- A tile header (Table 17-11); no command runs between commands. -/
def State.tileHeader (s : State) (p : Nat) : Bytes :=
  leBytes 2 p ++ leBytes 2 ((logicalOf s.repair p).getD 0xFFFF) ++ leBytes 4 (s.badLines p).length ++
    leBytes 8 s.arbiter.fatalTime.toNat ++ leBytes 8 noCmd.toNat ++ leBytes 8 noCmd.toNat ++ leBytes 8 noCmd.toNat ++
    leBytes 4 (64 * (tileOf s p).issued) ++ zeros 4 ++ fitTo 4048 (((s.badLines p).take 1008).flatMap (leBytes 4))

/-- A checksum and magnitude pair as the dump holds it (log entry 112). -/
def pairWords (x : Pair) : Bytes := leBytes 8 x.1.toNat ++ leBytes 8 x.2.toNat

/-- The margin state and the run state of a Sieve part as the dump holds them (R137, log entry 112). -/
def SieveRun.image (r : SieveRun) : Bytes :=
  ((List.range 128).flatMap (fun k => pairWords (pairOf r.marginRow k))) ++ pairWords r.corner ++
    leBytes 1 (b2n r.isOpen + 2 * b2n r.halves + 4 * b2n r.ovf + 8 * b2n r.nan) ++ leBytes 1 r.smode ++ leBytes 1 r.nMinus1 ++
    leBytes 1 r.rowsUsed ++ leBytes 4 r.plateRow0 ++ leBytes 8 r.kDone

/-- The last 64 KiB before a tile's header: the check column, then the margin, corner and run state of both Sieve parts. -/
def Tile.sieveImage (t : Tile) : Bytes :=
  fitTo 0x10000 ((List.range 2048).flatMap (fun i => pairWords (pairOf t.sieveCheck i)) ++ t.sieve0.image ++ t.sieve1.image)

/-- A tile part. -/
def State.tilePart (s : State) (p counter : Nat) : Bytes :=
  let t := tileOf s p
  tileRead s p 0 0x1000000 ++ tileRead s p sieveBase 0x100000 ++ fitTo 0x40000 (canvasImage t.canvasA) ++
    fitTo 0x40000 (canvasImage t.canvasB) ++ tileRead s p bufferBase 0x10000 ++ tileRead s p paletteBase 0x10000 ++
    freeBytes counter 0x10000 ++ t.sieveImage ++ s.tileHeader p ++ zeros 258048

/-- What a fetch of a part of the dump answers: the data and 0, or 0x1004 when the dump lacks it. The index, the Kellet
part and the sync dump come from module flash when the Loam holds none (R361). -/
def State.dumpPart (s : State) (part first count : Nat) : Bytes × Code :=
  let flash := s.trace.flashDump.getD ([], [], [])
  let index := if s.trace.dumpIndex = [] then flash.1 else s.trace.dumpIndex
  let orGone (b : Bytes) : Bytes × Code := if b = [] then ([], 0x1004) else (b, 0)
  match part with
  | 0 => orGone index
  | 1 => orGone (if s.trace.dumpKellet = [] then flash.2.1 else s.trace.dumpKellet)
  | 2 => orGone (match s.sync.dump with | some d => d.2 | none => flash.2.2)
  | 3 => orGone s.power.powerRecord
  | _ =>
    if s.trace.dumpIndex = [] then ([], 0x1004)
    else ((List.range count).flatMap (fun i =>
      let p := first + i
      let b := smGet [] s.trace.dumpTiles p
      if b = [] then leBytes 2 p ++ zeros 4094 else b), 0)

end Sys2Proof.Machine
end

