-- ==== Sys2Proof/Machine/Boot.lean ====
section
/-! DEFINITION. Sys2Proof/Machine/Boot.lean: the ports while no firmware runs (R404, R408), the boot sequence (R405 to R408), the
provisioning record and the firmware floor (R411 to R414), region starts that fail (R339), and attestation (R416, R417). -/

namespace Sys2Proof.Machine

def State.updBoot (s : State) (f : Boot → Boot) : State := { s with boot := f s.boot }

/-! ### The ports (R297, R404, R408) -/

def portIndex : Port → Nat
  | .eth0 => 0 | .eth1 => 1 | .service => 2

/-- A port has power: the service port with the warden, the data ports with the edge region (Table 13-1). -/
def State.portUp (s : State) (port : Port) : Bool :=
  match port with
  | .service => s.power.wardenOn
  | _ => (regionOf s.power edgeRegion).state == .active

/-- ICMP_ECHO: an echo request is answered. -/
def execIcmpEcho (p : Packet) (data : Bytes) (s : State) : Host.Outcome State Fault Refusal :=
  .next (if netOk p.net ∧ s.portUp p.port then s.sendHost (.icmpReply p.port data) else s)

/-- The leased address of a port; 0 when it has none. -/
def State.lease (s : State) (port : Port) : BitVec 128 := smGet 0 s.host.leases (portIndex port)

/-- ARP and neighbour discovery: a request for an address of the port is answered. -/
def execArp (p : Packet) (target : BitVec 128) (s : State) : Host.Outcome State Fault Refusal :=
  let mine := (s.lease p.port ≠ 0 ∧ target = s.lease p.port) ∨ target = Config.linkLocal (portIndex p.port)
  .next (if netOk p.net ∧ s.portUp p.port ∧ mine then s.sendHost (.arpReply p.port target) else s)

/-- LEASE_RENEWAL: the port's DHCP or DHCPv6 lease. -/
def execLeaseRenewal (port : Port) (address : BitVec 128) (s : State) : Host.Outcome State Fault Refusal :=
  if s.portUp port then
    .next ({ s with host := { s.host with leases := smPut 0 (portIndex port) address s.host.leases } }.sendHost
      (.leaseRequest port))
  else .next s

/-! ### The course of an attempt (R407, R408) -/

/-- Bytes of a boot log entry in a STATUS reply. -/
def BootLog.bytes (b : BootLog) : Bytes :=
  leBytes 8 b.time.toNat ++ leBytes 2 b.status.toNat ++ leBytes 1 b.stage ++ leBytes 1 (portIndex b.port)

/-- STATUS (R408): the warden's answer while the module is DORMANT. -/
def execStatus (s : State) : Host.Outcome State Fault Refusal :=
  if s.power.wardenOn ∧ s.power.state = .dormant then
    .next (s.sendHost (.wardenReply (leBytes 1 s.power.state.code ++ leBytes 4 s.boot.attempts ++
      leBytes 16 Config.serial.toNat ++ keyIdBytes ++ s.boot.log.flatMap BootLog.bytes)))
  else .next s

/-- Stage 1 begins. -/
def State.startAttempt (s : State) : State :=
  s.updBoot (fun b => { b with
    stage := 1
    attempts := b.attempts + 1
    port := .service
    waiting := none
    header := []
    body := [] })

/-- Whether an attempt may begin: the warden has power, the module is DORMANT, and none is running. -/
def State.canAttempt (s : State) : Bool := s.power.wardenOn && s.power.state == .dormant && s.boot.stage == 0

/-- An attempt's outcome enters the boot log of 16. -/
def Boot.note (b : Boot) (e : BootLog) : Boot :=
  { b with
    log := (b.log ++ [e]).drop (b.log.length + 1 - 16)
    unraised := if e.status = 0 then b.unraised else (b.unraised ++ [e]).drop (b.unraised.length + 1 - 16) }

/-- A stage fails: the attempt ends, the edge region is switched off, the module is DORMANT and the retry wait runs. -/
def State.attemptFails (s : State) (status : Code) (stage : Nat) : State :=
  let b := s.boot.note ⟨s.now, status, stage, s.boot.port⟩
  { s with
    boot := { b with
      stage := 0
      header := []
      body := []
      queued := []
      waiting := some b.wait
      wait := min 64 (2 * b.wait) }
    power := { s.power.updRegion edgeRegion (·.enter .off) with state := .dormant } }

/-- WARDEN_POWER_ON (R328): the time-stamp counter starts at 0, and the cycles counted before it stay in the age that the history is
kept by (R250); the module is DORMANT. -/
def execWardenPowerOn (s : State) : Host.Outcome State Fault Refusal :=
  if s.power.wardenOn then .next s
  else .next { s with
    now := 0
    repair := { s.repair with age := s.age }
    power := { s.power with
      wardenOn := true
      state := .dormant } }

/-- Stage 2 (R407): the edge region is brought up as soon as the input carries regions, which it need not do yet when BOOT_NOW
began the attempt (R320). -/
def State.startEdge (s : State) : State :=
  if s.boot.stage = 2 ∧ s.power.inputReady ∧ (regionOf s.power edgeRegion).state = .off then
    s.updPower (·.updRegion edgeRegion (·.enter .ramp))
  else s

/-- INPUT_START (R320): regions may be started, and a boot attempt begins; one that waits in stage 2 goes on. -/
def execInputStart (s : State) : Host.Outcome State Fault Refusal :=
  if !s.power.wardenOn then .next s
  else
    let s1 := s.updPower (fun w => { w with
      inputReady := true
      inputMv := max w.inputMv 48000 })
    .next (if s1.canAttempt then s1.startAttempt else s1.startEdge)

/-- BOOT_ATTEMPT (R407): an attempt begins once the input allows and no retry wait runs. -/
def execBootAttempt (s : State) : Host.Outcome State Fault Refusal :=
  .next (if s.canAttempt ∧ s.power.inputReady ∧ s.boot.waiting = none then s.startAttempt else s)

/-- BOOT_NOW (R408): the next attempt starts at once; ignored during an attempt. -/
def execBootNow (s : State) : Host.Outcome State Fault Refusal := .next (if s.canAttempt then s.startAttempt else s)

/-- BOOT_RETRY_WAIT (R408): the retry wait expires. -/
def execBootRetryWait (s : State) : Host.Outcome State Fault Refusal :=
  .next (if s.canAttempt ∧ s.power.inputReady ∧ s.boot.waiting ≠ none then s.startAttempt else s)

/-- FW_FETCH (R407): a data port without a lease gives way to the next port; any other failed fetch ends the attempt with
0x8005. -/
def execFwFetch (why : FetchFail) (port : Port) (s : State) : Host.Outcome State Fault Refusal :=
  if s.boot.stage = 3 ∧ why = .noLease then
    if port = s.boot.port ∧ port = .eth0 then .next (s.updBoot (fun b => { b with port := .eth1 }))
    else if port = s.boot.port ∧ port = .eth1 then .next (s.updBoot (fun b => { b with port := .service }))
    else .next s
  else if s.boot.stage = 1 ∨ s.boot.stage = 3 ∨ s.boot.stage = 5 then .next (s.attemptFails 0x8005 s.boot.stage)
  else .next s

/-! ### Signatures and records (R405, R406, R411 to R414) -/

/-- SHA-256 of an Ed25519 public key followed by an ML-DSA-65 public key: a digest in the boot ROM. -/
def keyDigest (ed ml : Bytes) : Digest := sha256 (ed ++ ml)

/-- Both signatures of a message verify; `ed` and `ml` are public keys as stored. -/
def bothVerify (context ed ml message sigEd sigMl : Bytes) : Bool :=
  Config.verifyEd (BitVec.ofNat 256 (ofBE ed)) message (BitVec.ofNat 512 (ofBE sigEd)) &&
    Config.verifyMl ml context message sigMl

/-- "ZW1 firmware" in ASCII. -/
def firmwareContext : Bytes := [0x5A, 0x57, 0x31, 0x20, 0x66, 0x69, 0x72, 0x6D, 0x77, 0x61, 0x72, 0x65]
/-- "ZW1 provisioning record" in ASCII. -/
def recordContext : Bytes :=
  [0x5A, 0x57, 0x31, 0x20, 0x70, 0x72, 0x6F, 0x76, 0x69, 0x73, 0x69, 0x6F, 0x6E, 0x69, 0x6E, 0x67, 0x20, 0x72, 0x65, 0x63, 0x6F,
    0x72, 0x64]
/-- "ZW1 attestation" in ASCII. -/
def attestContext : Bytes := [0x5A, 0x57, 0x31, 0x20, 0x61, 0x74, 0x74, 0x65, 0x73, 0x74, 0x61, 0x74, 0x69, 0x6F, 0x6E]

/-- Bytes `off` to `off + n - 1`. -/
def cut (b : Bytes) (off n : Nat) : Bytes := (b.drop off).take n

def recordBytesTotal : Nat := 37421

/-- A record is signed correctly under a pair of keys. -/
def recordSigned (r ed ml : Bytes) : Bool :=
  bothVerify recordContext ed ml (cut r 0 34048) (cut r 34048 64) (cut r 34112 3309)

/-- A record verifies: under the owner keys of `other`, or under the Rinhild provisioning keys (R412, R413). -/
def recordVerifies (r other : Bytes) : Bool :=
  r.length == recordBytesTotal && cut r 0 4 == [0x5A, 0x50, 0x52, 0x43] && fieldAt r 4 2 == 1 &&
  (match fieldAt r 51 1 with
   | 0 => other.length == recordBytesTotal && recordSigned r (cut other 64 32) (cut other 96 1952)
   | 1 => recordSigned r (beBytes 32 Config.provisioningEd.toNat) Config.provisioningMl.toList
   | _ => false)

/-- The record in force among the two copies, none when neither verifies; true when it is copy B (R413). -/
def Boot.choose (b : Boot) : Option (Bytes × Bool) :=
  let a := recordVerifies b.copyA b.copyB
  let c := recordVerifies b.copyB b.copyA
  if a && (!c || decide (fieldAt b.copyB 8 4 ≤ fieldAt b.copyA 8 4)) then some (b.copyA, false)
  else if c then some (b.copyB, true) else none

/-- A host key entry of an offered record: its reserved bits are zero and its key_id agrees with its keys; an unused entry is
zero. -/
def keyEntryOk (r : Bytes) (i : Nat) : Bool :=
  let e := cut r (2048 + 2000 * i) 2000
  if i < fieldAt r 6 2 then
    decide (fieldAt e 8 1 < 4) && fieldAt e 9 7 == 0 && cut e 0 8 == (digestBytes (sha256 (cut e 16 1984))).take 8
  else fieldAt e 0 2000 == 0

/-- Whether an offered record is installed, against the record in force (R412). -/
def recordAccepted (r : Bytes) (current : Option Bytes) : Bool :=
  r.length == recordBytesTotal && decide (fieldAt r 6 2 ≤ 16) && fieldAt r 52 12 == 0 && decide (fieldAt r 40 8 < 8) &&
    decide (fieldAt r 50 1 < 16) && cut r 32 8 == keyIdBytes && (List.range 16).all (keyEntryOk r) &&
    decide ((current.map (fun c => fieldAt c 8 4)).getD 0 < fieldAt r 8 4) && recordVerifies r (current.getD [])

/-- Install an accepted record (R413, R414): the floor first, then the copy that does not hold the record in force. -/
def Boot.install (b : Boot) (r : Bytes) : Boot :=
  let inB := match b.choose with | some c => c.2 | none => true
  let b1 := { b with
    floorVersion := if b.floorVersion.toNat < fieldAt r 12 4 then BitVec.ofNat 32 (fieldAt r 12 4) else b.floorVersion
    floorRevoked := b.floorRevoked ||| BitVec.ofNat 4 (fieldAt r 50 1)
    queued := b.queued ++ [0x800A] }
  if inB then { b1 with copyA := r } else { b1 with copyB := r }

/-- Whether a firmware key slot is revoked by a record or by the floor. -/
def Boot.revoked (b : Boot) (record : Option Bytes) (slot : Nat) : Bool :=
  b.floorRevoked.getLsbD slot || (match record with | some r => bitOf (fieldAt r 50 1) slot | none => false)

/-- The status with which stage 1 refuses a header: 0x8002 for its key slot, 0x8001 for its form or a signature (R406). -/
def Boot.headerRefused (b : Boot) (h : Bytes) : Option Code :=
  let slot := fieldAt h 6 1
  let n := fieldAt h 12 4
  if 4 ≤ slot ∨ keyDigest (cut h 48 32) (cut h 80 1952) ≠ Config.romKey slot ∨
      b.revoked (b.choose.map (fun (c : Bytes × Bool) => c.1)) slot then some 0x8002
  else if h.length ≠ 5421 ∨ cut h 0 4 ≠ [0x5A, 0x46, 0x57, 0x49] ∨ fieldAt h 4 2 ≠ 1 ∨ fieldAt h 7 1 ≠ 0 ∨
      fieldAt h 2032 16 ≠ 0 ∨ n % 4096 ≠ 0 ∨ n < 4096 ∨ 6291456 < n ∨
      !bothVerify firmwareContext (cut h 48 32) (cut h 80 1952) (cut h 0 2048) (cut h 2048 64) (cut h 2112 3309) then
    some 0x8001
  else none

/-! ### The stages (Table 18-3) -/

/-- BOOT_HEADER_FETCHED: stage 1 ends; the edge region is started once the header is accepted. -/
def execBootHeaderFetched (h : FwHeader) (port : Port) (s : State) : Host.Outcome State Fault Refusal :=
  if s.boot.stage ≠ 1 ∨ port ≠ .service then .next s
  else match s.boot.headerRefused h.bytes with
    | some c => .next (s.attemptFails c 1)
    | none => .next (s.updBoot (fun b => { b with
        stage := 2
        header := h.bytes })).startEdge

/-- EDGE_REGION_ACTIVE: stage 2 ends and the body is fetched, first over ETH0. -/
def execEdgeRegionActive (s : State) : Host.Outcome State Fault Refusal :=
  if s.boot.stage = 2 ∧ (regionOf s.power edgeRegion).state = .ramp then
    .next ((s.updPower (·.updRegion edgeRegion (·.enter .active))).updBoot (fun b => { b with
      stage := 3
      port := .eth0 }))
  else .next s

/-- FIRMWARE_BODY_FETCHED: stages 3 and 4; `tagOk`: the seeds are unsealed and the regenerated key_id is the manufacturing
data's (R409). -/
def execFirmwareBodyFetched (body : Bytes) (tagOk : Bool) (port : Port) (s : State) : Host.Outcome State Fault Refusal :=
  if s.boot.stage ≠ 3 ∨ port ≠ s.boot.port then .next s
  else if body.length ≠ fieldAt s.boot.header 12 4 ∨ digestBytes (sha256 body) ≠ cut s.boot.header 16 32 then
    .next (s.attemptFails 0x8003 3)
  else if !tagOk then .next (s.attemptFails 0x8006 4)
  else .next (s.updBoot (fun b => { b with
    stage := 5
    body := body }))

/-- Stage 5: an offered record is judged, and the record in force is chosen. -/
def Boot.judge (b : Boot) (offered : Option Bytes) : Boot :=
  let b1 := match offered with
    | none => b
    | some r => if recordAccepted r (b.choose.map (fun (c : Bytes × Bool) => c.1)) then b.install r else { b with queued := b.queued ++ [0x8009] }
  match b1.choose with
  | some c => { b1 with record := c.1 }
  | none => { b1 with
              record := []
              queued := b1.queued ++ [0x8008] }

/-- Stage 6: the status with which the firmware is refused. -/
def Boot.versionRefused (b : Boot) : Option Code :=
  let rec' := if b.record = [] then none else some b.record
  let least := max b.floorVersion.toNat ((rec'.map (fun r => fieldAt r 12 4)).getD 0)
  if fieldAt b.header 8 4 < least then some 0x8004
  else if b.revoked rec' (fieldAt b.header 6 1) then some 0x8002
  else none

/-- Stage 7: the measurement is latched, the firmware starts, the links train, and the module is in STANDBY. The Kellet complex
switches the bypass links and port selections that the repair map calls for and loads the Rill's routing tables (R39, R40, R69). -/
def State.startFirmware (s : State) : State :=
  let b := s.boot.note ⟨s.now, 0, 7, s.boot.port⟩
  let s1 := { s with
    boot := { b with
      stage := 0
      wait := 1
      measurement := sha256 (b.header ++ b.body)
      firmwareRuns := true }
    repair := s.repair.switched
    power := { s.power with state := .standby } }.loadRill
  (List.range 24).foldl (fun s n => if (linkOf s n).state = .off then s.startTraining n else s) s1

/-- PROVISIONING_RECORD_FETCHED: stages 5 to 7; `none`: no record is offered. -/
def execProvisioningRecordFetched (record : Option Bytes) (s : State) : Host.Outcome State Fault Refusal :=
  if s.boot.stage ≠ 5 then .next s
  else
    let s1 := s.updBoot (·.judge record)
    match s1.boot.versionRefused with
    | some c => .next (s1.attemptFails c 6)
    | none => .next s1.startFirmware

/-- Boot codes raised to the first controlling session (R408): failed attempts since the last boot, then the codes of this
boot, each as a Notice. -/
def State.raiseBoot (s : State) : State :=
  let codes := s.boot.unraised.map (·.status) ++ s.boot.queued
  let s1 := s.updBoot (fun b => { b with
    unraised := []
    queued := [] })
  codes.foldl (fun s c => s.sendEvent (s.mkEvent 1 c 1 moduleWide noCmd 0 0)) s1

/-- REGION_START_FAIL (R339): a region that does not reach ACTIVE is as if its breaker had opened; the edge region's start
belongs to a boot attempt. -/
def execRegionStartFail (region : Nat) (s : State) : Host.Outcome State Fault Refusal :=
  onRegion region s (fun r =>
    if region = edgeRegion then
      if s.boot.stage = 2 then
        (s.attemptFails 0x7010 2).updPower (·.updRegion edgeRegion (fun r => { r with
          state := .broken
          vcore := 0
          vloam := 0 }))
      else s
    else if r.state = .ramp then ((s.openBreaker region).raise 0x7010 moduleWide noCmd region).boundary
    else s)

/-! ### Attestation (R416, R417, Table 18-7) -/

/-- The body of a report. -/
def State.attestBody (s : State) (nonce : BitVec 256) : Bytes :=
  let r := s.boot.record
  ([0x5A, 0x41, 0x54, 0x54] : Bytes) ++ leBytes 2 1 ++ leBytes 1 (variantCode s.variant) ++ leBytes 1 s.power.state.code ++
    leBytes 4 9106 ++ leBytes 2 s.boot.positionId.toNat ++ leBytes 1 s.step.phase.code ++ zeros 1 ++
    beBytes 32 nonce.toNat ++ leBytes 8 s.now.toNat ++ leBytes 8 s.step.number.toNat ++ leBytes 16 Config.serial.toNat ++
    digestBytes s.boot.measurement ++ leBytes 4 (fieldAt s.boot.header 8 4) ++ leBytes 4 (s.recordField 8 4 0) ++
    digestBytes (match s.program with | some p => p.digest | none => 0) ++ leBytes 16 (fieldMapValue s.repair) ++
    leBytes 168 (repairMapValue s.repair) ++ (if r = [] then zeros 32 else digestBytes (sha256 r)) ++ keyIdBytes ++
    beBytes 32 Config.identityEd.toNat ++ Config.identityMl.toList ++ beBytes 64 Config.endorseEd.toNat ++
    Config.endorseMl.toList

/-- The signed report. -/
def State.attestReport (s : State) (nonce : BitVec 256) : Bytes :=
  let m := s.attestBody nonce
  m ++ beBytes 64 (Config.signEd m).toNat ++ (Config.signMl attestContext m).toList

end Sys2Proof.Machine
end

