-- ==== Sys2Proof/Machine/Image.lean ====
section
/-! DEFINITION. Sys2Proof/Machine/Image.lean: tile images as the load reads them (R302, Table 13-14): command slots, router tables,
the sequences of runs that a command stream can take (R83, R101, R142, R144, R160), the Strata's layers (R163, R169), and what
a program asks of a slab (R49, R192, R386). Each check answers the status codes it finds. -/

namespace Sys2Proof.Machine

/-- The PROGRAM region as written: site images of 1 MiB (R301). -/
abbrev Image := List Host.Cell

def siteBase (site : Nat) : Nat := site * 0x100000
/-- The number of `n` bytes at an offset of a site image. -/
def imgNum (m : Image) (site off n : Nat) : Nat := rdLE m (siteBase site + off) n
/-- Bytes of a site image. -/
def imgBytes (m : Image) (site off n : Nat) : Bytes := rdBytes m (siteBase site + off) n

/-- Statuses of the checks that fail. -/
def fails (l : List (Bool × Code)) : List Code := l.filterMap (fun x => if x.1 then some x.2 else none)

/-- A byte of a site that no part of its image describes is not zero (R302). -/
def strayBytes (m : Image) (site : Nat) (parts : List (Nat × Nat)) : Bool :=
  m.any (fun c => decide (siteBase site ≤ c.1) && decide (c.1 < siteBase (site + 1)) &&
    !parts.any (fun r => decide (r.1 ≤ c.1 - siteBase site) && decide (c.1 - siteBase site < r.1 + r.2)))

/-! ### Command slots -/

/-- A field of a slot. -/
def slotField (b : Bytes) (off n w : Nat) : BitVec w := BitVec.ofNat w (fieldAt b off n)

/-- Reserved bytes of a slot that are not zero. -/
def nonZero (b : Bytes) (l : List (Nat × Nat)) : Bool := l.any (fun r => fieldAt b r.1 r.2 != 0)

def denseSlot (b : Bytes) : DenseDesc :=
  { cid := slotField b 0 8 64, mode := slotField b 9 1 8, aFormat := slotField b 10 1 8, bFormat := slotField b 11 1 8
    mMinus1 := slotField b 12 1 8, nMinus1 := slotField b 13 1 8, control := slotField b 14 2 16
    kCount := slotField b 16 4 32, aBase := slotField b 20 4 32, aStride := slotField b 24 4 32
    bBase := slotField b 28 4 32, bStride := slotField b 32 4 32, auxBase := slotField b 36 4 32
    auxStride := slotField b 40 4 32, dBase := slotField b 44 4 32, dStride := slotField b 48 4 32
    sBase := slotField b 52 4 32, cmplAddr := slotField b 56 4 32, dFormat := slotField b 60 1 8 }

def sparseSlot (b : Bytes) : SparseDesc :=
  { cid := slotField b 0 8 64, smode := slotField b 9 1 8, bFormat := slotField b 10 1 8, nMinus1 := slotField b 11 1 8
    control := slotField b 12 2 16, plateRowsUsed := slotField b 14 1 8, arrayDesc := slotField b 16 4 32
    plateRow0 := slotField b 20 2 16, plateCol0 := slotField b 22 2 16, kPlates := slotField b 24 4 32
    bBase := slotField b 28 4 32, bStride := slotField b 32 4 32, stripScratch := slotField b 36 4 32
    dBase := slotField b 40 4 32, dStride := slotField b 44 4 32, sBase := slotField b 48 4 32
    cmplAddr := slotField b 52 4 32, dFormat := slotField b 56 1 8 }

def plateSlot (b : Bytes) : PlateDesc :=
  { cid := slotField b 0 8 64, layout := slotField b 9 1 8, plateRow := slotField b 10 2 16, plateCol := slotField b 12 2 16
    arrayDesc := slotField b 16 8 64, denseAddr := slotField b 24 8 64, denseStride := slotField b 32 4 32
    destDesc := slotField b 36 8 64, destRow := slotField b 44 2 16, destCol := slotField b 46 2 16 }

def maskSlot (b : Bytes) : MaskDesc :=
  { cid := slotField b 0 8 64, block := slotField b 9 1 8, policy := slotField b 10 1 8, count := slotField b 12 4 32
    threshold := slotField b 16 4 32, valuesBase := slotField b 20 4 32, maskBase := slotField b 24 4 32
    pendingBase := slotField b 28 4 32, m1Base := slotField b 32 4 32, m2Base := slotField b 36 4 32 }

def vecSlot (b : Bytes) : VecDesc :=
  { cid := slotField b 0 8 64, formats := slotField b 10 2 16, flags := slotField b 12 2 16, count := slotField b 16 4 32
    src0 := slotField b 20 4 32, src1 := slotField b 24 4 32, src2 := slotField b 28 4 32, dst := slotField b 32 4 32 }

def syncSlot (b : Bytes) : SyncDesc :=
  { cid := slotField b 0 8 64, op := slotField b 9 1 8, syncId := slotField b 10 2 16, destId := slotField b 12 2 16
    destPb := slotField b 14 1 8, channel := slotField b 15 1 8, operand := slotField b 16 8 64 }

/-- The command of a 64-byte slot, and whether a reserved byte of it is not zero; none for an opcode no chapter defines. -/
def parseSlot (b : Bytes) : Option (TileOp × Bool) :=
  let cid : BitVec 64 := slotField b 0 8 64
  match fieldAt b 8 1 with
  | 0x10 => some (.dense (denseSlot b), nonZero b [(61, 3)])
  | 0x11 => some (.sparse (sparseSlot b), nonZero b [(15, 1), (57, 7)])
  | 0x12 => some (.masked (denseSlot b), nonZero b [(61, 3)])
  | 0x18 => some (.save (denseSlot b), nonZero b [(61, 3)])
  | 0x19 => some (.restore (denseSlot b), nonZero b [(61, 3)])
  | 0x20 => some (.plate 0 (plateSlot b), nonZero b [(14, 2), (48, 16)])
  | 0x21 => some (.plate 1 (plateSlot b), nonZero b [(14, 2), (48, 16)])
  | 0x22 => some (.plate 2 (plateSlot b), nonZero b [(14, 2), (48, 16)])
  | 0x23 => some (.plate 3 (plateSlot b), nonZero b [(14, 2), (48, 16)])
  | 0x24 => some (.transpose ⟨cid, slotField b 9 1 8, slotField b 10 1 8, slotField b 11 1 8, slotField b 12 1 8,
      slotField b 16 4 32, slotField b 20 4 32, slotField b 24 4 32, slotField b 28 4 32⟩, nonZero b [(13, 3), (32, 32)])
  | 0x28 => some (.push ⟨cid, slotField b 9 1 8, slotField b 10 1 8, slotField b 12 4 32, slotField b 16 4 32,
      slotField b 20 4 32, slotField b 24 4 32⟩, nonZero b [(11, 1), (28, 36)])
  | 0x29 => some (.pop ⟨cid, slotField b 16 8 64, slotField b 24 4 32⟩, nonZero b [(9, 7), (28, 36)])
  | 0x2A => some (.layer (bitOf (fieldAt b 9 1) 0) ⟨cid, slotField b 10 2 16, slotField b 12 4 32, slotField b 16 4 32,
      slotField b 20 4 32, slotField b 24 4 32, slotField b 28 4 32⟩, decide (2 ≤ fieldAt b 9 1) || nonZero b [(32, 32)])
  | 0x30 => some (.mask (fieldAt b 10 1 % 2) (maskSlot b), nonZero b [(11, 1), (40, 24)])
  | 0x31 => some (.mask 2 (maskSlot b), nonZero b [(11, 1), (40, 24)])
  | 0x32 => some (.mask 3 (maskSlot b), nonZero b [(11, 1), (40, 24)])
  | 0x40 => some (.vec (fieldAt b 9 1) (vecSlot b), nonZero b [(14, 2), (36, 28)])
  | 0x43 => some (.loss ⟨cid, slotField b 9 1 8, slotField b 16 4 32⟩, nonZero b [(10, 6), (20, 44)])
  | 0x44 => some (.palette ⟨cid, slotField b 9 1 8, slotField b 10 1 8, slotField b 16 4 32⟩, nonZero b [(11, 5), (20, 44)])
  | 0x48 => some (.opt ⟨cid, slotField b 9 1 8, slotField b 10 1 8, slotField b 12 4 32, slotField b 16 4 32,
      slotField b 20 4 32⟩, nonZero b [(11, 1), (24, 40)])
  | 0x50 => some (.recv ⟨cid, slotField b 9 1 8, slotField b 10 1 8, slotField b 12 4 32, slotField b 16 4 32⟩,
      nonZero b [(11, 1), (20, 44)])
  | 0x58 => some (.syncSignal (syncSlot b), nonZero b [(24, 40)])
  | 0x59 => some (.syncWait (syncSlot b), nonZero b [(24, 40)])
  | _ => none

/-- Vector operations that Table 8-2 defines. -/
def vecOps : List Nat := [0, 1, 2, 3, 4, 5, 6, 7, 8, 9, 0x0A, 0x0B, 0x0C, 0x10, 0x11, 0x18, 0x19, 0x1A]

/-- The status with which the load rejects a command by its descriptor. -/
def TileOp.rejected (table : SMap (BitVec 64)) : TileOp → Option Code
  | .dense d => denseCheck d false
  | .masked d => denseCheck d true
  | .save d => denseImageCheck d true
  | .restore d => denseImageCheck d false
  | .sparse d => sparseCheck d
  | .plate op d => plateCheck op d
  | .mask op d => maskCheck op d
  | .transpose d => transCheck d
  | .push d => pushCheck d
  | .pop d => popCheck d
  | .layer isDrain d => layerCheck isDrain d
  | .vec op d => if vecOps.contains op then vecCheck op d else some 0x2202
  | .palette d => paletteCheck d
  | .loss d => lossCheck d
  | .opt d => optCheck d
  | .recv d => recvCheck d
  | .syncSignal d => syncCheck true (smGet 0 table d.syncId.toNat) d
  | .syncWait d => syncCheck false (smGet 0 table d.syncId.toNat) d

/-! ### Byte ranges -/

/-- A span of one list shares a byte with a span of the other. -/
def meetAny (a b : List Span) : Bool := a.any (fun x => b.any x.touches)

/-- A slot of the transposing buffer. -/
def slotSpan (i : Nat) : Span := { addr := bufferBase + 0x8000 * i, bytes := 0x8000 }

/-! ### What commands read and write -/

/-- What the load knows of a tile when it follows its commands. -/
structure TileCtx where
  units : Nat
  window : Span
  /-- Payload bytes of each push, by command ID. -/
  pushes : List (BitVec 64 × Nat)

/-- Bytes a dense product writes when it drains; of a MASKED_MM, whose mask lies in memory, its first value. -/
def denseWrites (d : DenseDesc) (masked : Bool) : List Span :=
  let quad := isQuad (d.mode.toNat % 8)
  let fmt := d.dFormat.toNat
  let m := d.mMinus1.toNat + 1
  let row (i : Nat) : Span := { addr := d.dBase.toNat + i * d.dStride.toNat, stride := d.dStride.toNat
                                bytes := (if quad then 2 else 1) * (d.nMinus1.toNat + 1) * drainBytes fmt, rows := m }
  if !d.control.getLsbD 2 then []
  else { addr := d.cmplAddr.toNat, bytes := 16 } ::
    (if fmt = 6 then [] else if masked then [{ addr := d.dBase.toNat, bytes := drainBytes fmt }]
     else row 0 :: (if quad then [row 64] else []))

/-- The strip scratch of a sparse product. -/
def sparseScratch (d : SparseDesc) : List Span :=
  if d.stripScratch = 0 then [] else [{ addr := d.stripScratch.toNat, bytes := 16 * d.plateRowsUsed.toNat * 544 }]

/-- Bytes a sparse product writes when it drains. -/
def sparseWrites (d : SparseDesc) : List Span :=
  if d.control.getLsbD 2 then
    [{ addr := d.cmplAddr.toNat, bytes := 16 },
     { addr := d.dBase.toNat, stride := d.dStride.toNat, bytes := (d.nMinus1.toNat + 1) * drainBytes d.dFormat.toNat
       rows := 128 * d.plateRowsUsed.toNat }]
  else []

/-- Source bytes of a command that writes the transposing buffer (R160). -/
def bufferSource (units : Nat) : TileOp → List Span
  | .transpose d => [{ addr := d.srcAddr.toNat, stride := d.srcStride.toNat
                       bytes := (d.colsMinus1.toNat + 1) * (transSizes d).1, rows := d.rowsMinus1.toNat + 1 }]
  | .push d => [pushSpan d (max 1 units)]
  | .plate 2 d => [{ addr := d.arrayDesc.toNat, bytes := 64 }]
  | _ => []

/-- Bytes of tile memory that a command writes at addresses fixed in the program; plates as small as they may be. -/
def TileOp.writes (g : TileCtx) : TileOp → List Span
  | .dense d => denseWrites d false
  | .masked d => denseWrites d true
  | .save d => [{ addr := d.dBase.toNat, bytes := 139328 }]
  | .restore _ => []
  | .sparse d => sparseWrites d
  | .plate op d => if op = 1 then [{ addr := d.denseAddr.toNat, stride := d.denseStride.toNat, bytes := 128, rows := 128 }]
      else []
  | .mask op d => if op = 3 then [] else [{ addr := d.pendingBase.toNat, bytes := 2048 }]
  | .transpose d => if d.dest.getLsbD 2 then [{ addr := d.dstAddr.toNat, stride := d.dstStride.toNat
                                                bytes := (d.rowsMinus1.toNat + 1) * (transSizes d).2
                                                rows := d.colsMinus1.toNat + 1 }] else []
  | .push _ => [g.window]
  | .pop d => [{ addr := d.dstAddr.toNat, bytes := ((g.pushes.find? (fun x => x.1 == d.expectId)).map (·.2)).getD 0 }]
  | .layer isDrain d => if isDrain then [{ addr := d.ckAddr.toNat
                                           bytes := d.ckFixedBytes.toNat + d.ckUnitBytes.toNat * g.units }] else []
  | .vec op d => [{ addr := d.dst.toNat, bytes := vecDstBytes op d }]
  | .recv d => [{ addr := d.dst.toNat, bytes := d.count.toNat * recvBytes d.format.toNat }]
  | .palette _ | .loss _ | .opt _ | .syncSignal _ | .syncWait _ => []

/-- The slots a command writes, given the slot written last (R158): none, 0, 1, or 2 for both. -/
def TileOp.slotWritten (last : Option Nat) : TileOp → Option Nat
  | .transpose d => some (d.dest.toNat % 4)
  | .push d => if !d.flags.getLsbD 0 then none
      else if elemBits d.elemFormat.toNat = 32 then some 2 else some (if last = some 0 then 1 else 0)
  | .plate 2 _ => some (if last = some 0 then 1 else 0)
  | _ => none

def slotsOf : Option Nat → List Nat
  | some 2 => [0, 1] | some i => [i] | none => []

/-! ### Runs (R83, R97, R101, R142, R144) -/

/-- An open run as the load follows it. -/
structure OpenRun where
  key : List Nat
  k : Nat
  restored : Bool := false
  reads : List Span
  writes : List Span := []
  deriving DecidableEq, Repr

/-- What the load follows along a command sequence: the runs of canvases A and B and of the two Sieve parts, and the slots. -/
structure Scan where
  runs : SMap OpenRun := []
  halves : Bool := false
  last : Option Nat := none
  /-- Source bytes of the last writer of each slot. -/
  src0 : List Span := []
  src1 : List Span := []
  deriving DecidableEq, Repr

/-- Reads of a run's command, with the sources of the slots it reads (R160). -/
def Scan.readsOf (x : Scan) (r : List Span) : List Span :=
  r ++ (if meetAny r [slotSpan 0] then x.src0 else []) ++ (if meetAny r [slotSpan 1] then x.src1 else [])

/-- The run key and length of a command that continues or opens a run: (run, key, k, clear, drain, status, reads). -/
structure RunUse where
  run : Nat
  key : List Nat
  k : Nat
  clear : Bool
  drain : Bool
  code : Code
  reads : List Span
  /-- Strip scratch, which only its own run may share. -/
  scratch : List Span := []

def TileOp.runUse : TileOp → Option RunUse
  | .dense d => some (denseUse d false)
  | .masked d => some (denseUse d true)
  | .sparse d =>
    let halves := d.control.getLsbD 4
    let part := if halves then b2n (d.control.getLsbD 0) else 0
    some { run := 2 + part, k := 128 * d.kPlates.toNat, clear := d.control.getLsbD 1, drain := d.control.getLsbD 2
           key := [d.smode.toNat, d.nMinus1.toNat, b2n halves, part, d.plateRow0.toNat, d.plateRowsUsed.toNat]
           code := 0x9007, reads := sparseSpans d, scratch := sparseScratch d }
  | _ => none
where
  denseUse (d : DenseDesc) (masked : Bool) : RunUse :=
    { run := b2n (d.control.getLsbD 0), k := d.kCount.toNat, clear := d.control.getLsbD 1, drain := d.control.getLsbD 2
      key := [d.mode.toNat, d.mMinus1.toNat, d.nMinus1.toNat, b2n (d.control.getLsbD 4)]
      code := if masked then 0x9007 else 0x100B, reads := denseSpans d masked }

/-- The status with which a run rejects a program. -/
def runCode (run : Nat) : Code := if run < 2 then 0x100B else 0x9007

/-- A command's writes count against every open run; an open run must never read what is written in it. -/
def Scan.noteWrites (x : Scan) (own : Option Nat) (w scratch : List Span) : Except Code Scan :=
  let runs := x.runs.map (fun (r : Nat × OpenRun) => (r.1, { r.2 with
    writes := r.2.writes ++ w ++ (if own = some r.1 then [] else scratch) }))
  match runs.find? (fun r => meetAny r.2.writes r.2.reads) with
  | some r => .error (runCode r.1)
  | none => .ok { x with runs := runs }

/-- The run of a command is opened or continued. -/
def Scan.useRun (x : Scan) (u : RunUse) : Except Code Scan :=
  let old := x.runs.find? (fun r => r.1 == u.run)
  let reads := x.readsOf u.reads ++ u.scratch
  let put (r : OpenRun) : Scan := { x with runs := smPut ⟨[], 0, false, [], []⟩ u.run r x.runs }
  if u.clear then
    if 2 ≤ u.run ∧ old.isSome then .error u.code
    else if 1048576 < u.k then .error u.code
    else .ok (put { key := u.key, k := u.k, reads := reads })
  else match old with
    | none => .error u.code
    | some (_, r) =>
      if r.restored then .ok (put { r with reads := r.reads ++ reads })
      else if r.key ≠ u.key ∨ 1048576 < r.k + u.k then .error u.code
      else .ok (put { r with
             k := r.k + u.k
             reads := r.reads ++ reads })

/-- A command of the stream with what the schedule does beside it (log entry 97): the bytes that scheduled stores have written by
the time it runs, and those that the DMA engine reads for the mesh once it has completed. -/
structure LoadSlot where
  op : TileOp
  stored : List Span := []
  sent : List Span := []

/-- The run of a Sieve part as the scan numbers it, and its bytes. -/
def partSpan (halves : Bool) (run : Nat) : Span :=
  if halves then ⟨sieveBase + (run - 2) * 0x80000, 0, 0x80000, 1⟩ else ⟨sieveBase, 0, 0x100000, 1⟩

/-- DMA reads a Sieve part while a run on it is open (R144). -/
def Scan.sieveRead (x : Scan) (sent : List Span) : Bool :=
  x.runs.any (fun r => decide (2 ≤ r.1) && meetAny sent [partSpan x.halves r.1])

/-- One command of a sequence. -/
def Scan.command (g : TileCtx) (x : Scan) (c : TileOp) : Except Code Scan :=
  let slot := c.slotWritten x.last
  let w := c.writes g ++ (slotsOf slot).map slotSpan
  let x1 := { x with
    last := if slot.isSome then slot else x.last
    src0 := if (slotsOf slot).contains 0 then bufferSource g.units c else x.src0
    src1 := if (slotsOf slot).contains 1 then bufferSource g.units c else x.src1 }
  match c with
  | .restore d =>
    let r : OpenRun := { key := [], k := 0, restored := true, reads := [{ addr := d.aBase.toNat, bytes := 139328 }] }
    .ok { x1 with runs := smPut ⟨[], 0, false, [], []⟩ (b2n (d.control.getLsbD 0)) r x1.runs }
  | _ =>
    match c.runUse with
    | none => x1.noteWrites none w []
    | some u =>
      let h := u.key.getD 2 0 == 1
      if 2 ≤ u.run ∧ x1.runs.any (fun r => decide (2 ≤ r.1)) ∧ h ≠ x1.halves then .error 0x9007
      else do
        let x2 ← x1.useRun u
        let x3 ← { x2 with halves := if 2 ≤ u.run then h else x2.halves }.noteWrites (some u.run) w u.scratch
        .ok (if u.drain then { x3 with runs := x3.runs.filter (fun r => r.1 ≠ u.run) } else x3)

/-- One command of a sequence, between the stores that land before it and the reads that follow it. -/
def Scan.step (g : TileCtx) (x : Scan) (c : LoadSlot) : Except Code Scan := do
  let x1 ← (← x.noteWrites none c.stored []).command g c.op
  if x1.sieveRead c.sent then .error 0x9007 else .ok x1

/-- Every state that a list of commands can lead to. -/
def scanList (g : TileCtx) (xs : List Scan) (cs : List LoadSlot) : Except Code (List Scan) :=
  cs.foldlM (fun (xs : List Scan) c => do .ok (← xs.mapM (fun x => x.step g c)).eraseDups) xs

/-- Every sequence that a tile's stream can take, each recompute block either run or skipped after its DRAIN boundary. -/
def scanStream (g : TileCtx) (block : LayerDesc → List LoadSlot) (cs : List LoadSlot) : Except Code (List Scan) :=
  cs.foldlM (fun (xs : List Scan) c => do
    let ys ← scanList g xs [c]
    match c.op with
    | .layer true d =>
      let zs ← scanList g ys (block d)
      .ok (ys ++ zs).eraseDups
    | _ => .ok ys) [{}]

/-! ### Router tables (R59, Table 3-2) -/

/-- Statuses of a router-table entry; `seam`: the router has a seam input. -/
def routerCodes (seam : Bool) (e : BitVec 64) : List Code :=
  let v := e.toNat
  fails [
    (bitOf v 15 || decide (2 ^ 49 ≤ v), 0x1003),
    ((List.range 5).any (fun i => decide (6 ≤ bitsOf v (3 * i + 2) (3 * i))) || bitsOf v 31 16 == 0 ||
      (bitOf v 48 && !seam) || (!bitOf v 48 && bitsOf v 47 32 != 0), 0x4003)]

/-- The routers with a seam input: those of columns 23 and 24 (R65). -/
def seamRouter (t : Nat) : Bool := colOf t == 23 || colOf t == 24

/-! ### Strata layers (R163, R169) -/

def Backward.codes (b : Backward) (gradFormat slab : Nat) : List Code :=
  fails [
    (decide (1 < b.gradFormat) || b.gradFormat != gradFormat, 0x3104),
    (decide (4096 < b.layers), 0x3104),
    (b.layers == 0 && (b.topBase != 0 || b.topBytes != 0 || b.bodyFirst != 0 || b.bodyPages != 0), 0x3104),
    (b.layers != 0 && (b.topBase % 0x10000 != 0 || b.topBytes % 0x10000 != 0 || decide (b.topBytes < 0x40000) ||
      decide (0x800000 < b.topBytes) || !inTmem b.topBase b.topBytes || decide (b.bodyFirst < 11) ||
      b.bodyPages % 16 != 0 || decide (b.bodyPages < 16) || decide (496 < b.bodyPages) ||
      decide (slab < b.bodyFirst + b.bodyPages)), 0x3104)]

/-- Indices of the commands of a recompute block, none when it does not name slots of the stream. -/
def blockRange (g : TileProg) (d : LayerDesc) : Option (Nat × Nat) :=
  let off := d.recomputeFirst.toNat - g.cmdOffset
  if d.recomputeFirst.toNat < g.cmdOffset ∨ off % 64 ≠ 0 ∨ g.cmds.length < off / 64 + d.recomputeCount.toNat then none
  else some (off / 64, d.recomputeCount.toNat)

/-- Recompute blocks of a tile: first index and length. -/
def recomputeBlocks (g : TileProg) : List (Nat × Nat) :=
  g.cmds.filterMap (fun c => match c with
    | .layer true d => if d.recomputeCount = 0 then none else blockRange g d
    | _ => none)

/-- Commands of recompute blocks by index: those that lie among the DRAIN commands run only after their layer's boundary (R174). -/
def TileProg.inBlock (g : TileProg) (i : Nat) : Bool :=
  (recomputeBlocks g).any (fun b => decide (b.1 ≤ i) && decide (i < b.1 + b.2))

/-- The layers named by a tile's STRATA_LAYER commands, by the phase bit. -/
def layersNamed (isDrain : Bool) (l : List TileOp) : List Nat :=
  l.filterMap (fun c => match c with | .layer p d => if p == isDrain then some d.layer.toNat else none | _ => none)

def isLayer : TileOp → Bool | .layer _ _ => true | _ => false
def isStrata : TileOp → Bool | .layer _ _ | .push _ | .pop _ => true | _ => false

/-- Statuses of a tile's Strata commands. A first block with a count of zero and a block that names no slots of the stream are
rejected with 0x3104 (log entry 121). -/
def strataCodes (g : TileProg) : List Code :=
  let n := g.backward.layers
  let fill := g.cmds.take g.drainFirst
  let drain := (g.cmds.take g.reduceFirst).drop g.drainFirst
  let rest := g.cmds.drop g.reduceFirst
  let badBlock := drain.any (fun c => match c with
    | .layer true d => if d.recomputeCount = 0 then d.recomputeFirst != 0 else (blockRange g d).isNone
    | _ => false)
  let firstOk := match fill.find? isStrata with
    | some (.layer false d) => d.layer == 0
    | some _ => false
    | none => true
  fails [
    (layersNamed false fill != List.range n || layersNamed true fill != [] || !firstOk, 0x3104),
    (layersNamed true drain != (List.range n).reverse || layersNamed false drain != [], 0x3104),
    (rest.any isLayer || badBlock, 0x3104),
    (g.cmds.zipIdx.any (fun (x : TileOp × Nat) => match x.1 with
      | .push _ => decide (g.drainFirst ≤ x.2) && !g.inBlock x.2
      | .layer _ _ | .pop _ => g.inBlock x.2
      | _ => false), 0x3104)]

/-! ### Where commands may stand (R190, R201, R210) -/

/-- Statuses of a tile's LOSS_REPORT, OPT_STEP and RECV_ADD commands. -/
def placeCodes (g : TileProg) (flits : BitVec 64 → Nat) : List Code :=
  g.cmds.zipIdx.flatMap (fun (x : TileOp × Nat) => match x.1 with
    | .loss _ => fails [(decide (g.drainFirst ≤ x.2) || g.inBlock x.2, 0x2202)]
    | .opt d => fails [(decide (x.2 < g.reduceFirst) || decide (g.shard.params < d.paramIndex.toNat + d.count.toNat), 0x2202)]
    | .recv d =>
      let f := flits d.cid
      let n := d.count.toNat * recvBytes d.format.toNat
      fails [(decide (n ≤ 128 * (f - 1)) || decide (128 * f < n), 0x2309)]
    | _ => [])

/-! ### The slab (R49, R163, R192, R386) -/

/-- What a tile asks of the general pool: first page, pages, and the status of its chapter. -/
def TileProg.allocations (g : TileProg) : List (Nat × Nat × Code) :=
  (if g.backward.bodyPages = 0 then [] else [(g.backward.bodyFirst, g.backward.bodyPages, 0x3104)]) ++
  (if g.shard.poolPages = 0 then [] else [(g.shard.poolFirst, g.shard.poolPages, 0x2202)]) ++
  (if g.ringPages = 0 then [] else [(g.ringFirst, g.ringPages, 0x100B)])

/-- Statuses of allocations outside the pool or that overlap. -/
def allocationCodes (slab : Nat) (g : TileProg) : List Code :=
  let l := g.allocations
  l.flatMap (fun a => fails [(decide (a.1 < 11) || decide (slab < a.1 + a.2.1) ||
    l.any (fun b => b ≠ a && rangesMeet a.1 a.2.1 b.1 b.2.1), a.2.2)])

/-- Statuses of a shard descriptor (Table 8-5). -/
def Shard.codes (h : Shard) : List Code :=
  fails [(h.params % 256 != 0 || decide (h.poolPages < 2 * h.pages), 0x2202)]

/-! ### A tile image -/

/-- Router-table entries of an image. -/
def readRouter (m : Image) (site off n : Nat) : List (BitVec 64) :=
  (List.range n).map (fun i => BitVec.ofNat 64 (imgNum m site (off + 8 * i) 8))

/-- A tile image as read, and the parts it describes. -/
structure TileImage where
  prog : TileProg
  parts : List (Nat × Nat)
  codes : List Code

/-- Whether parts lie apart within the image. -/
def partsApart (l : List (Nat × Nat)) : Bool :=
  let u := l.filter (fun r => r.2 ≠ 0)
  u.all (fun r => decide (r.1 + r.2 ≤ 0x100000)) &&
    u.zipIdx.all (fun (x : (Nat × Nat) × Nat) => (u.drop (x.2 + 1)).all (fun r => !rangesMeet x.1.1 x.1.2 r.1 r.2))

/-- Read the image of logical tile `t`. -/
def readTile (m : Image) (t : Nat) : TileImage :=
  let f := imgNum m t
  let count := f 12 4
  let layers := f 50 2
  let idx := f 32 4
  let secs := if idx = 0 then [] else (List.range layers).map (fun i => (f (idx + 8 * i) 4, f (idx + 8 * i + 4) 4))
  let slots := (List.range count).map (fun i => imgBytes m t (f 8 4 + 64 * i) 64)
  let cmds := slots.map parseSlot
  let pal := f 36 4
  let prog : TileProg := {
    cmds := cmds.filterMap (fun c => c.map (fun (x : TileOp × Bool) => x.1))
    drainFirst := f 16 4
    reduceFirst := f 20 4
    cmdOffset := f 8 4
    router := readRouter m t (f 24 4) (f 28 4)
    sections := secs.map (fun (x : Nat × Nat) => readRouter m t x.1 x.2)
    hasPalette := decide (pal ≠ 0)
    paletteControl := BitVec.ofNat 64 (f 40 8)
    backward := ⟨f 48 1, layers, f 52 4, f 56 4, f 60 2, f 62 2⟩
    shard := ⟨f 80 4, f 84 4, f 88 2, f 90 2⟩
    ringFirst := f 96 2
    ringPages := f 98 2 }
  let parts := [(0, 256), (f 8 4, 64 * count), (f 24 4, 8 * f 28 4), (idx, if idx = 0 then 0 else 8 * layers)] ++
    secs.map (fun (x : Nat × Nat) => (x.1, 8 * x.2)) ++ [(pal, if pal = 0 then 0 else 0x10000)]
  { prog := prog
    parts := parts
    codes := fails [
      (imgBytes m t 0 4 != [0x5A, 0x54, 0x49, 0x4D] || f 4 2 != 1 || f 6 2 != t, 0x100B),
      (f 8 4 % 64 != 0 || f 24 4 % 8 != 0 || pal % 0x10000 != 0 || !partsApart parts, 0x100B),
      (decide (f 20 4 < f 16 4) || decide (count < f 20 4) || decide (64 < f 98 2), 0x100B),
      (secs.any (fun x => x.2 == 0 && x.1 != 0), 0x100B),
      (cmds.any Option.isNone, 0x100B),
      (f 100 156 != 0 || f 49 1 != 0 || f 64 16 != 0 || f 92 4 != 0, 0x1003),
      (cmds.any (fun c => match c with | some x => x.2 | none => false), 0x1003)] }

/-- What the load knows of a tile when it follows its commands. -/
def TileProg.ctx (g : TileProg) (units : Nat) : TileCtx :=
  { units := units
    window := { addr := g.backward.topBase, bytes := g.backward.topBytes }
    pushes := g.cmds.filterMap (fun c => match c with
      | .push d => some (d.cid, d.fixedBytes.toNat + d.unitBytes.toNat * units)
      | _ => none) }

/-- What the schedule does beside a tile's commands: (stored, sent) by command ID. -/
abbrev Beside := BitVec 64 → List Span × List Span

/-- Statuses of a tile's program: `units` is the largest TOKEN_UNITS of its row, `flits` the flits bound to its RECV_ADDs. -/
def tileCodes (g : TileProg) (t units slab gradFormat : Nat) (table : SMap (BitVec 64)) (flits : BitVec 64 → Nat)
    (beside : Beside) : List Code :=
  let ctx := g.ctx units
  let slots := g.cmds.map (fun c => (⟨c, (beside c.cid).1, (beside c.cid).2⟩ : LoadSlot))
  let block (d : LayerDesc) : List LoadSlot := match blockRange g d with
    | some b => (slots.drop b.1).take b.2
    | none => []
  let stream := (slots.zipIdx.filter (fun x => decide (x.2 < g.drainFirst) || !g.inBlock x.2)).map (·.1)
  (g.cmds.filterMap (·.rejected table)) ++ ((g.router ++ g.sections.flatten).flatMap (routerCodes (seamRouter t))) ++
    g.backward.codes gradFormat slab ++ strataCodes g ++ placeCodes g flits ++ g.shard.codes ++ allocationCodes slab g ++
    (match scanStream ctx block stream with | .ok _ => [] | .error c => [c])

end Sys2Proof.Machine
end

