-- ==== Sys2Proof/Machine/Load.lean ====
section
/-! DEFINITION. Sys2Proof/Machine/Load.lean: loading a program (R301, R302): the port-block and Kellet images, the checks that
concern the whole program (R190, R210, R220, R241, R271, R277, R399), the program digest, acceptance and installation. -/

namespace Sys2Proof.Machine

def pbSite (n : Nat) : Nat := 0xB00 + n
def kelletSite : Nat := 0xF00

/-! ### The program digest (R302) -/

/-- SHA-256 of a site's image; of the Kellet image below the replay directive. -/
def siteDigest (m : Image) (site : Nat) : Digest :=
  sha256 (imgBytes m site 0 (if site = kelletSite then 0xBF000 else 0x100000))

/-- The sites of a program in the order of its digest: tiles, port blocks, Kellet. -/
def programSites : List Nat := List.range logicalTiles ++ (List.range 24).map pbSite ++ [kelletSite]

def programDigest (m : Image) : Digest := sha256 (programSites.flatMap (fun x => digestBytes (siteDigest m x)))

/-! ### Port-block images (Table 13-15) -/

def readKiln (m : Image) (site off : Nat) : KilnEntry :=
  let f := imgNum m site
  { keyBase := BitVec.ofNat 64 (f off 8), elements := f (off + 8) 4, column := f (off + 12) 1, windowId := f (off + 13) 1
    group := f (off + 14) 1, owner := f (off + 16) 2, firstSeq := f (off + 20) 4 }

/-- Statuses of a Kiln map entry (Table 9-5). -/
def kilnCodes (m : Image) (site off : Nat) : List Code :=
  let e := readKiln m site off
  let f := imgNum m site
  fails [
    (decide (2 ≤ e.column) || f (off + 15) 1 != 0 || f (off + 18) 2 != 0 || f (off + 24) 8 != 0, 0x1003),
    (e.elements == 0 || decide (16384 < e.elements), 0x2309)]

def readSum (m : Image) (site off : Nat) : SumEntry :=
  let f := imgNum m site
  { key := BitVec.ofNat 64 (f off 8), windowId := f (off + 8) 1, xs96 := f (off + 9) 1 == 0x10, group := f (off + 10) 1
    perMember := f (off + 11) 1, destRow := f (off + 12) 1, destCol := f (off + 13) 1, destAddr := f (off + 16) 4
    syncId := f (off + 20) 4 }

/-- Statuses of a sum map entry (Table 9-7). -/
def sumCodes (m : Image) (site off : Nat) : List Code :=
  let e := readSum m site off
  let f := imgNum m site
  fails [
    (decide (2 ≤ e.destCol) || f (off + 14) 2 != 0 || f (off + 24) 8 != 0 || decide (0x8000 ≤ e.syncId), 0x1003),
    (f (off + 9) 1 != 0 && !e.xs96, 0x2309),
    (e.perMember == 0 || decide (2 < e.perMember) || decide (48 < e.destRow), 0x2309),
    (!inTmem e.destAddr (if e.xs96 then 3104 else 1024), 0x2309)]

def readIntake (m : Image) (site off : Nat) : IntakeEntry :=
  let f := imgNum m site
  { key := BitVec.ofNat 64 (f off 8), length := f (off + 8) 4, format := f (off + 12) 1, form := f (off + 13) 1
    columns := f (off + 14) 1, recompute := bitOf (f (off + 15) 1) 0, layer := f (off + 16) 2, syncId := f (off + 20) 4 }

/-- Statuses of an intake map entry (R271, Table 11-13); every length the table allows fits the intake buffer. -/
def intakeCodes (m : Image) (site off : Nat) : List Code :=
  let e := readIntake m site off
  let f := imgNum m site
  fails [
    (decide (4 ≤ e.columns) || decide (2 ≤ f (off + 15) 1) || f (off + 18) 2 != 0 || f (off + 24) 8 != 0 ||
      decide (0x8000 ≤ e.syncId), 0x1003),
    (decide (0xC < e.format) || decide (2 < e.form) || e.columns == 0, 0x5014),
    (e.length % 32 != 0 || decide (e.length < 32) || decide (65536 < e.length), 0x5014),
    (!e.recompute && e.layer != 0, 0x5014)]

/-- Read the image of port block `n`, with its statuses. -/
def readPb (m : Image) (n : Nat) : PbProg × List Code :=
  let site := pbSite n
  let f := imgNum m site
  let at' (o : Nat) : List Nat := (List.range (f (o + 4) 4)).map (fun i => f o 4 + 32 * i)
  let router := readRouter m site (f 32 4) (f 36 4)
  let parts := [(0, 64), (f 8 4, 32 * f 12 4), (f 16 4, 32 * f 20 4), (f 24 4, 32 * f 28 4), (f 32 4, 8 * f 36 4)]
  ({ kilnMap := (at' 8).map (readKiln m site)
     sumMap := (at' 16).map (readSum m site)
     intake := (at' 24).map (readIntake m site)
     router := router },
   fails [
    (imgBytes m site 0 4 != [0x5A, 0x50, 0x42, 0x49] || f 4 2 != 1 || f 6 1 != n || !partsApart parts, 0x100B),
    (f 7 1 != 0 || f 40 24 != 0 || strayBytes m site parts, 0x1003)] ++
   (at' 8).flatMap (kilnCodes m site) ++ (at' 16).flatMap (sumCodes m site) ++ (at' 24).flatMap (intakeCodes m site) ++
   router.flatMap (routerCodes false))

/-! ### The Kellet image (Table 13-16) -/

/-- Statuses of a sync table entry (R277, R437). -/
def syncEntryCodes (e : BitVec 64) : List Code :=
  let v := e.toNat
  let kind := v % 4
  let run := bitOf v 2
  fails [
    (bitsOf v 7 5 != 0 || bitsOf v 31 20 != 0, 0x1003),
    (bitOf v 3 && !(kind == 2 && run), 0x600A),
    (bitOf v 4 && !(run && (kind == 1 || kind == 2)), 0x600A),
    (bitsOf v 19 8 != 0 && kind != 2, 0x600A),
    (bitsOf v 63 32 != 0 && !(kind == 1 && run), 0x600A)]

/-- The sync table, entries that are not all zero. -/
def readSyncTable (m : Image) : SMap (BitVec 64) :=
  (List.range 32768).filterMap (fun i =>
    let v := imgNum m kelletSite (0x1000 + 8 * i) 8
    if v = 0 then none else some (i, BitVec.ofNat 64 v))

def groupAt (g : Nat) : Nat := 0x41000 + 64 * g
/-- Offset in the Kellet image of a group's member list, as its entry names it (log entry 110). -/
def membersAt (m : Image) (g : Nat) : Nat := imgNum m kelletSite (groupAt g + 16) 8
/-- A member list lies in the member area of the image (Table 13-16). -/
def inMembers (a : Nat) : Bool := decide (0x41400 ≤ a) && decide (a + 0x2000 ≤ 0x61400)

def readGroupEntry (m : Image) (g : Nat) : Group :=
  let f (o n : Nat) : Nat := imgNum m kelletSite (groupAt g + o) n
  { members := f 0 2, selfIndex := f 2 2, policy := f 4 1 % 4, vote := bitOf (f 4 1) 2, deadlineUs := f 8 4
    retention := f 12 1, retentionBase := BitVec.ofNat 64 (f 24 8), retentionBytes := BitVec.ofNat 64 (f 32 8)
    memberList := (List.range (min (f 0 2) 2048)).map (fun i =>
      (imgNum m kelletSite (membersAt m g + 4 * i) 2, imgNum m kelletSite (membersAt m g + 4 * i + 2) 1)) }

/-- Statuses of a group entry and its member list (R220, Table 9-6). -/
def groupCodes (m : Image) (g : Nat) : List Code :=
  let e := readGroupEntry m g
  let f (o n : Nat) : Nat := imgNum m kelletSite (groupAt g + o) n
  let all := List.range 2048
  let ids := e.memberList.map (·.1)
  fails [
    (decide (8 ≤ f 4 1) || f 5 3 != 0 || f 13 3 != 0 || f 40 24 != 0 ||
      all.any (fun i => imgNum m kelletSite (membersAt m g + 4 * i + 3) 1 != 0), 0x1003),
    (!inMembers (membersAt m g), 0x2309),
    (e.members == 0 || decide (2048 < e.members) || decide (e.members ≤ e.selfIndex), 0x2309),
    (e.policy == 3 || (e.policy == 0 && e.deadlineUs != 0) ||
      (e.policy != 0 && (e.deadlineUs == 0 || decide (1000000 < e.deadlineUs))) || decide (1 < e.retention), 0x2309),
    (e.memberList.any (fun x => x.1 == 0xFFFF || decide (23 < x.2)) || ids.dedup.length != ids.length, 0x2309),
    ((all.drop e.members).any (fun i => imgNum m kelletSite (membersAt m g + 4 * i) 3 != 0), 0x2309)]

/-- A byte of the member area that no member list of a group in use holds is not zero (R302). -/
def strayMembers (m : Image) (groups : Nat) : Bool :=
  let at' (a : Nat) : Nat := siteBase kelletSite + a
  m.any (fun c => decide (at' 0x41400 ≤ c.1) && decide (c.1 < at' 0x61400) &&
    !(List.range groups).any (fun g => decide (at' (membersAt m g) ≤ c.1) && decide (c.1 < at' (membersAt m g) + 0x2000)))

/-- A replay directive, none when its area is all zeros (R399). -/
def readDirective (m : Image) : Option Directive :=
  if m.all (fun c => decide (c.1 < siteBase kelletSite + 0xBF000) || decide (siteBase (kelletSite + 1) ≤ c.1)) then none
  else
    let groups : BitVec 16 := BitVec.ofNat 16 (imgNum m kelletSite 0xBF010 2)
    some {
      step := BitVec.ofNat 64 (imgNum m kelletSite 0xBF008 8)
      groups := groups
      records := (List.range 32768).filterMap (fun k =>
        let v := imgNum m kelletSite (0xC0000 + 8 * k) 8
        if groups.getLsbD (k / 2048) ∧ v ≠ 0xFFFFFFFF00000000 then some (k, BitVec.ofNat 64 v) else none) }

/-- Statuses of a replay directive's area. -/
def directiveCodes (m : Image) : List Code :=
  let recs := (List.range 32768).map (fun k => imgNum m kelletSite (0xC0000 + 8 * k) 8)
  match readDirective m with
  | none => []
  | some _ => fails [
      (imgBytes m kelletSite 0xBF000 4 != [0x5A, 0x52, 0x44, 0x56], 0x100B),
      (imgNum m kelletSite 0xBF004 4 != 0 || imgNum m kelletSite 0xBF012 0xFEE != 0, 0x1003),
      (recs.any (fun v => bitsOf v 31 4 != 0), 0x1003),
      (recs.any (fun v => v % 4 == 3 || bitOf v 3), 0x100B)]

/-- Statuses of the Kellet image's header, tables and lists; `field` is the module's field map. -/
def kelletCodes (m : Image) (table : SMap (BitVec 64)) (field : Nat) : List Code :=
  let f := imgNum m kelletSite
  let groups := f 0x13 1
  fails [
    (imgBytes m kelletSite 0 4 != [0x5A, 0x50, 0x52, 0x47] || f 4 2 != 1, 0x100B),
    (!([4, 8, 16].contains (f 6 1)) || decide (15 < f 7 1) || f 8 4 % 128 != 0 || decide (131072 < f 8 4) ||
      decide (1000000 < f 0xC 4) || decide (1024 < f 0x10 2) || decide (1 < f 0x12 1) || decide (16 < groups), 0x100B),
    (f 0x14 12 != 0 || f 0x30 4048 != 0 || f 0x61800 382976 != 0 || bitsOf (f 0x20 16) 127 112 != 0, 0x1003),
    ((List.range 16).any (fun g => decide (groups ≤ g) && f (groupAt g) 64 != 0) || strayMembers m (min groups 16), 0x1003),
    ((imgBytes m kelletSite 0x61400 (min (f 8 4 / 128) 1024)).any (fun b => decide (48 < b.toNat)), 0x100B),
    (f 0x20 16 != field, 0x1010)] ++
  table.flatMap (fun x => syncEntryCodes x.2) ++ (List.range (min groups 16)).flatMap (groupCodes m) ++ directiveCodes m

/-! ### Checks over the whole program -/

/-- Blocks this module's Kiln units convert: (group, owner member, seq). -/
def Program.blocks (p : Program) : List (Nat × Nat × Nat) :=
  p.pbs.flatMap (fun x => x.2.kilnMap.flatMap (fun e =>
    (List.range (blocksOf e)).map (fun b => (e.group, e.owner, e.firstSeq + b))))

/-- R220: the vote group, the names in the maps, joint numbering of streams, retention for two steps of full images. -/
def Program.groupFails (p : Program) : Bool :=
  let blocks := p.blocks
  let absent (g m : Nat) : Bool := decide (p.groups.length ≤ g) || decide ((p.groups.getD g {}).members ≤ m)
  let streams := (blocks.map (fun x => (x.1, x.2.1))).dedup
  let seqs (k : Nat × Nat) : List Nat := (blocks.filter (fun x => x.1 == k.1 && x.2.1 == k.2)).map (fun x => x.2.2)
  decide (1 < (p.groups.filter (·.vote)).length) ||
    p.pbs.any (fun x => x.2.kilnMap.any (fun e => absent e.group e.owner) ||
      x.2.sumMap.any (fun e => decide (p.groups.length ≤ e.group))) ||
    streams.any (fun k => let l := seqs k; (List.range l.length).any (fun i => !l.contains i)) ||
    p.groups.zipIdx.any (fun (x : Group × Nat) =>
      decide (x.1.retentionBytes.toNat < 2 * 3104 * (blocks.filter (fun b => b.1 == x.2)).length))

/-- R271: a RECOMPUTE intake entry needs a recompute block of its layer in every column it feeds. -/
def Program.intakeFails (p : Program) : Bool :=
  let blocks := p.tiles.flatMap (fun x => x.2.cmds.filterMap (fun c => match c with
    | .layer true d => if d.recomputeCount = 0 then none else some (colOf x.1, d.layer.toNat)
    | _ => none))
  p.pbs.any (fun x => x.2.intake.any (fun e => e.recompute &&
    [0, 1].any (fun c => bitOf e.columns c && !blocks.contains (2 * x.1 + c, e.layer))))

/-- R175, R437: a section-index entry of a layer for which no tile has a recompute block is not zero (log entry 111). -/
def Program.sectionFails (p : Program) : Bool :=
  let layers := p.tiles.flatMap (fun x => x.2.cmds.filterMap (fun c => match c with
    | .layer true d => if d.recomputeCount = 0 then none else some d.layer.toNat
    | _ => none))
  p.tiles.any (fun x => x.2.sections.zipIdx.any (fun (s : List (BitVec 64) × Nat) => !s.1.isEmpty && !layers.contains s.2))

/-- R190: no slot of the loss table is reported more than once. -/
def Program.lossFails (p : Program) : Bool :=
  let slots := p.tiles.flatMap (fun x => x.2.cmds.filterMap (fun c => match c with
    | .loss d => some (d.slot.toNat % 16)
    | _ => none))
  slots.dedup.length != slots.length

/-! ### Transfers and writes to their sources (R241) -/

/-- Phase in which a command runs: 0 FILL, 1 DRAIN, 2 REDUCE and COMMIT. -/
def TileProg.phaseAt (g : TileProg) (i : Nat) : Nat := if i < g.drainFirst then 0 else if i < g.reduceFirst then 1 else 2

/-- One place of a tile's program order: a command by its index, the phase it runs in, and 0 or, in the recompute block of
layer L, L + 1. -/
structure Turn where
  index : Nat
  phase : Nat
  block : Nat
  deriving DecidableEq, Repr

/-- A tile's program order with every recompute block run (R174). -/
def TileProg.order (g : TileProg) : List Turn :=
  ((List.range g.cmds.length).filter (fun i => decide (i < g.drainFirst) || !g.inBlock i)).flatMap (fun i =>
    ⟨i, g.phaseAt i, 0⟩ :: (match g.cmds[i]? with
      | some (.layer true d) => match blockRange g d with
        | some b => (List.range b.2).map (fun k => ⟨b.1 + k, 1, d.layer.toNat + 1⟩)
        | none => []
      | _ => []))

/-- The command of a turn. -/
def TileProg.commandAt (g : TileProg) (x : Turn) : TileOp := (g.cmds[x.index]?).getD (.loss ⟨0, 0, 0⟩)

/-- A local arrival on a barrier: whether it is FENCED. -/
def TileOp.arrival (obj : Nat) : TileOp → Option Bool
  | .syncSignal d => if d.destId = 0xFFFF ∧ d.syncId.toNat = obj ∧ d.op.toNat % 8 = 2 then some (decide (128 ≤ d.op.toNat)) else none
  | .syncWait d => if d.syncId.toNat = obj ∧ d.op.toNat % 8 = 4 then some (decide (128 ≤ d.op.toNat)) else none
  | _ => none

/-- Arrivals of a tile on a barrier in a phase, in order: place in the program order and FENCED; those in recompute blocks, which
may be skipped, only with `all`. -/
def TileProg.arrivals (g : TileProg) (obj phase : Nat) (all : Bool) : List (Nat × Bool) :=
  g.order.zipIdx.filterMap (fun (x : Turn × Nat) =>
    if x.1.phase = phase ∧ (all ∨ x.1.block = 0) then ((g.commandAt x.1).arrival obj).map (fun f => (x.2, f)) else none)

/-- Whether a local signal to an object. -/
def TileOp.signals (obj : Nat) : TileOp → Bool
  | .syncSignal d => d.destId == 0xFFFF && d.syncId.toNat == obj
  | _ => false

/-- Whether the SYNC_WAIT at place `w` of the source tile's order cannot be answered before the command at place `j` of the
consuming tile's has completed. The source tile's arrivals are counted without the blocks that may be skipped, the consuming
tile's with them, so that the count holds whichever blocks run. -/
def Program.waitCloses (p : Program) (src dst w j : Nat) : Bool :=
  let a := smGet ({} : TileProg) p.tiles src
  let b := smGet ({} : TileProg) p.tiles dst
  let turn := a.order.getD w ⟨0, 0, 0⟩
  match a.commandAt turn with
  | .syncWait d =>
    let obj := d.syncId.toNat
    if d.op.toNat % 8 = 4 then
      let k := ((a.arrivals obj turn.phase false).filter (fun x => decide (x.1 ≤ w))).length
      (b.arrivals obj turn.phase true).zipIdx.any (fun (x : (Nat × Bool) × Nat) =>
        decide (j < x.1.1) && x.1.2 && (b.order.getD x.1.1 turn).block == 0 && decide (x.2 + 1 ≤ k))
    else
      (smGet (0 : BitVec 64) p.syncTable obj).toNat % 4 == 3 && d.operand != 0 &&
        p.tiles.all (fun t => t.2.order.zipIdx.all (fun (x : Turn × Nat) =>
          !((t.2.commandAt x.1).signals obj && x.1.phase == turn.phase) || (t.1 == dst && decide (j < x.2)))) &&
        p.pbs.all (fun x => !x.2.intake.any (fun e => e.syncId == obj) && !x.2.sumMap.any (fun e => e.syncId == obj))
  | _ => false

/-- A command of the source tile writes a transfer's source bytes while an interval of it is open: one opens at every turn of the
command that the transfer follows, and its consumer is that of the same recompute block, or of the main order. A wait closes it
that is certain to run: one of the same block or of none. -/
def Program.transferFails (p : Program) (units : Nat → Nat) (x : Transfer) : Bool :=
  let a := smGet ({} : TileProg) p.tiles x.src
  let b := smGet ({} : TileProg) p.tiles x.dst
  let consumers := b.order.zipIdx.filter (fun t => (b.commandAt t.1).cid == x.consumer)
  x.src != x.dst && a.order.zipIdx.any (fun (o : Turn × Nat) =>
    (a.commandAt o.1).cid == x.after &&
      match (consumers.find? (fun t => t.1.block == o.1.block)).or consumers.head? with
      | none => false
      | some c =>
        let later := a.order.zipIdx.filter (fun t => decide (o.2 < t.2) && decide (t.1.phase ≤ c.1.phase))
        let inside := later.takeWhile (fun t => !((t.1.block == 0 || t.1.block == o.1.block) && p.waitCloses x.src x.dst t.2 c.2))
        inside.any (fun t => meetAny ((a.commandAt t.1).writes (a.ctx (units x.src))) [{ addr := x.srcAddr, bytes := x.bytes }]))

/-! ### What the schedule does beside a tile's commands (R101, R144; log entry 97) -/

/-- What port block `n` writes for each signal to an object, in the order of its maps: verified frames and delivered sums. -/
def Program.portStores (p : Program) (b : Bindings) (obj n : Nat) : List (List (Nat × Span)) :=
  let g := smGet ({} : PbProg) p.pbs n
  (g.intake.zipIdx.filter (fun e => e.1.syncId == obj)).map (fun e =>
    (b.multicasts.filter (fun x => x.pb == n && x.frameSeq == e.2)).map (fun x => (x.tile, ⟨x.addr, 0, e.1.length, 1⟩))) ++
  (g.sumMap.filter (fun e => e.syncId == obj)).map (fun e =>
    [(48 * e.destRow + 2 * n + e.destCol, ⟨e.destAddr, 0, if e.xs96 then 3104 else 1024, 1⟩)])

/-- What a SYNC_WAIT at index `i` of tile `t` waits for: the stores of the signals between the threshold of the tile's wait on the
same object before it and its own. -/
def Program.waitedFor (p : Program) (b : Bindings) (t i : Nat) (d : SyncDesc) : List Span :=
  let g := smGet ({} : TileProg) p.tiles t
  let obj := d.syncId.toNat
  let before := (g.cmds.take i).foldl (fun n c => match c with
    | .syncWait e => if e.syncId.toNat = obj then max n e.operand.toNat else n
    | _ => n) 0
  let all := (List.range 24).flatMap (p.portStores b obj)
  ((all.take d.operand.toNat).drop before).flatten.filterMap (fun x => if x.1 = t then some x.2 else none)

/-- What the schedule stores in a tile by the time a command runs, and what it sends from the tile once it has completed. -/
def Program.beside (p : Program) (b : Bindings) (t : Nat) : Beside := fun cid =>
  let g := smGet ({} : TileProg) p.tiles t
  ((b.transfers.filter (fun x => x.dst == t && x.consumer == cid && !x.recv)).map (fun x => ⟨x.dstAddr, 0, x.bytes, 1⟩) ++
    (g.cmds.zipIdx.filter (fun c => c.1.cid == cid)).flatMap (fun c => match c.1 with
      | .syncWait d => p.waitedFor b t c.2 d
      | _ => []),
   (b.transfers.filter (fun x => x.src == t && x.after == cid)).map (fun x => ⟨x.srcAddr, 0, x.bytes, 1⟩))

/-! ### The whole image -/

/-- Largest TOKEN_UNITS of a row (R302). -/
def Program.rowUnits (p : Program) (y : Nat) : Nat := ((p.placement.take (p.maxTokens / 128)).filter (· == y)).length

/-- Whether a field is in use by a field map. -/
def fieldUsed (map : BitVec 128) (i : Nat) : Bool := bitsOf map.toNat (2 * i + 1) (2 * i) == 0

/-- Read a program, with every status that rejects it. -/
def readProgram (m : Image) (digest : Digest) (b : Bindings) (slab field : Nat) : Program × List Code :=
  let f := imgNum m kelletSite
  let map : BitVec 128 := BitVec.ofNat 128 (f 0x20 16)
  let used := (List.range logicalTiles).filter (fun t => fieldUsed map (fieldOfLogical t))
  let images := used.map (fun t => (t, readTile m t))
  let pbs := (List.range 24).map (fun n => (n, readPb m n))
  let table := readSyncTable m
  let p : Program := {
    digest := digest
    tokenBytes := f 6 1
    refireBudget := f 7 1
    maxTokens := f 8 4
    idleUs := f 0xC 4
    realignPeriod := f 0x10 2
    gradFormat := f 0x12 1
    fieldMap := map
    syncTable := table
    groups := (List.range (min (f 0x13 1) 16)).map (readGroupEntry m)
    placement := (imgBytes m kelletSite 0x61400 1024).map (·.toNat)
    tiles := images.map (fun (x : Nat × TileImage) => (x.1, x.2.prog))
    pbs := pbs.map (fun (x : Nat × (PbProg × List Code)) => (x.1, x.2.1))
    directive := readDirective m
    bindings := b }
  let flits (t : Nat) (cid : BitVec 64) : Nat := ((b.recvFlits.find? (fun x => x.1 == t && x.2.1 == cid)).map (·.2.2)).getD 0
  let units (t : Nat) : Nat := p.rowUnits (rowOf t)
  (p, kelletCodes m table field ++
    images.flatMap (fun (x : Nat × TileImage) => x.2.codes ++ fails [(strayBytes m x.1 x.2.parts, 0x1003)] ++
      tileCodes x.2.prog x.1 (units x.1) slab p.gradFormat table (flits x.1) (p.beside b x.1)) ++
    ((List.range logicalTiles).filter (fun t => !fieldUsed map (fieldOfLogical t))).flatMap (fun t =>
      fails [(strayBytes m t [], 0x100B)]) ++
    pbs.flatMap (fun (x : Nat × (PbProg × List Code)) => x.2.2) ++
    fails [(p.sectionFails, 0x100B), (p.lossFails, 0x2202), (p.groupFails, 0x2309), (p.intakeFails, 0x5014),
      (b.transfers.any (p.transferFails units), 0x2109)])

/-- The status that rejects a program of which several checks fail (log entry 24). -/
def rejectOf (codes : List Code) : Option Code :=
  match ([0x1003, 0x100B, 0x1010] : List Code).find? codes.contains with
  | some c => some c
  | none => codes.head?

/-! ### PROGRAM_LOAD (R301, R336) -/

/-- 60 s of the time-stamp counter. -/
def coolDown : Nat := 66000000000

/-- PROGRAM_LOAD: its status; an accepted program is being installed and the field regions start. -/
def State.loadProgram (s0 : State) (digest : Digest) (b : Bindings) (o : Owed) : State × Code :=
  let hot := s0.power.tooHot.isSome && decide (s0.now.toNat < s0.power.hotAt.toNat + coolDown)
  let s : State := if hot then s0 else { s0 with power := { s0.power with tooHot := none } }
  if hot then (s, s.power.tooHot.getD 0)
  else if !s.host.programOpen then (s, 0x100B)
  else
    let m := s.host.programImage
    if programDigest m ≠ digest then (s, 0x1008)
    else
      let r := readProgram m digest b (slabPages s.variant) (fieldMapValue s.repair)
      match rejectOf r.2 with
      | some c => (s, c)
      | none =>
        let w := (List.range 56).foldl (fun w i =>
          if fieldState s.repair i = 2 ∨ (regionOf w i).state = .active then w else w.updRegion i (·.enter .ramp)) s.power
        ({ s with
           power := w
           host := { s.host with
             programOpen := false
             installing := some (o, r.1) } }, 0x0001)

/-- A tile of an installed program: its image in the program area, its palette tables, its sequencer at the start. -/
def State.installTile (s : State) (m : Image) (t : Nat) (g : TileProg) : State :=
  let p := physOf s.repair t
  let pal := imgNum m t 36 4
  let s1 := s.tileWrite p programBase (imgBytes m t 0 0x100000)
  let s2 := if g.hasPalette then s1.tileWrite p paletteBase (imgBytes m t pal 0x10000) else s1
  s2.updTile p (fun x => { x with
    paletteControl := g.paletteControl
    halted := false
    stopped := false
    waiting := none
    issued := 0
    lastSlot := none })

/-- Copy a persistent page of a field fenced in state 0b01 to where the new program places it (R43): the committed page of the one
slice becomes that of the other. -/
def State.placePage (s : State) (x : Nat × Nat) : State :=
  let a := x.1 / 1024
  let b := x.2 / 1024
  let lp := x.2 % 1024
  if fieldState s.repair (fieldOfLogical a) ≠ 1 ∨ fieldState s.repair (fieldOfLogical b) ≠ 0 then s
  else match s.pageOf false a (x.1 % 1024), (s.pageOf false b lp).or (s.freePages b).head? with
    | some src, some dst =>
      (s.tileWrite (physOf s.repair b) (pageAddr dst 0) (tileRead s (physOf s.repair a) (pageAddr src 0) pageBytes)).setEntry b lp
        (packEntry ⟨dst, true, tagOf s.gen⟩ ⟨0, false, 0⟩)
    | _, _ => s

/-- The Kellet image of a program as record slab 19 holds it (R397): offsets in the image. -/
def kelletCells (m : Image) : List Host.Cell :=
  m.filterMap (fun c => if siteBase kelletSite ≤ c.1 ∧ c.1 < siteBase (kelletSite + 1) then some (c.1 - siteBase kelletSite, c.2)
    else none)

/-- The program is installed and the module is ACTIVE. -/
def State.installProgram (s : State) (p : Program) : State :=
  let s1 := p.tiles.foldl (fun (s : State) (x : Nat × TileProg) => s.installTile s.host.programImage x.1 x.2) s
  let s2 := { s1 with
    program := some p
    sync := { syncInstall p.syncTable with
              dump := s1.sync.dump
              armed := s1.sync.armed }
    pbs := (s1.pbs.map (fun (x : Nat × PbState) => (x.1, ({ stats := x.2.stats } : PbState)))).filter (fun x => x.2 ≠ {})
    reduce := {}
    step := { s1.step with anyNumber := true }
    mesh := {}
    host := { s1.host with
      programImage := []
      installing := none
      kelletImage := kelletCells s1.host.programImage } }
  let fresh : Ring := { state := if s2.trace.armed then 0 else 2 }
  let rings := (List.range physicalTiles).foldl (fun m k =>
    smPut {} k (if 0 < ringCapacity s2 k then fresh else {}) m) s2.trace.rings
  p.bindings.moves.foldl State.placePage ({ s2 with trace := { s2.trace with rings := rings } }.activate)

/-- PROGRAM_LOAD_COMPLETE: the regions are ACTIVE, but those that could not start and are broken; the installation ends. -/
def execProgramLoadComplete (failedRegions : List Nat) (s : State) : Host.Outcome State Fault Refusal :=
  if failedRegions.any (fun i => decide (56 ≤ i)) then .next s
  else match s.host.installing with
    | none => .next s
    | some (o, p) =>
      let failed := failedRegions.filter (fun i => (regionOf s.power i).state == .ramp)
      let s1 := (failed.foldl (fun s i => (s.openBreaker i).raise 0x7010 moduleWide noCmd i) s).boundary
      if p.fieldMap.toNat ≠ fieldMapValue s1.repair then
        .next (({ s1 with host := { s1.host with installing := none } }.activate.toStandby).commandDone o 0x1010)
      else .next ((s1.installProgram p).commandDone o 0)

/-- PROGRAM_BEGIN: the program goes, the module is in STANDBY, and PROGRAM may be written; a load in progress ends. -/
def State.beginProgram (s : State) : State :=
  let s1 := match s.host.installing with
    | some x => s.commandDone x.1 0x100B
    | none => s
  let s2 := s1.unloadProgram.toStandby
  { s2 with host := { s2.host with programOpen := true } }

end Sys2Proof.Machine
end

