-- ==== Sys2Proof/Machine/Delit.lean ====
section
/-! DEFINITION. Sys2Proof/Machine/Delit.lean: the commands of a Delit session (chapter 13, Table 13-8): the window in which they
are executed in order (R310, R311), who may send them and when (R309, R314), and what each does and answers. -/

namespace Sys2Proof.Machine

/-! ### Answers -/

/-- What a command leaves and answers: state, status, payload. -/
abbrev Answer := State × Code × Bytes

def State.refuse (s : State) (c : Code) : Answer := (s, c, [])
def State.ok (s : State) (b : Bytes := []) : Answer := (s, 0, b)
/-- A long command is accepted (R311). -/
def State.accepted (s : State) : Answer := (s, 0x0001, [])

def owedTo (h : Hdr) : Owed := ⟨h.session, h.cid⟩

/-- Entries `first` to `first + count - 1` of a table of `n`, or 0x1004. -/
def State.readEntries (s : State) (n first count : Nat) (f : Nat → Bytes) : Answer :=
  if n < first + count then s.refuse 0x1004 else s.ok ((List.range count).flatMap (fun i => f (first + i)))

/-! ### Sessions end (R309, R367) -/

/-- A session ends: an export it was reading over Ethernet ends with it. -/
def State.endSession (s : State) (id : Nat) (status : Code) : State :=
  let mine := match s.survival.exporting with
    | some e => e.req.dest == 1 && e.owed.session == id
    | none => false
  (if mine then s.endExport 0x320A else s).closeSession id status

/-! ### Bulk regions (Table 13-3, R299 to R301, R303) -/

/-- A write to a bulk region by the controlling session: the state, and the status of a BULK_WRITE. -/
def State.writeRegion (s : State) (region : Sys2Proof.Region) (off : Nat) (data : Bytes) : State × Code :=
  let n := data.length
  match region.toNat with
  | 1 =>
    if !s.host.programOpen then (s, 0x100B)
    else if 2 ^ 32 < off + n then (s, 0x1004)
    else ({ s with host := { s.host with programImage := wrBytes s.host.programImage off data } }, 0)
  | 2 =>
    let bank := 0x200000 * (s.step.current.stepNumber.toNat % 2)
    if 0x400000 < off + n then (s, 0x1004)
    else if s.step.inProgress ∧ off < bank + 0x200000 ∧ bank < off + n then (s, 0x1005)
    else ({ s with host := { s.host with batch := wrBytes s.host.batch off data } }, 0)
  | _ => (s, 0x1004)

/-- Image offset of an owed page, by its logical key (Table 16-3). -/
def State.imageOffset (s : State) (e : Export) (key : Nat) : Nat :=
  dataOffset (fieldAt e.image 120 8) + (s.pagesBefore (key / 1024) + key % 1024) * pageBytes

/-- Pages of an export of which every byte has been read are freed (R367). -/
def State.freeRead (s : State) (e : Export) : State :=
  let due (k : Nat) : Bool :=
    let off := s.imageOffset e k
    decide (coverFrom e.ranges.length off e.ranges < off + pageBytes)
  { s with pages := { s.pages with
      owed := s.pages.owed.filter due
      placed := s.pages.placed.filter due
      staged := s.pages.staged.filter (fun (x : Nat × Nat) => due x.1) } }

/-- A read of a bulk region by a session; none when it is refused. -/
def State.readRegion (s : State) (session : Nat) (region : Sys2Proof.Region) (off n : Nat) : Option (State × Bytes) :=
  match region.toNat with
  | 3 => match s.sessionOf session with
    | some x => if off + n ≤ x.result.length then some (s, cut x.result off n) else none
    | none => none
  | 4 => match s.survival.exporting with
    | some e =>
      if e.req.dest = 1 ∧ off + n ≤ e.image.length then
        let e1 := { e with ranges := e.ranges ++ [(off, n)] }
        some (({ s with survival := { s.survival with exporting := some e1 } }.freeRead e1).wake, cut e.image off n)
      else none
    | none => none
  | _ => none

/-! ### What each command does -/

/-- EVENT_FILTER. -/
def doEventFilter (h : Hdr) (severity : BitVec 8) (s : State) : Answer :=
  if severity = 0 ∨ 4 < severity.toNat then s.refuse 0x1004
  else (s.updSession h.session (fun x => { x with filter := severity.toNat })).ok

/-- MODULE_INFO (R306, R375, R405): variant, position ID, feed ID, measurement, survival status, counters of sessions. -/
def doModuleInfo (s : State) : Answer :=
  s.ok (leBytes 1 (variantCode s.variant) ++ zeros 1 ++ leBytes 2 s.boot.positionId.toNat ++ leBytes 2 s.feedId.toNat ++
    leBytes 2 s.host.sessions.length ++ digestBytes s.boot.measurement ++ leBytes 16 s.survivalStatus ++
    leBytes 8 s.host.dropped ++
    s.host.sessions.flatMap (fun x => leBytes 4 x.id ++ leBytes 4 x.tagFail ++ leBytes 4 x.lostEvents ++ zeros 4))

/-- QP_CREATE (R298, R303): number, sequence number and the memory keys of the four bulk regions are drawn. -/
def doQpCreate (h : Hdr) (s : State) : Answer :=
  if h.port = .service then s.refuse 0x100D
  else if 16 ≤ (s.host.queuePairs.filter (fun q => q.port = h.port)).length then s.refuse 0x1004
  else
    let d := s.draw
    let v := d.1.toNat
    let q : QueuePair := { qpn := BitVec.ofNat 24 v, session := h.session, port := h.port, psn := BitVec.ofNat 24 (v / 2 ^ 24)
                           keys := (List.range 4).map (fun i => BitVec.ofNat 32 (v / 2 ^ (48 + 32 * i))) }
    let s1 := { d.2 with host := { d.2.host with queuePairs := d.2.host.queuePairs ++ [q] } }
    s1.ok (leBytes 4 q.qpn.toNat ++ leBytes 4 q.psn.toNat ++ beBytes 16 (Config.gid (portIndex h.port) (s.lease h.port)).toNat ++
      q.keys.flatMap (fun k => leBytes 4 k.toNat))

/-- QP_DESTROY. -/
def doQpDestroy (h : Hdr) (qpn : BitVec 24) (s : State) : Answer :=
  if h.port = .service then s.refuse 0x100D
  else
    let mine (q : QueuePair) : Bool := q.qpn == qpn && q.session == h.session
    if !s.host.queuePairs.any mine then s.refuse 0x1004
    else { s with host := { s.host with queuePairs := s.host.queuePairs.filter (fun q => !mine q) } }.ok

/-- BULK_WRITE (R303). -/
def doBulkWrite (region : Sys2Proof.Region) (off : BitVec 56) (data : Bytes) (s : State) : Answer :=
  if 1024 < data.length then s.refuse 0x1004
  else
    let r := s.writeRegion region off.toNat data
    (r.1, r.2, [])

/-- BULK_READ (R303). -/
def doBulkRead (h : Hdr) (region : Sys2Proof.Region) (off : BitVec 56) (n : Nat) (s : State) : Answer :=
  if 1024 < n then s.refuse 0x1004
  else match s.readRegion h.session region off.toNat n with
    | some r => r.1.ok r.2
    | none => s.refuse 0x1004

/-- PROGRAM_LOAD (R301). -/
def doProgramLoad (h : Hdr) (digest : Digest) (b : Bindings) (s : State) : Answer :=
  let r := s.loadProgram digest b (owedTo h)
  (r.1, r.2, [])

/-- STEP_DISCARD's status (R312); the discard itself follows the response. -/
def doStepDiscard (s : State) : Answer :=
  if s.step.phase = .idle ∨ s.step.committed ∨ s.step.phase = .sealing then s.refuse 0x100C else s.ok

/-- RECEIPT_FETCH (R251). -/
def doReceiptFetch (step : BitVec 64) (s : State) : Answer :=
  match s.step.receipts.find? (fun x => x.1 == step) with
  | some x => s.ok x.2
  | none => s.refuse 0x1004

/-- STRATA_STATUS_READ (R177). -/
def doStrataStatus (tile : Nat) (s : State) : Answer :=
  if logicalTiles ≤ tile then s.refuse 0x1004
  else s.ok (leBytes 8 ((tileOf s (physOf s.repair tile)).strata.status s.step.switchLayer))

/-- LOSS_SCALE_WRITE (R205): the RW fields. -/
def doLossScaleWrite (v : BitVec 64) (s : State) : Answer :=
  if !lsValid v then s.refuse 0x1004
  else { s with step := { s.step with lossScale := lsPack v (lsField v 7 0) (lsField s.step.lossScale 63 48) } }.ok

/-- Whether a group entry's values are refused (R199): β outside [0, 1), eps at or below 0, a value that is not finite. -/
def optInvalid (e : BitVec 256) : Bool :=
  let f (i : Nat) : Nat := bitsOf e.toNat (32 * i + 31) (32 * i)
  let beta (v : Nat) : Bool := decide (v < 0x3F800000) || v == 0x80000000
  (List.range 6).any (fun i => bitsOf (f i) 30 23 == 255) || !beta (f 1) || !beta (f 2) || f 3 == 0 || decide (2 ^ 31 ≤ f 3)

/-- OPT_GROUP_WRITE (R199). -/
def doOptGroupWrite (i : Nat) (e : BitVec 256) (s : State) : Answer :=
  if 64 ≤ i then s.refuse 0x1004
  else if bitsOf e.toNat 255 193 ≠ 0 then s.refuse 0x1003
  else if optInvalid e then s.refuse 0x1004
  else { s with step := { s.step with optGroups := smPut 0 i e s.step.optGroups } }.ok

/-- OPT_GROUP_READ. -/
def doOptGroupRead (first count : Nat) (s : State) : Answer :=
  s.readEntries 64 first count (fun i => leBytes 32 (smGet (0 : BitVec 256) s.step.optGroups i).toNat)

/-- WINDOW_WRITE (R217). -/
def doWindowWrite (i : Nat) (v : BitVec 16) (s : State) : Answer :=
  if 256 ≤ i then s.refuse 0x1004
  else if 512 ≤ v.toNat then s.refuse 0x1003
  else if windowExp v < -64 ∨ 111 < windowExp v then s.refuse 0x1004
  else { s with step := { s.step with windows := smPut 0 i v s.step.windows } }.ok

/-- WINDOW_READ. -/
def doWindowRead (first count : Nat) (s : State) : Answer :=
  s.readEntries 256 first count (fun i => leBytes 2 (s.window i).toNat)

/-- KILN_STATS_READ (R218). -/
def doKilnStatsRead (first count : Nat) (s : State) : Answer :=
  s.readEntries 256 first count (fun i => leBytes 8 (s.kilnStats i).toNat)

/-- KILN_STATS_CLEAR. -/
def doKilnStatsClear (s : State) : Answer :=
  ((s.pbs.map (·.1)).foldl (fun s n => s.updPb n (fun p => { p with stats := [] })) s).ok

/-- FIELD_FENCE (R43): a field in use, or fenced with its power, becomes 0b01; a dark field stays dark. -/
def doFieldFence (i : Nat) (s : State) : Answer :=
  if 56 ≤ i then s.refuse 0x1004
  else if fieldState s.repair i = 2 then s.ok
  else (s.fenceField i true).ok

/-- FIELD_UNFENCE (R43). -/
def doFieldUnfence (i : Nat) (s : State) : Answer :=
  if 56 ≤ i then s.refuse 0x1004
  else if fieldState s.repair i ≠ 1 ∨ !s.repair.fullPassed.contains i then s.refuse 0x1011
  else (s.setField i 0).moveRecord.ok

/-- Whether SELFTEST_REQUEST fails at once (R355, Table 15-9). -/
def selftestInvalid (s : State) (site block lane : Nat) (full recal : Bool) : Bool :=
  let tile := decide (site < physicalTiles)
  let pb := decide (0xB00 ≤ site) && decide (site < 0xB18)
  (!tile && !pb && site != 0xFFF) || decide (17 < block) || (block != 16 && lane != 0) || decide (4 < lane) ||
    (block == 16 && !pb) || (recal && block != 16) || (full && (!tile || block != 0)) ||
    (tile && fieldState s.repair (fieldOfPhys site) == 2) ||
    (block == 16 && (linkOf s (site - 0xB00)).state == .absent)

/-- The request has been accepted: it is refused at its end when the lane cannot leave service (R358), and queued otherwise. -/
def State.requestTest (s : State) (o : Owed) (site block lane : Nat) (full recal : Bool) : State :=
  let l := linkOf s (site - 0xB00)
  if block = 16 ∧ l.carries ∧ l.lanes.getLsbD lane ∧ (l.state = .up3 ∨ !l.spareFree) then s.commandDone o 0x1004
  else s.wake.queueTest site block lane full recal [o]

/-- SELFTEST_REQUEST. -/
def doSelftest (site block lane : Nat) (full recal : Bool) (s : State) : Answer :=
  if selftestInvalid s site block lane full recal then s.refuse 0x1004 else s.accepted

/-- POSITION_ID_SET (R264). -/
def doPositionIdSet (id : BitVec 16) (s : State) : Answer :=
  if s.program.isSome then s.refuse 0x1005
  else if 0xF000 ≤ id.toNat ∧ id ≠ 0xFFFF then s.refuse 0x1004
  else { s with boot := { s.boot with positionId := id } }.ok

/-- PEER_TABLE_WRITE (R267, Table 11-8). -/
def doPeerTableWrite (n : Nat) (e : BitVec 32) (s : State) : Answer :=
  if 24 ≤ n then s.refuse 0x1004
  else if 2 ^ 19 ≤ e.toNat then s.refuse 0x1003
  else if bitsOf e.toNat 17 16 = 3 ∨ (linkOf s n).state = .absent then s.refuse 0x1004
  else (s.setPeer n e).ok

/-- LINK_STATUS_READ (Table 11-11). -/
def doLinkStatus (first count : Nat) (s : State) : Answer := s.readEntries 24 first count (fun n => leBytes 8 (s.linkStatus n))

/-- SYNC_READ (R289). -/
def doSyncRead (obj : Nat) (s : State) : Answer :=
  if 32768 ≤ obj then s.refuse 0x1004
  else s.ok (objRecord s.sync obj ++ (s.sync.waiters.filter (fun w => w.obj == obj)).flatMap waiterEntry)

/-- What every hand-set leaves (R290, R291): the host as last signaller, HAND_SET, the capture's record. -/
def State.noteHandSet (s : State) (obj action : Nat) (value : BitVec 64) : State :=
  let o := s.obj obj
  let s1 := s.setObj obj { o with
    last := signaller 2 0 0 (low32 s.step.number)
    handSet := true }
  { s1 with sync := { s1.sync with
      stepHandSet := s1.sync.stepHandSet || s.step.inProgress
      handSets := s1.sync.handSets ++ [⟨obj, action, value⟩] } }

/-- SET_VALUE (R290). -/
def doSetValue (obj : Nat) (value : BitVec 64) (s : State) : Answer :=
  let o := s.obj obj
  if !s.policy 0 then s.refuse 0x6008
  else if 32768 ≤ obj ∨ (o.kind ≠ 1 ∧ o.kind ≠ 3) ∨ 2 ^ 48 ≤ value.toNat then s.refuse 0x1004
  else
    let s1 := (s.setObj obj (o.setValue value.toNat)).noteHandSet obj 0 value
    ((s1.wakeSatisfied obj).raise 0x6007 moduleWide noCmd obj).ok

/-- RELEASE (R290). -/
def doRelease (obj : Nat) (s : State) : Answer :=
  if !s.policy 0 then s.refuse 0x6008
  else if 32768 ≤ obj ∨ (s.obj obj).kind ≠ 2 then s.refuse 0x1004
  else (((s.completeRound obj).noteHandSet obj 1 0).raise 0x6007 moduleWide noCmd obj).ok

/-- SYNC_DUMP (R292; log entry 108). -/
def doSyncDump (h : Hdr) (s : State) : Answer :=
  let s1 := s.writeSyncDump 0 (blockedQueues s)
  (s1.startFetch (owedTo h) (match s1.sync.dump with | some x => x.2 | none => []) 0).accepted

/-- CLOCK_RATIO_SET (R333). -/
def doClockRatio (half ratio : BitVec 8) (s : State) : Answer :=
  if 2 < half.toNat ∨ 2 < ratio.toNat then s.refuse 0x700F else (s.setRatio half ratio).ok

/-- POWER_STATUS_READ (Table 14-7). -/
def doPowerStatus (s : State) : Answer :=
  let r := s.powerStatus
  r.1.ok r.2

/-- Whether a store address is malformed: a store endpoint and a 4 KiB aligned address when it is used, zero otherwise. -/
def storeInvalid (used : Bool) (id : BitVec 16) (address : BitVec 64) : Bool :=
  if used then decide (id.toNat < 0xF000) || id == 0xFFFF || address.toNat % 4096 != 0 else id != 0 || address != 0

/-- SNAPSHOT_EXPORT (R367, Table 16-2). -/
def doSnapshotExport (h : Hdr) (r : ExportReq) (s : State) : Answer :=
  if 1 < r.dest.toNat ∨ 1 < r.which.toNat ∨ storeInvalid (r.dest == 0) r.storeId r.storeAddress then s.refuse 0x1004
  else if s.survival.exporting.isSome then s.refuse 0x3202
  else if s.program.isNone then s.refuse 0x1008
  else (s.startExport r (owedTo h)).accepted

/-- PARITY_CONFIG (R370). -/
def doParityConfig (c : ParityCfg) (s : State) : Answer :=
  if parityInvalid s c then s.refuse 0x3203
  else if c.rebuildAddress.toNat % 4096 ≠ 0 ∨ (c.members.drop c.size.toNat).any (· ≠ 0xFFFF) then s.refuse 0x1004
  else (s.configureParity c).ok

/-- RESTORE's acceptance (R378, Table 16-10). -/
def doRestore (source : Nat) (r : RestoreReq) (s : State) : Answer :=
  if s.program.isNone then s.refuse 0x1008
  else if storeInvalid (source == 0) r.storeId r.storeAddress then s.refuse 0x1004
  else s.accepted

/-- A restore that has been accepted; one in progress ends. -/
def State.beginRestore (s : State) (source : Nat) (r : RestoreReq) (o : Owed) : State :=
  let s1 := match s.survival.restoring with
    | some x => s.endRestore x.owed 0x3209
    | none => s
  s1.startRestore source r o

/-- TRACE_CONFIG actions 0 and 2 (R389). -/
def doTraceArm (h : Hdr) (c : TraceCfg) (empty : Bool) (s : State) : Answer :=
  if h.resv ∨ traceCfgInvalid c then s.refuse 0x1004 else (s.armTrace c empty).ok

/-- TRACE_CONFIG action 1. -/
def doTraceDisarm (h : Hdr) (s : State) : Answer := if h.resv then s.refuse 0x1004 else s.disarmTrace.ok

/-- TRACE_FETCH (R392). -/
def doTraceFetch (h : Hdr) (first count : BitVec 16) (withModule : Bool) (s : State) : Answer :=
  match s.traceData first.toNat count.toNat withModule with
  | some b => (s.startFetch (owedTo h) b 0).accepted
  | none => s.refuse 0x1004

/-- COUNTER_READ with selector 0 (R395). -/
def doCounters (h : Hdr) (mask first count : BitVec 16) (time : BitVec 64) (s : State) : Answer :=
  if counterReadInvalid s first.toNat count.toNat time then s.refuse 0x1004
  else (s.startSampling (owedTo h) mask first.toNat count.toNat time).accepted

/-- COUNTER_READ with selector 1 (R396). -/
def doPhaseDetails (h : Hdr) (first : BitVec 64) (count : BitVec 16) (s : State) : Answer :=
  if count = 0 ∨ 256 < count.toNat then s.refuse 0x1004
  else (s.startFetch (owedTo h) (s.phaseDetails first count.toNat) 0).accepted

/-- REPLAY_FETCH (R398, R415). -/
def doReplayFetch (h : Hdr) (step : BitVec 64) (attempt : BitVec 16) (s : State) : Answer :=
  if !s.policy 2 then s.refuse 0x8007
  else match s.captureOf step attempt.toNat with
    | some c => (s.startFetch (owedTo h) c.image 0).accepted
    | none => s.refuse 0x1004

/-- DUMP_FETCH (R403, R415): a part that the dump lacks ends the fetch with 0x1004. -/
def doDumpFetch (h : Hdr) (part : BitVec 8) (first count : BitVec 16) (s : State) : Answer :=
  if (part = 1 ∨ part = 4) ∧ !s.policy 1 then s.refuse 0x8007
  else if 4 < part.toNat ∨ (part = 4 ∧ (count = 0 ∨ 56 < count.toNat ∨ physicalTiles < first.toNat + count.toNat)) then
    s.refuse 0x1004
  else
    let r := s.dumpPart part.toNat first.toNat count.toNat
    (s.startFetch (owedTo h) r.1 r.2).accepted

/-! ### Executing a command (R309 to R314) -/

/-- Commands that only the controlling session may send (Table 13-8, column S). -/
def needsControl : DelitOp → Bool
  | .ping | .sessionClose | .eventFilter _ | .moduleInfo | .qpCreate | .qpDestroy _ | .bulkRead _ _ _ | .stepStatusRead
  | .lossRead | .receiptFetch _ | .strataStatusRead _ | .lossScaleRead | .optGroupRead _ _ | .windowRead _ _
  | .kilnStatsRead _ _ | .fieldMapRead | .repairMapRead | .linkStatusRead _ _ | .syncRead _ | .syncDump | .powerStatusRead
  | .traceFetch _ _ _ | .counterReadCounters _ _ _ _ | .counterReadPhaseDetails _ _ | .replayFetch _ _ | .dumpFetch _ _ _
  | .attest _ => false
  | _ => true

/-- Commands that are accepted only between steps (column W); STEP_OPEN's own checks say so for it. -/
def betweenSteps : DelitOp → Bool
  | .programBegin | .programLoad _ _ | .lossScaleWrite _ | .optGroupWrite _ _ | .windowWrite _ _ | .kilnStatsClear
  | .fieldFence _ | .fieldUnfence _ | .positionIdSet _ | .peerTableWrite _ _ | .parityConfig _ | .restoreStore _ | .restoreBase _
  | .restoreRebuild _ | .traceSetAndArm _ | .traceDisarm | .traceEmptyAndArm _ | .stepOpen _ => true
  | _ => false

/-- Whether the command's own chapter gives the status of a reserved field that is not zero. -/
def ownReserved : DelitOp → Bool
  | .traceSetAndArm _ | .traceDisarm | .traceEmptyAndArm _ | .stepOpen _ => true
  | _ => false

/-- What a command does and answers once its sender and moment are right. -/
def performOp (h : Hdr) (op : DelitOp) (s : State) : Answer :=
  match op with
  | .ping | .sessionClose => s.ok
  | .eventFilter v => doEventFilter h v s
  | .moduleInfo => doModuleInfo s
  | .qpCreate => doQpCreate h s
  | .qpDestroy q => doQpDestroy h q s
  | .bulkWrite r o d => doBulkWrite r o d s
  | .bulkRead r o n => doBulkRead h r o n s
  | .programBegin => s.beginProgram.ok
  | .programLoad d b => doProgramLoad h d b s
  | .stepOpen p => match openRejects s h.resv p with
    | some c => s.refuse c
    | none => s.openStep p
  | .stepDiscard => doStepDiscard s
  | .stepStatusRead => s.ok (leBytes 4 s.step.status.toNat)
  | .lossRead => s.ok s.step.lossBytes
  | .receiptFetch n => doReceiptFetch n s
  | .strataStatusRead t => doStrataStatus t s
  | .lossScaleWrite v => doLossScaleWrite v s
  | .lossScaleRead => s.ok (leBytes 8 s.step.lossScale.toNat)
  | .optGroupWrite i e => doOptGroupWrite i e s
  | .optGroupRead a n => doOptGroupRead a n s
  | .windowWrite i v => doWindowWrite i v s
  | .windowRead a n => doWindowRead a n s
  | .kilnStatsRead a n => doKilnStatsRead a n s
  | .kilnStatsClear => doKilnStatsClear s
  | .fieldMapRead => s.ok (leBytes 16 (fieldMapValue s.repair))
  | .repairMapRead => s.ok (leBytes 168 (repairMapValue s.repair))
  | .fieldFence i => doFieldFence i s
  | .fieldUnfence i => doFieldUnfence i s
  | .selftestTest a b c => doSelftest a.toNat b.toNat c.toNat false false s
  | .selftestRecalibrate a b c => doSelftest a.toNat b.toNat c.toNat false true s
  | .selftestFull a => doSelftest a.toNat 0 0 true false s
  | .positionIdSet i => doPositionIdSet i s
  | .peerTableWrite n e => doPeerTableWrite n e s
  | .linkStatusRead a n => doLinkStatus a n s
  | .syncRead i => doSyncRead i s
  | .setValue i v => doSetValue i v s
  | .release i => doRelease i s
  | .syncDump => doSyncDump h s
  | .clockRatioSet a b => doClockRatio a b s
  | .powerStatusRead => doPowerStatus s
  | .snapshotExport r => doSnapshotExport h r s
  | .parityConfig c => doParityConfig c s
  | .restoreStore r => doRestore 0 r s
  | .restoreBase r => doRestore 1 r s
  | .restoreRebuild r => doRestore 2 r s
  | .traceSetAndArm c => doTraceArm h c false s
  | .traceDisarm => doTraceDisarm h s
  | .traceEmptyAndArm c => doTraceArm h c true s
  | .traceFetch a n m => doTraceFetch h a n m s
  | .counterReadCounters m a n t => doCounters h m a n t s
  | .counterReadPhaseDetails a n => doPhaseDetails h a n s
  | .replayFetch n a => doReplayFetch h n a s
  | .dumpFetch p a n => doDumpFetch h p a n s
  | .attest n => s.ok (s.attestReport n)

/-- What follows the response of a command that took effect or was accepted (R311, R312). -/
def followOp (h : Hdr) (op : DelitOp) (s : State) : State :=
  match op with
  | .sessionClose => s.endSession h.session 0
  | .stepDiscard => if s.step.phase = .discarding then s else s.raise 0x1012 moduleWide
  | .selftestTest a b c => s.requestTest (owedTo h) a.toNat b.toNat c.toNat false false
  | .selftestRecalibrate a b c => s.requestTest (owedTo h) a.toNat b.toNat c.toNat false true
  | .selftestFull a => s.requestTest (owedTo h) a.toNat 0 0 true false
  | .restoreStore r => s.beginRestore 0 r (owedTo h)
  | .restoreBase r => s.beginRestore 1 r (owedTo h)
  | .restoreRebuild r => s.beginRestore 2 r (owedTo h)
  | _ => s

/-- The response leaves and is cached among the last 64. -/
def State.respond (s : State) (h : Hdr) (status : Code) (payload : Bytes) : State :=
  let m := HostMsg.response h.session h.seq h.cid status payload
  (s.updSession h.session (fun x => { x with
    executed := h.seq
    cache := (m :: x.cache).take 64 })).sendHost m

/-- A command's answer, by its sender, its moment and its reserved fields. -/
def answerOp (h : Hdr) (op : DelitOp) (control : Bool) (s : State) : Answer :=
  if needsControl op ∧ !control then s.refuse 0x1006
  else if betweenSteps op ∧ s.step.inProgress then s.refuse 0x1005
  else if h.resv ∧ !ownReserved op then s.refuse 0x1003
  else performOp h op s

/-- Whether a STEP_OPEN passes its checks and must wait for tests or repairs (R249, R348). -/
def mustWait (h : Hdr) (op : DelitOp) (control : Bool) (s : State) : Bool :=
  match op with
  | .stepOpen p => control && !s.step.inProgress && (openRejects s h.resv p).isNone && s.openWaits
  | _ => false

/-- Execute a command of a session, whole. -/
def State.execute (s : State) (h : Hdr) (op : DelitOp) (control : Bool) : State :=
  if mustWait h op control s then
    match op with
    | .stepOpen p => { s with host := { s.host with waitingOpen := some (h, p) } }
    | _ => s
  else
    let r := answerOp h op control s
    let s1 := r.1.respond h r.2.1 r.2.2
    if r.2.1.toNat ≤ 1 then followOp h op s1 else s1

/-- A STEP_OPEN of the session waits. -/
def State.openPending (s : State) (id : Nat) : Bool :=
  match s.host.waitingOpen with
  | some x => x.1.session == id
  | none => false

/-- Execute the commands held in order, as far as they follow one another. -/
def State.runHeld (id : Nat) : (fuel : Nat) → State → State
  | 0, s => s
  | n + 1, s =>
    match s.sessionOf id with
    | none => s
    | some x =>
      if s.openPending id then s
      else match x.held.find? (fun c => c.1.seq == x.executed + 1) with
        | none => s
        | some c => State.runHeld id n ((s.updSession id (fun y => { y with
            held := y.held.filter (fun d => d.1.seq ≠ c.1.seq) })).execute c.1 c.2 x.control)

/-- A command has come (R310): it is dropped, answered from the cache, held, or executed with those held behind it. On the fatal
path nothing more is executed (R359). -/
def State.takeCommand (s : State) (h : Hdr) (op : DelitOp) : State :=
  match s.sessionOf h.session with
  | none => s
  | some x =>
    if s.arbiter.fatal.isSome then s
    else if h.seq ≤ x.executed then
      match x.cache.find? (fun m => match m with | .response _ q _ _ _ => q == h.seq | _ => false) with
      | some m => s.sendHost m
      | none => s
    else if x.executed + 64 < h.seq ∨ x.held.any (fun c => c.1.seq == h.seq) ∨
        (s.openPending h.session ∧ h.seq = x.executed + 1) then s
    else if x.held = [] ∧ h.seq = x.executed + 1 then s.execute h op x.control
    else (s.updSession h.session (fun y => { y with held := y.held ++ [(h, op)] })).runHeld h.session 65

/-- COMMAND datagrams arrive (R304): their command is taken once it is whole. -/
def State.delit (s : State) (h : Hdr) (op : DelitOp) : State := s.takeDgram h.session h.seq 5 h.dg (·.takeCommand h op)

/-- A waiting STEP_OPEN goes on once nothing holds it, under the checks of that moment (R249, R348). -/
def State.resumeOpen (s : State) : State :=
  match s.host.waitingOpen with
  | none => s
  | some (h, p) =>
    if s.openWaits ∨ s.step.inProgress then s
    else
      let s1 := { s with host := { s.host with waitingOpen := none } }
      (s1.execute h (.stepOpen p) true).runHeld h.session 64

/-! ### The rows -/

def execPing (h : Hdr) (s : State) : Host.Outcome State Fault Refusal := .next (s.delit h .ping)
def execSessionClose (h : Hdr) (s : State) : Host.Outcome State Fault Refusal := .next (s.delit h .sessionClose)
def execEventFilter (h : Hdr) (severity : BitVec 8) (s : State) : Host.Outcome State Fault Refusal :=
  .next (s.delit h (.eventFilter severity))
def execModuleInfo (h : Hdr) (s : State) : Host.Outcome State Fault Refusal := .next (s.delit h .moduleInfo)
def execQpCreate (h : Hdr) (s : State) : Host.Outcome State Fault Refusal := .next (s.delit h .qpCreate)
def execQpDestroy (h : Hdr) (qpn : BitVec 24) (s : State) : Host.Outcome State Fault Refusal := .next (s.delit h (.qpDestroy qpn))
def execBulkWrite (h : Hdr) (region : Sys2Proof.Region) (offset : BitVec 56) (data : Bytes) (s : State) :
    Host.Outcome State Fault Refusal := .next (s.delit h (.bulkWrite region offset data))
def execBulkRead (h : Hdr) (region : Sys2Proof.Region) (offset : BitVec 56) (length : Nat) (s : State) :
    Host.Outcome State Fault Refusal := .next (s.delit h (.bulkRead region offset length))
def execProgramBegin (h : Hdr) (s : State) : Host.Outcome State Fault Refusal := .next (s.delit h .programBegin)
def execProgramLoad (h : Hdr) (digest : Digest) (bindings : Bindings) (s : State) : Host.Outcome State Fault Refusal :=
  .next (s.delit h (.programLoad digest bindings))
def execStepOpen (h : Hdr) (p : StepOpen) (s : State) : Host.Outcome State Fault Refusal := .next (s.delit h (.stepOpen p))
def execStepDiscard (h : Hdr) (s : State) : Host.Outcome State Fault Refusal := .next (s.delit h .stepDiscard)
def execStepStatusRead (h : Hdr) (s : State) : Host.Outcome State Fault Refusal := .next (s.delit h .stepStatusRead)
def execLossRead (h : Hdr) (s : State) : Host.Outcome State Fault Refusal := .next (s.delit h .lossRead)
def execReceiptFetch (h : Hdr) (step : BitVec 64) (s : State) : Host.Outcome State Fault Refusal :=
  .next (s.delit h (.receiptFetch step))
def execStrataStatusRead (h : Hdr) (tile : Nat) (s : State) : Host.Outcome State Fault Refusal :=
  .next (s.delit h (.strataStatusRead tile))
def execLossScaleWrite (h : Hdr) (v : BitVec 64) (s : State) : Host.Outcome State Fault Refusal :=
  .next (s.delit h (.lossScaleWrite v))
def execLossScaleRead (h : Hdr) (s : State) : Host.Outcome State Fault Refusal := .next (s.delit h .lossScaleRead)
def execOptGroupWrite (h : Hdr) (index : Nat) (entry : BitVec 256) (s : State) : Host.Outcome State Fault Refusal :=
  .next (s.delit h (.optGroupWrite index entry))
def execOptGroupRead (h : Hdr) (first count : Nat) (s : State) : Host.Outcome State Fault Refusal :=
  .next (s.delit h (.optGroupRead first count))
def execWindowWrite (h : Hdr) (index : Nat) (v : BitVec 16) (s : State) : Host.Outcome State Fault Refusal :=
  .next (s.delit h (.windowWrite index v))
def execWindowRead (h : Hdr) (first count : Nat) (s : State) : Host.Outcome State Fault Refusal :=
  .next (s.delit h (.windowRead first count))
def execKilnStatsRead (h : Hdr) (first count : Nat) (s : State) : Host.Outcome State Fault Refusal :=
  .next (s.delit h (.kilnStatsRead first count))
def execKilnStatsClear (h : Hdr) (s : State) : Host.Outcome State Fault Refusal := .next (s.delit h .kilnStatsClear)
def execFieldMapRead (h : Hdr) (s : State) : Host.Outcome State Fault Refusal := .next (s.delit h .fieldMapRead)
def execRepairMapRead (h : Hdr) (s : State) : Host.Outcome State Fault Refusal := .next (s.delit h .repairMapRead)
def execFieldFence (h : Hdr) (field : Nat) (s : State) : Host.Outcome State Fault Refusal := .next (s.delit h (.fieldFence field))
def execFieldUnfence (h : Hdr) (field : Nat) (s : State) : Host.Outcome State Fault Refusal :=
  .next (s.delit h (.fieldUnfence field))
def execSelftestTest (h : Hdr) (site : BitVec 16) (block lane : BitVec 8) (s : State) : Host.Outcome State Fault Refusal :=
  .next (s.delit h (.selftestTest site block lane))
def execSelftestRecalibrate (h : Hdr) (site : BitVec 16) (block lane : BitVec 8) (s : State) :
    Host.Outcome State Fault Refusal := .next (s.delit h (.selftestRecalibrate site block lane))
def execSelftestFull (h : Hdr) (site : BitVec 16) (s : State) : Host.Outcome State Fault Refusal :=
  .next (s.delit h (.selftestFull site))
def execPositionIdSet (h : Hdr) (id : BitVec 16) (s : State) : Host.Outcome State Fault Refusal :=
  .next (s.delit h (.positionIdSet id))
def execPeerTableWrite (h : Hdr) (link : Nat) (entry : BitVec 32) (s : State) : Host.Outcome State Fault Refusal :=
  .next (s.delit h (.peerTableWrite link entry))
def execLinkStatusRead (h : Hdr) (first count : Nat) (s : State) : Host.Outcome State Fault Refusal :=
  .next (s.delit h (.linkStatusRead first count))
def execSyncRead (h : Hdr) (obj : Nat) (s : State) : Host.Outcome State Fault Refusal := .next (s.delit h (.syncRead obj))
def execSetValue (h : Hdr) (obj : Nat) (value : BitVec 64) (s : State) : Host.Outcome State Fault Refusal :=
  .next (s.delit h (.setValue obj value))
def execRelease (h : Hdr) (obj : Nat) (s : State) : Host.Outcome State Fault Refusal := .next (s.delit h (.release obj))
def execSyncDump (h : Hdr) (s : State) : Host.Outcome State Fault Refusal := .next (s.delit h .syncDump)
def execClockRatioSet (h : Hdr) (half ratio : BitVec 8) (s : State) : Host.Outcome State Fault Refusal :=
  .next (s.delit h (.clockRatioSet half ratio))
def execPowerStatusRead (h : Hdr) (s : State) : Host.Outcome State Fault Refusal := .next (s.delit h .powerStatusRead)
def execSnapshotExport (h : Hdr) (r : ExportReq) (s : State) : Host.Outcome State Fault Refusal :=
  .next (s.delit h (.snapshotExport r))
def execParityConfig (h : Hdr) (c : ParityCfg) (s : State) : Host.Outcome State Fault Refusal := .next (s.delit h (.parityConfig c))
def execRestoreStore (h : Hdr) (r : RestoreReq) (s : State) : Host.Outcome State Fault Refusal :=
  .next (s.delit h (.restoreStore r))
def execRestoreBase (h : Hdr) (r : RestoreReq) (s : State) : Host.Outcome State Fault Refusal :=
  .next (s.delit h (.restoreBase r))
def execRestoreRebuild (h : Hdr) (r : RestoreReq) (s : State) : Host.Outcome State Fault Refusal :=
  .next (s.delit h (.restoreRebuild r))
def execTraceSetAndArm (h : Hdr) (c : TraceCfg) (s : State) : Host.Outcome State Fault Refusal :=
  .next (s.delit h (.traceSetAndArm c))
def execTraceDisarm (h : Hdr) (s : State) : Host.Outcome State Fault Refusal := .next (s.delit h .traceDisarm)
def execTraceEmptyAndArm (h : Hdr) (c : TraceCfg) (s : State) : Host.Outcome State Fault Refusal :=
  .next (s.delit h (.traceEmptyAndArm c))
def execTraceFetch (h : Hdr) (firstTile tileCount : BitVec 16) (moduleRing : Bool) (s : State) :
    Host.Outcome State Fault Refusal := .next (s.delit h (.traceFetch firstTile tileCount moduleRing))
def execCounterReadCounters (h : Hdr) (mask firstTile tileCount : BitVec 16) (sampleTime : BitVec 64) (s : State) :
    Host.Outcome State Fault Refusal := .next (s.delit h (.counterReadCounters mask firstTile tileCount sampleTime))
def execCounterReadPhaseDetails (h : Hdr) (firstStep : BitVec 64) (stepCount : BitVec 16) (s : State) :
    Host.Outcome State Fault Refusal := .next (s.delit h (.counterReadPhaseDetails firstStep stepCount))
def execReplayFetch (h : Hdr) (step : BitVec 64) (attempt : BitVec 16) (s : State) : Host.Outcome State Fault Refusal :=
  .next (s.delit h (.replayFetch step attempt))
def execDumpFetch (h : Hdr) (part : BitVec 8) (firstTile count : BitVec 16) (s : State) : Host.Outcome State Fault Refusal :=
  .next (s.delit h (.dumpFetch part firstTile count))
def execAttest (h : Hdr) (nonce : BitVec 256) (s : State) : Host.Outcome State Fault Refusal := .next (s.delit h (.attest nonce))

/-! ### What ends the waiting of a STEP_OPEN -/

/-- SELFTEST_DONE (R249, R250, R355 to R358). -/
def execSelftestDone (site : BitVec 16) (block lane : BitVec 8) (r : TestResult) (s : State) :
    Host.Outcome State Fault Refusal := .next (s.testDone site.toNat block.toNat lane.toNat r).resumeOpen

/-- COLUMN_SHIFT_COPY_DONE (R41): the copies are done; a discard that waited for them ends. -/
def execColumnShiftCopyDone (s : State) : Host.Outcome State Fault Refusal :=
  if s.arbiter.copying.isEmpty then .next s
  else
    let s1 := { s with arbiter := { s.arbiter with copying := [] } }
    .next (if s1.step.phase = .discarding ∧ s1.arbiter.released then s1.finishDiscard else s1).resumeOpen

end Sys2Proof.Machine
end

