-- ==== Sys2Proof/Machine/Sessions.lean ====
section
/-! DEFINITION. Sys2Proof/Machine/Sessions.lean: setting up a session (R307 to R309), acknowledging and repeating events (R316),
the timeouts of sessions (R304, R307, R309), and RoCEv2 on the data ports (R298, R299). -/

namespace Sys2Proof.Machine

/-! ### The handshake -/

/-- Bytes 0 to 1,159 of a HELLO_REPLY (Table 13-6). -/
def helloBody (id nonce counter : Nat) (ek : Bytes) : Bytes :=
  leBytes 4 id ++ zeros 4 ++ beBytes 32 nonce ++ beBytes 32 (Config.x25519Public counter).toNat ++
    (Config.encapsulate counter ek).toList

/-- "ZW1 Delit session" in ASCII. -/
def sessionContext : Bytes :=
  [0x5A, 0x57, 0x31, 0x20, 0x44, 0x65, 0x6C, 0x69, 0x74, 0x20, 0x73, 0x65, 0x73, 0x73, 0x69, 0x6F, 0x6E]
/-- "ZW1 Delit host" in ASCII. -/
def hostContext : Bytes := [0x5A, 0x57, 0x31, 0x20, 0x44, 0x65, 0x6C, 0x69, 0x74, 0x20, 0x68, 0x6F, 0x73, 0x74]

/-- "ZW1 Delit keys" in ASCII. -/
def keysInfo : Bytes := [0x5A, 0x57, 0x31, 0x20, 0x44, 0x65, 0x6C, 0x69, 0x74, 0x20, 0x6B, 0x65, 0x79, 0x73]

/-- The 64 bytes of a session's keys (R308): HKDF-SHA-256 of both shared secrets, salted with the transcript hash. -/
def sessionKeys (counter : Nat) (hostKey ek : Bytes) (transcript : Digest) : BitVec 512 :=
  BitVec.ofNat 512 (ofBE (hkdf64 (digestBytes transcript)
    ((Config.x25519Shared counter hostKey).toList ++ (Config.kemShared counter ek).toList) keysInfo))

/-- The status with which a HELLO is refused (R309, R13). -/
def helloRejects (s : State) (m : HelloMsg) : Option Code :=
  firstFail [
    (m.resv, 0x1003),
    (m.role != 1 && m.role != 2, 0x1004),
    (m.role == 1 && s.controller.isSome && !m.takeover, 0x100A),
    (decide (8 ≤ s.host.sessions.length) && !(m.role == 1 && s.controller.isSome), 0x100E)]

/-- What a HELLO does (R307): HELLO_REPLY or HELLO_REJECT answers it. -/
def State.takeHello (m : HelloMsg) (s : State) : State :=
  match helloRejects s m with
    | some c => s.sendHost (.helloReject c)
    | none =>
      let id := s.host.nextSession
      let d := s.draw
      let body := helloBody id d.1.toNat s.draws (cut m.raw 72 1184)
      let transcript := sha256 (m.raw ++ body)
      let t := digestBytes transcript
      let x : Session := {
        id := id
        control := m.role == 1
        keyId := m.keyId
        takeover := m.takeover
        transcript := transcript
        keys := sessionKeys s.draws (cut m.raw 40 32) (cut m.raw 72 1184) transcript
        port := m.port
        lastHeard := s.now }
      let s1 := { d.2 with host := { d.2.host with
        nextSession := id + 1
        handshakes := d.2.host.handshakes ++ [x] } }
      s1.sendHost (.helloReply id (body ++ beBytes 64 (Config.signEd t).toNat ++ (Config.signMl sessionContext t).toList))

/-- HELLO (R307). -/
def execHello (m : HelloMsg) (s : State) : Host.Outcome State Fault Refusal :=
  if !s.boot.firmwareRuns ∨ !s.portUp m.port ∨ s.arbiter.fatal.isSome then .next s
  else .next (s.takeDgram 0 0 1 m.dg (·.takeHello m))

/-- The host key entry of the record in force that a key_id names (Table 18-6). -/
def State.hostKey (s : State) (keyId : BitVec 64) : Option Bytes :=
  ((List.range (min (s.recordField 6 2 0) 16)).map (fun i => cut s.boot.record (2048 + 2000 * i) 2000)).find?
    (fun e => cut e 0 8 == leBytes 8 keyId.toNat)

/-- Whether a FINISH is accepted: both signatures under the key named, and the key's role. -/
def finishOk (s : State) (x : Session) (sigEd : BitVec 512) (sigMl : Bytes) : Bool :=
  match s.hostKey x.keyId with
  | none => false
  | some e =>
    (bitOf (fieldAt e 8 1) 0 || (!x.control && bitOf (fieldAt e 8 1) 1)) &&
      bothVerify hostContext (cut e 16 32) (cut e 48 1952) (digestBytes x.transcript) (beBytes 64 sigEd.toNat) sigMl

/-- An accepted controlling session takes control: the old one is closed and its waiting commands go (R309). -/
def State.takeControl (s : State) : State :=
  match s.controller with
  | none => s
  | some old =>
    let s1 := s.endSession old.id 0x100A
    if s1.openPending old.id then { s1 with host := { s1.host with waitingOpen := none } } else s1

/-- What a FINISH does: the session is established. A controlling one is told how the boot went, and peers' offsets are measured
(R384, R408). -/
def State.takeFinish (session : Nat) (sigEd : BitVec 512) (sigMl : Bytes) (s : State) : State :=
  match s.host.handshakes.find? (fun x => x.id == session) with
  | none => s
  | some x =>
    if s.arbiter.fatal.isSome ∨ !finishOk s x sigEd sigMl then s
    else
      let s1 := { s with host := { s.host with handshakes := s.host.handshakes.filter (fun y => y.id ≠ session) } }
      if x.control ∧ s.controller.isSome ∧ !x.takeover then s1.sendHost (.helloReject 0x100A)
      else
        let s2 := if x.control then s1.takeControl else s1
        if 8 ≤ s2.host.sessions.length then s2.sendHost (.helloReject 0x100E)
        else
          let y := { x with
            established := true
            lastHeard := s.now }
          let s3 := { s2 with host := { s2.host with sessions := s2.host.sessions ++ [y] } }
          if x.control then s3.raiseBoot.beginOffsets else s3

/-- FINISH (R307). -/
def execFinish (session : Nat) (sigEd : BitVec 512) (sigMl : Bytes) (dg : Dgram) (s : State) : Host.Outcome State Fault Refusal :=
  .next (s.takeDgram session 0 4 dg (·.takeFinish session sigEd sigMl))

/-- HANDSHAKE_TIMEOUT: 1 s without an accepted FINISH. -/
def execHandshakeTimeout (session : Nat) (s : State) : Host.Outcome State Fault Refusal :=
  .next { s with host := { s.host with handshakes := s.host.handshakes.filter (fun x => x.id ≠ session) } }

/-- SESSION_TIMEOUT: no tagged datagram for 10 s. -/
def execSessionTimeout (session : Nat) (s : State) : Host.Outcome State Fault Refusal :=
  match s.sessionOf session with
  | none => .next s
  | some x => .next (if x.lastHeard.toNat + 11000000000 ≤ s.now.toNat then s.endSession session 0 else s)

/-- FRAGMENT_TIMEOUT: 100 ms after the first fragment of a message that is not whole (R304). -/
def execFragmentTimeout (session seq : Nat) (s : State) : Host.Outcome State Fault Refusal :=
  .next { s with host := { s.host with fragments := s.host.fragments.filter (fun x => !(x.1 == session && x.2.1 == seq)) } }

/-! ### Events (R316) -/

/-- Space has returned: one EVENTS_LOST event reports how many were dropped. -/
def State.reportLost (s : State) (id : Nat) : State :=
  match s.sessionOf id with
  | none => s
  | some x =>
    if x.lostEvents = 0 ∨ 4096 ≤ x.unacked.length then s
    else (s.updSession id (fun y => { y with lostEvents := 0 })).eventTo id (s.mkEvent 5 0 1 moduleWide noCmd x.lostEvents 0)

/-- Events of a session up to a sequence number are no longer held. -/
def State.takeEventAck (session seq : Nat) (s : State) : State :=
  (s.updSession session (fun x => { x with
    unacked := x.unacked.filter (fun e => decide (seq < e.1))
    reserved := x.reserved.filter (fun e => decide (seq < e.1)) })).reportLost session

/-- EVENT_ACK. -/
def execEventAck (session : Nat) (m : AckMsg) (s : State) : Host.Outcome State Fault Refusal :=
  .next (s.takeDgram session m.seq 8 m.dg (·.takeEventAck session m.seq))

/-- Insert an event into a list in sequence order. -/
def insertEvent (e : Nat × Event) : List (Nat × Event) → List (Nat × Event)
  | [] => [e]
  | x :: r => if e.1 < x.1 then e :: x :: r else x :: insertEvent e r

/-- EVENT_RETRANSMIT: every 2 ms the events not acknowledged are sent again. -/
def execEventRetransmit (session : Nat) (s : State) : Host.Outcome State Fault Refusal :=
  match s.sessionOf session with
  | none => .next s
  | some x =>
    let all := x.reserved.foldl (fun l e => insertEvent e l) x.unacked
    .next (all.foldl (fun s (e : Nat × Event) => s.sendHost (.event session e.1 e.2)) s)

/-! ### RoCEv2 (R298, R299) -/

def State.queuePair (s : State) (qpn : BitVec 24) : Option QueuePair :=
  s.host.queuePairs.find? (fun q => q.qpn == qpn && !q.error)

def State.updQp (s : State) (qpn : BitVec 24) (f : QueuePair → QueuePair) : State :=
  { s with host := { s.host with queuePairs := s.host.queuePairs.map (fun q => if q.qpn = qpn then f q else q) } }

/-- A packet for a queue pair that the port takes; an ECN mark is answered with a congestion notification packet (R298). -/
def State.onQp (s : State) (qpn : BitVec 24) (net : Net) (act : QueuePair → State → State) : State :=
  match (if netOk net then s.queuePair qpn else none) with
  | none => s
  | some q => act q (if net.ecn then s.sendHost (.cnp qpn) else s)

/-- Whether a key is one that the session of a queue pair was issued for a region (R299). -/
def State.keyFits (s : State) (q : QueuePair) (region : Sys2Proof.Region) (key : BitVec 32) : Bool :=
  decide (1 ≤ region.toNat) &&
    s.host.queuePairs.any (fun x => x.session == q.session && x.keys[region.toNat - 1]? == some key)

/-- RDMA_WRITE: only on a queue pair of the controlling session, with a key of that session. -/
def execRdmaWrite (qpn : BitVec 24) (key : BitVec 32) (place : RdmaPlace) (data : Bytes) (net : Net)
    (s : State) : Host.Outcome State Fault Refusal :=
  .next (s.onQp qpn net (fun q s =>
    let control := match s.sessionOf q.session with | some x => x.control | none => false
    if !control ∨ !s.keyFits q place.region key then s.sendHost (.rdmaNakAccess qpn)
    else
      let r := s.writeRegion place.region place.offset.toNat data
      if r.2 = 0 then r.1.sendHost (.rdmaAck qpn) else s.sendHost (.rdmaNakAccess qpn)))

/-- RDMA_READ. -/
def execRdmaRead (qpn : BitVec 24) (key : BitVec 32) (place : RdmaPlace) (length : Nat) (net : Net)
    (s : State) : Host.Outcome State Fault Refusal :=
  .next (s.onQp qpn net (fun q s =>
    match (if s.keyFits q place.region key then s.readRegion q.session place.region place.offset.toNat length else none) with
    | some r => r.1.sendHost (.rdmaData qpn r.2)
    | none => s.sendHost (.rdmaNakAccess qpn)))

/-- SEND: acknowledged; an operation or option that is not supported ends the queue pair's service. -/
def execSend (qpn : BitVec 24) (_data : Bytes) (unsupported : Bool) (net : Net) (s : State) :
    Host.Outcome State Fault Refusal :=
  .next (s.onQp qpn net (fun _ s =>
    if unsupported then (s.sendHost (.rdmaNakInvalid qpn)).updQp qpn (fun q => { q with error := true })
    else s.sendHost (.rdmaAck qpn)))

/-- 50 µs and 100 µs of the time-stamp counter. -/
def cnpInterval : Nat := 55000
def restoreInterval : Nat := 110000

/-- CONGESTION_NOTIFICATION: the queue pair's rate is halved, once per 50 µs at most. -/
def execCongestionNotification (qpn : BitVec 24) (s : State) : Host.Outcome State Fault Refusal :=
  .next (s.updQp qpn (fun q =>
    let due := match q.lastHalved with
      | some t => decide (t.toNat + cnpInterval ≤ s.now.toNat)
      | none => true
    { q with
      rate := if due then q.rate / 2 else q.rate
      lastHalved := if due then some s.now else q.lastHalved
      lastCnp := some s.now }))

/-- RATE_RESTORE: after 100 µs without a congestion notification the rate rises by one eighth of line rate. -/
def execRateRestore (qpn : BitVec 24) (s : State) : Host.Outcome State Fault Refusal :=
  .next (s.updQp qpn (fun q =>
    let due := match q.lastCnp with
      | some t => decide (t.toNat + restoreInterval ≤ s.now.toNat)
      | none => true
    { q with rate := if due then min 65536 (q.rate + 8192) else q.rate }))

end Sys2Proof.Machine
end

