-- ==== Sys2Proof/Machine/Faults.lean ====
section
/-! DEFINITION. Sys2Proof/Machine/Faults.lean: status codes that reach the Kellet complex (R342), HALT and maintenance messages (R46,
R346), mailboxes and undeliverable messages (R68, R70), heartbeats (R350), and the fatal path with its dump (R359 to R361). -/

namespace Sys2Proof.Machine

/-! ### Status codes -/

/-- Statuses of the detection mechanisms of Table 10-3 that carry a site to test. -/
def detectionCodes : List Nat :=
  [0x2101, 0x2102, 0x2103, 0x2201, 0x2301, 0x2302, 0x3001, 0x3002, 0x3003, 0x3005, 0x3105, 0x4001, 0x4006] ++
  [0x9003, 0x9004, 0x9005]

/-- The mesh site of a place: a logical tile, or 2,352 and a port block. -/
def meshSiteOf (r : Repair) (site : Nat) : Option Nat :=
  if site < physicalTiles then logicalOf r site
  else if 0xB00 ≤ site ∧ site < 0xB18 then some (2352 + (site - 0xB00)) else none

/-- A router has reported the CRC-12 failure of a link (R57): the flit that comes by it next is poisoned. -/
def State.poisonNext (s : State) (site block : Nat) : State :=
  match meshSiteOf s.repair site with
  | some x => { s with mesh := { s.mesh with failing := s.mesh.failing ++ [(x, block - 10)] } }
  | none => s

/-- A Rill hop is marked failed (R70): status 0x4007, once. -/
def State.hopFails (s : State) (site : BitVec 12) (hop : BitVec 8) : State :=
  if s.repair.failedHops.contains (site, hop) then s
  else (s.updRepair (fun r => { r with failedHops := r.failedHops ++ [(site, hop)] })).raise 0x4007 ⟨site, 15⟩ noCmd hop.toNat

/-- A hop's retry (R70): 16 of them with no other report of the site between them mark the hop failed (log entry 94). -/
def State.hopRetries (s : State) (site : BitVec 12) (hop : BitVec 8) : State :=
  let k := 256 * site.toNat + hop.toNat
  let n := smGet 0 s.rill.failures k + 1
  let s1 := { s with rill := { s.rill with failures := smPut 0 k (if n < 16 then n else 0) s.rill.failures } }
  if n < 16 then s1 else s1.hopFails site hop

/-- A site reports something else: its hops have carried a message. -/
def State.hopsPass (s : State) (site : BitVec 12) : State :=
  { s with rill := { s.rill with failures := s.rill.failures.filter (fun x => x.1 / 256 ≠ site.toNat) } }

/-- What a status code that has arrived does beside being raised: a detection enters its site's history and queues its test
(R248, R250); a failed CRC-12 poisons a flit (R57), and hop retries are counted (R70); 0x3004 marks the page that it names lost
(R244). -/
def State.noteStatus (s : State) (m : StatusMsg) : State :=
  let site := m.place.site.toNat
  let block := m.place.block.toNat
  let lane := if block = 15 ∨ block = 16 then m.detail.toNat % 256 else 0
  let s1 := if detectionCodes.contains m.code.toNat then
      (s.noteDetection site block lane).queueTest site block lane false false []
    else s
  if m.code = 0x4006 then s1.hopRetries m.place.site (BitVec.ofNat 8 m.detail.toNat)
  else if m.code = 0x4001 ∧ 11 ≤ block ∧ block ≤ 14 then (s1.hopsPass m.place.site).poisonNext site block
  else if m.code = 0x3004 ∧ site < physicalTiles then
    match logicalOf s1.repair site with
    | some t => (s1.hopsPass m.place.site).losePages t [m.detail.toNat] false
    | none => s1.hopsPass m.place.site
  else s1.hopsPass m.place.site

/-- EVENT: a status code reaches the Kellet complex. -/
def execEvent (m : StatusMsg) (s : State) : Host.Outcome State Fault Refusal :=
  if !s.boot.firmwareRuns then .next s
  else .next ((s.raise m.code m.place m.cid m.detail.toNat m.detail2).noteStatus m).boundary

/-! ### Messages at a tile and at the Kellet complex -/

/-- A message of the Kellet complex to a site, or to every tile that is not dark. -/
def kelletMsg (dest : Nat) (cls : Bool) (type : BitVec 8) (tag : BitVec 12) (payload : List (BitVec 64)) : RillMsg :=
  ⟨BitVec.ofNat 12 dest, 0xF00, cls, type, tag, payload⟩

/-- The tiles that a message reaches: the one it names, or every one that is not dark. -/
def rillTiles (r : Repair) (dest : Nat) : List Nat :=
  ((List.range physicalTiles).filter (fun p => p == dest || dest == 0xFFF)).filter (fun p => !rillCut r p)

/-- HALT: the sequencers that it reaches issue no further command. -/
def execHalt (tile : Nat) (s : State) : Host.Outcome State Fault Refusal :=
  if 4096 ≤ tile then .next s
  else .next (s.rillAt (kelletMsg tile false 0x48 0 []) (fun s =>
    (rillTiles s.repair tile).foldl (fun s p => s.updTile p (fun t => { t with halted := true })) s))

/-- Bytes as the 64-bit words of Rill messages. -/
def toWords : (n : Nat) → Bytes → List (BitVec 64)
  | 0, _ => []
  | n + 1, b => BitVec.ofNat 64 (ofLE (b.take 8)) :: toWords n (b.drop 8)

/-- A maintenance reply from a tile, in messages of at most seven payload words. -/
def State.maintReply (s : State) (p : Nat) (tag : BitVec 12) (data : Bytes) : State :=
  let parts := (List.range ((data.length + 55) / 56)).map (fun i => (data.drop (56 * i)).take 56)
  parts.foldl (fun s b => s.sendRill ⟨0xF00, BitVec.ofNat 12 p, true, 0x42, tag, toWords ((b.length + 7) / 8) b⟩) s

/-- A maintenance message to a tile: it comes back when the Rill cannot deliver it (R68, R70), and a dead tile answers nothing. Its
payload's first word is the address (log entry 94). -/
def State.maintAt (s : State) (p : Nat) (type : BitVec 8) (tag : BitVec 12) (addr : BitVec 40) (f : State → State) : State :=
  s.wake.rillAt (kelletMsg p true type tag [addr.setWidth 64]) (fun s => if (tileOf s p).dead then s else f s)

/-- MAINT_WRITE: bytes written at a tile-local address, answered with a status. -/
def execMaintWrite (phys : Nat) (addr : BitVec 40) (m : MaintData) (s : State) : Host.Outcome State Fault Refusal :=
  if 4096 ≤ phys then .next s
  else .next (s.maintAt phys 0x40 m.tag addr (fun s =>
    if physicalTiles ≤ phys then s
    else if inMap s.variant addr.toNat m.bytes.length then (s.maintStore phys addr.toNat m.bytes).maintReply phys m.tag (leBytes 2 0)
    else s.maintReply phys m.tag (leBytes 2 0x3010)))

/-- MAINT_READ: bytes read at a tile-local address as the tile's DMA engine reads them, answered with the data, or with a status. -/
def execMaintRead (phys : Nat) (addr : BitVec 40) (length : Nat) (tag : BitVec 12) (s : State) :
    Host.Outcome State Fault Refusal :=
  if 4096 ≤ phys then .next s
  else .next (s.maintAt phys 0x41 tag addr (fun s =>
    if physicalTiles ≤ phys then s
    else if inMap s.variant addr.toNat length then
      { s with draws := s.draws + 1 }.maintReply phys tag (dmaRead s phys addr.toNat length)
    else s.maintReply phys tag (leBytes 2 0x3010)))

/-- MAINT_REPLY: a reply reaches the Kellet complex, whose access has kept the wafer awake. -/
def execMaintReply (_m : RillMsg) (s : State) : Host.Outcome State Fault Refusal := .next s.wake

/-- MAILBOX: a message reaches a Kellet mailbox, where it waits for the firmware, or a tile; or it comes back to its sender. -/
def execMailbox (m : RillMsg) (s : State) : Host.Outcome State Fault Refusal :=
  .next (s.rillAt m (fun s =>
    if 0xF00 ≤ m.dest.toNat ∧ m.dest.toNat < 0xF04 then { s with mailboxes := s.mailboxes ++ [m] } else s))

/-- UNDELIVERABLE: a message has come back to its sender, which raises 0x4008 (R70). -/
def execUndeliverable (m : RillMsg) (s : State) : Host.Outcome State Fault Refusal :=
  .next (s.raise 0x4008 ⟨m.dest, 0⟩ noCmd 0 (m.payload.headD 0))

/-- RILL_HOP_FAILED: the hop is marked failed and its traffic detours (R70). -/
def execRillHopFailed (site : BitVec 12) (hop : BitVec 8) (s : State) : Host.Outcome State Fault Refusal :=
  .next ((s.hopsPass site).hopFails site hop)

/-! ### Heartbeats (R350) -/

/-- One tile's answer to the poll. -/
def State.pollTile (answers : List (Nat × BitVec 64)) (s : State) (p : Nat) : State :=
  let t := tileOf s p
  if fieldState s.repair (fieldOfPhys p) = 2 ∨ t.dead ∨ s.arbiter.deadTiles.contains p then s
  else
    let place : Place := ⟨BitVec.ofNat 12 p, 0⟩
    match answers.find? (fun a => a.1 == p) with
    | none => s.raise 0x4009 place
    | some a =>
      if t.heartbeat = some a.2 then s.raise 0x4009 place
      else s.setTile p { t with heartbeat := some a.2 }

/-- HEARTBEAT_POLL: a tile without answer, or whose counter has not advanced, is dead. -/
def execHeartbeatPoll (answers : List (Nat × BitVec 64)) (s : State) : Host.Outcome State Fault Refusal :=
  if s.power.state ≠ .active then .next s
  else .next ((List.range physicalTiles).foldl (State.pollTile answers) s).boundary

/-! ### The fatal path (R359 to R361) -/

/-- MODULE_FATAL: the fatal path begins; when the Kellet complex itself has lost power there is none (Table 15-10). -/
def execModuleFatal (code : Code) (p : Place) (s : State) : Host.Outcome State Fault Refusal :=
  if !s.boot.firmwareRuns ∨ severityOf s.step.inProgress p edgeRegion code ≠ 4 then .next s
  else if code = 0x7005 ∨ code = 0x7006 then .next (s.powerLost code)
  else .next (s.raise code p)

/-- The causes after which every field region is switched off (R336). -/
def hotCause (c : Code) : Bool := c == 0x700C || c == 0x700E

/-- The dump: tile parts, sync dump with reason 2, Kellet part; copies in module flash for the causes that switch the field
regions off (R401). Bytes whose contents the manual does not give are free values. -/
def State.takeDump (s : State) (code : Code) (absent : List (Nat × BitVec 8)) : State :=
  let n := s.draws
  let s1 := { s with draws := n + physicalTiles + 2 }.writeSyncDump 2 (blockedQueues s)
  let index := s1.dumpIndexBytes absent (hotCause code)
  let kellet := s1.kelletPart (n + 1)
  let tiles := (List.range physicalTiles).filterMap (fun p =>
    if s1.dumpCode absent p = 0 then some (p, s1.tilePart p (n + 2 + p)) else none)
  let copy := (index, kellet, (match s1.sync.dump with | some d => d.2 | none => []))
  s1.updTrace (fun t => { t with
    dumpIndex := index
    dumpKellet := kellet
    dumpTiles := tiles
    flashDump := if hotCause code then some copy else t.flashDump })

/-- A step that was in progress: discarded before its commit point, committed and unreceipted after it (R360). -/
def State.abandonStep (s : State) : State :=
  if !s.step.inProgress then s
  else if s.step.committed then
    { s with step := { s.step with
        phase := .idle
        lastOutcome := if s.step.voteSkip then 2 else 1
        committed := false } }.retag
  else
    let s1 := s.releaseStep
    { s1 with step := { s1.step with
        phase := .idle
        lastOutcome := 3 } }

/-- Every session, and what waits on one, ends with the code; work in progress ends. -/
def State.closeAll (s : State) (code : Code) : State :=
  let s1 := (s.host.sessions.map (·.id)).foldl (fun s id => s.closeSession id code) s
  { s1 with
    host := { s1.host with
      handshakes := []
      fragments := []
      fetches := []
      samplings := []
      waitingOpen := none }
    survival := { s1.survival with
      exporting := none
      restoring := none
      refresh := none }
    pages := { s1.pages with
      owed := []
      placed := []
      staged := [] }
    repair := { s1.repair with tests := s1.repair.tests.map (fun t => { t with owed := [] }) } }

/-- Every field region is switched off (R336): tile memories, slabs and records are lost. -/
def State.fieldsOff (s : State) (code : Code) : State :=
  let s1 := s.dropRecords (List.range logicalTiles)
  let w := (List.range 56).foldl (fun w i => w.updRegion i (·.enter .off)) s1.power
  { s1 with
    mem := []
    checks := []
    tiles := (s1.tiles.map (fun (x : Nat × Tile) => (x.1, ({ dead := x.2.dead } : Tile)))).filter (fun x => x.2 ≠ {})
    pages := {
      primaryTile := s1.pages.primaryTile
      secondTile := s1.pages.secondTile }
    survival := { s1.survival with
      inactive := []
      activeSet := []
      units := []
      bundle := none
      nextBundle := none
      parityStep := 0xFFFFFFFF
      readyStep := 0xFFFFFFFF }
    power := { w with tooHot := some code } }

/-- FATAL_DUMP_COMPLETE: the sessions are closed, the program is unloaded, and the module is in STANDBY. -/
def execFatalDumpComplete (absent : List (Nat × BitVec 8)) (s : State) : Host.Outcome State Fault Refusal :=
  match s.arbiter.fatal with
  | none => .next s
  | some code =>
    let s1 := ((s.takeDump code absent).closeAll code).abandonStep
    let s2 := { s1.unloadProgram.toStandby with
      reduce := {}
      arbiter := {
        deadTiles := s1.arbiter.deadTiles
        darkFields := s1.arbiter.darkFields } }
    .next (if hotCause code then s2.fieldsOff code else s2)

end Sys2Proof.Machine
end

