-- ==== Sys2Proof/Machine/Dispatch.lean ====
section
/-! DEFINITION. Sys2Proof/Machine/Dispatch.lean: one arm for each command, each a direct call of its meaning. -/

namespace Sys2Proof.Machine

def exec (i : Instr) (s : State) : Host.Outcome State Fault Refusal :=
  match i with
  | .ping a => Sys2Proof.Machine.execPing a s
  | .sessionClose a => Sys2Proof.Machine.execSessionClose a s
  | .eventFilter a b => Sys2Proof.Machine.execEventFilter a b s
  | .moduleInfo a => Sys2Proof.Machine.execModuleInfo a s
  | .qpCreate a => Sys2Proof.Machine.execQpCreate a s
  | .qpDestroy a b => Sys2Proof.Machine.execQpDestroy a b s
  | .bulkWrite a b c d => Sys2Proof.Machine.execBulkWrite a b c d s
  | .bulkRead a b c d => Sys2Proof.Machine.execBulkRead a b c d s
  | .programBegin a => Sys2Proof.Machine.execProgramBegin a s
  | .programLoad a b c => Sys2Proof.Machine.execProgramLoad a b c s
  | .programLoadComplete a => Sys2Proof.Machine.execProgramLoadComplete a s
  | .stepOpen a b => Sys2Proof.Machine.execStepOpen a b s
  | .stepDiscard a => Sys2Proof.Machine.execStepDiscard a s
  | .stepStatusRead a => Sys2Proof.Machine.execStepStatusRead a s
  | .lossRead a => Sys2Proof.Machine.execLossRead a s
  | .receiptFetch a b => Sys2Proof.Machine.execReceiptFetch a b s
  | .strataStatusRead a b => Sys2Proof.Machine.execStrataStatusRead a b s
  | .lossScaleWrite a b => Sys2Proof.Machine.execLossScaleWrite a b s
  | .lossScaleRead a => Sys2Proof.Machine.execLossScaleRead a s
  | .optGroupWrite a b c => Sys2Proof.Machine.execOptGroupWrite a b c s
  | .optGroupRead a b c => Sys2Proof.Machine.execOptGroupRead a b c s
  | .windowWrite a b c => Sys2Proof.Machine.execWindowWrite a b c s
  | .windowRead a b c => Sys2Proof.Machine.execWindowRead a b c s
  | .kilnStatsRead a b c => Sys2Proof.Machine.execKilnStatsRead a b c s
  | .kilnStatsClear a => Sys2Proof.Machine.execKilnStatsClear a s
  | .fieldMapRead a => Sys2Proof.Machine.execFieldMapRead a s
  | .repairMapRead a => Sys2Proof.Machine.execRepairMapRead a s
  | .fieldFence a b => Sys2Proof.Machine.execFieldFence a b s
  | .fieldUnfence a b => Sys2Proof.Machine.execFieldUnfence a b s
  | .selftestTest a b c d => Sys2Proof.Machine.execSelftestTest a b c d s
  | .selftestRecalibrate a b c d => Sys2Proof.Machine.execSelftestRecalibrate a b c d s
  | .selftestFull a b => Sys2Proof.Machine.execSelftestFull a b s
  | .selftestDone a b c d => Sys2Proof.Machine.execSelftestDone a b c d s
  | .positionIdSet a b => Sys2Proof.Machine.execPositionIdSet a b s
  | .peerTableWrite a b c => Sys2Proof.Machine.execPeerTableWrite a b c s
  | .linkStatusRead a b c => Sys2Proof.Machine.execLinkStatusRead a b c s
  | .syncRead a b => Sys2Proof.Machine.execSyncRead a b s
  | .setValue a b c => Sys2Proof.Machine.execSetValue a b c s
  | .release a b => Sys2Proof.Machine.execRelease a b s
  | .syncDump a => Sys2Proof.Machine.execSyncDump a s
  | .clockRatioSet a b c => Sys2Proof.Machine.execClockRatioSet a b c s
  | .powerStatusRead a => Sys2Proof.Machine.execPowerStatusRead a s
  | .snapshotExport a b => Sys2Proof.Machine.execSnapshotExport a b s
  | .exportComplete => Sys2Proof.Machine.execExportComplete s
  | .parityConfig a b => Sys2Proof.Machine.execParityConfig a b s
  | .restoreStore a b => Sys2Proof.Machine.execRestoreStore a b s
  | .restoreBase a b => Sys2Proof.Machine.execRestoreBase a b s
  | .restoreRebuild a b => Sys2Proof.Machine.execRestoreRebuild a b s
  | .traceSetAndArm a b => Sys2Proof.Machine.execTraceSetAndArm a b s
  | .traceDisarm a => Sys2Proof.Machine.execTraceDisarm a s
  | .traceEmptyAndArm a b => Sys2Proof.Machine.execTraceEmptyAndArm a b s
  | .traceFetch a b c d => Sys2Proof.Machine.execTraceFetch a b c d s
  | .counterReadCounters a b c d e => Sys2Proof.Machine.execCounterReadCounters a b c d e s
  | .counterSample a => Sys2Proof.Machine.execCounterSample a s
  | .counterReadPhaseDetails a b c => Sys2Proof.Machine.execCounterReadPhaseDetails a b c s
  | .replayFetch a b c => Sys2Proof.Machine.execReplayFetch a b c s
  | .dumpFetch a b c d => Sys2Proof.Machine.execDumpFetch a b c d s
  | .attest a b => Sys2Proof.Machine.execAttest a b s
  | .hello a => Sys2Proof.Machine.execHello a s
  | .finish a b c d => Sys2Proof.Machine.execFinish a b c d s
  | .eventAck a b => Sys2Proof.Machine.execEventAck a b s
  | .eventRetransmit a => Sys2Proof.Machine.execEventRetransmit a s
  | .sessionTimeout a => Sys2Proof.Machine.execSessionTimeout a s
  | .fragmentTimeout a b => Sys2Proof.Machine.execFragmentTimeout a b s
  | .handshakeTimeout a => Sys2Proof.Machine.execHandshakeTimeout a s
  | .rdmaWrite a b c d e => Sys2Proof.Machine.execRdmaWrite a b c d e s
  | .rdmaRead a b c d e => Sys2Proof.Machine.execRdmaRead a b c d e s
  | .send a b c d => Sys2Proof.Machine.execSend a b c d s
  | .congestionNotification a => Sys2Proof.Machine.execCongestionNotification a s
  | .rateRestore a => Sys2Proof.Machine.execRateRestore a s
  | .ptpSync a b c => Sys2Proof.Machine.execPtpSync a b c s
  | .leaseRenewal a b => Sys2Proof.Machine.execLeaseRenewal a b s
  | .icmpEcho a b => Sys2Proof.Machine.execIcmpEcho a b s
  | .arp a b => Sys2Proof.Machine.execArp a b s
  | .status => Sys2Proof.Machine.execStatus s
  | .bootNow => Sys2Proof.Machine.execBootNow s
  | .wardenPowerOn => Sys2Proof.Machine.execWardenPowerOn s
  | .inputStart => Sys2Proof.Machine.execInputStart s
  | .bootAttempt => Sys2Proof.Machine.execBootAttempt s
  | .bootHeaderFetched a b => Sys2Proof.Machine.execBootHeaderFetched a b s
  | .edgeRegionActive => Sys2Proof.Machine.execEdgeRegionActive s
  | .firmwareBodyFetched a b c => Sys2Proof.Machine.execFirmwareBodyFetched a b c s
  | .provisioningRecordFetched a => Sys2Proof.Machine.execProvisioningRecordFetched a s
  | .bootRetryWait => Sys2Proof.Machine.execBootRetryWait s
  | .denseMm a b => Sys2Proof.Machine.execDenseMm a b s
  | .canvasSave a b => Sys2Proof.Machine.execCanvasSave a b s
  | .canvasRestore a b => Sys2Proof.Machine.execCanvasRestore a b s
  | .sparseMm a b => Sys2Proof.Machine.execSparseMm a b s
  | .maskedMm a b => Sys2Proof.Machine.execMaskedMm a b s
  | .plateStore a b => Sys2Proof.Machine.execPlateStore a b s
  | .plateLoad a b => Sys2Proof.Machine.execPlateLoad a b s
  | .plateTranspose a b => Sys2Proof.Machine.execPlateTranspose a b s
  | .plateAdopt a b => Sys2Proof.Machine.execPlateAdopt a b s
  | .transpose a b => Sys2Proof.Machine.execTranspose a b s
  | .strataPush a b => Sys2Proof.Machine.execStrataPush a b s
  | .strataPop a b => Sys2Proof.Machine.execStrataPop a b s
  | .strataLayerFill a b => Sys2Proof.Machine.execStrataLayerFill a b s
  | .strataLayerDrain a b => Sys2Proof.Machine.execStrataLayerDrain a b s
  | .strataWriteback a => Sys2Proof.Machine.execStrataWriteback a s
  | .strataRefill a => Sys2Proof.Machine.execStrataRefill a s
  | .pruneTopk a b => Sys2Proof.Machine.execPruneTopk a b s
  | .pruneThreshold a b => Sys2Proof.Machine.execPruneThreshold a b s
  | .regrow a b => Sys2Proof.Machine.execRegrow a b s
  | .maskCommit a b => Sys2Proof.Machine.execMaskCommit a b s
  | .add a b => Sys2Proof.Machine.execAdd a b s
  | .sub a b => Sys2Proof.Machine.execSub a b s
  | .mul a b => Sys2Proof.Machine.execMul a b s
  | .fma a b => Sys2Proof.Machine.execFma a b s
  | .max a b => Sys2Proof.Machine.execMax a b s
  | .min a b => Sys2Proof.Machine.execMin a b s
  | .abs a b => Sys2Proof.Machine.execAbs a b s
  | .neg a b => Sys2Proof.Machine.execNeg a b s
  | .div a b => Sys2Proof.Machine.execDiv a b s
  | .sqrt a b => Sys2Proof.Machine.execSqrt a b s
  | .cvt a b => Sys2Proof.Machine.execCvt a b s
  | .select a b => Sys2Proof.Machine.execSelect a b s
  | .cmpLt a b => Sys2Proof.Machine.execCmpLt a b s
  | .palF a b => Sys2Proof.Machine.execPalF a b s
  | .palD a b => Sys2Proof.Machine.execPalD a b s
  | .sum a b => Sys2Proof.Machine.execSum a b s
  | .maxred a b => Sys2Proof.Machine.execMaxred a b s
  | .sumsq a b => Sys2Proof.Machine.execSumsq a b s
  | .paletteLoad a b => Sys2Proof.Machine.execPaletteLoad a b s
  | .lossReport a b => Sys2Proof.Machine.execLossReport a b s
  | .optStep a b => Sys2Proof.Machine.execOptStep a b s
  | .recvAdd a b => Sys2Proof.Machine.execRecvAdd a b s
  | .syncSignal a b => Sys2Proof.Machine.execSyncSignal a b s
  | .syncWait a b => Sys2Proof.Machine.execSyncWait a b s
  | .syncAdd a => Sys2Proof.Machine.execSyncAdd a s
  | .arrive a => Sys2Proof.Machine.execArrive a s
  | .wait a => Sys2Proof.Machine.execWait a s
  | .arriveWait a => Sys2Proof.Machine.execArriveWait a s
  | .leave a => Sys2Proof.Machine.execLeave a s
  | .syncWake a b c d => Sys2Proof.Machine.execSyncWake a b c d s
  | .halt a => Sys2Proof.Machine.execHalt a s
  | .maintWrite a b c => Sys2Proof.Machine.execMaintWrite a b c s
  | .maintRead a b c d => Sys2Proof.Machine.execMaintRead a b c d s
  | .maintReply a => Sys2Proof.Machine.execMaintReply a s
  | .mailbox a => Sys2Proof.Machine.execMailbox a s
  | .trace a => Sys2Proof.Machine.execTrace a s
  | .undeliverable a => Sys2Proof.Machine.execUndeliverable a s
  | .event a => Sys2Proof.Machine.execEvent a s
  | .causeWindowClose => Sys2Proof.Machine.execCauseWindowClose s
  | .discardRelease a => Sys2Proof.Machine.execDiscardRelease a s
  | .columnShiftCopyDone => Sys2Proof.Machine.execColumnShiftCopyDone s
  | .heartbeatPoll a => Sys2Proof.Machine.execHeartbeatPoll a s
  | .rillHopFailed a b => Sys2Proof.Machine.execRillHopFailed a b s
  | .seamRealigned => Sys2Proof.Machine.execSeamRealigned s
  | .fillEnd a => Sys2Proof.Machine.execFillEnd a s
  | .drainEnd a => Sys2Proof.Machine.execDrainEnd a s
  | .columnTotal a b => Sys2Proof.Machine.execColumnTotal a b s
  | .columnTotalAck a => Sys2Proof.Machine.execColumnTotalAck a s
  | .xs96Block a b c => Sys2Proof.Machine.execXs96Block a b c s
  | .resendRequest a b c d e f => Sys2Proof.Machine.execResendRequest a b c d e f s
  | .stragglerDeadline a b => Sys2Proof.Machine.execStragglerDeadline a b s
  | .voteSend => Sys2Proof.Machine.execVoteSend s
  | .vote a => Sys2Proof.Machine.execVote a s
  | .commitPoint => Sys2Proof.Machine.execCommitPoint s
  | .sealEnd => Sys2Proof.Machine.execSealEnd s
  | .deadlock a => Sys2Proof.Machine.execDeadlock a s
  | .weightFrame a b => Sys2Proof.Machine.execWeightFrame a b s
  | .signal a b => Sys2Proof.Machine.execSignal a b s
  | .timeProbe a b => Sys2Proof.Machine.execTimeProbe a b s
  | .timeReply a b => Sys2Proof.Machine.execTimeReply a b s
  | .peerOffsetExchange a => Sys2Proof.Machine.execPeerOffsetExchange a s
  | .timeProbeTimeout a b => Sys2Proof.Machine.execTimeProbeTimeout a b s
  | .zlinkFlit a b => Sys2Proof.Machine.execZlinkFlit a b s
  | .nak a b => Sys2Proof.Machine.execNak a b s
  | .credit a b => Sys2Proof.Machine.execCredit a b s
  | .laneSwap a b c => Sys2Proof.Machine.execLaneSwap a b c s
  | .restripe a b => Sys2Proof.Machine.execRestripe a b s
  | .route a b => Sys2Proof.Machine.execRoute a b s
  | .ident a b c d e => Sys2Proof.Machine.execIdent a b c d e s
  | .trainTimeout a => Sys2Proof.Machine.execTrainTimeout a s
  | .downRetry a => Sys2Proof.Machine.execDownRetry a s
  | .laneDegrading a b => Sys2Proof.Machine.execLaneDegrading a b s
  | .laneLost a b => Sys2Proof.Machine.execLaneLost a b s
  | .spareTrained a b c => Sys2Proof.Machine.execSpareTrained a b c s
  | .parityJoin a => Sys2Proof.Machine.execParityJoin a s
  | .parityReady a b => Sys2Proof.Machine.execParityReady a b s
  | .parityUnit a => Sys2Proof.Machine.execParityUnit a s
  | .parityDone a b => Sys2Proof.Machine.execParityDone a b s
  | .rebuildRequest a b c d => Sys2Proof.Machine.execRebuildRequest a b c d s
  | .rebuildUnit a => Sys2Proof.Machine.execRebuildUnit a s
  | .readData a b c => Sys2Proof.Machine.execReadData a b c s
  | .traceTrigger a => Sys2Proof.Machine.execTraceTrigger a s
  | .traceFreeze a => Sys2Proof.Machine.execTraceFreeze a s
  | .idleEntry => Sys2Proof.Machine.execIdleEntry s
  | .inputWarning a => Sys2Proof.Machine.execInputWarning a s
  | .inputOrEdgeReset a b => Sys2Proof.Machine.execInputOrEdgeReset a b s
  | .railWarning a b c => Sys2Proof.Machine.execRailWarning a b c s
  | .suspectWindowClose a => Sys2Proof.Machine.execSuspectWindowClose a s
  | .suspectWindowTimeout a => Sys2Proof.Machine.execSuspectWindowTimeout a s
  | .coreReset a => Sys2Proof.Machine.execCoreReset a s
  | .loamRailReset a => Sys2Proof.Machine.execLoamRailReset a s
  | .breakerOpen a => Sys2Proof.Machine.execBreakerOpen a s
  | .regionStartFail a => Sys2Proof.Machine.execRegionStartFail a s
  | .peakLimit a => Sys2Proof.Machine.execPeakLimit a s
  | .peakLimitRelease a => Sys2Proof.Machine.execPeakLimitRelease a s
  | .droopStretchBegin a b => Sys2Proof.Machine.execDroopStretchBegin a b s
  | .droopStretchEnd a b => Sys2Proof.Machine.execDroopStretchEnd a b s
  | .injectionLockLoss a => Sys2Proof.Machine.execInjectionLockLoss a s
  | .temperatureSample a => Sys2Proof.Machine.execTemperatureSample a s
  | .thermalThrottle a => Sys2Proof.Machine.execThermalThrottle a s
  | .thermalRelease a => Sys2Proof.Machine.execThermalRelease a s
  | .coolingLoss => Sys2Proof.Machine.execCoolingLoss s
  | .coolingRestored => Sys2Proof.Machine.execCoolingRestored s
  | .coolingFailed => Sys2Proof.Machine.execCoolingFailed s
  | .moduleFatal a b => Sys2Proof.Machine.execModuleFatal a b s
  | .fatalDumpComplete a => Sys2Proof.Machine.execFatalDumpComplete a s
  | .fwFetch a b => Sys2Proof.Machine.execFwFetch a b s
  | .fetchComplete => Sys2Proof.Machine.execFetchComplete s

end Sys2Proof.Machine
end

