-- ==== Sys2Proof/Machine/Tick.lean ====
section
/-! DEFINITION. Sys2Proof/Machine/Tick.lean: one nominal cycle of a module that is commanded nothing, which is what a step on an
empty queue does (log entry 3). -/

namespace Sys2Proof.Machine

/-- The firmware consumes the oldest message of its mailboxes, and their queue makes progress (Table 12-9; log entry 116). -/
def State.consumeMailbox (s : State) : State :=
  match s.mailboxes with
  | [] => s
  | _ :: r => if s.boot.firmwareRuns then { s with mailboxes := r }.progress mailboxQueue else s

/-- One nominal cycle passes (R328: the time-stamp counts 1.1 GHz cycles while the warden has power; R331: at or below
720 mV of core voltage the mesh clock falls by one part in 440 per millivolt, and the fraction lost is counted). -/
def State.tick (s : State) : State :=
  if s.power.wardenOn then
    { s.consumeMailbox with
      now := s.now + 1
      power := { s.power with
        stretchAcc := if s.power.stretching && s.power.meshRun then
          s.power.stretchAcc + (720 - s.power.stretchMv) else s.power.stretchAcc } }
  else s

end Sys2Proof.Machine
end

