-- ==== Sys2Proof/Safety.lean ====
section
/-! DEFINITION. Sys2Proof/Safety.lean: the words in which claims about runs are stated. -/

namespace Sys2Proof.Safety

open Sys2Proof.Machine

/-- The command goes on: it answers a next state, not a fault and not a refusal. -/
def Completes (c : Instr) (s : State) : Prop := ∃ t, exec c s = .next t

/-- The tile-local memories are in their canonical form (log entry 1). -/
def MemoryWf (s : State) : Prop := Memory.wf s.mem = true

/-- The memories and the tables of units are in their canonical form: keys strictly rising, no entry at its default. -/
def Canonical (s : State) : Prop :=
  Memory.wf s.mem = true ∧ smWf {} 0 s.tiles = true ∧ smWf {} 0 s.pbs = true ∧ smWf {} 0 s.links = true ∧
    smWf {} 0 s.sync.objs = true ∧ smWf {} 0 s.power.regions = true

/-- Datagrams that complete a message of a session (R304, R306): the ports take them, every field is right, the session is known,
the tag passes, and all fragments of the message are here, none of them having waited. -/
def Arrives (d : Dgram) (kind : BitVec 8) (session seq : Nat) (s : State) : Prop :=
  netOk d.net = true ∧ dgramSound d kind = true ∧ s.knows kind session = true ∧ (kind = 1 ∨ d.tagOk = true) ∧
    (List.range d.fragCount).all d.frags.contains = true ∧ ∀ f ∈ s.host.fragments, ¬ (f.1 = session ∧ f.2.1 = seq)

/-- A command of session `x` that is executed the moment it arrives: its datagrams are sound, the session is known, the command is
the next in its sequence, none is held before it, no STEP_OPEN of the session waits, and the module is not on the fatal path (R304,
R310, R359). -/
def InOrder (h : Hdr) (x : Session) (s : State) : Prop :=
  Arrives h.dg 5 h.session h.seq s ∧ s.sessionOf h.session = some x ∧ s.arbiter.fatal = none ∧ h.seq = x.executed + 1 ∧ x.held = [] ∧
    s.openPending h.session = false

/-- A command that is executed the moment it arrives and has no reserved field set (R310, R313). -/
def Ready (h : Hdr) (x : Session) (s : State) : Prop := InOrder h x s ∧ h.resv = false

/-- The same for a command of the controlling session (R309). -/
def ReadyControl (h : Hdr) (x : Session) (s : State) : Prop := Ready h x s ∧ x.control = true

/-- The same while no step is in progress (column W of Table 13-8). -/
def ReadyBetween (h : Hdr) (x : Session) (s : State) : Prop := ReadyControl h x s ∧ s.step.inProgress = false

/-- The state `t` after the response to a command has left (R311): the session has been heard of, has executed the command
and keeps the response among its last 64, and nothing else has changed. -/
def replied (h : Hdr) (status : Code) (payload : Bytes) (t : State) : State :=
  let m := HostMsg.response h.session h.seq h.cid status payload
  { t with host := { t.host with
      sessions := t.host.sessions.map (fun y => if y.id = h.session then { y with
        lastHeard := t.now
        executed := h.seq
        cache := (m :: y.cache).take 64 } else y)
      sent := m :: t.host.sent } }

/-- The COMMAND_DONE that a long command owes its session (R311). -/
def owed (h : Hdr) : Owed := ⟨h.session, h.cid⟩

/-- A step is in progress that a Step-fatal code would end: its commit point has not passed and no discard runs (R33, R342). -/
def CanDiscard (s : State) : Prop :=
  s.step.inProgress = true ∧ s.step.committed = false ∧ s.step.phase ≠ .discarding

/-- From `s` the module has begun the discard of its step for `code` at `p`: it is the one code latched, the window for
choosing the cause is open, and HALT has gone to every tile (R342, R345). -/
def Discards (s t : State) (code : Code) (p : Place) : Prop :=
  t.step = { s.step with phase := .discarding } ∧ t.arbiter.latched = [⟨code, p, s.now⟩] ∧ t.arbiter.windowOpen = true ∧
    t.rillOut = haltMsg :: s.rillOut

/-- From `s` the module has begun the fatal path for `code`: the code is latched with its time and phase, the rings are
frozen, and HALT has gone to every tile (R359, R391). -/
def TurnsFatal (s t : State) (code : Code) : Prop :=
  t.arbiter.fatal = some code ∧ t.arbiter.fatalTime = s.now ∧ t.arbiter.fatalPhase = s.step.phase ∧ t.trace.armed = false ∧
    t.rillOut = haltMsg :: s.rillOut ∧ t.step = s.step

/-- A tile command that its sequencer issues and whose hardware checks find nothing: the tile exists, the step is in one of the
phases named and the sequencer runs (R17, R26, R245, R282, R346), no execution detected anything, the unit was not marked suspect, no
line of the stores fails its check, and no transfer has arrived poisoned. -/
def Runs (t : Site) (s : State) (during : List Phase := workPhases) : Prop :=
  t.tile < 2352 ∧ s.issues t.tile during = true ∧ t.det = [] ∧ t.suspect = [] ∧ s.checks = [] ∧ s.mesh.poisoned = []

/-- No link is about to switch to its spare lane (R266). -/
def Steady (s : State) : Prop := ∀ n, (linkOf s n).switchAt = none

/-- What a tile command may change on its way from `s` to `e` beside what it says of `step`: its own tile, memories, trace
records and the free value of its CMD_END record (log entry 4). -/
def RanOn (p : Nat) (s e : State) : Prop :=
  e = { s with
    mem := e.mem
    tiles := e.tiles
    trace := e.trace
    draws := s.draws + 1 } ∧ ∀ q, q ≠ p → tileOf e q = tileOf s q

/-- A tile command ended in a Step-fatal code: the step that was in progress is being discarded for it, and no memory has
changed (R342). -/
def Faulted (s e : State) (code : Code) : Prop :=
  e.step.phase = .discarding ∧ e.arbiter.latched.map (·.code) = [code] ∧ e.mem = s.mem

/-- The eighteen rows of VEC_OP with their op bytes (Table 8-2). -/
def vecRows : List (Nat × (Site → VecDesc → Instr)) :=
  [(0x00, .add), (0x01, .sub), (0x02, .mul), (0x03, .fma), (0x04, .max), (0x05, .min), (0x06, .abs), (0x07, .neg), (0x08, .div),
    (0x09, .sqrt), (0x0A, .cvt), (0x0B, .select), (0x0C, .cmpLt), (0x10, .palF), (0x11, .palD), (0x18, .sum), (0x19, .maxred),
    (0x1A, .sumsq)]

/-- The rows of VEC_OP whose result is one operation on an element's sources, with that operation's exact value before its one
rounding into the destination (Table 8-2, R181). -/
def roundedRows : List (Nat × (Site → VecDesc → Instr) × (Fp → Fp → Fp → Fp)) :=
  [(0x00, .add, fun a b _ => fpAddExact a b), (0x01, .sub, fun a b _ => fpAddExact a b.neg),
    (0x02, .mul, fun a b _ => fpMulExact a b), (0x03, .fma, fun a b c => fpAddExact (fpMulExact a b) c),
    (0x04, .max, fun a b _ => vMax a b), (0x05, .min, fun a b _ => vMin a b), (0x06, .abs, fun a _ _ => a.abs),
    (0x07, .neg, fun a _ _ => a.neg), (0x08, .div, fun a b _ => divExact a b), (0x09, .sqrt, fun a _ _ => sqrtExact a),
    (0x0A, .cvt, fun a _ _ => a), (0x0B, .select, fun a b c => if a.isNan || a.isZero then c else b),
    (0x0C, .cmpLt, fun a b _ => if fpLt a b then .one else .zero)]

/-- The row of a Delit command. -/
def rowOf (h : Hdr) : DelitOp → Instr
  | .ping => .ping h | .sessionClose => .sessionClose h | .eventFilter v => .eventFilter h v | .moduleInfo => .moduleInfo h
  | .qpCreate => .qpCreate h | .qpDestroy q => .qpDestroy h q | .bulkWrite r o d => .bulkWrite h r o d
  | .bulkRead r o n => .bulkRead h r o n | .programBegin => .programBegin h | .programLoad d b => .programLoad h d b
  | .stepOpen p => .stepOpen h p | .stepDiscard => .stepDiscard h | .stepStatusRead => .stepStatusRead h
  | .lossRead => .lossRead h | .receiptFetch n => .receiptFetch h n | .strataStatusRead t => .strataStatusRead h t
  | .lossScaleWrite v => .lossScaleWrite h v | .lossScaleRead => .lossScaleRead h
  | .optGroupWrite i e => .optGroupWrite h i e | .optGroupRead a n => .optGroupRead h a n
  | .windowWrite i v => .windowWrite h i v | .windowRead a n => .windowRead h a n
  | .kilnStatsRead a n => .kilnStatsRead h a n | .kilnStatsClear => .kilnStatsClear h | .fieldMapRead => .fieldMapRead h
  | .repairMapRead => .repairMapRead h | .fieldFence i => .fieldFence h i | .fieldUnfence i => .fieldUnfence h i
  | .selftestTest a b c => .selftestTest h a b c | .selftestRecalibrate a b c => .selftestRecalibrate h a b c
  | .selftestFull a => .selftestFull h a | .positionIdSet i => .positionIdSet h i
  | .peerTableWrite n e => .peerTableWrite h n e | .linkStatusRead a n => .linkStatusRead h a n
  | .syncRead i => .syncRead h i | .setValue i v => .setValue h i v | .release i => .release h i | .syncDump => .syncDump h
  | .clockRatioSet a b => .clockRatioSet h a b | .powerStatusRead => .powerStatusRead h
  | .snapshotExport r => .snapshotExport h r | .parityConfig c => .parityConfig h c | .restoreStore r => .restoreStore h r
  | .restoreBase r => .restoreBase h r | .restoreRebuild r => .restoreRebuild h r | .traceSetAndArm c => .traceSetAndArm h c
  | .traceDisarm => .traceDisarm h | .traceEmptyAndArm c => .traceEmptyAndArm h c
  | .traceFetch a n m => .traceFetch h a n m | .counterReadCounters m a n t => .counterReadCounters h m a n t
  | .counterReadPhaseDetails a n => .counterReadPhaseDetails h a n | .replayFetch n a => .replayFetch h n a
  | .dumpFetch p a n => .dumpFetch h p a n | .attest n => .attest h n

/-- The state as a command's own work finds it: its session has been heard of (R309). -/
abbrev heard (h : Hdr) (s : State) : State := s.heard h.session

/-- The command's work left the state `t` and answered `status` with `payload`: the state after its response (R311). -/
abbrev answered (h : Hdr) (t : State) (status : Code) (payload : Bytes) : State := t.respond h status payload

end Sys2Proof.Safety
end

