-- ==== Sys2Proof/WellFormed.lean ====
section
/-! DEFINITION. Sys2Proof/WellFormed.lean: what an operand must be for a command of the table to be one that can be sent: a
unit that exists, and lists of the lengths that the manual's layouts give. A command that is not well formed is not a
word of any message; the meanings are total on it all the same, and one that names a unit which does not exist has no effect. -/

namespace Sys2Proof

/-- The header fields of a message's datagrams fit their bytes (Table 13-4). -/
def wfDgram (d : Dgram) : Bool :=
  decide (d.length < 2 ^ 16) && decide (d.fragCount < 2 ^ 8) && d.frags.all (fun i => decide (i < 2 ^ 8))

/-- A session has a number that is not zero and fits its four bytes, and a sequence number fits its eight (Table 13-4). -/
def wfHdr (h : Hdr) : Bool :=
  decide (0 < h.session) && decide (h.session < 2 ^ 32) && decide (h.seq < 2 ^ 64) && wfDgram h.dg

/-- Detections that the hardware of a refire unit makes as the unit runs (Table 10-3); a flit that failed its CRC-12 has come before
it (R57). -/
def isDetection (c : Code) : Bool :=
  [0x2101, 0x2102, 0x2103, 0x2201, 0x2301, 0x3001, 0x3002, 0x3003, 0x3005, 0x3105, 0x9003, 0x9004, 0x9005].contains c.toNat

/-- Attempts that failed, each with the codes that it detected. -/
def wfAttempts (l : List (List Code)) : Bool := l.all (fun a => !a.isEmpty && a.all isDetection)

/-- A logical tile, attempts that failed, and no digest or those of one or two suspect executions (R239, R246). -/
def wfSite (s : Site) : Bool := decide (s.tile < 2352) && wfAttempts s.det && decide (s.suspect.length ≤ 2)

/-- A weight frame's payload has the length its header gives (Table 11-9). -/
def wfFrame (f : Frame) : Bool := f.payload.length == f.length.toNat

/-- A block image carries 256 elements, or none when it is header-only (Table 9-2). -/
def wfBlock (b : Block) : Bool := b.elems.length == (if b.flags.getLsbD 1 then 0 else 256)

/-- A flit has 240 payload bytes (R257, Table 11-2). -/
def wfFlit (f : Flit) : Bool := f.body.length == 240

/-- A Rill message carries at most seven words of payload (Table 3-8). -/
def wfRill (m : RillMsg) : Bool := decide (m.payload.length ≤ 7)

/-- Bytes of the payload of a PARITY_UNIT or REBUILD_UNIT message: one page (Table 16-9). -/
def unitBytes : Nat := 2097152

/-- The ends of every binding exist, and its addresses lie in a tile's 40-bit space (R43, R53, R60, R63, R208). -/
def wfBindings (b : Bindings) : Bool :=
  b.transfers.all (fun x => decide (x.src < 2352) && decide (x.dst < 2352) && decide (x.srcAddr + x.bytes ≤ 2 ^ 40) &&
      decide (x.dstAddr + x.bytes ≤ 2 ^ 40)) &&
    b.multicasts.all (fun x => decide (x.pb < 24) && decide (x.tile < 2352) && decide (x.addr < 2 ^ 40)) &&
    b.recvFlits.all (fun x => decide (x.1 < 2352)) && b.chains.all (fun x => decide (x.tile < 2352)) &&
    b.outgoing.all (fun x => decide (x.site < 2376)) &&
    b.moves.all (fun x => decide (x.1 < 2352 * 1024) && decide (x.2 < 2352 * 1024))

/-- A well-formed command. -/
def wellFormed : Instr → Bool
  | .ping h => wfHdr h
  | .sessionClose h => wfHdr h
  | .eventFilter h _ => wfHdr h
  | .moduleInfo h => wfHdr h
  | .qpCreate h => wfHdr h
  | .qpDestroy h _ => wfHdr h
  | .bulkWrite h _ _ _ => wfHdr h
  | .bulkRead h _ _ _ => wfHdr h
  | .programBegin h => wfHdr h
  | .programLoad h _ bindings => wfHdr h && wfBindings bindings
  | .programLoadComplete failedRegions => failedRegions.all (fun i => decide (i < 56))
  | .stepOpen h p => wfHdr h && p.slots.length == 16
  | .stepDiscard h => wfHdr h
  | .stepStatusRead h => wfHdr h
  | .lossRead h => wfHdr h
  | .receiptFetch h _ => wfHdr h
  | .strataStatusRead h _ => wfHdr h
  | .lossScaleWrite h _ => wfHdr h
  | .lossScaleRead h => wfHdr h
  | .optGroupWrite h _ _ => wfHdr h
  | .optGroupRead h _ _ => wfHdr h
  | .windowWrite h _ _ => wfHdr h
  | .windowRead h _ _ => wfHdr h
  | .kilnStatsRead h _ _ => wfHdr h
  | .kilnStatsClear h => wfHdr h
  | .fieldMapRead h => wfHdr h
  | .repairMapRead h => wfHdr h
  | .fieldFence h _ => wfHdr h
  | .fieldUnfence h _ => wfHdr h
  | .selftestTest h _ _ _ => wfHdr h
  | .selftestRecalibrate h _ _ _ => wfHdr h
  | .selftestFull h _ => wfHdr h
  | .selftestDone _ _ _ _ => true
  | .positionIdSet h _ => wfHdr h
  | .peerTableWrite h _ _ => wfHdr h
  | .linkStatusRead h _ _ => wfHdr h
  | .syncRead h _ => wfHdr h
  | .setValue h _ _ => wfHdr h
  | .release h _ => wfHdr h
  | .syncDump h => wfHdr h
  | .clockRatioSet h _ _ => wfHdr h
  | .powerStatusRead h => wfHdr h
  | .snapshotExport h _ => wfHdr h
  | .exportComplete => true
  | .parityConfig h c => wfHdr h && c.members.length == 16
  | .restoreStore h _ => wfHdr h
  | .restoreBase h _ => wfHdr h
  | .restoreRebuild h _ => wfHdr h
  | .traceSetAndArm h _ => wfHdr h
  | .traceDisarm h => wfHdr h
  | .traceEmptyAndArm h _ => wfHdr h
  | .traceFetch h _ _ _ => wfHdr h
  | .counterReadCounters h _ _ _ _ => wfHdr h
  | .counterSample tile => decide (tile < 2352)
  | .counterReadPhaseDetails h _ _ => wfHdr h
  | .replayFetch h _ _ => wfHdr h
  | .dumpFetch h _ _ _ => wfHdr h
  | .attest h _ => wfHdr h
  | .hello m => wfDgram m.dg
  | .finish _ _ _ dg => wfDgram dg
  | .eventAck _ m => wfDgram m.dg
  | .eventRetransmit _ => true
  | .sessionTimeout _ => true
  | .fragmentTimeout _ _ => true
  | .handshakeTimeout _ => true
  | .rdmaWrite _ _ _ _ _ => true
  | .rdmaRead _ _ _ _ _ => true
  | .send _ _ _ _ => true
  | .congestionNotification _ => true
  | .rateRestore _ => true
  | .ptpSync _ _ _ => true
  | .leaseRenewal _ _ => true
  | .icmpEcho _ _ => true
  | .arp _ _ => true
  | .status => true
  | .bootNow => true
  | .wardenPowerOn => true
  | .inputStart => true
  | .bootAttempt => true
  | .bootHeaderFetched _ _ => true
  | .edgeRegionActive => true
  | .firmwareBodyFetched _ _ _ => true
  | .provisioningRecordFetched _ => true
  | .bootRetryWait => true
  | .denseMm s _ => wfSite s
  | .canvasSave s _ => wfSite s
  | .canvasRestore s _ => wfSite s
  | .sparseMm s _ => wfSite s
  | .maskedMm s _ => wfSite s
  | .plateStore s _ => wfSite s
  | .plateLoad s _ => wfSite s
  | .plateTranspose s _ => wfSite s
  | .plateAdopt s _ => wfSite s
  | .transpose s _ => wfSite s
  | .strataPush s _ => wfSite s
  | .strataPop s _ => wfSite s
  | .strataLayerFill s _ => wfSite s
  | .strataLayerDrain s _ => wfSite s
  | .strataWriteback tile => decide (tile < 2352)
  | .strataRefill tile => decide (tile < 2352)
  | .pruneTopk s _ => wfSite s
  | .pruneThreshold s _ => wfSite s
  | .regrow s _ => wfSite s
  | .maskCommit s _ => wfSite s
  | .add s _ => wfSite s
  | .sub s _ => wfSite s
  | .mul s _ => wfSite s
  | .fma s _ => wfSite s
  | .max s _ => wfSite s
  | .min s _ => wfSite s
  | .abs s _ => wfSite s
  | .neg s _ => wfSite s
  | .div s _ => wfSite s
  | .sqrt s _ => wfSite s
  | .cvt s _ => wfSite s
  | .select s _ => wfSite s
  | .cmpLt s _ => wfSite s
  | .palF s _ => wfSite s
  | .palD s _ => wfSite s
  | .sum s _ => wfSite s
  | .maxred s _ => wfSite s
  | .sumsq s _ => wfSite s
  | .paletteLoad s _ => wfSite s
  | .lossReport s _ => wfSite s
  | .optStep s _ => wfSite s
  | .recvAdd s c => wfSite s && c.passes.all (fun p => wfAttempts p.2)
  | .syncSignal s _ => wfSite s
  | .syncWait s _ => wfSite s
  | .syncAdd _ => true
  | .arrive _ => true
  | .wait _ => true
  | .arriveWait _ => true
  | .leave _ => true
  | .syncWake tile _ _ _ => decide (tile < 2688)
  | .halt tile => decide (tile < 4096)
  | .maintWrite phys _ _ => decide (phys < 4096)
  | .maintRead phys _ _ _ => decide (phys < 4096)
  | .maintReply m => wfRill m
  | .mailbox m => wfRill m
  | .trace _ => true
  | .undeliverable m => wfRill m
  | .event _ => true
  | .causeWindowClose => true
  | .discardRelease _ => true
  | .columnShiftCopyDone => true
  | .heartbeatPoll _ => true
  | .rillHopFailed _ _ => true
  | .seamRealigned => true
  | .fillEnd last => decide (last < 2352)
  | .drainEnd last => decide (last < 2352)
  | .columnTotal pb det => decide (pb < 24) && det.all (fun a => !a.isEmpty && a.all (fun c => decide (c.1 < 49) && isDetection c.2))
  | .columnTotalAck tile => decide (tile < 2688)
  | .xs96Block pb _ b => decide (pb < 24) && wfBlock b
  | .resendRequest _ pb _ _ _ _ => decide (pb < 24)
  | .stragglerDeadline pb _ => decide (pb < 24)
  | .voteSend => true
  | .vote _ => true
  | .commitPoint => true
  | .sealEnd => true
  | .deadlock _ => true
  | .weightFrame pb f => decide (pb < 24) && wfFrame f
  | .signal link _ => decide (link < 24)
  | .timeProbe link _ => decide (link < 24)
  | .timeReply link _ => decide (link < 24)
  | .peerOffsetExchange _ => true
  | .timeProbeTimeout _ _ => true
  | .zlinkFlit link f => decide (link < 24) && wfFlit f
  | .nak link _ => decide (link < 24)
  | .credit link _ => decide (link < 24)
  | .laneSwap link _ _ => decide (link < 24)
  | .restripe link _ => decide (link < 24)
  | .route link _ => decide (link < 24)
  | .ident link _ _ _ _ => decide (link < 24)
  | .trainTimeout link => decide (link < 24)
  | .downRetry link => decide (link < 24)
  | .laneDegrading link lane => decide (link < 24) && decide (lane < 5)
  | .laneLost link lane => decide (link < 24) && decide (lane < 5)
  | .spareTrained link _ _ => decide (link < 24)
  | .parityJoin _ => true
  | .parityReady _ _ => true
  | .parityUnit m => m.payload.length == unitBytes
  | .parityDone _ _ => true
  | .rebuildRequest _ _ _ _ => true
  | .rebuildUnit m => m.payload.length == unitBytes
  | .readData _ _ _ => true
  | .traceTrigger ring => decide (ring ≤ 2688)
  | .traceFreeze ring => decide (ring ≤ 2688)
  | .idleEntry => true
  | .inputWarning _ => true
  | .inputOrEdgeReset _ _ => true
  | .railWarning region _ _ => decide (region < 57)
  | .suspectWindowClose region => decide (region < 57)
  | .suspectWindowTimeout region => decide (region < 57)
  | .coreReset region => decide (region < 57)
  | .loamRailReset region => decide (region < 57)
  | .breakerOpen region => decide (region < 57)
  | .regionStartFail region => decide (region < 57)
  | .peakLimit _ => true
  | .peakLimitRelease _ => true
  | .droopStretchBegin region _ => decide (region < 57)
  | .droopStretchEnd region _ => decide (region < 57)
  | .injectionLockLoss point => decide (point < 16)
  | .temperatureSample temps => temps.length == 57
  | .thermalThrottle half => decide (half < 2)
  | .thermalRelease half => decide (half < 2)
  | .coolingLoss => true
  | .coolingRestored => true
  | .coolingFailed => true
  | .moduleFatal _ _ => true
  | .fatalDumpComplete _ => true
  | .fwFetch _ _ => true
  | .fetchComplete => true

end Sys2Proof
end

