-- ==== Sys2Proof/Certificates/Slice0/Obligations.lean ====
section
/-! DEFINITION. Sys2Proof/Certificates/Slice0/Obligations.lean: the statements about the model that are to be proved. -/

open Sys2Proof Sys2Proof.Machine Sys2Proof.Safety

/-! ### The machine -/

/-- A step takes the command at the front of the queue and is `exec` of it on the queue's rest. -/
def Obligations.StepRunsFront : Prop := ∀ (c : Instr) (rest : List Instr) (s : State), s.pending = c :: rest →
  step s = exec c { s with pending := rest }

/-- A step takes exactly one command from the queue: what it leaves in front is what stood behind it. No command faults (no row of the
spec stops the module), and none is refused but a tile command whose descriptor the load rejects. -/
def Obligations.StepsTakeOneCommand : Prop := ∀ (c : Instr) (rest : List Instr) (s : State), s.pending = c :: rest →
  (∀ t, step s = .next t → t.pending = rest) ∧ (∀ f, step s ≠ .fault f) ∧
    ∀ r, step s = .refused r → ∃ code, r = .notLoadable code

/-- Every step keeps the canonical form of the tile-local memories (log entry 1). -/
def Obligations.StepKeepsMemory : Prop := ∀ (s t : State), MemoryWf s → step s = .next t → MemoryWf t

/-- After reset every memory and every table of units is in its canonical form, and no command waits. -/
def Obligations.ResetCanonical : Prop := Canonical State.reset ∧ State.reset.pending = []

/-- On an empty queue one cycle of the time-stamp counter passes while the warden has power (R328; log entry 3), below 720 mV the
stretched cycles are counted (R331), and running firmware consumes the oldest message of its mailboxes, whose queue makes progress
(R293; log entry 116); nothing else changes. -/
def Obligations.EmptyQueueTicks : Prop := ∀ s : State, s.pending = [] →
  (s.power.wardenOn = false → step s = .next s) ∧
  (s.power.wardenOn = true → step s = .next { s with
    now := s.now + 1
    mailboxes := if s.boot.firmwareRuns then s.mailboxes.tail else s.mailboxes
    sync := if s.mailboxes = [] ∨ s.boot.firmwareRuns = false then s.sync else { s.sync with
      armed := true
      progressAt := smPut 0 100 s.now s.sync.progressAt }
    power := { s.power with
      stretchAcc := if s.power.stretching && s.power.meshRun then
        s.power.stretchAcc + (720 - s.power.stretchMv) else s.power.stretchAcc } })

/-! ### Delit commands (chapter 13) -/

/-- PING, MODULE_INFO, STEP_STATUS_READ, LOSS_READ, LOSS_SCALE_READ, FIELD_MAP_READ, REPAIR_MAP_READ and ATTEST answer OK with
their registers, from any session and at any moment; OPT_GROUP_READ, WINDOW_READ, KILN_STATS_READ and LINK_STATUS_READ answer the
entries asked for when all of them exist, and 0x1004 otherwise. None changes anything but the session that asked. -/
def Obligations.ReadsAnswer : Prop :=
  (∀ (h : Hdr) (x : Session) (s : State) (nonce : BitVec 256), Ready h x s →
  exec (.ping h) s = .next (replied h 0 [] s) ∧
  exec (.moduleInfo h) s = .next (replied h 0 (doModuleInfo s).2.2 s) ∧
  exec (.stepStatusRead h) s = .next (replied h 0 (leBytes 4 s.step.status.toNat) s) ∧
  exec (.lossRead h) s = .next (replied h 0 s.step.lossBytes s) ∧
  exec (.lossScaleRead h) s = .next (replied h 0 (leBytes 8 s.step.lossScale.toNat) s) ∧
  exec (.fieldMapRead h) s = .next (replied h 0 (leBytes 16 (fieldMapValue s.repair)) s) ∧
  exec (.repairMapRead h) s = .next (replied h 0 (leBytes 168 (repairMapValue s.repair)) s) ∧
  exec (.attest h nonce) s = .next (replied h 0 (s.attestReport nonce) s)) ∧
  (∀ (h : Hdr) (x : Session) (s : State) (first count : Nat), Ready h x s →
  (exec (.optGroupRead h first count) s = .next (if first + count ≤ 64 then
    replied h 0 ((List.range count).flatMap (fun i => leBytes 32 (smGet (0 : BitVec 256) s.step.optGroups (first + i)).toNat)) s
    else replied h 0x1004 [] s)) ∧
  (exec (.windowRead h first count) s = .next (if first + count ≤ 256 then
    replied h 0 ((List.range count).flatMap (fun i => leBytes 2 (s.window (first + i)).toNat)) s
    else replied h 0x1004 [] s)) ∧
  (exec (.kilnStatsRead h first count) s = .next (if first + count ≤ 256 then
    replied h 0 ((List.range count).flatMap (fun i => leBytes 8 (s.kilnStats (first + i)).toNat)) s
    else replied h 0x1004 [] s)) ∧
  (exec (.linkStatusRead h first count) s = .next (if first + count ≤ 24 then
    replied h 0 ((List.range count).flatMap (fun i => leBytes 8 (s.linkStatus (first + i)))) s
    else replied h 0x1004 [] s)))

/-- SYNC_READ, STRATA_STATUS_READ, RECEIPT_FETCH, BULK_READ of RESULT and POWER_STATUS_READ answer what they name; the two
power readings are free values (log entry 4), whose draws are the only other change. -/
def Obligations.ObjectReadsAnswer : Prop := ∀ (h : Hdr) (x : Session) (s : State), Ready h x s →
  (∀ obj, obj < 32768 → exec (.syncRead h obj) s = .next (replied h 0
    (objRecord s.sync obj ++ (s.sync.waiters.filter (fun w => w.obj == obj)).flatMap waiterEntry) s)) ∧
  (∀ tile, tile < 2352 → exec (.strataStatusRead h tile) s = .next (replied h 0
    (leBytes 8 ((tileOf s (physOf s.repair tile)).strata.status s.step.switchLayer)) s)) ∧
  (∀ n, exec (.receiptFetch h n) s = .next (match s.step.receipts.find? (fun r => r.1 == n) with
    | some r => replied h 0 r.2 s
    | none => replied h 0x1004 [] s)) ∧
  (∀ (off : BitVec 56) (n : Nat), n ≤ 1024 → off.toNat + n ≤ x.result.length →
    exec (.bulkRead h 3 off n) s = .next (replied h 0 ((x.result.drop off.toNat).take n) s)) ∧
  exec (.powerStatusRead h) s = .next (replied h 0 s.powerStatus.2 { s with draws := s.draws + 2 })

/-- The commands that set one table and change nothing else: LOSS_SCALE_WRITE, OPT_GROUP_WRITE, WINDOW_WRITE and
POSITION_ID_SET; KILN_STATS_CLEAR empties the statistics of every window of every Kiln unit; PEER_TABLE_WRITE sets an entry without
DISABLE of a link that is not DISABLED (with DISABLE, or for a link that is, the link is held or trains again), and refuses reserved bits with 0x1003 and a missing link with 0x1004. -/
def Obligations.SettingsAndTablesWritten : Prop :=
  (∀ (h : Hdr) (x : Session) (s : State), ReadyBetween h x s →
  (∀ v, lsValid v = true → exec (.lossScaleWrite h v) s = .next (replied h 0 []
    { s with step := { s.step with lossScale := lsWrite s.step.lossScale v } })) ∧
  (∀ i e, i < 64 → e.toNat < 2 ^ 193 → optInvalid e = false → exec (.optGroupWrite h i e) s = .next (replied h 0 []
    { s with step := { s.step with optGroups := smPut 0 i e s.step.optGroups } })) ∧
  (∀ i v, i < 256 → v.toNat < 512 → -64 ≤ windowExp v → windowExp v ≤ 111 →
    exec (.windowWrite h i v) s = .next (replied h 0 []
      { s with step := { s.step with windows := smPut 0 i v s.step.windows } })) ∧
  (∀ id, s.program = none → (id.toNat < 0xF000 ∨ id = 0xFFFF) → exec (.positionIdSet h id) s = .next (replied h 0 []
    { s with boot := { s.boot with positionId := id } }))) ∧
  ((∀ (h : Hdr) (x : Session) (s : State), ReadyBetween h x s → Canonical s →
  ∃ p : SMap PbState, exec (.kilnStatsClear h) s = .next (replied h 0 [] { s with pbs := p }) ∧
    ∀ n, smGet {} p n = { pbOf s n with stats := [] }) ∧
  (∀ (h : Hdr) (x : Session) (s : State) (n : Nat) (e : BitVec 32), ReadyBetween h x s →
  (n < 24 → e.toNat < 2 ^ 18 → bitsOf e.toNat 17 16 ≠ 3 → (linkOf s n).state ≠ .absent → (linkOf s n).state ≠ .disabled →
    exec (.peerTableWrite h n e) s = .next (replied h 0 [] (s.setLink n { linkOf s n with peerTable := e }))) ∧
  (n < 24 → 2 ^ 19 ≤ e.toNat → exec (.peerTableWrite h n e) s = .next (replied h 0x1003 [] s)) ∧
  (24 ≤ n → exec (.peerTableWrite h n e) s = .next (replied h 0x1004 [] s))))

/-- FIELD_FENCE turns a field that is not dark to 0b01, and FIELD_UNFENCE turns a field in state 0b01 that has passed a FULL
test since back to 0b00; no other field changes, and the copies of the commit record move to their places (R43, R50). -/
def Obligations.FieldsFenced : Prop := ∀ (h : Hdr) (x : Session) (s : State) (i : Nat), ReadyBetween h x s → i < 56 →
  smWf 0 0 s.repair.fieldMap = true →
  (fieldState s.repair i ≠ 2 → ∃ t, exec (.fieldFence h i) s = .next (replied h 0 [] t) ∧ t = (s.setField i 1).moveRecord ∧
    fieldState t.repair i = 1 ∧ ∀ j, j ≠ i → fieldState t.repair j = fieldState s.repair j) ∧
  (fieldState s.repair i = 1 → i ∈ s.repair.fullPassed →
    ∃ t, exec (.fieldUnfence h i) s = .next (replied h 0 [] t) ∧ t = (s.setField i 0).moveRecord ∧
      fieldState t.repair i = 0 ∧ ∀ j, j ≠ i → fieldState t.repair j = fieldState s.repair j) ∧
  (fieldState s.repair i = 1 → i ∉ s.repair.fullPassed →
    exec (.fieldUnfence h i) s = .next (replied h 0x1011 [] s))

/-- EVENT_FILTER sets the least severity a session is told of (R315), QP_CREATE makes a queue pair of the session with drawn
numbers and a memory key for each bulk region (R298, R299), QP_DESTROY takes one away, CLOCK_RATIO_SET changes the host's request for its halves (R333), and
SESSION_CLOSE answers and then ends the session with its queue pairs (R309). -/
def Obligations.SessionCommands : Prop := ∀ (h : Hdr) (x : Session) (s : State), Ready h x s →
  (∀ v : BitVec 8, 1 ≤ v.toNat → v.toNat ≤ 4 → exec (.eventFilter h v) s = .next (replied h 0 []
    (s.updSession h.session (fun y => { y with filter := v.toNat })))) ∧
  (h.port ≠ .service → (s.host.queuePairs.filter (fun q => q.port = h.port)).length < 16 →
    ∃ (q : QueuePair) (b : Bytes), exec (.qpCreate h) s = .next (replied h 0 b { s with
      draws := s.draws + 1
      host := { s.host with queuePairs := s.host.queuePairs ++ [q] } }) ∧
      q.session = h.session ∧ q.port = h.port ∧ q.error = false ∧ q.rate = 65536 ∧ q.keys.length = 4) ∧
  (∀ qpn, h.port ≠ .service → s.host.queuePairs.any (fun q => q.qpn == qpn && q.session == h.session) = true →
    exec (.qpDestroy h qpn) s = .next (replied h 0 [] { s with host := { s.host with
      queuePairs := s.host.queuePairs.filter (fun q => !(q.qpn == qpn && q.session == h.session)) } })) ∧
  (∀ half ratio : BitVec 8, x.control = true → half.toNat ≤ 2 → ratio.toNat ≤ 2 →
    s.mesh.parts = [] → ∃ t, exec (.clockRatioSet h half ratio) s = .next (replied h 0 [] t) ∧ t = s.setRatio half ratio ∧
      t.power.hostWest = (if half = 1 then s.power.hostWest else ratio.toNat) ∧
      t.power.hostEast = (if half = 0 then s.power.hostEast else ratio.toNat) ∧
      t = { s with
        power := t.power
        seam := t.seam }) ∧
  (s.survival.exporting = none →
    exec (.sessionClose h) s = .next ((replied h 0 [] s).closeSession h.session 0))

/-- A fetch command is accepted with 0x0001, and its data waits, whole, for the end of the fetch: TRACE_FETCH, COUNTER_READ of
phase details, REPLAY_FETCH and DUMP_FETCH, of which REPLAY_FETCH and the parts 1 and 4 of DUMP_FETCH need their policy bit (R311, R392,
R396, R398, R403, R415). COUNTER_READ of counters sets the samples of the tiles asked for to one moment, at the earliest 22,000 cycles
away (R395); SYNC_DUMP writes a dump with reason 0, whose bitmap shows the queues without progress for 10 ms (log
entry 108), and fetches it (R292). -/
def Obligations.FetchesAndSamples : Prop :=
  (∀ (h : Hdr) (x : Session) (s : State), Ready h x s →
  (∀ (first count : BitVec 16) (m : Bool) (b : Bytes), s.traceData first.toNat count.toNat m = some b →
    exec (.traceFetch h first count m) s = .next (replied h 1 [] (s.startFetch (owed h) b 0))) ∧
  (∀ (first : BitVec 64) (n : BitVec 16), 1 ≤ n.toNat → n.toNat ≤ 256 →
    exec (.counterReadPhaseDetails h first n) s = .next (replied h 1 [] (s.startFetch (owed h) (s.phaseDetails first n.toNat) 0))) ∧
  (∀ (n : BitVec 64) (a : BitVec 16) (c : Capture), s.policy 2 = true → s.captureOf n a.toNat = some c →
    exec (.replayFetch h n a) s = .next (replied h 1 [] (s.startFetch (owed h) c.image 0))) ∧
  (∀ (n : BitVec 64) (a : BitVec 16), s.policy 2 = false → exec (.replayFetch h n a) s = .next (replied h 0x8007 [] s)) ∧
  (∀ (part : BitVec 8) (first count : BitVec 16), part = 0 ∨ part = 2 ∨ part = 3 ∨ (part = 1 ∧ s.policy 1 = true) ∨
      (part = 4 ∧ s.policy 1 = true ∧ 1 ≤ count.toNat ∧ count.toNat ≤ 56 ∧ first.toNat + count.toNat ≤ 2688) →
    exec (.dumpFetch h part first count) s = .next (replied h 1 [] (s.startFetch (owed h)
      (s.dumpPart part.toNat first.toNat count.toNat).1 (s.dumpPart part.toNat first.toNat count.toNat).2))) ∧
  (∀ (part : BitVec 8) (first count : BitVec 16), part = 1 ∨ part = 4 → s.policy 1 = false →
    exec (.dumpFetch h part first count) s = .next (replied h 0x8007 [] s))) ∧
  (∀ (h : Hdr) (x : Session) (s : State), Ready h x s →
  (∀ (mask first count : BitVec 16) (time : BitVec 64), 1 ≤ count.toNat → first.toNat + count.toNat ≤ 2352 →
    (time = 0 ∨ time.toNat ≤ s.now.toNat + 1100000000) →
    exec (.counterReadCounters h mask first count time) s =
      .next (replied h 1 [] (s.startSampling (owed h) mask first.toNat count.toNat time))) ∧
  (∃ d : State, d = s.writeSyncDump 0 (blockedQueues s) ∧
    exec (.syncDump h) s = .next (replied h 1 [] (d.startFetch (owed h) (syncDumpBytes s 0 (blockedQueues s)) 0)) ∧
    ∀ q, q < 101 → (blockedQueues s).getLsbD q = decide (11000000 ≤ (s.now - smGet 0 s.sync.progressAt q).toNat)))

/-- SELFTEST_REQUEST with its three actions, and RESTORE from its three sources, answer 0x0001 at once and go on behind the
response (R311, R355, R378). -/
def Obligations.LongCommandsAccepted : Prop := ∀ (h : Hdr) (x : Session) (s : State), ReadyBetween h x s →
  (∀ (site : BitVec 16) (block lane : BitVec 8), selftestInvalid s site.toNat block.toNat lane.toNat false false = false →
    exec (.selftestTest h site block lane) s =
      .next ((replied h 1 [] s).requestTest (owed h) site.toNat block.toNat lane.toNat false false)) ∧
  (∀ (site : BitVec 16) (block lane : BitVec 8), selftestInvalid s site.toNat block.toNat lane.toNat false true = false →
    exec (.selftestRecalibrate h site block lane) s =
      .next ((replied h 1 [] s).requestTest (owed h) site.toNat block.toNat lane.toNat false true)) ∧
  (∀ site : BitVec 16, selftestInvalid s site.toNat 0 0 true false = false →
    exec (.selftestFull h site) s = .next ((replied h 1 [] s).requestTest (owed h) site.toNat 0 0 true false)) ∧
  (∀ r : RestoreReq, s.program.isSome = true → storeInvalid true r.storeId r.storeAddress = false →
    exec (.restoreStore h r) s = .next ((replied h 1 [] s).beginRestore 0 r (owed h))) ∧
  (∀ r : RestoreReq, s.program.isSome = true → storeInvalid false r.storeId r.storeAddress = false →
    exec (.restoreBase h r) s = .next ((replied h 1 [] s).beginRestore 1 r (owed h)) ∧
    exec (.restoreRebuild h r) s = .next ((replied h 1 [] s).beginRestore 2 r (owed h)))

/-! ### Power, clocks and temperature (chapter 14, R245, R247) -/

/-- An input warning opens the suspect window of every powered field region; a VCORE warning opens that of its region; where a
window opens, the incomplete refire units of the region's tiles become suspect; a
window closes when what held it open is over, and the values go back to nominal; a window open for 1 ms is 0x2106 (R245, R247, R323). -/
def Obligations.SuspectWindows : Prop := ∀ s : State, Canonical s →
  (∀ mv, ∃ t, exec (.inputWarning mv) s = .next t ∧
    t = { s with
      power := { s.power with
        inputMv := mv
        inputLow := true
        regions := t.power.regions }
      tiles := t.tiles
      trace := t.trace
      host := t.host } ∧
    (∀ i, regionOf t.power i = if i < 56 ∧ (regionOf s.power i).powered = true then { regionOf s.power i with suspect := true }
      else regionOf s.power i) ∧
    ∀ p, tileOf t p = if p < 2688 ∧ (regionOf s.power (fieldOfPhys p)).powered = true ∧
      (regionOf s.power (fieldOfPhys p)).suspect = false then (tileOf s p).markSuspect else tileOf s p) ∧
  (∀ i mv, i < 56 → (regionOf s.power i).powered = true → ∃ t, exec (.railWarning i .vcore mv) s = .next t ∧
    t = { s with
      power := { s.power with regions := t.power.regions }
      tiles := t.tiles
      trace := t.trace
      host := t.host } ∧
    (∀ j, regionOf t.power j = if j = i then { regionOf s.power i with
      vcore := mv
      railLow := true
      suspect := true } else regionOf s.power j) ∧
    ∀ p, tileOf t p = if p < 2688 ∧ fieldOfPhys p = i ∧ (regionOf s.power i).suspect = false then (tileOf s p).markSuspect
      else tileOf s p) ∧
  (∀ i mv, i < 56 → (regionOf s.power i).powered = true → ∃ t, exec (.railWarning i .vloam mv) s = .next t ∧
    t = { s with
      power := { s.power with regions := t.power.regions }
      trace := t.trace
      host := t.host } ∧
    ∀ j, regionOf t.power j = if j = i then { regionOf s.power i with vloam := mv } else regionOf s.power j) ∧
  (∀ i, i < 57 → (regionOf s.power i).suspect = true → ∃ t, exec (.suspectWindowClose i) s = .next t ∧
    t = { s with
      power := t.power
      trace := t.trace } ∧ t.power.inputLow = (s.power.inputLow && i == 56) ∧
    ∀ j, regionOf t.power j = if j = i then { regionOf s.power i with
      suspect := false
      railLow := false
      vcore := if (regionOf s.power i).railLow then nominalMv (regionOf s.power i).state else (regionOf s.power i).vcore }
      else regionOf s.power j) ∧
  (∀ i, i < 57 → (regionOf s.power i).suspect = true → CanDiscard s → ∃ t, exec (.suspectWindowTimeout i) s = .next t ∧
    Discards s t 0x2106 moduleWide ∧ t = { s with
      trace := t.trace
      host := t.host
      arbiter := t.arbiter
      step := t.step
      rillOut := t.rillOut })

/-- A core reset during a step loses what needs VCORE in the region's tiles, raises 0x7002 and 0x2106 and marks the program
for unloading, and keeps the slabs and every other tile's bytes; a Loam rail reset loses the slabs of the region's tiles and nothing
else of the memories, and 0x7003 starts the discard (R324). -/
def Obligations.ResetsLoseMemories : Prop :=
  (∀ (s : State) (i : Nat), Canonical s → CanDiscard s → i < 56 →
  (regionOf s.power i).powered = true → ∃ t, exec (.coreReset i) s = .next t ∧
    t.step = { s.step with phase := .discarding } ∧
    t.arbiter.latched = [⟨0x7002, moduleWide, s.now⟩, ⟨0x2106, moduleWide, s.now⟩] ∧
    t.arbiter.unload = (s.arbiter.unload || s.program.isSome) ∧
    (∀ k, rdByte t.mem k = if k / 2 ^ 40 < 2688 ∧ fieldOfPhys (k / 2 ^ 40) = i ∧ k % 2 ^ 40 < loamBase then 0 else rdByte s.mem k) ∧
    (∀ p, p < 2688 → tileOf t p = if fieldOfPhys p = i then {
      dead := (tileOf s p).dead
      heartbeat := (tileOf s p).heartbeat } else tileOf s p) ∧
    (∀ j, j ≠ i → regionOf t.power j = regionOf s.power j) ∧
    t = { s with
      mem := t.mem
      checks := t.checks
      tiles := t.tiles
      power := t.power
      trace := t.trace
      host := t.host
      arbiter := t.arbiter
      step := t.step
      rillOut := t.rillOut }) ∧
  (∀ (s : State) (i : Nat), MemoryWf s → CanDiscard s → i < 56 →
  (regionOf s.power i).powered = true → ∃ t, exec (.loamRailReset i) s = .next t ∧
    t.step.phase = .discarding ∧ t.arbiter.latched.head? = some ⟨0x7003, moduleWide, s.now⟩ ∧
    (∀ p a, a < 2 ^ 40 → rdByte t.mem (memKey p a) =
      if (∃ u ∈ fieldLogical i, physOf s.repair u = p) ∧ loamBase ≤ a ∧ a < loamBase + slabPages s.variant * pageBytes then 0
      else rdByte s.mem (memKey p a)) ∧
    t.tiles = s.tiles ∧ t.program = s.program ∧ t.repair = s.repair)

/-- A breaker that opens in a field region, or a field region that does not start, breaks the region for good and fences its
field in the discard; an injection point in the field is lost with it, and the mesh with the last point of a half; nothing else
changes at once (R325, R326, R329, R339). -/
def Obligations.FieldRegionBreaks : Prop := ∀ (s : State) (i : Nat), Canonical s → CanDiscard s → i < 56 →
  ((∀ n, n < 16 → injectionField n = i → n ∈ s.power.lostLocks ∨
      { s.power with lostLocks := s.power.lostLocks ++ [n] }.halfUnlocked s.repair (n / 8) = false) →
  ((regionOf s.power i).state ≠ .broken → ∃ t, exec (.breakerOpen i) s = .next t ∧ Discards s t 0x7006 moduleWide ∧
    i ∈ t.arbiter.darkFields ∧ (regionOf t.power i).state = .broken ∧ (regionOf t.power i).vcore = 0 ∧
    (regionOf t.power i).vloam = 0 ∧ (∀ j, j ≠ i → regionOf t.power j = regionOf s.power j) ∧
    (∀ n, n ∈ t.power.lostLocks ↔ n ∈ s.power.lostLocks ∨ (n < 16 ∧ injectionField n = i)) ∧ t = { s with
      power := { s.power with
        regions := t.power.regions
        lostLocks := t.power.lostLocks }
      trace := t.trace
      host := t.host
      arbiter := t.arbiter
      step := t.step
      rillOut := t.rillOut }) ∧
  ((regionOf s.power i).state = .ramp → ∃ t, exec (.regionStartFail i) s = .next t ∧ Discards s t 0x7010 moduleWide ∧
    i ∈ t.arbiter.darkFields ∧ (regionOf t.power i).state = .broken ∧ t = { s with
      power := { s.power with
        regions := t.power.regions
        lostLocks := t.power.lostLocks }
      trace := t.trace
      host := t.host
      arbiter := t.arbiter
      step := t.step
      rillOut := t.rillOut })) ∧
  (∀ n, n < 16 → injectionField n = i → n ∉ s.power.lostLocks → s.arbiter.fatal = none →
    { s.power with lostLocks := s.power.lostLocks ++ [n] }.halfUnlocked s.repair (n / 8) = true →
    (regionOf s.power i).state ≠ .broken → ∃ t, exec (.breakerOpen i) s = .next t ∧ t.arbiter.fatal = some 0x7009 ∧
      (regionOf t.power i).state = .broken ∧ n ∈ t.power.lostLocks)

/-- Losing the input, an edge reset or the edge region's breaker turns the module DORMANT: every region but a broken one is
OFF, the memories, sessions and the program are gone, and no message tells of it; what has been sent, the time and module flash
stay (R320, R324, R325). -/
def Obligations.PowerLossTurnsDormant : Prop := ∀ s : State, Canonical s →
  (∀ cause mv, s.power.wardenOn = true → ∃ t, exec (.inputOrEdgeReset cause mv) s = .next t ∧
    t.power.state = .dormant ∧ t.power.wardenOn = true ∧ t.power.inputMv = mv ∧ t.mem = [] ∧ t.program = none ∧
    t.step = {} ∧ t.host.sessions = [] ∧ t.host.sent = s.host.sent ∧ t.now = s.now ∧ t.boot.firmwareRuns = false ∧
    t.boot.copyA = s.boot.copyA ∧ t.boot.copyB = s.boot.copyB ∧ t.boot.floorVersion = s.boot.floorVersion ∧
    t.repair.repairMap = s.repair.repairMap ∧ t.repair.fieldMap = s.repair.fieldMap ∧
    ∀ i, (regionOf t.power i).state = if (regionOf s.power i).state = .broken then .broken else .off) ∧
  ((regionOf s.power 56).state ≠ .broken → ∃ t, exec (.breakerOpen 56) s = .next t ∧
    t.power.state = .dormant ∧ t.mem = [] ∧ t.program = none ∧ t.step = {} ∧ t.host.sessions = [] ∧
    t.boot.firmwareRuns = false ∧ (regionOf t.power 56).state = .broken)

/-- The requests that act on the clock ratios: the peak limiter adds or removes one division step in both halves, the
thermal limiter in one half, a loss of cooling asks for 1:4 in both, and each leaves the other requests alone (R321, R334, R335). The
seam becomes awaited when the effective ratios first differ, realigns once they are equal again, and SEAM_REALIGNED ends the awaited
mode when both halves have reached the same schedule cycle, whereupon the schedule runs on (R67). A request that comes while the module
is IDLE is recorded beside the ratios in effect (R332). -/
def Obligations.ClocksAndSeam : Prop :=
  (∀ s : State, s.power.state ≠ .idle → s.mesh.parts = [] →
  (∀ watts, 26500 < watts → s.power.limitWest < 2 ∨ s.power.limitEast < 2 → ∃ t, exec (.peakLimit watts) s = .next t ∧
    t = { s with
      power := { s.power with
        limitWest := min 2 (s.power.limitWest + 1)
        limitEast := min 2 (s.power.limitEast + 1) }
      seam := t.seam
      trace := t.trace
      host := t.host }) ∧
  (∀ watts, watts < 24000 → ∃ t, exec (.peakLimitRelease watts) s = .next t ∧
    t = { s with
      power := { s.power with
        limitWest := s.power.limitWest - 1
        limitEast := s.power.limitEast - 1 }
      seam := t.seam }) ∧
  (∀ half, half < 2 → s.power.halfAt half 100 = true → s.power.therm half < 2 → ∃ t, exec (.thermalThrottle half) s = .next t ∧
    t = { s with
      power := s.power.setTherm half (s.power.therm half + 1)
      seam := t.seam
      trace := t.trace
      host := t.host }) ∧
  (∀ half, half < 2 → s.power.halfAt half 95 = false → s.power.coolingLoss = false →
    ∃ t, exec (.thermalRelease half) s = .next t ∧ t = { s with
      power := s.power.setTherm half (s.power.therm half - 1)
      seam := t.seam }) ∧
  (s.power.coolingLoss = false → ∃ t, exec .coolingLoss s = .next t ∧ t = { s with
      power := { s.power with
        coolingLoss := true
        thermWest := 2
        thermEast := 2 }
      seam := t.seam
      trace := t.trace
      host := t.host })) ∧
  (∀ s : State, exec .coolingRestored s = .next { s with power := { s.power with coolingLoss := false } } ∧
  (∀ half ratio : BitVec 8, s.power.state = .idle → ∃ t, t = s.setRatio half ratio ∧
    t.power.effWest = s.power.effWest ∧ t.power.effEast = s.power.effEast ∧
    t.power.hostWest = (if half = 1 then s.power.hostWest else ratio.toNat) ∧
    t.power.hostEast = (if half = 0 then s.power.hostEast else ratio.toNat) ∧ t = { s with power := t.power }) ∧
  (s.power.state ≠ .idle → ∀ f : Power → Power,
    ((f s.power).effWest ≠ (f s.power).effEast → (s.ratios f).seam.awaited = true ∧ (s.ratios f).seam.realigning = false ∧
      s.ratios f = { s with
        power := f s.power
        seam := (s.ratios f).seam }) ∧
    ((f s.power).effWest = (f s.power).effEast → s.seam.awaited = true → s.ratios f = { s with
      power := f s.power
      seam := { s.seam with realigning := true } }.pumpMesh) ∧
    ((f s.power).effWest = (f s.power).effEast → s.seam.awaited = false → s.ratios f = { s with power := f s.power })) ∧
  (s.seam.realigning = true → s.mesh.west = s.mesh.east → ∃ t, exec .seamRealigned s = .next t.pumpMesh ∧ t = { s with seam := {} } ∧
    t.seam.awaited = false) ∧
  (s.seam.realigning = true → s.mesh.west ≠ s.mesh.east → exec .seamRealigned s = .next s))

/-- Droop stretch, a lost injection lock, temperature samples and a failed cooling (R329, R331, R334 to R336): what each
changes, and which of them end the module's work. -/
def Obligations.PowerEvents : Prop := ∀ s : State, Canonical s →
  (∀ i mv, i < 57 → (regionOf s.power i).state = .active → mv < 720 → ∃ t, exec (.droopStretchBegin i mv) s = .next t ∧
    t = { s with power := { s.power with
      regions := t.power.regions
      stretching := true
      stretchMv := if s.power.stretching then min s.power.stretchMv mv else mv } } ∧
    ∀ j, regionOf t.power j = if j = i then { regionOf s.power i with vcore := mv } else regionOf s.power j) ∧
  (∀ i mv, i < 57 → 720 ≤ mv → s.power.stretching = true → ∃ t, exec (.droopStretchEnd i mv) s = .next t ∧
    t = { s with power := { s.power with
      regions := t.power.regions
      stretching := false } } ∧ ∀ j, j ≠ i → regionOf t.power j = regionOf s.power j) ∧
  (∀ n, n < 16 → n ∉ s.power.lostLocks →
    { s.power with lostLocks := s.power.lostLocks ++ [n] }.halfUnlocked s.repair (n / 8) = false →
    ∃ t, exec (.injectionLockLoss n) s = .next t ∧ t = { s with
      power := { s.power with lostLocks := s.power.lostLocks ++ [n] }
      trace := t.trace
      host := t.host }) ∧
  (∀ n, n < 16 → n ∉ s.power.lostLocks → s.arbiter.fatal = none →
    { s.power with lostLocks := s.power.lostLocks ++ [n] }.halfUnlocked s.repair (n / 8) = true →
    ∃ t, exec (.injectionLockLoss n) s = .next t ∧ TurnsFatal s t 0x7009) ∧
  (∀ temps : List (BitVec 8), temps.length = 57 → (∀ x ∈ temps, x.toNat < 105) →
    ∃ t, exec (.temperatureSample temps) s = .next t ∧ t = { s with
      power := { s.power with
        regions := t.power.regions
        hotAt := if ∃ x ∈ temps, 80 ≤ x.toNat then s.now else s.power.hotAt }
      trace := t.trace
      host := t.host } ∧
    ∀ i, i < 57 → regionOf t.power i = { regionOf s.power i with
      temp := temps.getD i 0
      warned := decide (95 ≤ (temps.getD i 0).toNat) }) ∧
  (s.power.coolingLoss = true → s.arbiter.fatal = none → ∃ t, exec .coolingFailed s = .next t ∧ TurnsFatal s t 0x700E ∧
    t = { s with
      trace := t.trace
      host := t.host
      arbiter := t.arbiter
      rillOut := t.rillOut })

/-- A Module-fatal code starts the fatal path; when the dump is complete every session is closed, the step and the program are
gone, and the module is in STANDBY; a code of temperature also switches every field region off (R336, R359 to R361). Nothing that
needs the wafer having run for idle_us, the module goes IDLE: the ACTIVE field regions to RETENTION, the mesh stopped (R340). -/
def Obligations.FatalPathAndIdle : Prop :=
  (∀ (s : State) (code : Code),
  (∀ p, s.boot.firmwareRuns = true → s.arbiter.fatal = none → code = 0x7009 ∨ code = 0x700C ∨ code = 0x700E →
    ∃ t, exec (.moduleFatal code p) s = .next t ∧ TurnsFatal s t code ∧ t = { s with
      trace := t.trace
      host := t.host
      arbiter := t.arbiter
      rillOut := t.rillOut }) ∧
  (∀ absent, s.arbiter.fatal = some code → ∃ t, exec (.fatalDumpComplete absent) s = .next t ∧
    t.power.state = .standby ∧ t.program = none ∧ t.host.sessions = [] ∧ t.arbiter.fatal = none ∧ t.step.phase = .idle ∧
    t.power.tooHot = (if code = 0x700C ∨ code = 0x700E then some code else s.power.tooHot) ∧
    (code = 0x700C ∨ code = 0x700E → t.mem = [] ∧ t.trace.flashDump.isSome = true))) ∧
  (∀ s : State, Canonical s → s.power.state = .active → s.program.isSome = true →
  s.prog.idleUs ≠ 0 → s.busy = false → ∃ t, exec .idleEntry s = .next t ∧ t.power.state = .idle ∧ t.power.meshRun = false ∧
    t = { s with power := t.power } ∧
    ∀ i, (regionOf t.power i).state = if i < 56 ∧ (regionOf s.power i).state = .active then .retention else (regionOf s.power i).state)
/-! ### Boot, the warden and the ports (chapter 18, R297, R320, R328) -/

/-- Power for the warden starts the time-stamp counter at 0; the warden answers STATUS while the module is DORMANT; a port with
power answers echo and address requests and takes a lease, and one without power does nothing, nor any with a frame it does not take:
one beyond 9,216 bytes or with more than one tag, an IP fragment, TCP (R297, R328, R404, R408; log entry 113). -/
def Obligations.WardenAndPorts : Prop := ∀ s : State,
  (s.power.wardenOn = false → exec .wardenPowerOn s = .next { s with
    now := 0
    repair := { s.repair with age := s.repair.age + s.now }
    power := { s.power with
      wardenOn := true
      state := .dormant } }) ∧
  (s.power.wardenOn = true → s.power.state = .dormant → exec .status s = .next (s.sendHost (.wardenReply (leBytes 1 0 ++
    leBytes 4 s.boot.attempts ++ leBytes 16 Config.serial.toNat ++ keyIdBytes ++ s.boot.log.flatMap BootLog.bytes)))) ∧
  (∀ port data net, netOk net = true → s.portUp port = true →
    exec (.icmpEcho ⟨port, net⟩ data) s = .next (s.sendHost (.icmpReply port data))) ∧
  (∀ port a net, netOk net = true → s.portUp port = true → (a ≠ 0 ∧ s.lease port = a) ∨ a = Config.linkLocal (portIndex port) →
    exec (.arp ⟨port, net⟩ a) s = .next (s.sendHost (.arpReply port a))) ∧
  (∀ port a, s.portUp port = true → smWf 0 0 s.host.leases = true → ∃ t, exec (.leaseRenewal port a) s = .next t ∧
    t.lease port = a ∧ (∀ q, q ≠ port → t.lease q = s.lease q) ∧ t = { s with host := { s.host with
      leases := t.host.leases
      sent := .leaseRequest port :: s.host.sent } }) ∧
  (∀ port data a net, s.portUp port = false ∨ 9216 < net.bytes ∨ 1 < net.tags ∨ net.fragment = true ∨ net.tcp = true →
    ∀ c ∈ [Instr.icmpEcho ⟨port, net⟩ data, .arp ⟨port, net⟩ a], exec c s = .next s) ∧
  (∀ port a, s.portUp port = false → exec (.leaseRenewal port a) s = .next s)

/-- A boot attempt begins with stage 1 when the input starts, on request, by itself, and after the retry wait; during an
attempt nothing begins (R320, R407, R408). Its stages (Table 18-3, R405 to R408): a header accepted starts the edge region, the
region's start, which waits for the input, begins the body's fetch over ETH0, the body is held against the header's digest, and the record's stage ends with the
firmware running, the Rill's routing tables loaded, the bypass links of the repair map switched and the module in STANDBY; a data port without a lease gives way to the next, every other failure ends the attempt. -/
def Obligations.BootAttempts : Prop :=
  (∀ s : State,
  let begun (u : State) : State := { u with boot := { u.boot with
    stage := 1
    attempts := u.boot.attempts + 1
    port := .service
    waiting := none
    header := []
    body := [] } }
  let ready : State := { s with power := { s.power with
    inputReady := true
    inputMv := max s.power.inputMv 48000 } }
  (s.power.wardenOn = true → s.power.state = .dormant → s.boot.stage = 0 →
    exec .bootNow s = .next (begun s) ∧ exec .inputStart s = .next (begun ready) ∧
    (s.power.inputReady = true → s.boot.waiting = none → exec .bootAttempt s = .next (begun s)) ∧
    (s.power.inputReady = true → s.boot.waiting ≠ none → exec .bootRetryWait s = .next (begun s) ∧
      exec .bootAttempt s = .next s)) ∧
  (s.boot.stage ≠ 0 → exec .bootNow s = .next s ∧ exec .bootAttempt s = .next s ∧ exec .bootRetryWait s = .next s)) ∧
  (∀ s : State,
  (∀ f, s.boot.stage = 1 → exec (.bootHeaderFetched f .service) s = .next (match s.boot.headerRefused f.bytes with
    | some c => s.attemptFails c 1
    | none => { s with
      boot := { s.boot with
        stage := 2
        header := f.bytes }
      power := if s.power.inputReady ∧ (regionOf s.power 56).state = .off then s.power.updRegion 56 (·.enter .ramp)
        else s.power })) ∧
  (s.power.wardenOn = true → s.boot.stage = 2 → (regionOf s.power 56).state = .off → exec .inputStart s = .next { s with
    power := { s.power with
      inputReady := true
      inputMv := max s.power.inputMv 48000 }.updRegion 56 (·.enter .ramp) }) ∧
  (s.boot.stage = 2 → (regionOf s.power 56).state = .ramp → exec .edgeRegionActive s = .next { s with
    power := s.power.updRegion 56 (·.enter .active)
    boot := { s.boot with
      stage := 3
      port := .eth0 } }) ∧
  (∀ body ok, s.boot.stage = 3 → exec (.firmwareBodyFetched body ok s.boot.port) s = .next (
    if body.length = fieldAt s.boot.header 12 4 ∧ digestBytes (sha256 body) = cut s.boot.header 16 32 then
      (if ok then { s with boot := { s.boot with
        stage := 5
        body := body } } else s.attemptFails 0x8006 4)
    else s.attemptFails 0x8003 3)) ∧
  (∀ r, s.boot.stage = 5 → ∃ t, exec (.provisioningRecordFetched r) s = .next t ∧ t.boot.stage = 0 ∧
    (∀ c, (s.boot.judge r).versionRefused = some c → t = { s with boot := s.boot.judge r }.attemptFails c 6) ∧
    ((s.boot.judge r).versionRefused = none → t.boot.firmwareRuns = true ∧ t.power.state = .standby ∧ t.boot.wait = 1 ∧
      t.boot.measurement = sha256 (s.boot.header ++ s.boot.body) ∧ t.rill.around = some (darkFields s.repair) ∧
      t = { s with
        boot := t.boot
        repair := s.repair.switched
        rill := t.rill
        power := { s.power with state := .standby }
        links := t.links })) ∧
  (s.boot.stage = 3 → s.boot.port = .eth0 →
    exec (.fwFetch .noLease .eth0) s = .next { s with boot := { s.boot with port := .eth1 } }) ∧
  (s.boot.stage = 3 → s.boot.port = .eth1 →
    exec (.fwFetch .noLease .eth1) s = .next { s with boot := { s.boot with port := .service } }) ∧
  (∀ why port, s.boot.stage = 1 ∨ s.boot.stage = 5 ∨ (s.boot.stage = 3 ∧ why ≠ .noLease) →
    exec (.fwFetch why port) s = .next (s.attemptFails 0x8005 s.boot.stage)) ∧
  (s.boot.stage = 2 → ∃ t, exec (.regionStartFail 56) s = .next t ∧ t.boot = (s.attemptFails 0x7010 2).boot ∧
    t.power.state = .dormant) ∧
  (∀ c n, (s.attemptFails c n).boot.stage = 0 ∧ (s.attemptFails c n).boot.waiting = some s.boot.wait ∧
    (s.attemptFails c n).boot.wait = min 64 (2 * s.boot.wait) ∧ (s.attemptFails c n).power.state = .dormant))

/-! ### Sessions (R304, R307 to R316) and RoCEv2 (R298, R299) -/

/-- What comes before a command's own work, for every Delit command: a frame that the port does not take is no datagram; a datagram
with a wrong field or of a session that is not known is dropped and counted, one whose tag fails is counted for its session too, and
fragments wait until their message is whole; on the fatal path nothing is executed; a sequence number already executed is answered from
the cache, one beyond the window of 64 is dropped, one ahead of its turn is held (R297, R304, R306, R310, R359); then 0x1006 for an
observer's command of column S, 0x1005 during a step for one of column W, and 0x1003 for a reserved field, with nothing but the session
changed (R13, R309, R313, R314). -/
def Obligations.CommandsBeforeTheirWork : Prop :=
  (∀ (h : Hdr) (op : DelitOp) (s : State),
  (netOk h.dg.net = false → exec (rowOf h op) s = .next s) ∧
  (netOk h.dg.net = true → dgramSound h.dg 5 = false ∨ (∀ y ∈ s.host.sessions, y.id ≠ h.session) →
    exec (rowOf h op) s = .next { s with host := { s.host with dropped := s.host.dropped + 1 } }) ∧
  (netOk h.dg.net = true → dgramSound h.dg 5 = true → (∃ y ∈ s.host.sessions, y.id = h.session) → h.dg.tagOk = false →
    exec (rowOf h op) s = .next { s with host := { s.host with
      dropped := s.host.dropped + 1
      sessions := s.host.sessions.map (fun y => if y.id = h.session then { y with tagFail := y.tagFail + 1 } else y)
      handshakes := s.host.handshakes.map (fun y => if y.id = h.session then { y with tagFail := y.tagFail + 1 } else y) } }) ∧
  (netOk h.dg.net = true → dgramSound h.dg 5 = true → (∃ y ∈ s.host.sessions, y.id = h.session) → h.dg.tagOk = true →
    (∃ i, i < h.dg.fragCount ∧ i ∉ s.fragmentsOf h.session h.seq h.dg) →
    exec (rowOf h op) s = .next { heard h s with host := { (heard h s).host with
      fragments := s.host.fragments.filter (fun x => !(x.1 == h.session && x.2.1 == h.seq)) ++
        [(h.session, h.seq, s.fragmentsOf h.session h.seq h.dg)] } })) ∧
  (∀ (h : Hdr) (op : DelitOp) (x : Session) (s : State), Arrives h.dg 5 h.session h.seq s → s.sessionOf h.session = some x →
  (s.arbiter.fatal.isSome = true → exec (rowOf h op) s = .next (heard h s)) ∧
  (∀ cid st b, s.arbiter.fatal = none → h.seq ≤ x.executed → x.cache = [.response h.session h.seq cid st b] →
    exec (rowOf h op) s = .next ((heard h s).sendHost (.response h.session h.seq cid st b))) ∧
  (s.arbiter.fatal = none → x.executed + 64 < h.seq → exec (rowOf h op) s = .next (heard h s)) ∧
  (s.arbiter.fatal = none → x.executed + 1 < h.seq → h.seq ≤ x.executed + 64 →
    (∀ c ∈ x.held, c.1.seq ≠ h.seq ∧ c.1.seq ≠ x.executed + 1) →
    exec (rowOf h op) s = .next ((heard h s).updSession h.session (fun y => { y with held := y.held ++ [(h, op)] })))) ∧
  (∀ (h : Hdr) (x : Session) (op : DelitOp) (s : State), InOrder h x s →
  (needsControl op = true → x.control = false → exec (rowOf h op) s = .next (replied h 0x1006 [] s)) ∧
  (x.control = true → betweenSteps op = true → s.step.inProgress = true →
    exec (rowOf h op) s = .next (replied h 0x1005 [] s)) ∧
  (x.control = true → h.resv = true → ownReserved op = false → betweenSteps op = false ∨ s.step.inProgress = false →
    exec (rowOf h op) s = .next (replied h 0x1003 [] s)))

/-- HELLO is answered with HELLO_REJECT or with HELLO_REPLY and a session that waits for its FINISH, whose keys HKDF-SHA-256 gives
under the transcript hash; a FINISH that is accepted establishes the session, which takes control from another when it asks to; one that
is not leaves the handshake as it was, and one with a bad tag is counted (R307 to R309, R408). -/
def Obligations.HandshakesAndSessions : Prop :=
  (∀ (s : State) (m : HelloMsg), s.boot.firmwareRuns = true → s.portUp m.port = true → s.arbiter.fatal = none →
  Arrives m.dg 1 0 0 s → s.sessionOf 0 = none →
  (∀ c, helloRejects s m = some c → exec (.hello m) s = .next (s.sendHost (.helloReject c))) ∧
  (helloRejects s m = none → ∃ (x : Session) (b : Bytes), exec (.hello m) s = .next { s with
    draws := s.draws + 1
    host := { s.host with
      nextSession := s.host.nextSession + 1
      handshakes := s.host.handshakes ++ [x]
      sent := .helloReply s.host.nextSession b :: s.host.sent } } ∧ x.id = s.host.nextSession ∧ x.control = (m.role == 1) ∧
    x.keyId = m.keyId ∧ x.established = false ∧ x.executed = 0 ∧ x.transcript = sha256 (m.raw ++ b.take 1160) ∧
    x.keys = sessionKeys s.draws (cut m.raw 40 32) (cut m.raw 72 1184) x.transcript)) ∧
  (∀ (s : State) (x : Session) (ed : BitVec 512) (ml : Bytes) (d : Dgram),
  s.arbiter.fatal = none → s.host.handshakes.find? (fun y => y.id == x.id) = some x → s.host.sessions.length < 8 →
  (∀ y ∈ s.host.sessions, y.id ≠ x.id) →
  (Arrives d 4 x.id 0 s → x.control = false → exec (.finish x.id ed ml d) s = .next (if finishOk s x ed ml then { s with
    host := { s.host with
      handshakes := s.host.handshakes.filter (fun y => y.id ≠ x.id)
      sessions := s.host.sessions ++ [{ x with
        established := true
        lastHeard := s.now }] } } else s)) ∧
  (Arrives d 4 x.id 0 s → x.control = true → s.controller = none → ∃ t, exec (.finish x.id ed ml d) s = .next t ∧
    (finishOk s x ed ml = false → t = s) ∧
    (finishOk s x ed ml = true → t.controller.map (·.id) = some x.id ∧ t.boot.unraised = [] ∧ t.boot.queued = [] ∧
      t = { s with
        host := t.host
        boot := t.boot
        trace := t.trace })) ∧
  (∀ old, Arrives d 4 x.id 0 s → x.control = true → x.takeover = true → s.controller = some old →
    ∃ t, exec (.finish x.id ed ml d) s = .next t ∧ (finishOk s x ed ml = true →
      (∀ y ∈ t.host.sessions, y.id ≠ old.id) ∧ (∃ y ∈ t.host.sessions, y.id = x.id ∧ y.control = true) ∧
      .close old.id 0x100A ∈ t.host.sent)) ∧
  (netOk d.net = true → dgramSound d 4 = true → d.tagOk = false → exec (.finish x.id ed ml d) s = .next { s with
    host := { s.host with
      dropped := s.host.dropped + 1
      handshakes := s.host.handshakes.map (fun y => if y.id = x.id then { y with tagFail := y.tagFail + 1 } else y) } }))

/-- A handshake not finished goes, a message not whole goes, and a session not heard of for 10 s of the time-stamp counter is
closed, and not before (R304, R307, R309). Events are held until they are acknowledged, and sent again until then; the first
acknowledgement that makes room reports the events that were lost (R316). -/
def Obligations.TimersAndEvents : Prop :=
  (∀ (s : State) (id : Nat),
  exec (.handshakeTimeout id) s = .next { s with host := { s.host with
    handshakes := s.host.handshakes.filter (fun x => x.id ≠ id) } } ∧
  (∀ seq, exec (.fragmentTimeout id seq) s = .next { s with host := { s.host with
    fragments := s.host.fragments.filter (fun x => !(x.1 == id && x.2.1 == seq)) } }) ∧
  (∀ x, s.sessionOf id = some x → s.survival.exporting = none → x.lastHeard.toNat + 11000000000 ≤ s.now.toNat →
    exec (.sessionTimeout id) s = .next (s.closeSession id 0)) ∧
  (∀ x, s.sessionOf id = some x → s.now.toNat < x.lastHeard.toNat + 11000000000 → exec (.sessionTimeout id) s = .next s)) ∧
  (∀ (s : State) (id seq : Nat) (d : Dgram) (x : Session), Arrives d 8 id seq s → s.sessionOf id = some x →
  (x.lostEvents = 0 → exec (.eventAck id ⟨seq, d⟩) s = .next (s.updSession id (fun y => { y with
    unacked := y.unacked.filter (fun e => decide (seq < e.1))
    reserved := y.reserved.filter (fun e => decide (seq < e.1))
    lastHeard := s.now }))) ∧
  (x.lostEvents ≠ 0 → (x.unacked.filter (fun e => decide (seq < e.1))).length < 4096 →
    ∃ t y, exec (.eventAck id ⟨seq, d⟩) s = .next t ∧ t = { s with host := t.host } ∧ t.sessionOf id = some y ∧ y.lostEvents = 0 ∧
      y.eventSeq = x.eventSeq + 1 ∧ (y.unacked.getLast?.map (fun e => (e.1, e.2.type, e.2.detail))) =
        some (x.eventSeq + 1, 5, BitVec.ofNat 32 x.lostEvents)) ∧
  (∃ t l, exec (.eventRetransmit id) s = .next t ∧ t = { s with host := { s.host with sent := l ++ s.host.sent } } ∧
    l.length = x.unacked.length + x.reserved.length ∧
    ∀ e ∈ x.unacked ++ x.reserved, HostMsg.event id e.1 e.2 ∈ l))

/-- RoCEv2: a write is acknowledged when it comes on a queue pair of the controlling session with a key that the session was issued
for a region that may be written, and a read when its key and range are right; the rest is answered with a NAK and changes nothing; a
send is acknowledged, an unsupported one ends the queue pair's service, and a mark of congestion is answered on every packet of a queue
pair; a frame that the port does not take does nothing (R297 to R299). -/
def Obligations.RdmaVerbs : Prop := ∀ (s : State) (qpn : BitVec 24) (q : QueuePair) (x : Session) (net : Net),
  s.queuePair qpn = some q → s.sessionOf q.session = some x →
  (netOk net = true →
  let u := if net.ecn then s.sendHost (.cnp qpn) else s
  (∀ key (off : BitVec 56) data, x.control = true → s.keyFits q 1 key = true → s.host.programOpen = true →
    off.toNat + data.length ≤ 2 ^ 32 → exec (.rdmaWrite qpn key ⟨1, off⟩ data net) s = .next ({ u with host := { u.host with
      programImage := wrBytes s.host.programImage off.toNat data } }.sendHost (.rdmaAck qpn))) ∧
  (∀ key (off : BitVec 56) data, x.control = true → s.keyFits q 2 key = true → s.step.inProgress = false →
    off.toNat + data.length ≤ 0x400000 → exec (.rdmaWrite qpn key ⟨2, off⟩ data net) s = .next ({ u with host := { u.host with
      batch := wrBytes s.host.batch off.toNat data } }.sendHost (.rdmaAck qpn))) ∧
  (∀ key region off data, x.control = false ∨ s.keyFits q region key = false ∨ (region ≠ 1 ∧ region ≠ 2) →
    exec (.rdmaWrite qpn key ⟨region, off⟩ data net) s = .next (u.sendHost (.rdmaNakAccess qpn))) ∧
  (∀ key (off : BitVec 56) n, s.keyFits q 3 key = true → off.toNat + n ≤ x.result.length →
    exec (.rdmaRead qpn key ⟨3, off⟩ n net) s = .next (u.sendHost (.rdmaData qpn (cut x.result off.toNat n)))) ∧
  (∀ key region off n, s.keyFits q region key = false ∨ (region ≠ 3 ∧ region ≠ 4) →
    exec (.rdmaRead qpn key ⟨region, off⟩ n net) s = .next (u.sendHost (.rdmaNakAccess qpn))) ∧
  (∀ data, exec (.send qpn data false net) s = .next (u.sendHost (.rdmaAck qpn)) ∧
    exec (.send qpn data true net) s =
      .next ((u.sendHost (.rdmaNakInvalid qpn)).updQp qpn (fun q => { q with error := true })))) ∧
  (∀ key (region : Sys2Proof.Region), (∃ p ∈ s.host.queuePairs, p.session = q.session ∧ 1 ≤ region.toNat ∧
    p.keys[region.toNat - 1]? = some key) → s.keyFits q region key = true) ∧
  (netOk net = false → ∀ key region off data n unsupported,
    ∀ c ∈ [Instr.rdmaWrite qpn key ⟨region, off⟩ data net, .rdmaRead qpn key ⟨region, off⟩ n net, .send qpn data unsupported net],
      exec c s = .next s) ∧
  exec (.congestionNotification qpn) s = .next { s with host := { s.host with
    queuePairs := s.host.queuePairs.map (fun q => if q.qpn = qpn then
      (match q.lastHalved with
       | some t => if t.toNat + 55000 ≤ s.now.toNat then { q with
           rate := q.rate / 2
           lastHalved := some s.now
           lastCnp := some s.now } else { q with lastCnp := some s.now }
       | none => { q with
           rate := q.rate / 2
           lastHalved := some s.now
           lastCnp := some s.now }) else q) } } ∧
  exec (.rateRestore qpn) s = .next { s with host := { s.host with
    queuePairs := s.host.queuePairs.map (fun q => if q.qpn = qpn then
      (match q.lastCnp with
       | some t => if t.toNat + 110000 ≤ s.now.toNat then { q with rate := min 65536 (q.rate + 8192) } else q
       | none => { q with rate := min 65536 (q.rate + 8192) }) else q) } }

/-! ### Programs, steps and the other commands of a session (R19, R31, R290, R299 to R302, R312, R365 to R370, R389 to R395) -/

/-- PROGRAM_BEGIN takes the program away and opens PROGRAM for writing; BULK_WRITE fills PROGRAM and BATCH; PROGRAM_LOAD answers the
status of its checks, or 0x0001 and starts the field regions; when they are ACTIVE the program is installed and the module is
ACTIVE; a persistent page of a field fenced in state 0b01 is copied to where the new program places it (R43, R300, R301, R303). -/
def Obligations.ProgramLoads : Prop := ∀ (h : Hdr) (x : Session) (s : State),
  (ReadyBetween h x s → Canonical s → ∃ t, exec (.programBegin h) s = .next t ∧ t.program = none ∧ t.power.state = .standby ∧
    t.host.programOpen = true ∧ t.host.programImage = [] ∧ t.host.installing = none ∧
    (∀ k, rdByte t.mem k = if k / 2 ^ 40 < 2688 ∧ programBase ≤ k % 2 ^ 40 ∧ k % 2 ^ 40 < programBase + 0x100000 then 0
      else rdByte s.mem k) ∧
    ∀ i, i < 56 → (regionOf t.power i).state = if (regionOf s.power i).state = .active then .retention else (regionOf s.power i).state) ∧
  (∀ (off : BitVec 56) data, ReadyControl h x s → data.length ≤ 1024 → s.host.programOpen = true →
    off.toNat + data.length ≤ 2 ^ 32 → exec (.bulkWrite h 1 off data) s = .next (replied h 0 [] { s with host := { s.host with
      programImage := wrBytes s.host.programImage off.toNat data } })) ∧
  (∀ (off : BitVec 56) data, ReadyControl h x s → data.length ≤ 1024 → s.step.inProgress = false →
    off.toNat + data.length ≤ 0x400000 → exec (.bulkWrite h 2 off data) s = .next (replied h 0 [] { s with host := { s.host with
      batch := wrBytes s.host.batch off.toNat data } })) ∧
  (∀ b, ReadyBetween h x s → Canonical s → s.power.tooHot = none → s.host.programOpen = true →
    ∃ t, exec (.programLoad h (programDigest s.host.programImage) b) s = .next t ∧
      match rejectOf (readProgram s.host.programImage (programDigest s.host.programImage) b (slabPages s.variant)
        (fieldMapValue s.repair)).2 with
      | some c => 1 < c.toNat → t = replied h c [] s
      | none => (∃ u, t = replied h 1 [] u ∧ u = { s with
          power := u.power
          host := { s.host with
            programOpen := false
            installing := some (owed h, (readProgram s.host.programImage (programDigest s.host.programImage) b
              (slabPages s.variant) (fieldMapValue s.repair)).1) } }) ∧
          ∀ i, i < 56 → (regionOf t.power i).state =
            if fieldState s.repair i = 2 ∨ (regionOf s.power i).state = .active ∨ (regionOf s.power i).state = .broken then
              (regionOf s.power i).state else .ramp) ∧
  (∀ o p, s.host.installing = some (o, p) → s.boundary = s → p.fieldMap.toNat = fieldMapValue s.repair →
    ∃ t, exec (.programLoadComplete []) s = .next t ∧ t.program = some p ∧ t.power.state = .active ∧ t.power.meshRun = true ∧
      t.host.installing = none ∧ t.host.programImage = [] ∧ t.step.anyNumber = true ∧ t.reduce = {} ∧
      t.sync.waiters = [] ∧ t.repair = s.repair ∧ t.mesh = {} ∧ (p.bindings.moves = [] → t.pages = s.pages)) ∧
  (∀ a lp b lq src dst, lp < 1024 → lq < 1024 → MemoryWf s → fieldState s.repair (fieldOfLogical a) = 1 →
    fieldState s.repair (fieldOfLogical b) = 0 → s.pageOf false a lp = some src → s.pageOf false b lq = some dst →
    tileRead (s.placePage (1024 * a + lp, 1024 * b + lq)) (physOf s.repair b) (pageAddr dst 0) pageBytes =
      tileRead s (physOf s.repair a) (pageAddr src 0) pageBytes)

/-- STEP_OPEN that passes its checks opens the step and ends with FILL, whose schedule runs as far as it can; while pages are lost OPEN
fails with 0x3004; STEP_DISCARD
answers and then starts the discard with 0x1012, whose events follow the response; after the commit point, and with no step in progress,
it fails with 0x100C (R19, R31, R312, R349). -/
def Obligations.StepOpensAndDiscards : Prop := ∀ (h : Hdr) (x : Session) (s : State) (p : StepOpen),
  (ReadyBetween h x s → openRejects s false p = none → s.openWaits = false → ((heard h s).openStep p).2.1 = 0 →
    ∃ u, exec (.stepOpen h p) s = .next (answered h u.pumpMesh 0 ((heard h s).openStep p).2.2) ∧ u.step.phase = .fill ∧
      u.step.current = p ∧ u.step.expected = p.stepNumber ∧ u.step.committed = false ∧ u.step.slotsActive = slotsActive p ∧
      u.step.anyNumber = false ∧ u.step.latchedScale = s.step.lossScale ∧ u.step.loss = [] ∧ u.program = s.program ∧
      u.mesh = startMesh u ∧ u.pages = { s.pages with prior := [] } ∧
      ∀ t, t < 2352 → fieldState s.repair (fieldOfLogical t) ≠ 2 →
        (tileOf u (physOf s.repair t)).canvasA = {} ∧ (tileOf u (physOf s.repair t)).canvasB = {}) ∧
  (ReadyBetween h x s → openRejects s false p = none → s.openWaits = false → s.pages.lost ≠ [] →
    ∃ t, exec (.stepOpen h p) s = .next t ∧ t.step.phase = .discarding ∧ t.step.current = p ∧
      t.arbiter.latched.map (·.code) = [0x3004] ∧ t.host.sent.head? = some (.response h.session h.seq h.cid 0x3004 [])) ∧
  (∀ c, ReadyBetween h x s → openRejects s false p = some c → exec (.stepOpen h p) s = .next (replied h c [] s)) ∧
  (ReadyControl h x s → CanDiscard s → s.step.phase ≠ .sealing → ∃ t, exec (.stepDiscard h) s = .next t ∧
    Discards (replied h 0 [] s) t 0x1012 moduleWide ∧ t = { replied h 0 [] s with
      trace := t.trace
      host := t.host
      arbiter := t.arbiter
      step := t.step
      rillOut := t.rillOut } ∧ ∃ later, t.host.sent = later ++ (replied h 0 [] s).host.sent) ∧
  (ReadyControl h x s → s.step.committed = true → exec (.stepDiscard h) s = .next (replied h 0x100C [] s)) ∧
  (ReadyControl h x s → s.step.phase = .idle → exec (.stepDiscard h) s = .next (replied h 0x100C [] s))

/-- With the policy bit that allows it, SET_VALUE gives a counter or a fenced object its value and wakes every waiter that it satisfies,
and RELEASE completes a barrier's round as though ARRIVED had reached N and wakes those that waited for it; the host becomes the
object's last signaller, HAND_SET is set, 0x6007 is raised, and the step remembers it. Without the bit both fail with 0x6008, for
an observer with 0x1006 whatever the bit, and a value above 2^48 − 1 with 0x1004, and nothing happens (R290, R291, R415). -/
def Obligations.HandSets : Prop :=
  (∀ (h : Hdr) (x : Session) (s : State) (i : Nat), ReadyControl h x s → Canonical s → i < 32768 →
  let o := s.obj i
  let marked (y : SyncObj) : SyncObj := { y with
    last := signaller 2 0 0 (low32 s.step.number)
    handSet := true }
  let note (a : Nat) (v : BitVec 64) : Sync := { s.sync with
    stepHandSet := s.sync.stepHandSet || s.step.inProgress
    handSets := s.sync.handSets ++ [⟨i, a, v⟩] }
  (∀ v : BitVec 64, s.policy 0 = true → o.kind = 1 ∨ o.kind = 3 → v.toNat < 2 ^ 48 →
    let sat (w : Waiter) : Bool := w.obj == i && w.op == 3 && decide (w.target ≤ v.toNat)
    ∃ u : State, exec (.setValue h i v) s = .next (answered h (u.raise 0x6007 moduleWide noCmd i) 0 []) ∧
      u.obj i = marked { o with state := v } ∧ (∀ j, j ≠ i → u.obj j = s.obj j) ∧ u = { heard h s with
        sync := { note 0 v with
          objs := u.sync.objs
          waiters := s.sync.waiters.filter (fun w => !sat w) }
        rillOut := ((s.sync.waiters.filter sat).map (fun w => wakeMsg w.site i v.toNat false)).reverse ++ s.rillOut }) ∧
  (s.policy 0 = true → o.kind = 2 →
    let waits (w : Waiter) : Bool := w.obj == i && w.op == 4
    let round := (o.round + 1) % 65536
    ∃ u : State, exec (.release h i) s = .next (answered h (u.raise 0x6007 moduleWide noCmd i) 0 []) ∧
      u.obj i = marked { o with
        state := barrierWord round 0 o.waitArrivals 0
        waitArrivals := 0
        gateStep := if o.isGate then (if o.gateSet then o.gateStep + 1 else low32 s.currentStep) else o.gateStep
        gateSet := o.gateSet || o.isGate } ∧
      u.sync.waiters = s.sync.waiters.filter (fun w => !waits w) ∧ u.sync.stepHandSet = (note 1 0).stepHandSet ∧
      u.sync.handSets = (note 1 0).handSets ∧
      u.rillOut = ((s.sync.waiters.filter waits).map (fun w => wakeMsg w.site i round false)).reverse ++ s.rillOut ∧
      (o.realigns = false → (∀ j, j ≠ i → u.obj j = s.obj j) ∧ u = { heard h s with
        sync := { note 1 0 with
          objs := u.sync.objs
          waiters := u.sync.waiters }
        rillOut := u.rillOut })) ∧
  (∀ v : BitVec 64, s.policy 0 = true → 2 ^ 48 ≤ v.toNat → exec (.setValue h i v) s = .next (replied h 0x1004 [] s)) ∧
  (∀ v, s.policy 0 = false → exec (.setValue h i v) s = .next (replied h 0x6008 [] s) ∧
    exec (.release h i) s = .next (replied h 0x6008 [] s))) ∧
  (∀ (h : Hdr) (x : Session) (s : State) (i : Nat) (v : BitVec 64), InOrder h x s → x.control = false →
    exec (.setValue h i v) s = .next (replied h 0x1006 [] s) ∧ exec (.release h i) s = .next (replied h 0x1006 [] s))

/-- TRACE_CONFIG: arming sets the condition and arms every ring, keeping the records or emptying the ring first; disarming freezes
every ring. The trigger's broadcast starts the capture of an armed ring with its TRIGGER record; a ring that has written its
post_count freezes, and from then keeps only KEEP records, in its reserve, until the summary's slot (R389 to R392). -/
def Obligations.TracesConfiguredAndCaptured : Prop :=
  (∀ (h : Hdr) (x : Session) (s : State), ReadyBetween h x s →
  smWf ({} : Ring) 0 s.trace.rings = true →
  (∀ c, traceCfgInvalid c = false → ∃ t, exec (.traceSetAndArm h c) s = .next t ∧ t.trace.config = some c ∧
    t.trace.armed = true ∧ t.trace.fired = none ∧
    (∀ k, k ≤ 2688 → 0 < ringCapacity s k → (ringAt t k).state = 0 ∧ (ringAt t k).general = (ringAt s k).general) ∧
    t = { s with
      trace := t.trace
      host := t.host }) ∧
  (∀ c, traceCfgInvalid c = false → ∃ t, exec (.traceEmptyAndArm h c) s = .next t ∧ t.trace.config = some c ∧
    t.trace.armed = true ∧ t.trace.fired = none ∧
    (∀ k, k ≤ 2688 → 0 < ringCapacity s k → (ringAt t k).state = 0 ∧ (ringAt t k).general = [] ∧ (ringAt t k).reserve = []) ∧
    t = { s with
      trace := t.trace
      host := t.host }) ∧
  (∃ t, exec (.traceDisarm h) s = .next t ∧ t.trace.armed = false ∧ (∀ k, (ringAt t k).state = 2) ∧
    (∀ k, (ringAt t k).general = (ringAt s k).general) ∧ t = { s with
      trace := t.trace
      host := t.host })) ∧
  (∀ (s : State) (k : Nat), k ≤ 2688 → smWf ({} : Ring) 0 s.trace.rings = true →
  (∀ c m, s.trace.config = some c → s.trace.fired = some m → s.trace.armed = true → (ringAt s k).state = 0 →
    0 < ringCapacity s k → ∃ t, exec (.traceTrigger k) s = .next t ∧ (ringAt t k).state = 1 ∧
      (ringAt t k).general.getLast? = some ⟨m.1, noCmd, 0x0B, true, if k = 2688 then 0xF00 else BitVec.ofNat 12 k,
        low32 s.step.number, BitVec.ofNat 64 (m.2.toNat + 2 ^ 12 * (c.trigger.toNat % 16))⟩ ∧
      (ringAt t k).postLeft = min c.postCount.toNat (15 * ringCapacity s k / 16 - 1) - (ringAt s k).since ∧
      (∀ j, j ≠ k → ringAt t j = ringAt s j) ∧ t = { s with trace := t.trace }) ∧
  ((ringAt s k).state = 1 → (ringAt s k).postLeft = 0 → ∃ t, exec (.traceFreeze k) s = .next t ∧
    ringAt t k = { ringAt s k with state := 2 } ∧ (∀ j, j ≠ k → ringAt t j = ringAt s j) ∧ t = { s with trace := t.trace }) ∧
  (∀ (cap : Nat) (fired : Bool) (x : TraceRec), (ringAt s k).state = 2 →
    (((ringAt s k).write cap fired x).general = (ringAt s k).general ∧ ((ringAt s k).write cap fired x).state = 2) ∧
    (x.keep = true → (ringAt s k).reserve.length + 1 < cap / 16 →
      ((ringAt s k).write cap fired x).reserve = (ringAt s k).reserve ++ [x]) ∧
    (x.keep = false ∨ cap / 16 ≤ (ringAt s k).reserve.length + 1 →
      ((ringAt s k).write cap fired x).reserve = (ringAt s k).reserve ∧
      ((ringAt s k).write cap fired x).dropped = min ((ringAt s k).dropped + 1) 0xFFFFFFFF)))

/-- SNAPSHOT_EXPORT takes the image and owes its pages; EXPORT_COMPLETE ends it; PARITY_CONFIG replaces the configuration, and the
group is to form anew; the end of a fetch gives the session its data, and the last sample of a counter read its fetch (R311,
R366, R367, R370, R371, R395). -/
def Obligations.LongCommandsEnd : Prop := ∀ (h : Hdr) (x : Session) (s : State),
  (∀ r : ExportReq, ReadyControl h x s → r.dest.toNat ≤ 1 → r.which.toNat ≤ 1 →
    storeInvalid (r.dest == 0) r.storeId r.storeAddress = false → s.survival.exporting = none → s.program.isSome = true →
    ∃ t e, exec (.snapshotExport h r) s = .next t ∧ t.survival.exporting = some e ∧ e.req = r ∧ e.owed = owed h ∧ e.ranges = [] ∧
      t.host.sent.head? = some (.response h.session h.seq h.cid 1 []) ∧ t.mem = s.mem ∧ t.step = s.step ∧
      t.pages.owed = (if r.which = 1 then [] else
        (s.sliceTiles.flatMap (fun u => (List.range (s.slicePages u)).map (pageKey u))).filter (fun k =>
          smGet 1024 s.pages.prior k = 1024))) ∧
  (∀ e, s.survival.exporting = some e → e.req.dest = 0 ∨ e.image.length ≤ coverFrom e.ranges.length 0 e.ranges →
    ∃ t, exec .exportComplete s = .next t ∧ t.survival = { s.survival with exporting := none } ∧
      t.pages = { s.pages with
        owed := []
        placed := []
        staged := [] } ∧ t = { s with
          survival := t.survival
          pages := t.pages
          host := t.host }) ∧
  (∀ c : ParityCfg, ReadyBetween h x s → parityInvalid s c = false → c.rebuildAddress.toNat % 4096 = 0 →
    (∀ m ∈ c.members.drop c.size.toNat, m = 0xFFFF) → ∃ t, exec (.parityConfig h c) s = .next t ∧
      t.survival.config = (if c.size = 0 then none else some c) ∧ t.survival.joins = s.survival.joins ∧
      t.survival.formed = (c.size != 0 && t.peersInGroup.all (fun y =>
        s.survival.joins.any (fun j => j.sender.toNat == y.1 && joinAgrees s c j))) ∧
      t.pages.base = [] ∧ t.survival.exporting = s.survival.exporting ∧ t.mem = s.mem ∧ t.step = s.step) ∧
  (∀ f rest, s.host.fetches = f :: rest → ∃ t, exec .fetchComplete s = .next t ∧ t.host.fetches = rest ∧
    t = { s with host := t.host } ∧
    ∀ y, f.status = 0 → s.sessionOf f.owed.session = some y → (t.sessionOf f.owed.session).map (·.result) = some f.data) ∧
  (∀ u sa, u < 2352 → s.host.samplings = [sa] → sa.tiles = [u] → sa.time.toNat ≤ s.now.toNat →
    ∃ t f, exec (.counterSample u) s = .next t ∧ t.host.samplings = [] ∧ t.host.fetches = s.host.fetches ++ [f] ∧
      f.owed = sa.owed ∧ f.status = 0 ∧ t.tiles = s.tiles ∧ t.mem = s.mem ∧ t.step = s.step)

/-- A self-test ends: one that passed leaves the scratch stores it ran in at zero and nothing in the history; one that failed enters the
site's history, raises 0x2107 and, within 24 hours of another, makes the site lasting; what was owed is told (R248 to R250,
R355 to R357). -/
def Obligations.SelftestEnds : Prop := ∀ (s : State) (site : BitVec 16) (block : BitVec 8) (o : Owed),
  s.repair.tests = [⟨site, block, 0, false, false, true, [o]⟩] → site.toNat < 2688 → s.arbiter.deadTiles = [] →
  s.host.waitingOpen = none → s.repair.lasting = [] → Canonical s →
  (∃ t, exec (.selftestDone site block 0 ⟨[], []⟩) s = .next t ∧ t.repair = { s.repair with tests := [] } ∧
    (∀ p a, a < 2 ^ 40 → p ≠ site.toNat → rdByte t.mem (memKey p a) = rdByte s.mem (memKey p a)) ∧
    (∀ p, p ≠ site.toNat → tileOf t p = tileOf s p) ∧
    (block = 6 → ∀ a, a < 0xF00000 → rdByte t.mem (memKey site.toNat a) = 0) ∧
    t = { s with
      mem := t.mem
      checks := t.checks
      tiles := t.tiles
      repair := t.repair
      host := t.host }) ∧
  (∀ b : BitVec 8, (smGet {} s.repair.history (siteKey site.toNat b.toNat 0)).failures = [] →
    smWf ({} : SiteHistory) 0 s.repair.history = true → s.step.inProgress = true →
    ∃ t, exec (.selftestDone site block 0 ⟨[b], []⟩) s = .next t ∧ t.repair.tests = [] ∧ t.repair.lasting = [] ∧
      (smGet {} t.repair.history (siteKey site.toNat b.toNat 0)).failures = [s.age]) ∧
  (∀ (b : BitVec 8) (before : BitVec 64), (smGet {} s.repair.history (siteKey site.toNat b.toNat 0)).failures = [before] →
    smWf ({} : SiteHistory) 0 s.repair.history = true → s.step.inProgress = true → s.age.toNat < before.toNat + dayCycles →
    ∃ t, exec (.selftestDone site block 0 ⟨[b], []⟩) s = .next t ∧ t.repair.lasting = [siteKey site.toNat b.toNat 0])

/-! ### Sync objects (chapter 12) -/

/-- ADD puts VALUE plus the operand into a counter or flag and wakes exactly the waiters it satisfies; a sum of 2^48 or more
discards the step with 0x6003 and leaves every object; a WAIT whose target is reached is answered at once, and any other
joins the waiter table (R278, R280, R281, R289). -/
def Obligations.SyncCounters : Prop := ∀ (m : SyncMsg) (s : State), Canonical s →
  let i := m.syncId.toNat
  let g := s.progress (headEndQueue i)
  let o := s.obj i
  let v := o.value + m.operand.toNat
  let woken := s.sync.waiters.filter (fun w => w.obj == i && w.op == 3 && decide (w.target ≤ v))
  (syncInvalid s m 1 = false → (o.kind = 3 → 128 ≤ m.op.toNat) → v < 2 ^ 48 →
    ∃ t, exec (.syncAdd m) s = .next t ∧ t.obj i = { o with
      state := BitVec.ofNat 64 v
      last := signaller m.srcKind m.src m.op.toNat m.stepLow } ∧
      (∀ j, j ≠ i → t.obj j = s.obj j) ∧
      t.sync.waiters = s.sync.waiters.filter (fun w => !(w.obj == i && w.op == 3 && decide (w.target ≤ v))) ∧
      t = { g with
        sync := { g.sync with
          objs := t.sync.objs
          waiters := t.sync.waiters }
        rillOut := (woken.map (fun w => wakeMsg w.site w.obj v false)).reverse ++ s.rillOut }) ∧
  (syncInvalid s m 1 = false → (o.kind = 3 → 128 ≤ m.op.toNat) → 2 ^ 48 ≤ v → CanDiscard s →
    ∃ t, exec (.syncAdd m) s = .next t ∧ Discards s t 0x6003 ⟨if m.srcKind = 0 then m.src.setWidth 12 else 0xFFF, 0⟩ ∧
      t = { g with
        trace := t.trace
        host := t.host
        arbiter := t.arbiter
        step := t.step
        rillOut := t.rillOut }) ∧
  (syncInvalid s m 3 = false → s.alreadyWaits m = false → o.target m.operand.toNat ≤ o.value →
    exec (.wait m) s = .next { g with
      rillOut := wakeMsg (m.src.setWidth 12) i o.value false :: s.rillOut }) ∧
  (syncInvalid s m 3 = false → s.alreadyWaits m = false → o.value < o.target m.operand.toNat →
    exec (.wait m) s = .next { g with sync := { g.sync with
      waiters := addWaiter ⟨m.src.setWidth 12, 3, i, o.target m.operand.toNat⟩ s.sync.waiters } })

/-- An arrival counts into the filling round of a barrier; the last one completes the round, wakes everyone who waits in it
and sets LEAVING to their number; one more than PARTICIPANTS allows discards the step with 0x6004; arrivals that do not count
are answered at once; LEAVE lowers LEAVING (R283, R284, R285, R288). -/
def Obligations.SyncBarriers : Prop := ∀ (m : SyncMsg) (waits : Bool) (s : State), Canonical s →
  let i := m.syncId.toNat
  let g := s.progress (headEndQueue i)
  let o := s.obj i
  let c := if waits then Instr.arriveWait m else .arrive m
  let valid := syncInvalid s m (if waits then 4 else 2) = false ∧ (waits = true → s.alreadyWaits m = false)
  let woken := (if waits then addWaiter ⟨m.src.setWidth 12, 4, i, (o.round + 1) % 65536⟩ s.sync.waiters
    else s.sync.waiters).filter (fun w => w.obj == i && w.op == 4)
  let uncounted : State := { g with
    rillOut := if waits then wakeMsg (m.src.setWidth 12) i o.round true :: s.rillOut else s.rillOut }
  (valid → (o.realigns = true → s.realignStep = true) →
    (o.isGate = false ∨ (o.gateSet = true ∧ m.stepLow = o.gateStep + 1)) → o.arrived + 1 + o.leaving ≤ o.participants →
    (o.arrived + 1 < o.participants → ∃ t, exec c s = .next t ∧ (t.obj i).round = o.round ∧
      (t.obj i).arrived = o.arrived + 1 ∧ (t.obj i).leaving = o.leaving ∧
      (t.obj i).localArrivals = (if o.isGate = true ∧ m.srcKind ≠ 1 then (o.localArrivals + 1) % 8192 else o.localArrivals) ∧
      t.obj i = { o with
        state := (t.obj i).state
        last := signaller m.srcKind m.src m.op.toNat m.stepLow
        waitArrivals := if waits then o.waitArrivals + 1 else o.waitArrivals } ∧
      (∀ j, j ≠ i → t.obj j = s.obj j) ∧
      t = { g with sync := { g.sync with
        objs := t.sync.objs
        waiters := if waits then addWaiter ⟨m.src.setWidth 12, 4, i, (o.round + 1) % 65536⟩ s.sync.waiters
          else s.sync.waiters } }) ∧
    (o.arrived + 1 = o.participants → o.realigns = false → ∃ t, exec c s = .next t ∧
      (t.obj i).round = (o.round + 1) % 65536 ∧ (t.obj i).arrived = 0 ∧ (t.obj i).localArrivals = 0 ∧
      (t.obj i).leaving = (if waits then o.waitArrivals + 1 else o.waitArrivals) % 8192 ∧ (t.obj i).waitArrivals = 0 ∧
      (o.isGate = true → (t.obj i).gateStep = o.gateStep + 1) ∧
      (∀ j, j ≠ i → t.obj j = s.obj j) ∧
      t = { g with
        sync := { g.sync with
          objs := t.sync.objs
          waiters := s.sync.waiters.filter (fun w => !(w.obj == i && w.op == 4)) }
        rillOut := (woken.map (fun w => wakeMsg w.site w.obj ((o.round + 1) % 65536) false)).reverse ++ s.rillOut })) ∧
  (valid → (o.realigns = true → s.realignStep = true) →
    (o.isGate = false ∨ (o.gateSet = true ∧ m.stepLow = o.gateStep + 1)) → o.participants < o.arrived + 1 + o.leaving →
    CanDiscard s → ∃ t, exec c s = .next t ∧ t.obj i = { o with overrun := true } ∧ (∀ j, j ≠ i → t.obj j = s.obj j) ∧
      Discards s t 0x6004 ⟨if m.srcKind = 0 then m.src.setWidth 12 else 0xFFF, 0⟩) ∧
  (valid → o.realigns = true → s.realignStep = false → exec c s = .next uncounted) ∧
  (valid → o.realigns = false → o.isGate = true → o.gateSet = true →
    (m.stepLow = o.gateStep ∨ 2 ^ 31 ≤ (m.stepLow - o.gateStep).toNat) → exec c s = .next uncounted) ∧
  (syncInvalid s m 5 = false → m.srcKind = 0 → o.leaving ≠ 0 → ∃ t, exec (.leave m) s = .next t ∧
    (t.obj i).leaving = o.leaving - 1 ∧ (t.obj i).round = o.round ∧ (t.obj i).arrived = o.arrived ∧
    t.obj i = { o with state := (t.obj i).state } ∧ (∀ j, j ≠ i → t.obj j = s.obj j) ∧
    t = { g with sync := { g.sync with
      objs := t.sync.objs } })

/-- A wake lets the sequencer that waits on the object issue again, and it returns LEAVE for a counted barrier wake; at a tile of a
dark field it comes back to the Kellet complex; the deadlock detector fires when all 101 queues stand still and something waits: it
reports, writes a dump of the engine as it stands, and fires again only after progress, which an operation makes that its head-end
applies and one that is refused does not (R70, R283, R292 to R294). -/
def Obligations.WakesAndDeadlock : Prop := ∀ s : State,
  (∀ tile obj (v : BitVec 64) uncounted, tile < 2688 → Canonical s → fieldState s.repair (fieldOfPhys tile) ≠ 2 →
    (tileOf s tile).waiting = some obj →
    ∃ t, exec (.syncWake tile obj v uncounted) s = .next t ∧ tileOf t tile = { tileOf s tile with waiting := none } ∧
      (∀ p, p ≠ tile → tileOf t p = tileOf s p) ∧ t = { s with
        tiles := t.tiles
        trace := t.trace
        rillOut := if (s.obj obj).kind = 2 ∧ uncounted = false then
          syncMsg (BitVec.ofNat 12 tile) obj 5 (low32 s.currentStep) 0 :: s.rillOut else s.rillOut }) ∧
  (∀ tile obj (v : BitVec 64) uncounted, tile < 2688 → fieldState s.repair (fieldOfPhys tile) ≠ 2 →
    (tileOf s tile).waiting ≠ some obj → exec (.syncWake tile obj v uncounted) s = .next s) ∧
  (∀ tile obj (v : BitVec 64) uncounted, tile < 2688 → fieldState s.repair (fieldOfPhys tile) = 2 →
    ∃ w, exec (.syncWake tile obj v uncounted) s = .next { s with
      rillOut := ⟨BitVec.ofNat 12 (0xF00 + obj % 4), BitVec.ofNat 12 tile, false, 0x7F, 0, [w, 0x4008]⟩ :: s.rillOut }) ∧
  (s.sync.armed = true → s.somethingWaits = true → ∃ t, exec (.deadlock (BitVec.allOnes 101)) s = .next t ∧
    t = { s with
      sync := { s.sync with
        dump := some (1, syncDumpBytes s 1 (BitVec.allOnes 101))
        armed := false }
      trace := t.trace
      host := t.host }) ∧
  (∀ queues, s.sync.armed = false ∨ s.somethingWaits = false ∨ queues ≠ BitVec.allOnes 101 →
    exec (.deadlock queues) s = .next s) ∧
  (∀ m, syncInvalid s m 1 = false → ∃ t, exec (.syncAdd m) s = .next t ∧ t.sync.armed = true) ∧
  (∀ m, syncInvalid s m 1 = true → ∃ t, exec (.syncAdd m) s = .next t ∧ t.sync.armed = s.sync.armed ∧
    t.sync.objs = s.sync.objs)

/-! ### The Rill, status codes and the course of a discard (chapters 3 and 15) -/

/-- HALT stops the sequencers that it reaches; MAINT_WRITE and MAINT_READ reach a tile's memory, or what its DMA engine reads there,
and answer; what a dark field cuts off comes back to its sender; a mailbox keeps its messages in order; a message that has come back
raises 0x4008, Step-fatal from a tile or a port block; a record reaches the module ring; a failed hop is marked once (R46, R54, R68,
R70, R387). -/
def Obligations.RillMessages : Prop := ∀ s : State,
  (∀ p, p < 2688 → Canonical s → fieldState s.repair (fieldOfPhys p) ≠ 2 →
    ∃ t, exec (.halt p) s = .next t ∧ tileOf t p = { tileOf s p with halted := true } ∧
    (∀ q, q ≠ p → tileOf t q = tileOf s q) ∧ t = { s with tiles := t.tiles }) ∧
  (Canonical s → ∃ t, exec (.halt 0xFFF) s = .next t ∧
    (∀ q, q < 2688 → fieldState s.repair (fieldOfPhys q) ≠ 2 → tileOf t q = { tileOf s q with halted := true }) ∧
    (∀ q, 2688 ≤ q ∨ fieldState s.repair (fieldOfPhys q) = 2 → tileOf t q = tileOf s q) ∧ t = { s with tiles := t.tiles }) ∧
  (∀ p, p < 2688 → fieldState s.repair (fieldOfPhys p) = 2 → ∃ w, exec (.halt p) s = .next { s with
    rillOut := ⟨0xF00, BitVec.ofNat 12 p, false, 0x7F, 0, [w, 0x4008]⟩ :: s.rillOut }) ∧
  (∀ p (a : BitVec 40) (d : Bytes) tag, p < 2688 → fieldState s.repair (fieldOfPhys p) ≠ 2 → (tileOf s p).dead = false →
    (a.toNat < loamBase ∨ loamBase + 2 * pageBytes ≤ a.toNat) →
    exec (.maintWrite p a ⟨tag, d⟩) s = .next (if inMap s.variant a.toNat d.length then { s.wake with
        mem := wrBytes s.mem (memKey p a.toNat) d
        checks := cureLines s.checks (memKey p a.toNat) (memKey p a.toNat + d.length)
        rillOut := ⟨0xF00, BitVec.ofNat 12 p, true, 0x42, tag, [0]⟩ :: s.rillOut }
      else { s.wake with rillOut := ⟨0xF00, BitVec.ofNat 12 p, true, 0x42, tag, [0x3010]⟩ :: s.rillOut })) ∧
  (∀ p (a : BitVec 40) n tag, p < 2688 → fieldState s.repair (fieldOfPhys p) ≠ 2 → (tileOf s p).dead = false →
    inMap s.variant a.toNat n = true → 0 < n → n ≤ 56 → exec (.maintRead p a n tag) s = .next { s.wake with
      draws := s.draws + 1
      rillOut := ⟨0xF00, BitVec.ofNat 12 p, true, 0x42, tag,
        toWords ((n + 7) / 8) (dmaRead s.wake p a.toNat n)⟩ :: s.rillOut }) ∧
  (∀ p a n, a + n ≤ paletteBase → (a + n ≤ 0x1200000 ∨ 0x1280000 ≤ a) → dmaRead s p a n = tileRead s p a n) ∧
  (∀ p (a : BitVec 40) d n tag, p < 2688 → fieldState s.repair (fieldOfPhys p) = 2 →
    (∃ w, exec (.maintWrite p a ⟨tag, d⟩) s = .next { s.wake with
      rillOut := ⟨0xF00, BitVec.ofNat 12 p, false, 0x7F, tag, [w, 0x4008]⟩ :: s.rillOut }) ∧
    ∃ w, exec (.maintRead p a n tag) s = .next { s.wake with
      rillOut := ⟨0xF00, BitVec.ofNat 12 p, false, 0x7F, tag, [w, 0x4008]⟩ :: s.rillOut }) ∧
  (∀ m, exec (.maintReply m) s = .next s.wake) ∧
  (∀ m : RillMsg, rillTypes.contains m.type.toNat = true → 0xF00 ≤ m.dest.toNat → m.dest.toNat < 0xF04 →
    exec (.mailbox m) s = .next { s with mailboxes := s.mailboxes ++ [m] }) ∧
  (∀ m : RillMsg, rillDest m.dest.toNat = false ∨ rillTypes.contains m.type.toNat = false →
    exec (.mailbox m) s = .next { s with
      rillOut := ⟨m.src, m.dest, false, 0x7F, m.tag, [rillHeader m, 0x4008]⟩ :: s.rillOut }) ∧
  (∀ m : RillMsg, m.dest.toNat < 0xA80 → CanDiscard s → ∃ t, exec (.undeliverable m) s = .next t ∧
    Discards s t 0x4008 ⟨m.dest, 0⟩ ∧ t.mem = s.mem ∧ t.tiles = s.tiles) ∧
  (∀ m : RillMsg, 0xA80 ≤ m.dest.toNat → ∃ t, exec (.undeliverable m) s = .next t ∧ t = { s with
    trace := t.trace
    host := t.host }) ∧
  (∀ r : TraceRec, s.boot.firmwareRuns = true → smWf ({} : Ring) 0 s.trace.rings = true → r.keep = true →
    ∃ t, exec (.trace r) s = .next t ∧
    ringAt t 2688 = (ringAt s 2688).write 16384 s.trace.fired.isSome r ∧ (∀ k, k ≠ 2688 → ringAt t k = ringAt s k) ∧
    t = { s with trace := t.trace }) ∧
  (∀ site hop, let f := s.rill.failures.filter (fun x => x.1 / 256 ≠ site.toNat)
    ((site, hop) ∉ s.repair.failedHops → ∃ t, exec (.rillHopFailed site hop) s = .next t ∧ t = { s with
      repair := { s.repair with failedHops := s.repair.failedHops ++ [(site, hop)] }
      rill := { s.rill with failures := f }
      trace := t.trace
      host := t.host }) ∧
    ((site, hop) ∈ s.repair.failedHops → exec (.rillHopFailed site hop) s = .next { s with
      rill := { s.rill with failures := f } }))

/-- A status code that arrives: a Step-fatal one starts the discard of the step, and during a discard it is one more latched
code; a detection leaves the step alone and queues a test of its site; 0x3004 marks its page lost; no code is heard before the
firmware runs (R57, R70, R243, R244, R248, R317,
R342). -/
def Obligations.StatusCodesArrive : Prop := ∀ (m : StatusMsg) (s : State),
  (s.boot.firmwareRuns = false → exec (.event m) s = .next s) ∧
  (s.boot.firmwareRuns = true → severityOf true m.place m.detail.toNat m.code = 3 → m.code ≠ 0x3004 → CanDiscard s →
    ∃ t, exec (.event m) s = .next t ∧ Discards s t m.code m.place ∧ t = { s with
      rill := { s.rill with failures := s.rill.failures.filter (fun x => x.1 / 256 ≠ m.place.site.toNat) }
      trace := t.trace
      host := t.host
      arbiter := t.arbiter
      step := t.step
      rillOut := t.rillOut }) ∧
  (s.boot.firmwareRuns = true → severityOf true m.place m.detail.toNat m.code = 3 → m.code ≠ 0x3004 →
    s.step.phase = .discarding → ∃ t, exec (.event m) s = .next t ∧
      t.arbiter.latched = s.arbiter.latched ++ [⟨m.code, m.place, s.now⟩] ∧ t.arbiter.windowOpen = s.arbiter.windowOpen ∧
      t.arbiter.cause = s.arbiter.cause ∧ t = { s with
        rill := { s.rill with failures := s.rill.failures.filter (fun x => x.1 / 256 ≠ m.place.site.toNat) }
        trace := t.trace
        host := t.host
        arbiter := t.arbiter }) ∧
  (s.boot.firmwareRuns = true → detectionCodes.contains m.code.toNat = true → s.step.inProgress = true →
    ∃ t, exec (.event m) s = .next t ∧
      (m.code ≠ 0x4001 ∨ m.place.block.toNat < 11 ∨ 14 < m.place.block.toNat → t.mesh = s.mesh) ∧
      (∀ x, m.code = 0x4001 → 11 ≤ m.place.block.toNat → m.place.block.toNat ≤ 14 →
        meshSiteOf s.repair m.place.site.toNat = some x →
        t.mesh = { s.mesh with failing := s.mesh.failing ++ [(x, m.place.block.toNat - 10)] }) ∧
      (∃ x ∈ t.repair.tests, x.site.toNat = m.place.site.toNat ∧ x.block = m.place.block ∧ x.lane.toNat = (if m.place.block = 15 ∨ m.place.block = 16 then m.detail.toNat % 256 else 0)) ∧ t = { s with
        trace := t.trace
        host := t.host
        rill := t.rill
        mesh := t.mesh
        repair := t.repair }) ∧
  (s.boot.firmwareRuns = true → m.code = 0x4006 → s.step.inProgress = true → (smWf 0 0 s.rill.failures = true) →
    let hop := BitVec.ofNat 8 m.detail.toNat
    let k := 256 * m.place.site.toNat + hop.toNat
    ∃ t, exec (.event m) s = .next t ∧
      (smGet 0 s.rill.failures k + 1 < 16 → smGet 0 t.rill.failures k = smGet 0 s.rill.failures k + 1 ∧
        t.repair.failedHops = s.repair.failedHops) ∧
      (16 ≤ smGet 0 s.rill.failures k + 1 → smGet 0 t.rill.failures k = 0 ∧ (m.place.site, hop) ∈ t.repair.failedHops)) ∧
  (∀ u, s.boot.firmwareRuns = true → m.code = 0x3004 → CanDiscard s → m.place.site.toNat < 2688 →
    logicalOf s.repair m.place.site.toNat = some u → ∃ t, exec (.event m) s = .next t ∧
      1024 * u + m.detail.toNat ∈ t.pages.lost ∧ (∀ k ∈ s.pages.lost, k ∈ t.pages.lost) ∧ t.step.phase = .discarding)

/-- The cause of a discard is one of the latched codes, and no latched code comes before it: a lower rank of Table 15-2, or the
same rank and earlier, or the same time and a lower site (R342, R343). -/
def Obligations.CauseChosen : Prop :=
  (∀ l : List Latched, l ≠ [] → ∃ c ∈ l, chooseCause l = some c ∧ ∀ x ∈ l, ¬ (causeRank x.code < causeRank c.code ∨
    (causeRank x.code = causeRank c.code ∧ (x.time.toNat < c.time.toNat ∨
      (x.time = c.time ∧ x.place.site.toNat < c.place.site.toNat))))) ∧
  (∀ s : State, s.step.phase = .discarding → s.arbiter.windowOpen = true →
    exec .causeWindowClose s = .next { s with arbiter := { s.arbiter with
      windowOpen := false
      cause := chooseCause s.arbiter.latched } }) ∧
  (∀ s : State, s.arbiter.windowOpen = false → exec .causeWindowClose s = .next s)

/-- A discard that needs no repair releases what the step held, writes the copy of the commit record that it trusts over both, reports
its cause and ends, with REPEATS set for the causes of R344
(0x2303 is raised at OPEN where its site is the whole module's); the end of a column shift's copies ends a
discard that waited for them; a tile that does not answer the heartbeat poll, or whose counter stands still, is dead, and
discards the step (R31, R41, R287, R344, R345, R350). -/
def Obligations.DiscardEnds : Prop := ∀ s : State,
  (∀ tests c, s.step.phase = .discarding → s.arbiter.windowOpen = false → s.arbiter.released = false →
    s.arbiter.cause = some c → s.arbiter.fatal = none → s.arbiter.deadTiles = [] → s.arbiter.darkFields = [] →
    s.arbiter.copying = [] → s.arbiter.failedPages = [] →
    ∃ (t u : State), exec (.discardRelease tests) s = .next t ∧ t = u.boundary ∧ t.step.phase = .idle ∧
      u.step = { s.step with
        phase := .idle
        lastOutcome := 3
        expected := s.step.current.stepNumber
        committed := false } ∧
      u.arbiter.latched = [] ∧ u.arbiter.cause = none ∧ u.sync = s.sync.discard ∧ u.reduce = { s.reduce with
        early := []
        outWait := []
        lateIn := []
        prevRecords := [] } ∧
      u.pages = { s.releaseNext.pages with
        primary := s.trusted
        second := s.trusted } ∧ u.mem = s.mem ∧ u.mesh = {} ∧ u.program = s.program ∧
      (∀ x, s.host.sessions = [x] → x.filter ≤ 3 → x.reserved.length < 256 →
        ∃ e, u.host.sent.head? = some (.event x.id (x.eventSeq + 1) e) ∧ e.type = 2 ∧ e.status = c.code ∧ e.severity = 3 ∧
          e.step = s.step.current.stepNumber ∧ e.site = c.place.site ∧ e.block = c.place.block ∧
          (e.detail.getLsbD 0 = true ↔ c.code ∈ ([0x3101, 0x3102, 0x3103, 0x9002, 0x9006, 0x9008, 0x9009, 0x210A, 0x6001, 0x6002,
            0x6003, 0x6004, 0x3010, 0x3011, 0x2203] : List Code) ∨ c.code = 0x2303 ∧ c.place.site = 0xFFF))) ∧
  (s.arbiter.copying ≠ [] → s.host.waitingOpen = none → s.step.phase ≠ .discarding →
    exec .columnShiftCopyDone s = .next { s with arbiter := { s.arbiter with copying := [] } }) ∧
  (∀ c, s.arbiter.copying ≠ [] → s.host.waitingOpen = none → s.step.phase = .discarding → s.arbiter.released = true →
    s.arbiter.cause = some c → ∃ (t u : State), exec .columnShiftCopyDone s = .next t ∧ t = u.boundary ∧
      t.step.phase = .idle ∧ u.arbiter.copying = [] ∧ u.mem = s.mem ∧ u.pages = s.pages ∧ u.step = { s.step with
        phase := .idle
        lastOutcome := 3
        expected := s.step.current.stepNumber }) ∧
  (∀ answers : List (Nat × BitVec 64), s.power.state = .active → s.step.inProgress = true → Canonical s →
    let polled (p : Nat) : Prop := p < 2688 ∧ fieldState s.repair (fieldOfPhys p) ≠ 2 ∧ (tileOf s p).dead = false ∧
      p ∉ s.arbiter.deadTiles
    let alive (p : Nat) : Prop := ∃ a, answers.find? (fun x => x.1 == p) = some a ∧ (tileOf s p).heartbeat ≠ some a.2
    ∃ t, exec (.heartbeatPoll answers) s = .next t ∧
      (∀ p a, polled p → answers.find? (fun x => x.1 == p) = some a → (tileOf s p).heartbeat ≠ some a.2 →
        tileOf t p = { tileOf s p with heartbeat := some a.2 } ∧ p ∉ t.arbiter.deadTiles) ∧
      (∀ p, polled p → ¬ alive p → tileOf t p = tileOf s p ∧ p ∈ t.arbiter.deadTiles) ∧
      (∀ p, ¬ polled p → tileOf t p = tileOf s p) ∧
      (CanDiscard s → (∃ p, polled p ∧ ¬ alive p) → t.step.phase = .discarding) ∧
      ((∀ p, polled p → alive p) → t = { s with tiles := t.tiles })) ∧
  (s.power.state ≠ .active → ∀ answers, exec (.heartbeatPoll answers) s = .next s)

/-! ### The course of a step, blocks and votes (chapters 1, 9 and 10) -/

/-- FILL ends with DRAIN, DRAIN with REDUCE or VOTE once every tile is done and no Strata holds an entry; the commit point writes
the commit record or backs the loss scale off and SEAL begins; SEAL ends with the receipt, and the step number advances
(R15, R22, R24, R25, R28, R176, R206, R251, R288); a step in which an object was hand-set does not commit (R291). -/
def Obligations.StepPhases : Prop := ∀ s : State,
  (∀ last, last < 2352 → s.arbiter.fatal = none → s.step.phase = .fill → s.step.earlyAborted = false → ∃ t, exec (.fillEnd last) s = .next t ∧
    t.step.phase = .drain ∧ t.step.fillLast = last ∧ t.step.fillLastTime = s.now ∧
    t.step.timer 1 = ((s.step.timer 1).1, s.now) ∧ t.step.timer 2 = (s.now, s.now) ∧
    t = { s with
      step := { s.step with
        phase := .drain
        fillLast := last
        fillLastTime := s.now
        timers := t.step.timers }
      trace := t.trace }) ∧
  (∀ last, last < 2352 → s.arbiter.fatal = none → s.step.phase = .drain ∨ s.step.phase = .reduce →
    s.step.drainDone = false → s.step.earlyAborted = false → s.residue = none →
    (s.step.phase = .drain → s.allSent = false → ∃ t, exec (.drainEnd last) s = .next t ∧ t = { s with step := { s.step with
      drainDone := true
      drainLast := last
      drainLastTime := s.now
      timers := t.step.timers } }) ∧
    (s.allSent = true → s.allReleased = true → s.sync.stepHandSet = false → ∃ t, exec (.drainEnd last) s = .next t ∧
      t = { s with
        step := { s.step with
          phase := .vote
          drainDone := true
          drainLast := last
          drainLastTime := s.now
          timers := t.step.timers }
        reduce := if s.step.phase = .drain then { s.reduce with records := s.reduce.planned } else s.reduce
        trace := t.trace })) ∧
  (∀ last u, last < 2352 → s.arbiter.fatal = none → s.step.phase = .drain ∨ s.step.phase = .reduce → s.step.drainDone = false →
    s.step.earlyAborted = false → s.residue = some u → s.step.committed = false →
    ∃ t, exec (.drainEnd last) s = .next t ∧ t.step.phase = .discarding ∧ t.arbiter.latched.map (·.code) = [0x3103]) ∧
  (s.arbiter.fatal = none → s.step.phase = .commit → s.step.committed = false → s.sync.stepHandSet = false →
    s.reduce.verdict = some false → s.slotless true = none → ∃ t, exec .commitPoint s = .next t ∧ t.step = { s.step with
        phase := .sealing
        committed := true
        optCount := s.step.optCount + 1
        lossScale := lsUpdate s.step.lossScale false
        timers := t.step.timers } ∧
      t.pages.primary = ⟨s.step.current.stepNumber, s.pages.primary.gen + 1, s.pages.primary.after, s.genDigest true⟩ ∧
      t.pages.second = t.pages.primary ∧ t.reduce = { s.reduce with prevRecords := s.reduce.records } ∧
      t = { s with
        step := t.step
        pages := t.pages
        checks := t.checks
        tiles := t.tiles
        trace := t.trace
        reduce := t.reduce }) ∧
  (s.arbiter.fatal = none → s.step.phase = .commit → s.step.committed = false → s.sync.stepHandSet = false →
    s.reduce.verdict = some true → ∃ t, exec .commitPoint s = .next t ∧ t.step = { s.step with
        phase := .sealing
        committed := true
        lossScale := lsUpdate s.step.lossScale true
        timers := t.step.timers } ∧
      t.pages.primary = s.pages.primary ∧ t.pages = s.releaseNext.pages ∧ t.reduce = { s.reduce with
        lateOwed := []
        prevRecords := []
        lateIn := [] } ∧
      t = { s with
        step := t.step
        pages := t.pages
        tiles := t.tiles
        trace := t.trace
        reduce := t.reduce }) ∧
  (CanDiscard s → s.arbiter.fatal = none → s.step.phase = .commit → (s.reduce.verdict ≠ none) → s.sync.stepHandSet = true →
    ∃ t, exec .commitPoint s = .next t ∧ Discards s t 0x6009 ⟨0xFFF, 0⟩ ∧ t.pages = s.pages) ∧
  (s.arbiter.fatal = none → s.step.phase = .sealing → ∃ (t u : State), exec .sealEnd s = .next t ∧ t = u.boundary ∧ t.step.phase = .idle ∧
    u.step.phase = .idle ∧ u.step.lastOutcome = (if s.step.voteSkip then 2 else 1) ∧
    u.step.expected = s.step.current.stepNumber + 1 ∧ u.step.committed = false ∧ u.step.anyNumber = s.step.anyNumber ∧
    u.step.seedRecord = s.step.current.seeds ∧ u.step.lossScale = s.step.lossScale ∧
    u.step.receipts.head? = some (s.step.current.stepNumber, (s.endPhase .sealing).receipt) ∧
    u.step.details.head?.map (·.1) = some s.step.current.stepNumber ∧
    u.sync = { s.sync.sealStep with
      handSets := []
      stepHandSet := false } ∧
    u.mem = s.mem ∧ u.program = s.program ∧ u.repair = s.repair ∧
    ∀ x, s.host.sessions = [x] → x.control = true → x.reserved.length < 256 →
      ∃ e, u.host.sent.head? = some (.event x.id (x.eventSeq + 1) e) ∧ e.type = 3 ∧
        e.receipt = (s.endPhase .sealing).receipt)

/-- A column total is converted into the blocks of its Kiln map entry, which are chained, kept and sent; its acknowledgement
releases the oldest canvas sent; a straggler deadline marks every member whose contribution is missing from its first
missing seq, in the contributor records while REDUCE runs, and closes the block for LATE contributions (R209, R218, R219, R221, R225 to R227). -/
def Obligations.TotalsAndStragglers : Prop := ∀ s : State, Canonical s →
  (∀ pb e, pb < 24 → s.arbiter.fatal = none → s.step.phase = .drain ∨ s.step.phase = .reduce →
    (s.pbProg pb).kilnMap[(pbOf s pb).kilnPos]? = some e →
    let col := 2 * pb + e.column
    let tiles := columnTiles s col
    let k := (((s.pbProg pb).kilnMap.take (pbOf s pb).kilnPos).filter (fun x => x.column == e.column)).length
    let total := chainTotal ((tiles.filterMap (fun t => heldFor s t k)).map (·.cells))
    let bs := convertTotal s e total
    let dest := (s.group e.group).member e.owner
    totalReady s tiles k = true → poisonedParts s col k = [] →
    ∃ t, exec (.columnTotal pb []) s = .next t ∧ (pbOf t pb).kilnPos = (pbOf s pb).kilnPos + 1 ∧
      (pbOf t pb).outChain = bs.foldl (fun h b => sha256 (digestBytes h ++ digestBytes (sha256 (blockBytes b))))
        (pbOf s pb).outChain ∧
      (∀ b ∈ bs, ∃ x ∈ t.reduce.outWait ++ t.reduce.retention, x = ⟨s.step.current.stepNumber, BitVec.ofNat 16 dest.1,
        dest.2, pb, b⟩) ∧
      t.step.nfLocal = (s.step.nfLocal || bs.any (fun b => b.nf != 0 || b.ovf)) ∧ t.mem = s.mem ∧ t.pages = s.pages ∧
      t.program = s.program) ∧
  (∀ p before h after, p < 2688 → (tileOf s p).heldCanvases = before ++ h :: after → h.sent = true →
    (∀ x ∈ before, x.sent = false) → ∃ t, exec (.columnTotalAck p) s = .next t ∧
      tileOf t p = { tileOf s p with heldCanvases := before ++ after } ∧ (∀ q, q ≠ p → tileOf t q = tileOf s q) ∧
      t = { s with tiles := t.tiles }) ∧
  (∀ pb i, pb < 24 → i < (s.pbProg pb).sumMap.length →
    let x := (s.pbProg pb).sumAt i
    let a := accOf (pbOf s pb) i
    let base := seqBase (s.pbProg pb) i
    a.started = true → a.isFinal = false → (s.group x.group).late ≠ 0 → s.directed x.group = false →
    s.step.phase ≠ .discarding → base + x.perMember < 2 ^ 32 → ∃ t, exec (.stragglerDeadline pb i) s = .next t ∧
      (accOf (pbOf t pb) i).lateClosed = true ∧
      (∀ m, m < (s.group x.group).members → smGet 0 a.got m < x.perMember →
        recState (recordOf t.reduce.planned (reduceKey x.group m)) ≠ 0 ∧
        recFrom (recordOf t.reduce.planned (reduceKey x.group m)) ≤ base + smGet 0 a.got m) ∧
      (s.step.phase = .reduce → s.reduce.records = s.reduce.planned → t.reduce.records = t.reduce.planned) ∧
      t.program = s.program ∧ t.pages = s.pages)

/-- A block in its turn counts once, and the next of its stream is due; one ahead of its stream is held; one that came before is a
duplicate and adds nothing; one that fails its CRC adds nothing and is asked for again; during a discard blocks are dropped;
a resend request is answered from retention, and an unknown step is 0x2306 (R221, R222, R224, R347). -/
def Obligations.BlocksArrive : Prop := ∀ (pb : Nat) (sender : BitVec 16) (b : Block) (s : State) (e : Nat), pb < 24 →
  Canonical s →
  let p := s.pbProg pb
  let k := reduceKey b.group.toNat b.bitmapIndex.toNat
  let next := smGet 0 s.reduce.nextIn k
  let good := b.resv = false ∧ s.step.inProgress = true ∧ s.step.phase ≠ .discarding ∧ s.reduce.voteSent = false ∧ blockCrc b = b.crc ∧
    (expected p b.group.toNat)[b.seq.toNat]? = some e ∧ b.isLate = false ∧ b.stepLow = low32 s.step.current.stepNumber ∧
    b.bitmapIndex.toNat < (s.group b.group.toNat).members ∧ (p.sumAt e).key = b.key ∧
    b.windowId.toNat = (p.sumAt e).windowId ∧ b.w = (s.window (p.sumAt e).windowId).setWidth 8
  (good → b.seq.toNat = next → recState (recordOf s.reduce.planned k) = 0 → s.reduce.early = [] →
    ∃ t, exec (.xs96Block pb sender b) s = .next t ∧ smGet 0 t.reduce.nextIn k = b.seq.toNat + 1 ∧
      smGet [] t.reduce.firstImages (imageKey k b) = blockBytes b ∧
      smGet 0 (accOf (pbOf t pb) e).got b.bitmapIndex.toNat =
        smGet 0 (accOf (pbOf s pb) e).got b.bitmapIndex.toNat + 1 ∧
      t.program = s.program ∧ t.pages = s.pages) ∧
  (good → next < b.seq.toNat → recState (recordOf s.reduce.planned k) = 0 → ∃ t, exec (.xs96Block pb sender b) s = .next t ∧
    t.reduce.early = s.reduce.early ++ [⟨pb, sender, b⟩] ∧ t.reduce.nextIn = s.reduce.nextIn ∧ t.pbs = s.pbs) ∧
  (good → b.seq.toNat < next → ∃ t, exec (.xs96Block pb sender b) s = .next t ∧ t.pbs = s.pbs ∧
    t.reduce = { s.reduce with secondImages := smPut [] (imageKey k b) (blockBytes b) s.reduce.secondImages }) ∧
  (b.resv = false → s.step.inProgress = true → s.step.phase ≠ .discarding → blockCrc b ≠ b.crc → ∃ t, exec (.xs96Block pb sender b) s = .next t ∧
    (∀ n i, accOf (pbOf t n) i = accOf (pbOf s n) i) ∧ t.reduce = s.reduce ∧ t.step = s.step ∧ t.mem = s.mem ∧
    ∃ x ∈ t.repair.tests, x.site.toNat = 0xB00 + pb ∧ x.block = 17) ∧
  (s.step.phase = .discarding ∨ b.resv = true → exec (.xs96Block pb sender b) s = .next s.wake) ∧
  (∀ (x : Retained) n requester group, s.step.inProgress = true → s.step.phase ≠ .discarding → requester ≠ s.boot.positionId →
    s.boot.positionId ≠ 0xFFFF → linkFor s x.pb = some n → x.destId = requester → low32 x.step = low32 s.step.current.stepNumber →
    s.reduce.retention.filter (fun y => y.destId == requester && y.block.group == group &&
      low32 y.step == low32 s.step.current.stepNumber && y.block.seq == x.block.seq) = [x] →
    x.block.seq.toNat < smGet 0 s.reduce.nextOut (outKey requester.toNat group.toNat) →
    ∃ t, exec (.resendRequest requester pb group x.block.seq x.block.seq ⟨low32 s.step.current.stepNumber, false⟩) s = .next t ∧
      t.zOut = (n, ⟨requester, 0x10, BitVec.ofNat 8 x.destPb, blockBytes x.block⟩) :: s.zOut ∧ t.reduce = s.reduce ∧
      t.mem = s.mem ∧ t.step = s.step) ∧
  (∀ requester group f u (st : BitVec 32) late, CanDiscard s → st ≠ low32 s.step.current.stepNumber →
    st ≠ low32 (s.step.current.stepNumber - 1) → ∃ t, exec (.resendRequest requester pb group f u ⟨st, late⟩) s = .next t ∧
      Discards s t 0x2306 ⟨pbCode pb, 17⟩)

/-- The owner's sum of a block: whatever the order in which the contributions of its members are added, element i is the exact sum
of their elements i, the non-finite count their saturated sum, and OVF set when any has it (R222, R226). -/
def Obligations.SumsCommute : Prop := ∀ (s : State) (pb e : Nat) (bs : List (Nat × Block)), accOf (pbOf s pb) e = {} →
  bs ≠ [] →
  let after (l : List (Nat × Block)) : SumAcc := accOf (pbOf (l.foldl (fun s x => s.addBlock pb e x.1 x.2) s) pb) e
  (∀ i, i < 256 → smGet 0 (after bs).sums i = (bs.map (fun x => x.2.elem i)).sum) ∧
    (after bs).nf = min (bs.map (fun x => x.2.nf.toNat)).sum 65535 ∧
    (after bs).ovf = bs.any (fun x => x.2.ovf) ∧
    (∀ m, smGet 0 (after bs).got m = (bs.filter (fun x => !x.2.isLate && x.2.bitmapIndex.toNat == m)).length) ∧
    ∀ other, List.Perm bs other → (∀ i, i < 256 → smGet 0 (after other).sums i = smGet 0 (after bs).sums i) ∧
      (after other).nf = (after bs).nf ∧ (after other).ovf = (after bs).ovf

/-- A vote is sent once, when REDUCE has ended; a vote of a member is held, and the last one that was missing begins COMMIT with its
verdict, a skip when any vote says so; a step in which an object was hand-set sends no vote and is discarded; a vote for another step is
0x2305, and one with a reserved field is dropped (R13, R21, R22, R229, R230, R291). -/
def Obligations.VotesDecide : Prop := ∀ s : State,
  (s.arbiter.fatal = none → s.step.phase = .vote → s.reduce.voteSent = false → s.parityGate = true →
    s.sync.stepHandSet = false → ∃ t, exec .voteSend s = .next t ∧
    t.reduce.voteSent = true ∧ t.reduce.votes = s.reduce.votes ++ [s.ownVote] ∧
    t.reduce.recordDigest = s.ownVote.recordDigest ∧ t.reduce.records = s.reduce.records ∧ t.mem = s.mem ∧ t.pages = s.pages ∧
    (s.voters = [s.boot.positionId.toNat] → t.step.phase = .commit ∧
      t.step.voteSkip = (s.reduce.votes ++ [s.ownVote]).any (fun v => v.flags.getLsbD 0) ∧
      t.reduce.verdict = some t.step.voteSkip) ∧
    (∀ id ∈ s.voters, id ≠ s.boot.positionId.toNat → s.reduce.votes.any (fun v => v.positionId.toNat == id) = false →
      t.step = s.step ∧ t.reduce.verdict = s.reduce.verdict)) ∧
  (CanDiscard s → s.arbiter.fatal = none → s.step.phase = .vote → s.reduce.voteSent = false → s.parityGate = true →
    s.sync.stepHandSet = true → ∃ t, exec .voteSend s = .next t ∧ Discards s t 0x6009 ⟨0xFFF, 0⟩ ∧ t.reduce = s.reduce) ∧
  (s.step.phase = .vote → s.parityGate = false → exec .voteSend s = .next s) ∧
  (∀ v : VoteMsg, v.resv = false → v.step = s.step.number → s.voters.contains v.positionId.toNat = true →
    s.reduce.votes.any (fun x => x.positionId == v.positionId) = false → ∃ t, exec (.vote v) s = .next t ∧
      t.reduce.votes = s.reduce.votes ++ [v] ∧ t.step.voteLast = v.positionId ∧ t.step.voteLastTime = s.now ∧
      t.mem = s.mem ∧ t.pages = s.pages ∧
      (s.step.phase ≠ .vote ∨ s.reduce.voteSent = false → t.step = { s.step with
        voteLast := v.positionId
        voteLastTime := s.now }) ∧
      (s.step.phase = .vote → s.reduce.voteSent = true →
        s.voters.all (fun id => (s.reduce.votes ++ [v]).any (fun x => x.positionId.toNat == id)) = true →
        t.step.phase = .commit ∧ t.step.voteSkip = (s.reduce.votes ++ [v]).any (fun x => x.flags.getLsbD 0) ∧
        t.reduce.verdict = some t.step.voteSkip)) ∧
  (∀ v : VoteMsg, v.resv = false → v.step ≠ s.step.number → CanDiscard s → ∃ t, exec (.vote v) s = .next t ∧ Discards s t 0x2305 ⟨0xF00, 0⟩ ∧
    t.reduce = s.reduce) ∧
  (∀ v : VoteMsg, v.resv = true → exec (.vote v) s = .next s.wake)

/-! ### Zlinks and time (chapters 11 and 17) -/

/-- The states of a link (Table 11-8): IDENT ends training in UP or, when the peer is not the one its table names, in DOWN; a failed
training is DOWN and tried again; a degrading or lost lane is swapped for the spare, or leaves UP_3, or, with fewer than three
lanes, DOWN, which discards the step; a swap is completed at the seq that LANE_SWAP names, and only from UP_SWAP; the peer's records
are followed (R266 to R269). -/
def Obligations.LinkStates : Prop := ∀ (s : State) (n : Nat), n < 24 → Canonical s → (linkOf s n).state ≠ .absent →
  let l := linkOf s n
  let others (t : State) : Prop := ∀ k, k ≠ n → linkOf t k = linkOf s k
  let quiet (t : State) : Prop := others t ∧ t = { s with links := t.links }
  let told (t : State) : Prop := others t ∧ t = { s with
    links := t.links
    trace := t.trace
    host := t.host }
  let agrees (kind : BitVec 8) (id : BitVec 16) : Prop := (kind = 1 ∨ kind = 2) ∧
    (bitsOf l.peerTable.toNat 17 16 = 0 ∨ bitsOf l.peerTable.toNat 17 16 = kind.toNat) ∧
    (bitsOf l.peerTable.toNat 15 0 = 0xFFFF ∨ bitsOf l.peerTable.toNat 15 0 = id.toNat)
  let alone := s.step.inProgress = true ∧ l.takeover = false ∧ (linkOf s (partnerOf n)).carries = true
  let left (lane : Nat) : BitVec 5 := l.lanes &&& ~~~((1 : BitVec 5) <<< lane)
  (∀ kind id pb fw, l.state = .train → agrees kind id → ∃ t, exec (.ident n kind id pb fw) s = .next t ∧ quiet t ∧
    (linkOf t n).state = .up ∧ (linkOf t n).lanes = 0xF ∧ (linkOf t n).peerId = id ∧ (linkOf t n).lost = 0 ∧
    (linkOf t n).peerStore = (kind == 2) ∧ (linkOf t n).miswired = false ∧ (linkOf t n).replays = 0 ∧
    (linkOf t n).records = l.records ++
      [.ident s.boot.positionId n (BitVec.ofNat 64 (s.boot.measurement.toNat / 2 ^ 192)),
        .credit ((List.range 4).map (fun c => BitVec.ofNat 16 (bufferFlits c)))]) ∧
  (∀ kind id pb fw, l.state = .train → ¬ agrees kind id → ∃ t, exec (.ident n kind id pb fw) s = .next t ∧
    (linkOf t n).state = .down ∧ (linkOf t n).miswired = true ∧ (linkOf t n).lanes = 0 ∧ t.mem = s.mem ∧ t.tiles = s.tiles ∧
    t.program = s.program ∧ (alone → told t)) ∧
  (∀ kind id pb fw, l.state ≠ .train → exec (.ident n kind id pb fw) s = .next s) ∧
  (l.state = .train → ∃ t, exec (.trainTimeout n) s = .next t ∧ (linkOf t n).state = .down ∧
    (linkOf t n).lastAttempt = s.now ∧ t.mem = s.mem ∧ t.tiles = s.tiles ∧ t.program = s.program ∧ (alone → quiet t)) ∧
  (l.state = .down → ∃ t, exec (.downRetry n) s = .next t ∧ quiet t ∧ linkOf t n = { l with
    state := .train
    lastAttempt := s.now }) ∧
  (∀ lane, l.state = .up → l.lanes.getLsbD lane = true → l.spareFree = true → ∃ t, exec (.laneDegrading n lane) s = .next t ∧
    quiet t ∧ linkOf t n = { l with
      state := .upSwap
      retiring := some lane }) ∧
  (∀ lane, l.state = .up → l.lanes.getLsbD lane = true → 3 ≤ laneCount (left lane) → ∃ t,
    exec (.laneLost n lane) s = .next t ∧ told t ∧ (linkOf t n).state = (if l.spareFree then .upSwap else .up3) ∧
    (linkOf t n).retiring = (if l.spareFree then some lane else l.retiring) ∧ (linkOf t n).lanes = left lane ∧
    (linkOf t n).lost = l.lost + 1 ∧ (linkOf t n).records = l.records ++ [.restripe (left lane)]) ∧
  (∀ lane, l.carries = true → l.lanes.getLsbD lane = true → laneCount (left lane) < 3 → CanDiscard s →
    ∃ t, exec (.laneLost n lane) s = .next t ∧ (linkOf t n).state = .down ∧ (linkOf t n).lanes = 0 ∧ (l.takeover = false → others t) ∧
      t.step = { s.step with phase := .discarding } ∧ t.arbiter.latched.head? = some ⟨0x5004, linkPlace n, s.now⟩) ∧
  (∀ q, l.state = .upSwap → ∃ t, exec (.spareTrained n true q) s = .next t ∧ told t ∧
    ((linkOf t n).state = .up ↔ ((linkOf t n).txSeq - q).toNat < 32768) ∧
    ((linkOf t n).state = .up → (linkOf t n).lanes = l.swapped (l.retiring.getD l.spare) ∧ (linkOf t n).lost = 0 ∧
      (linkOf t n).retiring = none ∧ (linkOf t n).switchAt = none) ∧
    ((linkOf t n).state ≠ .up → (linkOf t n).state = .upSwap ∧ (linkOf t n).lanes = l.lanes ∧
      (linkOf t n).switchAt = some (l.retiring.getD l.spare, q, true)) ∧
    (linkOf t n).records = l.records ++ [.laneSwap (l.retiring.getD l.spare) q]) ∧
  (∀ q, l.state = .upSwap → ∃ t, exec (.spareTrained n false q) s = .next t ∧ told t ∧ linkOf t n = { l with
    state := if l.lost = 0 then .up else .up3
    spareFailed := true
    retiring := none }) ∧
  (∀ r q, l.state = .upSwap → r.toNat < 5 → ∃ t, exec (.laneSwap n r q) s = .next t ∧ told t ∧
    linkOf t n = if (l.rxNext - q).toNat < 32768 then { l with
        state := .up
        lanes := l.swapped r.toNat
        lost := 0
        retiring := none
        switchAt := none }
      else { l with
        retiring := some r.toNat
        switchAt := some (r.toNat, q, false) }) ∧
  (∀ r q, l.state ≠ .upSwap ∨ 5 ≤ r.toNat → exec (.laneSwap n r q) s = .next s) ∧
  (∀ m : BitVec 8, l.carries = true → 3 ≤ laneCount (m.setWidth 5) → ∃ t, exec (.restripe n m) s = .next t ∧ told t ∧
    (linkOf t n).lanes = m.setWidth 5 ∧ (linkOf t n).lost = l.lost + (laneCount l.lanes - laneCount (m.setWidth 5)) ∧
    (laneCount (m.setWidth 5) = 3 → l.state = .up → (linkOf t n).state = if l.spareFree then .upSwap else .up3)) ∧
  (∀ pbs : BitVec 24, l.carries = true → ∃ t, exec (.route n pbs) s = .next t ∧ t = { s with links := t.links } ∧
    linkOf t n = { l with takeover := pbs.getLsbD (partnerOf n) } ∧
    linkOf t (partnerOf n) = { linkOf s (partnerOf n) with takenOver := pbs.getLsbD (partnerOf n) } ∧
    ∀ k, k ≠ n → k ≠ partnerOf n → linkOf t k = linkOf s k)

/-- Traffic of a link: a flit in its order is taken once and delivers its bytes, whole messages for this module are handed on, and
kiln and bulk bytes are counted; a failed flit is named in a NAK and takes nothing; a peer's NAK makes flits go again, its credits are
added, and its ack frees what it covers; LINK flits go first, then CONTROL (R258 to R263, R265, R273). -/
def Obligations.LinkTraffic : Prop := ∀ (s : State) (n : Nat) (f : Flit), n < 24 → Canonical s →
  let l := linkOf s n
  let c := f.channel.toNat
  let bytes := f.body.take f.len.toNat
  l.carries = true → l.switchAt = none → smWf (0 : BitVec 16) 0 l.rxChseq = true → smWf ([] : Bytes) 0 l.assembling = true →
  smWf (0 : Nat) 0 l.credits = true → smWf (0 : Nat) 0 l.nakCounts = true →
  let inTurn := flitFailed f = false ∧ flitIllegal f = false ∧ f.kind = 1 ∧ l.rxSeen = [] ∧ f.seq = l.rxNext ∧ l.reorder = [] ∧
    f.chseq = smGet 0 l.rxChseq c ∧ 0 < smGet 0 l.granted c ∧ f.som = true
  (inTurn → c = 0 ∨ c = 2 → f.eom = false → ∃ t, exec (.zlinkFlit n f) s = .next t ∧ (linkOf t n).rxNext = f.seq + 1 ∧
    (linkOf t n).rxSeen = [] ∧ (linkOf t n).reorder = [] ∧ smGet 0 (linkOf t n).rxChseq c = f.chseq + 1 ∧
    smGet [] (linkOf t n).assembling c = bytes ∧ (linkOf t n).delivered = l.delivered ∧
    (linkOf t n).records = l.records ++ (if c = 0 then [.credit [1, 0, 0, 0]] else []) ∧
    (∀ k, k ≠ n → linkOf t k = linkOf s k) ∧ t = { s.wake with links := t.links }) ∧
  (inTurn → c = 0 ∨ c = 2 → f.eom = true →
    [0x01, 0x02, 0x10, 0x11, 0x12, 0x20, 0x21, 0x30, 0x40, 0x41].contains (fieldAt bytes 4 1) = true →
    channelOf (fieldAt bytes 4 1) = c → fieldAt bytes 6 2 = 0 → fieldAt bytes 12 4 = 0 →
    fieldAt bytes 0 2 = s.boot.positionId.toNat → ∃ t, exec (.zlinkFlit n f) s = .next t ∧
      (linkOf t n).delivered = l.delivered ++ [(c, bytes)] ∧ (linkOf t n).rxNext = f.seq + 1 ∧
      smGet [] (linkOf t n).assembling c = [] ∧ t = { s.wake with links := t.links }) ∧
  (inTurn → c = 1 ∨ c = 3 → f.eom = false → (pbOf s n).pendingSignals = [] →
    let key := streamKey (BitVec.ofNat 16 (fieldAt bytes 2 2)) c
    (pbOf s n).streams.any (fun x => x.1 == key) = true → smWf (0 : Nat) 0 (pbOf s n).streams = true →
    ∃ t, exec (.zlinkFlit n f) s = .next t ∧
      smGet 0 (pbOf t n).streams key = smGet 0 (pbOf s n).streams key + bytes.length ∧
      (linkOf t n).rxNext = f.seq + 1 ∧ t.mem = s.mem ∧ t.step = s.step) ∧
  (flitFailed f = true → l.rxSeen = [] → smGet 0 l.nakCounts (65536 + l.rxNext.toNat) < 15 →
    ∃ t, exec (.zlinkFlit n f) s = .next t ∧
      smGet 0 (linkOf t n).nakCounts (65536 + l.rxNext.toNat) = smGet 0 l.nakCounts (65536 + l.rxNext.toNat) + 1 ∧
      (linkOf t n).records = l.records ++ [.nak [l.rxNext]] ∧ (linkOf t n).rxNext = l.rxNext ∧
      (linkOf t n).delivered = l.delivered ∧ (linkOf t n).assembling = l.assembling ∧ (linkOf t n).granted = l.granted ∧
      (∀ k, k ≠ n → linkOf t k = linkOf s k) ∧ t = { s with links := t.links }) ∧
  (∀ q, l.replay.any (fun x => x.seq == q) = true → smGet 0 l.nakCounts q.toNat < 15 → ∃ t, exec (.nak n [q]) s = .next t ∧
    (∃ g ∈ l.replay, g.seq = q ∧ (linkOf t n).wire = g :: l.wire) ∧ linkOf t n = { l with
      nakCounts := smUpd 0 q.toNat (· + 1) l.nakCounts
      wire := (linkOf t n).wire
      replays := BitVec.ofNat 16 (min (l.replays.toNat + 1) 65535) } ∧ t = { s with
        links := t.links
        trace := t.trace }) ∧
  (∀ q, l.replay.any (fun x => x.seq == q) = true → 15 ≤ smGet 0 l.nakCounts q.toNat → ∃ t, exec (.nak n [q]) s = .next t ∧
    (linkOf t n).state = .down) ∧
  (∀ grants, l.blocked = [] → ∃ t, exec (.credit n grants) s = .next t ∧
    (∀ i, i < 4 → smGet 0 (linkOf t n).credits i = smGet 0 l.credits i + (grants.getD i 0).toNat) ∧
    linkOf t n = { l with credits := (linkOf t n).credits } ∧ t = { s with links := t.links }) ∧
  (∀ g, l.replay.length < 8192 → l.blocked.find? (fun x => x.kind == 2) = some g → l.turn = some (l.emit g)) ∧
  (∀ g, l.replay.length < 8192 → l.blocked.find? (fun x => x.kind == 2) = none → l.ready 0 = some g →
    l.turn = some (l.emit g)) ∧
  (8192 ≤ l.replay.length → l.turn = none) ∧
  (∀ g, (l.emit g).txSeq = l.txSeq + 1 ∧ ∃ h, (l.emit g).wire = h :: l.wire ∧ (l.emit g).replay = l.replay ++ [h] ∧
    h.seq = l.txSeq ∧ h.ack = l.rxNext ∧ h.body = g.body ∧ h.crc = crc32 (flitBody h))

/-- A verified weight frame that is due is chained, available to the column's schedule and signalled, and takes no more of the
intake buffer once the schedule has sent it; one that is not expected discards the step with 0x5012, and one that fails its CRC is
asked for again within the refire budget. A remote signal is released, or waits until its stream has delivered the bytes it states;
one that finds every slot in use takes its link down (R63, R225, R271 to R274, R282). -/
def Obligations.FramesAndSignals : Prop := ∀ (s : State) (pb : Nat), pb < 24 → Canonical s →
  let p := pbOf s pb
  (∀ (f : Frame) (e : IntakeEntry) rest, f.resv = false → f.targetPb.toNat = pb → s.step.inProgress = true →
    s.step.phase ≠ .discarding → f.stepLow = low32 s.step.current.stepNumber → p.done.contains f.frameSeq.toNat = false →
    p.verified = [] → p.expected = (f.frameSeq.toNat, e) :: rest → f.key = e.key → f.format.toNat = e.format →
    f.form.toNat = e.form → f.length.toNat = e.length →
    (crc32c (frameHead f ++ f.payload) = f.crc → sha256 (frameHead f ++ f.payload) = f.sha →
      (∀ x ∈ p.ready, x.1 ≠ f.frameSeq.toNat) → ∃ (t u : State), exec (.weightFrame pb f) s = .next t ∧ t = u.pumpMesh ∧
        pbOf u pb = { p with
          done := f.frameSeq.toNat :: p.done
          verified := []
          expected := rest
          weightChain := sha256 (digestBytes p.weightChain ++ digestBytes f.sha)
          ready := if flowLeft s (pbSiteOf pb) (.frame f.frameSeq.toNat) then p.ready
            else p.ready ++ [(f.frameSeq.toNat, f.payload)] } ∧
        (∀ k, k ≠ pb → pbOf u k = pbOf s k) ∧
        u = { s.wake with
          pbs := u.pbs
          links := u.links
          rillOut := syncMsg (pbCode pb) e.syncId 0x81 (low32 s.currentStep) 1 :: s.rillOut
          trace := u.trace
          host := u.host
          sync := (s.progress (intakeQueue pb)).sync }) ∧
    (crc32c (frameHead f ++ f.payload) ≠ f.crc → smGet 0 p.requests f.frameSeq.toNat < s.budget →
      ∃ t, exec (.weightFrame pb f) s = .next t ∧ pbOf t pb = { p with
        requests := smUpd 0 f.frameSeq.toNat (· + 1) p.requests } ∧ t.mem = s.mem ∧ t.step = s.step ∧
        t.sync = (s.progress (intakeQueue pb)).sync)) ∧
  (∀ f : Frame, f.resv = false → f.targetPb.toNat = pb → CanDiscard s → p.done.contains f.frameSeq.toNat = false →
    p.expected.find? (fun x => x.1 == f.frameSeq.toNat) = none → ∃ t, exec (.weightFrame pb f) s = .next t ∧
      Discards s t 0x5012 (linkPlace pb) ∧ t.pbs = s.pbs ∧ t.mem = s.mem) ∧
  (∀ f : Frame, s.step.phase = .discarding → exec (.weightFrame pb f) s = .next (s.wake.freeIntake pb f.payload.length)) ∧
  (∀ m : SignalMsg, m.stepLow = low32 s.currentStep → m.syncId.toNat < 0x8000 →
    m.channel = 1 ∨ m.channel = 3 → m.count.toNat < 2 ^ 48 → p.pendingSignals.length < 256 →
    p.streams.any (fun x => x.1 == streamKey m.src m.channel.toNat) = true →
    (m.count.toNat ≤ smGet 0 p.streams (streamKey m.src m.channel.toNat) → p.pendingSignals.any (sameStream m) = false →
      exec (.signal pb m) s = .next { s.wake with
        rillOut := syncMsg (pbCode pb) m.syncId.toNat (m.op.toNat ||| 0x80) m.stepLow m.operand :: s.rillOut
        sync := (s.progress (signalQueue pb)).sync }) ∧
    (smGet 0 p.streams (streamKey m.src m.channel.toNat) < m.count.toNat →
      ∃ t, exec (.signal pb m) s = .next t ∧ pbOf t pb = { p with pendingSignals := p.pendingSignals ++ [m] } ∧
        (∀ k, k ≠ pb → pbOf t k = pbOf s k) ∧ t = { s.wake with pbs := t.pbs })) ∧
  (∀ m : SignalMsg, m.stepLow = low32 s.currentStep → m.syncId.toNat < 0x8000 → m.channel = 1 ∨ m.channel = 3 →
    m.count.toNat < 2 ^ 48 → p.streams.any (fun x => x.1 == streamKey m.src m.channel.toNat) = true →
    256 ≤ p.pendingSignals.length → CanDiscard s → ∃ t, exec (.signal pb m) s = .next t ∧ t.step.phase = .discarding ∧
      t.arbiter.latched.head? = some ⟨0x5008, linkPlace pb, s.now⟩ ∧ (linkOf t pb).state = .down) ∧
  (∀ m : SignalMsg, m.stepLow ≠ low32 s.currentStep → CanDiscard s →
    ∃ t, exec (.signal pb m) s = .next t ∧ Discards s t 0x5009 (linkPlace pb) ∧ t.pbs = s.pbs)

/-- Probes are stamped and answered over their link; of the answers to this module's probes the one with the smallest round trip is
kept; a peer that does not answer is recorded as absent; the map to PTP time is what the last synchronisation gave
(R383 to R385). -/
def Obligations.TimeMessages : Prop := ∀ (s : State) (n : Nat) (m : TimeMsg), n < 24 → Canonical s →
  ((linkOf s n).carries = true → (linkOf s n).switchAt = none → s.boot.positionId ≠ 0xFFFF → ∃ t, exec (.timeProbe n m) s = .next t ∧
    t = { s.wake with
      links := t.links
      zOut := (n, ⟨m.peer, 0x41, BitVec.ofNat 8 n, timeBody { m with
        t2 := s.now
        t3 := s.now }⟩) :: s.zOut }) ∧
  (∀ x : PeerOffset, (linkOf s n).carries = true → s.trace.offsets = [x] → x.peer = m.peer →
    x.probes = [(m.probeId, m.index.toNat)] →
    let now : Int := s.now.toNat
    let trip : Int := (now - m.t1.toNat) - ((m.t3.toNat : Int) - m.t2.toNat)
    let offset : Int := Int.tdiv (((m.t2.toNat : Int) - m.t1.toNat) + ((m.t3.toNat : Int) - now)) 2
    exec (.timeReply n m) s = .next { s.wake with trace := { s.trace with offsets := [{ x with
      probes := []
      best := match x.best with
        | some b => if trip < b.1 then some (trip, offset) else some b
        | none => some (trip, offset) }] } }) ∧
  (∀ x k, s.trace.offsets = [x] → x.sentIndex < 8 → s.boot.positionId ≠ 0xFFFF →
    (List.range 24).find? (fun n => (linkOf s n).state == .up) = some k → ∃ t id,
      exec (.peerOffsetExchange x.peer) s = .next t ∧ t = { s.wake with
        draws := s.draws + 1
        links := t.links
        zOut := (k, ⟨x.peer, 0x40, BitVec.ofNat 8 k, timeBody ⟨x.peer, id, BitVec.ofNat 8 x.sentIndex, s.now, 0, 0⟩⟩) :: s.zOut
        trace := { s.trace with offsets := [{ x with
          sentIndex := x.sentIndex + 1
          probes := x.probes ++ [(id, x.sentIndex)] }] } }) ∧
  (∀ x (i : BitVec 8), s.trace.offsets = [x] → x.probes.any (fun p => p.2 == i.toNat) = true →
    exec (.timeProbeTimeout x.peer i) s = .next { s with trace := { s.trace with offsets := [{ x with
      probes := x.probes.filter (fun p => p.2 ≠ i.toNat)
      absent := true }] } }) ∧
  (∀ (a : PtpTime) c (d : Net), netOk d = true → s.boot.firmwareRuns = true → exec (.ptpSync a c d) s = .next { s with
    trace := { s.trace with
      tsRef := s.now
      ptpSeconds := a.seconds
      ptpNanoseconds := a.nanoseconds
      ptpRate := c } }) ∧
  (∀ (a : PtpTime) c (d : Net), netOk d = false ∨ s.boot.firmwareRuns = false → exec (.ptpSync a c d) s = .next s)

/-! ### Survival and trace (chapters 16 and 17) -/

/-- The parity group and its refresh: the group forms when every member's join is held and agrees; a unit is added once into the parity pages
that cover it, and never twice, and one that fails its check is asked for again (log entry 117); the refresh generation is held complete when every member's PARITY_DONE is; a member that is ready gets every
unit its pages cover (R363, R371 to R373, R382). -/
def Obligations.ParityGroup : Prop := ∀ (s : State) (c : ParityCfg), s.survival.config = some c →
  (∀ m : JoinMsg, m.feedId ≠ s.feedId →
    let joins := s.survival.joins.filter (fun x => x.sender ≠ m.sender) ++ [m]
    let formed := s.peersInGroup.all (fun x => joins.any (fun j => j.sender.toNat == x.1 && joinAgrees s c j))
    ∃ t, exec (.parityJoin m) s = .next t ∧ t = { s.wake with
      survival := { s.survival with
        joins := joins
        formed := formed }
      trace := t.trace
      host := t.host } ∧ (joinAgrees s c m = true → t.host = s.host ∧ t.trace = s.trace)) ∧
  (∀ m : JoinMsg, m.feedId = s.feedId → m.feedId ≠ 0xFFFF → ∃ t, exec (.parityJoin m) s = .next t ∧
    t.survival.correlated = true ∧ t.step = s.step ∧ t.mem = s.mem) ∧
  (∀ (m : UnitMsg) (k : Nat × Bool), m.resv = false → crc32c m.payload = m.crc → s.survival.refresh = some m.stepLow → m.role = 0 →
    m.sender.toNat < c.size.toNat →
    covering c.code.toNat c.size.toNat c.selfIndex.toNat m.sender.toNat m.address.toNat = [k] →
    smWf (zeros pageBytes) 0 s.survival.inactive = true →
    let key := pageKey m.tile.toNat k.1
    let held := s.survival.units.contains (key, m.sender.toNat, m.address.toNat)
    ∃ t, exec (.parityUnit m) s = .next t ∧ t.mem = s.mem ∧ t.pages = s.pages ∧ t.step = s.step ∧
      t.survival.activeSet = s.survival.activeSet ∧
      (held = true → t.survival.units = s.survival.units ∧ t.survival.inactive = s.survival.inactive) ∧
      (held = false → t.survival.units = s.survival.units ++ [(key, m.sender.toNat, m.address.toNat)] ∧
        smGet (zeros pageBytes) t.survival.inactive key = xorBytes (smGet (zeros pageBytes) s.survival.inactive key)
          (if k.2 then qTerm m.sender.toNat m.payload else m.payload) ∧
        ∀ q, q ≠ key → smGet (zeros pageBytes) t.survival.inactive q = smGet (zeros pageBytes) s.survival.inactive q)) ∧
  (∀ m : UnitMsg, m.resv = true ∨ s.survival.refresh ≠ some m.stepLow → exec (.parityUnit m) s = .next s) ∧
  (∀ (m : UnitMsg) n, m.resv = false → crc32c m.payload ≠ m.crc → s.survival.refresh = some m.stepLow → m.role = 0 →
    m.sender.toNat < c.size.toNat → s.boot.positionId ≠ 0xFFFF → linkFor s 0 = some n → ∃ t,
    exec (.parityUnit m) s = .next t ∧ t.survival = s.survival ∧ t.mem = s.mem ∧ t.pages = s.pages ∧ t.step = s.step ∧
    t.zOut = (n, ⟨c.members.getD m.sender.toNat 0xFFFF, 0x20, 0, bulkBody 3 0 0xFFFF m.stepLow 0 s.selfMember []⟩) :: s.zOut) ∧
  (∀ (sender : BitVec 8) st, s.survival.refresh = some st → sender.toNat ∉ s.survival.doneBy →
    exec (.parityDone sender st) s = .next { s with survival := { s.survival with
      doneBy := s.survival.doneBy ++ [sender.toNat]
      readyStep := if (List.range c.size.toNat).all (fun i => (s.survival.doneBy ++ [sender.toNat]).contains i) then st
        else s.survival.readyStep
      refresh := if (List.range c.size.toNat).all (fun i => (s.survival.doneBy ++ [sender.toNat]).contains i) then none
        else some st } }) ∧
  (∀ (sender : BitVec 8) st, s.survival.refresh ≠ some st → s.survival.readyStep ≠ st → (sender.toNat, st) ∉ s.survival.doneEarly →
    exec (.parityDone sender st) s = .next { s with survival := { s.survival with
      doneEarly := s.survival.doneEarly ++ [(sender.toNat, st)] } }) ∧
  (∀ (sender : BitVec 8) st, (sender.toNat, st) ∉ s.survival.ready → s.survival.refresh ≠ some st →
    ¬ (s.survival.readyStep = st ∧ s.survival.refresh = none) → exec (.parityReady sender st) s = .next { s.wake with
      survival := { s.survival with ready := s.survival.ready ++ [(sender.toNat, st)] } }) ∧
  (∀ (sender : BitVec 8) st, s.survival.refresh = some st → s.boot.positionId ≠ 0xFFFF → ∃ t,
    exec (.parityReady sender st) s = .next t ∧ (sender.toNat, st) ∈ t.survival.ready ∧ t.mem = s.mem ∧ t.pages = s.pages ∧
    t.step = s.step ∧ ∀ u ∈ s.sliceTiles, ∀ p, p < s.slicePages u →
      covering c.code.toNat c.size.toNat sender.toNat c.selfIndex.toNat p ≠ [] → ∀ n, linkFor s (colOf u / 2) = some n →
      (n, ⟨c.members.getD sender.toNat 0xFFFF, 0x20, BitVec.ofNat 8 (colOf u / 2),
        bulkBody 2 0 u st p c.selfIndex.toNat (s.sealedBytes u p)⟩) ∈ t.zOut)

/-- Rebuilds and restores: a request is answered with this module's units and parity page of the stripe; a unit that completes the stripe of a
wanted page puts the page into a free page of the pool and clears its mark, one that fails its CRC is asked for again; an
image from a store is read piece by piece (R376 to R378, R382). -/
def Obligations.RebuildsAndRestores : Prop := ∀ s : State,
  (∀ (c : ParityCfg) (sender : BitVec 8) (tile : BitVec 16) (page : BitVec 64), s.survival.config = some c →
    s.survival.parityStep ≠ 0xFFFFFFFF → tile.toNat < 2352 → sender.toNat < c.size.toNat →
    page.toNat < s.slicePages tile.toNat → s.boot.positionId ≠ 0xFFFF → Steady s →
    let u := tile.toNat
    let me := c.selfIndex.toNat
    let st := stripeOf c.code.toNat c.size.toNat sender.toNat page.toNat
    let dest := c.members.getD sender.toNat 0xFFFF
    ∃ t, exec (.rebuildRequest sender tile s.survival.parityStep page) s = .next t ∧ t = { s.wake with
        links := t.links
        pbs := t.pbs
        zOut := t.zOut } ∧
      ∀ n, linkFor s (colOf u / 2) = some n →
        (∀ q, (me, q) ∈ stripeUnits c.code.toNat c.size.toNat st → q < s.slicePages u →
          (∀ p, s.basePage u q = some p → pageKey u p ∉ s.pages.lost) → s.basePage u q ≠ none →
          (n, ⟨dest, 0x20, BitVec.ofNat 8 (colOf u / 2),
            bulkBody 7 0 u s.survival.parityStep q me (s.baseBytes u q)⟩) ∈ t.zOut) ∧
        (∀ b, (pPlace c.code.toNat st).1 = me →
          s.survival.activeSet.find? (fun x => x.1 == pageKey u (pPlace c.code.toNat st).2) =
            some (pageKey u (pPlace c.code.toNat st).2, b) →
          (n, ⟨dest, 0x20, BitVec.ofNat 8 (colOf u / 2),
            bulkBody 7 1 u s.survival.parityStep (pPlace c.code.toNat st).2 me b⟩) ∈ t.zOut)) ∧
  (∀ (c : ParityCfg) (m : UnitMsg), s.survival.config = some c → m.resv = false → crc32c m.payload ≠ m.crc → Steady s → ∃ t,
    exec (.rebuildUnit m) s = .next t ∧ t = { s with
      links := t.links
      pbs := t.pbs
      zOut := t.zOut }) ∧
  (∀ (c : ParityCfg) (m : UnitMsg) (k page : Nat) (b : Bytes), s.survival.config = some c → m.resv = false → crc32c m.payload = m.crc →
    s.survival.restoring = none → m.role = 0 → s.survival.wanted = [⟨k, some page, m.stepLow⟩] →
    k / 1024 = m.tile.toNat → k % 1024 < s.slicePages m.tile.toNat →
    (m.sender.toNat, m.address.toNat) ∈ stripeUnits c.code.toNat c.size.toNat
      (stripeOf c.code.toNat c.size.toNat c.selfIndex.toNat (k % 1024)) →
    let u : State := { s.wake with survival := { s.survival with gathered := s.survival.gathered ++
      [⟨k, m.stepLow, 0, m.sender.toNat, m.address.toNat, m.payload⟩] } }
    (u.solve k m.stepLow = none → (s.pages.lost.any (fun x => fieldState s.repair (fieldOfLogical (x / 1024)) == 2)) = false →
      exec (.rebuildUnit m) s = .next u) ∧
    (u.solve k m.stepLow = some b → ∃ t, exec (.rebuildUnit m) s = .next t ∧ t.survival.wanted = [] ∧
      pageKey m.tile.toNat page ∉ t.pages.lost ∧ t.mem = wrBytes s.mem (memKey (physOf s.repair m.tile.toNat)
        (pageAddr ((s.freePages m.tile.toNat).headD page) 0)) b ∧ t.step = s.step)) ∧
  (∀ (r : Restore) (address : BitVec 64) (d : Bytes), s.survival.restoring = some r → r.source = 0 →
    address.toNat = r.req.storeAddress.toNat + r.image.length → d ≠ [] →
    (4096 ≤ (r.image ++ d).length → (r.image ++ d).length < fieldAt (r.image ++ d) 112 8) →
    ∃ t, exec (.readData address (crc32c d) d) s = .next t ∧
      t.survival = { s.survival with restoring := some { r with image := r.image ++ d } } ∧ t.mem = s.mem ∧
      t.pages = s.pages ∧ t.step = s.step) ∧
  (∀ (r : Restore) (address : BitVec 64) (d : Bytes) crc, s.survival.restoring = some r → crc ≠ crc32c d →
    ∃ t, exec (.readData address crc d) s = .next t ∧ t.survival = s.survival ∧ t.mem = s.mem ∧ t.pages = s.pages)

/-! ### Tile commands (chapters 4 to 9 and 12) -/

/-- Every VEC_OP writes its result whole at dst and nothing else of the memories, sets its flags, and with detections within the refire budget
writes what it would have written without them; one failed attempt more ends it in 0x2104 with nothing written (R181, R184, R242,
R243). What starting a command changes is its tile's counters and trace records. -/
def Obligations.VectorRows : Prop := ∀ (r : Nat × (Site → VecDesc → Instr)) (t : Site) (d : VecDesc) (s : State),
  r ∈ vecRows → t.tile < 2352 → s.issues t.tile = true → s.checks = [] → s.mesh.poisoned = [] → Canonical s →
  vecCheck r.1 d = none →
  let p := physOf s.repair t.tile
  let u := s.cmdStart p 1 0x40 d.cid
  let out := vecCompute u p r.1 d
  let dst := memKey p d.dst.toNat
  u = { s with
    tiles := u.tiles
    trace := u.trace } ∧
  (∀ q, q ≠ p → tileOf u q = tileOf s q) ∧
  tileOf u p = { tileOf s p with
    issued := (tileOf s p).issued + 1
    counters := (tileOf u p).counters } ∧
  (writeFault u p d.dst.toNat (vecDstBytes r.1 d) = none → (∀ l ∈ t.det, ∀ c ∈ l, recoverableCodes.contains c.toNat = true) →
    (t.suspect = [] → t.det.length ≤ s.budget → ∃ e : State, exec (r.2 t d) s = .next (e.sendBound t.tile d.cid) ∧
      e.mem = wrBytes s.mem dst out.1 ∧ out.1.length = vecDstBytes r.1 d ∧
      (∀ a, a < dst ∨ dst + vecDstBytes r.1 d ≤ a → rdByte e.mem a = rdByte s.mem a) ∧
      e.program = s.program ∧ e.pages = s.pages ∧ e.sync = s.sync ∧
      (tileOf e p).vecOvf = ((tileOf s p).vecOvf || out.2.ovf) ∧ (tileOf e p).vecNan = ((tileOf s p).vecNan || out.2.nan) ∧
      (tileOf e p).vecSat = ((tileOf s p).vecSat || out.2.sat) ∧
      (t.det = [] → RanOn p s e ∧ tileOf e p = { tileOf s p with
        issued := (tileOf s p).issued + 1
        counters := (tileOf e p).counters
        strata := (tileOf s p).strata.countRecompute
        vecOvf := (tileOf e p).vecOvf
        vecNan := (tileOf e p).vecNan
        vecSat := (tileOf e p).vecSat })) ∧
    (s.budget < t.det.length → CanDiscard s → ∃ e : State, exec (r.2 t d) s = .next e ∧ Faulted s e 0x2104))

/-- Element i of the destination of an elementwise VEC_OP is the operation's exact value on element i of its sources, scaled by
2^LS_EXP under LSCALE, and rounded once into the destination's format; SUM, MAXRED and SUMSQ write the one value of their
fixed tree (Table 8-2, R181 to R183). -/
def Obligations.VectorElements : Prop := ∀ (t : Site) (d : VecDesc) (s : State), Runs t s → Canonical s →
  let p := physOf s.repair t.tile
  let w := vecBytes (vecFormat d 3)
  let scaled (x : Fp) : Fp := if d.flags.getLsbD 1 then x.scale s.step.lsExp else x
  (∀ r ∈ roundedRows, vecCheck r.1 d = none → writeFault s p d.dst.toNat (vecDstBytes r.1 d) = none →
    ∃ e : State, exec (r.2.1 t d) s = .next (e.sendBound t.tile d.cid) ∧ ∀ i, i < d.count.toNat →
      tileRead e p (d.dst.toNat + i * w) w = leBytes w (vecEncode (vecFormat d 3) (scaled (r.2.2 (vecSource s p r.1 d 0 i)
        (vecSource s p r.1 d 1 i) (vecSource s p r.1 d 2 i)))).1) ∧
  (∀ r ∈ [(0x18, Instr.sum), (0x19, Instr.maxred), (0x1A, Instr.sumsq)], vecCheck r.1 d = none →
    writeFault s p d.dst.toNat 4 = none → ∃ e : State, exec (r.2 t d) s = .next (e.sendBound t.tile d.cid) ∧
      tileRead e p d.dst.toNat 4 = leBytes 4 (vecEncode 2 (scaled (vecReduce r.1 ((List.range d.count.toNat).map
        (vecSource s p r.1 d 0))).val)).1)

/-- DENSE_MM and MASKED_MM: a command opens or continues the run of its canvas and fills it; with DRAIN it closes the run, writes the
drained rows and its completion record, or puts the canvas on the partial chain, and adds its comparisons to the step's;
a comparison that fails ends in 0x2104 with that status in the record; a run that cannot be continued is 0x210A, which the record
of a command with DRAIN carries (R83, R95, R102, R148, R162, R234). -/
def Obligations.EngineRuns : Prop := ∀ (masked : Bool) (t : Site) (d : DenseDesc) (s : State), Runs t s → Canonical s →
  denseCheck d masked = none →
  let p := physOf s.repair t.tile
  let row := if masked then Instr.maskedMm t d else .denseMm t d
  let u := s.cmdStart p 0 (if masked then 0x12 else 0x10) d.cid
  let lanes := if masked then maskLanes (tileNum u p d.auxBase.toNat 2048) else denseLanes d
  let which := d.control.getLsbD 0
  let clear := d.control.getLsbD 1
  let drain := d.control.getLsbD 2
  let old := canvasOf (tileOf s p) which
  let c := (if clear then ({ run := openRun d } : Canvas) else old).fill u p d lanes (denseSpans d masked)
  let cmp := c.compareAll lanes
  let out := if masked then maskedDrained d (tileNum u p d.auxBase.toNat 2048) c else denseDrained u p d c lanes
  let recordAt := memKey p d.cmplAddr.toNat
  (clear = true ∨ continues d old.run = true → drain = false → ∃ e : State, exec row s = .next (e.sendBound t.tile d.cid) ∧
    RanOn p s e ∧ e.mem = s.mem ∧ canvasOf (tileOf e p) which = c ∧
    canvasOf (tileOf e p) (!which) = canvasOf (tileOf s p) (!which) ∧
    (tileOf e p).heldCanvases = (tileOf s p).heldCanvases) ∧
  (clear = true ∨ continues d old.run = true → drain = true → tallyCodes cmp.1 cmp.2 = [] →
    firstCode (out.rows.map (fun x => writeFault u p x.1 x.2.length) ++ [writeFault u p d.cmplAddr.toNat 16]) = none →
    ∃ (e : State) (fl : Nat), exec row s = .next (e.sendBound t.tile d.cid) ∧
      e.mem = wrBytes (out.rows.foldl (fun m x => wrBytes m (memKey p x.1) x.2) s.mem) recordAt
        (completionRecord d.cid 0 fl cmp.1.passed cmp.1.unchecked) ∧
      (canvasOf (tileOf e p) which).run.isOpen = false ∧ (canvasOf (tileOf e p) which).cells = c.cells ∧
      canvasOf (tileOf e p) (!which) = canvasOf (tileOf s p) (!which) ∧
      (tileOf e p).heldCanvases = (tileOf s p).heldCanvases ++
        (match out.chain with | some cells => [⟨d.cid, chainNumber s t.tile d.cid, cells, false, false⟩] | none => []) ∧
      (∀ q, q ≠ p → tileOf e q = tileOf s q) ∧ (clear = true ∨ old.run.suspect = false → e.step.refires = s.step.refires) ∧
      e = { s with
        mem := e.mem
        tiles := e.tiles
        trace := e.trace
        draws := s.draws + 1
        step := { s.step with
          refires := e.step.refires
          checksPassed := s.step.checksPassed + BitVec.ofNat 64 cmp.1.passed
          checksUnchecked := s.step.checksUnchecked + BitVec.ofNat 64 cmp.1.unchecked } }) ∧
  (clear = true ∨ continues d old.run = true → drain = true → tallyCodes cmp.1 cmp.2 ≠ [] → CanDiscard s →
    writeFault u p d.cmplAddr.toNat 16 = none → ∃ (e : State) (fl : Nat), exec row s = .next e ∧ e.step.phase = .discarding ∧
      e.arbiter.latched.map (·.code) = [0x2104] ∧ e.mem = wrBytes s.mem recordAt
        (completionRecord d.cid 0x2104 fl cmp.1.passed cmp.1.unchecked)) ∧
  (clear = false → continues d old.run = false → CanDiscard s → writeFault u p d.cmplAddr.toNat 16 = none →
    ∃ e : State, exec row s = .next e ∧ e.step.phase = .discarding ∧ e.arbiter.latched.map (·.code) = [0x210A] ∧
      e.mem = if drain then wrBytes s.mem recordAt (completionRecord d.cid 0x210A 0 0 0) else s.mem)

/-- CANVAS_SAVE writes the image of a canvas and leaves the canvas; CANVAS_RESTORE makes the canvas the one its image describes, or ends
in 0x210A when the image's run state breaks Table 4-11 (R96, R97). -/
def Obligations.CanvasImages : Prop := ∀ (t : Site) (d : DenseDesc) (s : State), Runs t s → Canonical s →
  let p := physOf s.repair t.tile
  let which := d.control.getLsbD 0
  let u := s.cmdStart p 0 0x19 d.cid
  (denseImageCheck d true = none → writeFault s p d.dBase.toNat 139328 = none → ∃ e : State,
    exec (.canvasSave t d) s = .next (e.sendBound t.tile d.cid) ∧ RanOn p s e ∧
    e.mem = wrBytes s.mem (memKey p d.dBase.toNat) (canvasImage (canvasOf (tileOf s p) which)) ∧
    (canvasImage (canvasOf (tileOf s p) which)).length = 139328 ∧
    ∀ b, canvasOf (tileOf e p) b = canvasOf (tileOf s p) b) ∧
  (∀ run, denseImageCheck d false = none → readRun u p (d.aBase.toNat + 0x22020) = some run → ∃ e : State,
    exec (.canvasRestore t d) s = .next (e.sendBound t.tile d.cid) ∧ RanOn p s e ∧ e.mem = s.mem ∧
    canvasOf (tileOf e p) which = readCanvas u p d.aBase.toNat { run with
      refires := 0
      reads := [⟨d.aBase.toNat, 0, 139328, 1⟩]
      suspect := false } ∧
    canvasOf (tileOf e p) (!which) = canvasOf (tileOf s p) (!which)) ∧
  (denseImageCheck d false = none → readRun u p (d.aBase.toNat + 0x22020) = none → CanDiscard s →
    ∃ e : State, exec (.canvasRestore t d) s = .next e ∧ Faulted s e 0x210A)

/-- SPARSE_MM: a command opens or continues the run of its part of the Sieve and accumulates its plates; with DRAIN it closes the run and
writes the drained rows and its completion record; a run that cannot be continued, or an open run of the other HALVES, is 0x9006, and
a strip scratch in an array that an open run reads is 0x9009 (R135, R142 to R144). -/
def Obligations.SparseRuns : Prop := ∀ (t : Site) (d : SparseDesc) (s : State), Runs t s → Canonical s →
  sparseCheck d = none →
  let p := physOf s.repair t.tile
  let u := s.cmdStart p 0 0x11 d.cid
  let a := readArray u p d.arrayDesc.toNat
  let part := d.control.getLsbD 0
  let clear := d.control.getLsbD 1
  let drain := d.control.getLsbD 2
  let old := sieveOf (tileOf s p) part
  let bad := (!clear && !sieveContinues d old) || halvesConflict (tileOf u p) d
  let hits (x : Nat × Nat) : Bool := hitsOpenArray u p x.1 x.2 || a.parts.any (fun y => overlaps x.1 x.2 y.1 y.2)
  let scratch := (scratchWrites u p a d).any hits
  let s0 := if clear then u.clearSieve p d else u
  let x := sparseFill s0 p a d (if clear then openSieve d else old)
  let recordAt := memKey p d.cmplAddr.toNat
  (bad = true → CanDiscard s → writeFault u p d.cmplAddr.toNat 16 = none → ∃ e : State, exec (.sparseMm t d) s = .next e ∧
    e.step.phase = .discarding ∧ e.arbiter.latched.map (·.code) = [0x9006] ∧
    e.mem = if drain then wrBytes s.mem recordAt (completionRecord d.cid 0x9006 0 0 0) else s.mem) ∧
  (bad = false → sparseArrayFault u p a d = none → scratch = true → CanDiscard s → drain = false →
    ∃ e : State, exec (.sparseMm t d) s = .next e ∧ Faulted s e 0x9009) ∧
  (bad = false → sparseArrayFault u p a d = none → scratch = false → sparseDetections s0 p a d = [] → drain = false →
    ∃ e : State, exec (.sparseMm t d) s = .next (e.sendBound t.tile d.cid) ∧ RanOn p s e ∧ e.mem = x.mem ∧
      sieveOf (tileOf e p) part = x.run ∧ (tileOf e p).sieveCheck = x.check ∧
      sieveOf (tileOf e p) (!part) = sieveOf (tileOf s p) (!part)) ∧
  (bad = false → sparseArrayFault u p a d = none → scratch = false → sparseDetections s0 p a d = [] → drain = true →
    let v := { s0 with mem := x.mem }.updTile p (fun q => { q with sieveCheck := x.check })
    let cmp := sieveCompare v p d x.run
    let o := sieveDrainRows v p d x.run
    let w := v.updTile p (fun q => q.setSieve part x.run)
    tallyCodes cmp.1 cmp.2 = [] →
    firstCode (o.1.map (fun y => writeFault w p y.1 y.2.length) ++ [writeFault w p d.cmplAddr.toNat 16]) = none →
    ∃ (e : State) (fl : Nat), exec (.sparseMm t d) s = .next (e.sendBound t.tile d.cid) ∧
      e.mem = wrBytes (o.1.foldl (fun m y => wrBytes m (memKey p y.1) y.2) x.mem) recordAt
        (completionRecord d.cid 0 fl cmp.1.passed cmp.1.unchecked) ∧
      (sieveOf (tileOf e p) part).isOpen = false ∧ (sieveOf (tileOf e p) part).kDone = x.run.kDone ∧
      e.step = { s.step with
        refires := e.step.refires
        checksPassed := s.step.checksPassed + BitVec.ofNat 64 cmp.1.passed
        checksUnchecked := s.step.checksUnchecked + BitVec.ofNat 64 cmp.1.unchecked } ∧
      ∀ q, q ≠ p → tileOf e q = tileOf s q)

/-- The plate commands: PLATE_STORE compresses its dense plate and stores it, PLATE_ADOPT stores an image as it is, PLATE_TRANSPOSE stores the transpose of a
plate and leaves the plate in the transposing buffer, PLATE_LOAD writes a plate's elements to its dense side; what a store
writes is what `storeForm` gives, in the order of R129 (R128 to R134, R147). -/
def Obligations.PlateCommands : Prop := ∀ (t : Site) (d : PlateDesc) (s : State), Runs t s → Canonical s →
  let p := physOf s.repair t.tile
  let u (op : Nat) : State := s.cmdStart p 2 op d.cid
  let a := readArray s p d.arrayDesc.toNat
  let i := plateIndex a d.plateRow.toNat d.plateCol.toNat
  let stride := d.denseStride.toNat
  let pr := d.plateRow.toNat
  let pc := d.plateCol.toNat
  (∀ v, plateCheck 0 d = none → readFault s d.arrayDesc.toNat 64 = none → arrayChecks s a pr pc stride true = none →
    let f := compress a.elem a.heavy (readDense s p (d.layout.getLsbD 0) d.denseAddr.toNat stride a.elem)
    storeForm (u 0x20) p a i f.1 f.2 = .ok v → ∃ e : State, exec (.plateStore t d) s = .next (e.sendBound t.tile d.cid) ∧
      RanOn p s e ∧ e.mem = v.foldl (fun m y => wrBytes m (memKey p y.1) y.2) s.mem) ∧
  (∀ c, plateCheck 0 d = none → readFault s d.arrayDesc.toNat 64 = none → arrayChecks s a pr pc stride true = none →
    let f := compress a.elem a.heavy (readDense s p (d.layout.getLsbD 0) d.denseAddr.toNat stride a.elem)
    storeForm (u 0x20) p a i f.1 f.2 = .error c → c = 0x9002 → CanDiscard s →
      ∃ e : State, exec (.plateStore t d) s = .next e ∧ Faulted s e 0x9002) ∧
  (∀ h, h = readHead s p a i →
    plateCheck 1 d = none → readFault s d.arrayDesc.toNat 64 = none → arrayChecks s a pr pc stride true = none →
    headValid s p a i h = true →
    (∀ k, k < 128 → writeFault s p (d.denseAddr.toNat + k * stride) (128 * plateElemBytes a.elem) = none) →
    plateDetection s p (formAddr a h) a.elem h = [] → ∃ e : State, exec (.plateLoad t d) s = .next (e.sendBound t.tile d.cid) ∧
      RanOn p s e ∧ ∀ r c, r < 128 → c < 128 →
        tileRead e p (denseSide (d.layout.getLsbD 0) d.denseAddr.toNat stride (plateElemBytes a.elem) r c)
          (plateElemBytes a.elem) =
        leBytes (plateElemBytes a.elem) (plateElem (expandForm s p (formAddr a h) a.elem h) r c)) ∧
  (let h := readHead s p a i
    let b := readArray s p d.destDesc.toNat
    let pl := expandForm s p (formAddr a h) a.elem h
    let slot := chooseSlot (tileOf s p)
    let w := plateElemBytes a.elem
    let f := compress b.elem b.heavy ((List.range 16384).map (fun k => plateElem pl (k / 128) (k % 128)))
    let s1 := ((u 0x22).updTile p (fun x => { x with lastSlot := some slot })).writeSlot p (if w = 4 then 2 else slot)
      (pl.flatMap (leBytes w))
    ∀ v, plateCheck 2 d = none → readFault s d.arrayDesc.toNat 64 = none → readFault s d.destDesc.toNat 64 = none →
    arrayChecks s a pr pc 0 false = none → arrayChecks s b d.destRow.toNat d.destCol.toNat 0 false = none →
    a.elem = b.elem → (w = 4 → (openSlots (tileOf s p)).testBit (1 - slot) = false) → headValid s p a i h = true →
    plateDetection s p (formAddr a h) a.elem h = [] →
    storeForm s1 p b (plateIndex b d.destRow.toNat d.destCol.toNat) f.1 f.2 = .ok v →
    ∃ e : State, exec (.plateTranspose t d) s = .next (e.sendBound t.tile d.cid) ∧ RanOn p s e ∧
      e.mem = v.foldl (fun m y => wrBytes m (memKey p y.1) y.2) s1.mem ∧
      (tileOf e p).lastSlot = some slot) ∧
  (let at_ := d.denseAddr.toNat
    let h := decodeHead (tileNum s p at_ 8)
    let size := formSize s p (at_ + 8) a.elem h
    ∀ v, plateCheck 3 d = none → readFault s d.arrayDesc.toNat 64 = none → arrayChecks s a pr pc 0 false = none →
    inTmem at_ (8 + size) = true → imageValid s p (at_ + 8) a.elem h = true →
    storeForm (u 0x23) p a i h (tileRead s p (at_ + 8) size) = .ok v →
    ∃ e : State, exec (.plateAdopt t d) s = .next (e.sendBound t.tile d.cid) ∧ RanOn p s e ∧
      e.mem = v.foldl (fun m y => wrBytes m (memKey p y.1) y.2) s.mem)

/-- TRANSPOSE puts element (r, c) of its source at (c, r) of the slot it names. STRATA_PUSH puts an entry on the stack, or, in a checkpointed
layer of FILL, only counts itself; STRATA_POP gives back the entry of the command it names and is 0x3102 otherwise; STRATA_LAYER
keeps a checkpointed layer's input and gives it back in DRAIN, and stops its tile there when the step aborts early; the engine
moves entries between window and body, bytes and all (R23, R155, R156, R164 to R168, R172 to R174). -/
def Obligations.TransposeAndStrata : Prop := ∀ (t : Site) (s : State), Runs t s → Canonical s →
  let p := physOf s.repair t.tile
  let x := (tileOf s p).strata
  let b := (s.tileProg t.tile).backward
  (∀ d : TransDesc, transCheck d = none → d.dest.getLsbD 2 = false → ∃ e : State,
    exec (.transpose t d) s = .next (e.sendBound t.tile d.cid) ∧ RanOn p s e ∧
    (tileOf e p).lastSlot = some (d.dest.toNat % 4) ∧
    (∀ r c, r ≤ d.rowsMinus1.toNat → c ≤ d.colsMinus1.toNat →
      tileRead e p ((if d.dest.toNat % 4 = 1 then bufferBase + 0x8000 else bufferBase) + c * (128 * (transSizes d).2) +
        r * (transSizes d).2) (transSizes d).2 =
      leBytes (transSizes d).2 (widenElem s d (tileNum s p (d.srcAddr.toNat + r * d.srcStride.toNat +
        c * (transSizes d).1) (transSizes d).1))) ∧
    ∀ k, k < memKey p bufferBase ∨ memKey p (bufferBase + 0x10000) ≤ k → rdByte e.mem k = rdByte s.mem k) ∧
  (∀ d : TransDesc, transCheck d = none → d.dest.getLsbD 2 = true →
    (∀ c, c ≤ d.colsMinus1.toNat → writeFault s p (d.dstAddr.toNat + c * d.dstStride.toNat)
      ((d.rowsMinus1.toNat + 1) * (transSizes d).2) = none) →
    ∃ e : State, exec (.transpose t d) s = .next (e.sendBound t.tile d.cid) ∧ RanOn p s e ∧
      ∀ r c, r ≤ d.rowsMinus1.toNat → c ≤ d.colsMinus1.toNat →
        tileRead e p (d.dstAddr.toNat + c * d.dstStride.toNat + r * (transSizes d).2) (transSizes d).2 =
        leBytes (transSizes d).2 (widenElem s d (tileNum s p (d.srcAddr.toNat + r * d.srcStride.toNat +
          c * (transSizes d).1) (transSizes d).1))) ∧
  (∀ d : PushDesc, pushCheck d = none → x.skipPushes = true → s.step.phase = .fill → ∃ e : State,
    exec (.strataPush t d) s = .next (e.sendBound t.tile d.cid) ∧ RanOn p s e ∧ e.mem = s.mem ∧
    (tileOf e p).strata = ({ x with skipped := x.skipped + 1 } : Strata).countRecompute) ∧
  (∀ d : PushDesc, pushCheck d = none → x.skipPushes = false ∨ s.step.phase ≠ .fill → d.flags.getLsbD 0 = false →
    let n := d.fixedBytes.toNat + d.unitBytes.toNat * x.tokenUnits
    let new := newEntry x.main d.cid 0 n
    (occupancy x.main + 32 + n ≤ mainBytes b → inTmem d.srcAddr.toNat n = true → ∃ e : State,
      exec (.strataPush t d) s = .next (e.sendBound t.tile d.cid) ∧ RanOn p s e ∧
      (tileOf e p).strata.main = new :: x.main ∧ (tileOf e p).strata.reserve = x.reserve ∧
      (windowBytes x + 32 + n ≤ b.topBytes → (tileOf e p).strata.inWindow = x.inWindow + 1 ∧
        readSpans e p (windowSpans b new.offset (32 + n)) = entryHeader new ++ tileRead s p d.srcAddr.toNat n ∧
        ∀ k, k < memKey p b.topBase ∨ memKey p (b.topBase + b.topBytes) ≤ k → rdByte e.mem k = rdByte s.mem k)) ∧
    (mainBytes b < occupancy x.main + 32 + n → CanDiscard s → ∃ e : State, exec (.strataPush t d) s = .next e ∧ Faulted s e 0x3101)) ∧
  (∀ (d : PopDesc) entry rest, popCheck d = none → x.main = entry :: rest →
    (entry.id = d.expectId → writeFault s p d.dstAddr.toNat entry.bytes = none → ∃ e : State,
      let pay := (readSpans s p (topSpans b x entry)).drop 32
      exec (.strataPop t d) s = .next (e.sendBound t.tile d.cid) ∧ RanOn p s e ∧
      tileRead e p d.dstAddr.toNat pay.length = pay ∧ (tileOf e p).strata.main = rest ∧
      (tileOf e p).strata.inWindow = x.inWindow - 1 ∧
      (0 < x.inWindow → e.mem = wrBytes s.mem (memKey p d.dstAddr.toNat) pay)) ∧
    (entry.id ≠ d.expectId → CanDiscard s → ∃ e : State, exec (.strataPop t d) s = .next e ∧ Faulted s e 0x3102)) ∧
  (∀ d : PopDesc, popCheck d = none → x.main = [] → CanDiscard s →
    ∃ e : State, exec (.strataPop t d) s = .next e ∧ Faulted s e 0x3102) ∧
  (∀ d : LayerDesc, layerCheck false d = none → abortsNow s = false →
    (d.layer.toNat < x.switchLayer → ∃ e : State, exec (.strataLayerFill t d) s = .next (e.sendBound t.tile d.cid) ∧ RanOn p s e ∧
      e.mem = s.mem ∧ (tileOf e p).strata = ({ x with skipPushes := false } : Strata).countRecompute) ∧
    (x.switchLayer ≤ d.layer.toNat → occupancy x.reserve + 32 + ckBytes d x.tokenUnits ≤ reserveBytes b →
      inTmem d.ckAddr.toNat (ckBytes d x.tokenUnits) = true → ∃ e : State,
      let pay := tileRead s p d.ckAddr.toNat (ckBytes d x.tokenUnits)
      let new := newEntry x.reserve d.cid 1 (ckBytes d x.tokenUnits)
      exec (.strataLayerFill t d) s = .next (e.sendBound t.tile d.cid) ∧ RanOn p s e ∧
      e.mem = wrBytes s.mem (memKey p (reserveBase b + new.offset)) (entryHeader new ++ pay) ∧
      (tileOf e p).strata.reserve = new :: x.reserve ∧
      (tileOf e p).strata.skipPushes = true ∧ (tileOf e p).strata.main = x.main)) ∧
  (∀ d : LayerDesc, layerCheck true d = none → abortsNow s = false →
    (d.layer.toNat < x.switchLayer → ∃ e : State, exec (.strataLayerDrain t d) s = .next (e.sendBound t.tile d.cid) ∧ RanOn p s e ∧
      e.mem = s.mem ∧ (tileOf e p).strata = x.countRecompute) ∧
    (∀ entry rest, x.switchLayer ≤ d.layer.toNat → x.reserve = entry :: rest →
      some entry.id = fillLayerId (s.tileProg t.tile) d.layer.toNat →
      writeFault s p d.ckAddr.toNat entry.bytes = none → ∃ e : State,
      exec (.strataLayerDrain t d) s = .next (e.sendBound t.tile d.cid) ∧ (∀ q, q ≠ p → tileOf e q = tileOf s q) ∧
      e.mem = wrBytes s.mem (memKey p d.ckAddr.toNat) ((tileRead s p (reserveBase b + entry.offset) (entryBytes entry)).drop 32) ∧
      (tileOf e p).strata.reserve = rest ∧ (tileOf e p).strata.recomputing = decide (0 < d.recomputeCount.toNat) ∧
      e = { s with
        mem := e.mem
        tiles := e.tiles
        trace := e.trace
        draws := s.draws + 1
        mesh := { s.mesh with done := s.mesh.done.filter (fun y => !(y.1 == t.tile &&
          (recomputeIds (s.tileProg t.tile) d).contains y.2)) } })) ∧
  (∀ (d : LayerDesc) (isDrain : Bool), layerCheck isDrain d = none → abortsNow s = true → ∃ e : State,
    exec (if isDrain then .strataLayerDrain t d else .strataLayerFill t d) s = .next (e.sendBound t.tile d.cid) ∧
    e.step = { s.step with earlyAborted := true } ∧ (tileOf e p).stopped = true ∧ e.mem = s.mem ∧
    ∀ q, q ≠ p → tileOf e q = tileOf s q) ∧
  (∀ en, b.topBytes < 2 * windowBytes x → 0 < x.inWindow → x.main[x.inWindow - 1]? = some en →
    ∃ e : State, exec (.strataWriteback t.tile) s = .next e ∧ (∀ q, q ≠ p → tileOf e q = tileOf s q) ∧
      tileOf e p = { tileOf s p with strata := { x with inWindow := x.inWindow - 1 } } ∧
      tileRead e p (mainBase b + en.offset) (entryBytes en) = readSpans s p (windowSpans b en.offset (entryBytes en)) ∧
      e = { s with
        mem := e.mem
        tiles := e.tiles }) ∧
  (2 * windowBytes x ≤ b.topBytes ∨ x.inWindow = 0 → exec (.strataWriteback t.tile) s = .next s) ∧
  (∀ en, 2 * windowBytes x < b.topBytes → x.main[x.inWindow]? = some en → entryBytes en ≤ b.topBytes →
    ∃ e : State, exec (.strataRefill t.tile) s = .next e ∧ (∀ q, q ≠ p → tileOf e q = tileOf s q) ∧
      tileOf e p = { tileOf s p with strata := { x with inWindow := x.inWindow + 1 } } ∧
      readSpans e p (windowSpans b en.offset (entryBytes en)) = tileRead s p (mainBase b + en.offset) (entryBytes en) ∧
      e = { s with
        mem := e.mem
        tiles := e.tiles }) ∧
  (b.topBytes ≤ 2 * windowBytes x ∨ x.main.length ≤ x.inWindow → exec (.strataRefill t.tile) s = .next s)

/-- PRUNE and REGROW write a pending mask: of the mask bits kept the largest of each block, or those not below the threshold, or the mask bits
pending with the largest positions outside the mask added; MASK_COMMIT writes generation C + 1 of what it masks, and waits
for pages with 0x3201 (R149 to R152, R197). -/
def Obligations.MaskCommands : Prop := ∀ (t : Site) (d : MaskDesc) (s : State) (now : Bytes), Canonical s →
  let p := physOf s.repair t.tile
  let cur := ofLE now
  let rank (k : Nat) : Nat := maskRank (maskFmt d) (maskValue s p d k)
  let value (k : Nat) : Fp := (maskFmt d).decode (maskValue s p d k)
  let limit := fp32.decode d.threshold.toNat
  let kept (op k : Nat) : Bool := match op with
    | 0 => chosen d.count.toNat (maskBlock d) rank cur.testBit k
    | 1 => cur.testBit k && ((value k).isNan || (!limit.isNan && !fpLt (value k).abs limit))
    | _ => (tileNum s p d.pendingBase.toNat 2048).testBit k ||
      chosen d.count.toNat (maskBlock d) rank (fun j => !cur.testBit j) k
  (∀ r ∈ [(0, Instr.pruneTopk t d), (1, .pruneThreshold t d), (2, .regrow t d)], Runs t s → maskCheck r.1 d = none →
    s.shardRead false t.tile d.maskBase.toNat 2048 = some now → readFault s d.valuesBase.toNat (maskValueBytes d) = none →
    writeFault s p d.pendingBase.toNat 2048 = none → ∃ e : State, exec r.2 s = .next (e.sendBound t.tile d.cid) ∧ RanOn p s e ∧
      (∀ k, k < 16384 → (tileNum e p d.pendingBase.toNat 2048).testBit k = kept r.1 k) ∧
      (r.1 = 1 → d.threshold = 0 → ∀ k, k < 16384 → (tileNum e p d.pendingBase.toNat 2048).testBit k = cur.testBit k) ∧
      ∀ a, a < memKey p d.pendingBase.toNat ∨ memKey p d.pendingBase.toNat + 2048 ≤ a → rdByte e.mem a = rdByte s.mem a) ∧
  (Runs t s [.reduce, .commit] →
    let w := maskElem d
    let lps := (lpsOf d.valuesBase.toNat (16384 * w) ++ lpsOf d.m1Base.toNat 16384 ++ lpsOf d.m2Base.toNat 16384 ++
      lpsOf d.maskBase.toNat 2048).dedup
    let pend := tileNum s p d.pendingBase.toNat 2048
    (s.touchWaits t.tile lps = true → ∃ e : State, exec (.maskCommit t d) s = .next e ∧
      tileOf e p = { tileOf s p with touching := true } ∧ (∀ q, q ≠ p → tileOf e q = tileOf s q) ∧ e = { s with
        tiles := e.tiles
        trace := e.trace }) ∧
    (∀ ov o1 o2 om, s.touchWaits t.tile lps = false → maskCheck 3 d = none →
      s.shardRead false t.tile d.maskBase.toNat 2048 = some now →
      s.shardRead true t.tile d.valuesBase.toNat (16384 * w) = some ov →
      s.shardRead true t.tile d.m1Base.toNat 16384 = some o1 → s.shardRead true t.tile d.m2Base.toNat 16384 = some o2 →
      s.shardRead true t.tile d.maskBase.toNat 2048 = some om → readFault s d.pendingBase.toNat 2048 = none →
      let v := (((s.shardWrite t.tile d.valuesBase.toNat (maskZeroed w cur pend ov)).shardWrite t.tile d.m1Base.toNat
        (maskZeroed 1 cur pend o1)).shardWrite t.tile d.m2Base.toNat (maskZeroed 1 cur pend o2)).shardWrite t.tile
          d.maskBase.toNat (leBytes 2048 pend)
      ∃ e : State, exec (.maskCommit t d) s = .next (e.sendBound t.tile d.cid) ∧ e.mem = v.mem ∧ e.pages = { v.pages with
          nextCounts := smPut 0 (2 ^ 32 * t.tile + d.maskBase.toNat) (maskCount pend) v.pages.nextCounts } ∧
        (∀ q, q ≠ p → tileOf e q = tileOf s q) ∧ e = { s with
          mem := e.mem
          pages := e.pages
          tiles := e.tiles
          trace := e.trace
          draws := s.draws + 1 }))

/-- OPT_STEP writes generation C + 1 of its parameters, waits for pages with 0x3201, and is 0x2203 where the page table yields no
page; RECV_ADD waits for its flits, and then adds and takes them (R197, R201 to R203, R210, R211). -/
def Obligations.OptimizerAndReceive : Prop := ∀ (t : Site) (s : State), Canonical s →
  let p := physOf s.repair t.tile
  (∀ d : OptDesc, Runs t s [.reduce, .commit] → optCheck d = none → d.paramIndex.toNat + d.count.toNat ≤ (s.tileProg t.tile).shard.params →
    let lps := optPages (s.tileProg t.tile).shard d
    let passes := (List.range (d.count.toNat / 256)).map (passWrites s p t.tile d)
    let fl := passes.foldl (fun f x => f.or x.2) ({} : Flags)
    (s.touchWaits t.tile lps = true → ∃ e : State, exec (.optStep t d) s = .next e ∧
      tileOf e p = { tileOf s p with touching := true } ∧ (∀ q, q ≠ p → tileOf e q = tileOf s q) ∧ e = { s with
        tiles := e.tiles
        trace := e.trace }) ∧
    (s.touchWaits t.tile lps = false → lps.any (fun lp => (s.pageOf true t.tile lp).isNone) = true → CanDiscard s →
      ∃ e : State, exec (.optStep t d) s = .next e ∧ Faulted s e 0x2203) ∧
    (s.touchWaits t.tile lps = false → lps.any (fun lp => (s.pageOf true t.tile lp).isNone) = false →
      let v := (passes.flatMap (·.1)).foldl (fun s x => s.shardWrite t.tile x.1 x.2) s
      ∃ e : State, exec (.optStep t d) s = .next (e.sendBound t.tile d.cid) ∧ e.mem = v.mem ∧ e.pages = v.pages ∧
        (tileOf e p).vecOvf = ((tileOf s p).vecOvf || fl.ovf) ∧ (tileOf e p).vecNan = ((tileOf s p).vecNan || fl.nan) ∧
        (tileOf e p).vecSat = ((tileOf s p).vecSat || fl.sat) ∧ (∀ q, q ≠ p → tileOf e q = tileOf s q) ∧ e = { s with
          mem := e.mem
          pages := e.pages
          tiles := e.tiles
          trace := e.trace
          draws := s.draws + 1 })) ∧
  (∀ d : RecvDesc, Runs t s → recvCheck d = none →
    let n := 128 * recvFlits s t.tile d
    let out := recvCompute s p d ((tileOf s p).inbox.take n) 0 d.count.toNat
    ((tileOf s p).inbox.length < n → exec (.recvAdd t ⟨d, []⟩) s = .next s) ∧
    (n ≤ (tileOf s p).inbox.length → writeFault s p d.dst.toNat (d.count.toNat * recvBytes d.format.toNat) = none →
      ∃ e : State, exec (.recvAdd t ⟨d, []⟩) s = .next (e.sendBound t.tile d.cid) ∧ RanOn p s e ∧
        e.mem = wrBytes s.mem (memKey p d.dst.toNat) out.1 ∧ out.1.length = d.count.toNat * recvBytes d.format.toNat ∧
        (tileOf e p).inbox = (tileOf s p).inbox.drop n ∧ (tileOf e p).vecSat = ((tileOf s p).vecSat || out.2.sat) ∧
        (tileOf e p).vecOvf = ((tileOf s p).vecOvf || out.2.ovf) ∧
        (tileOf e p).vecNan = ((tileOf s p).vecNan || out.2.nan)))

/-- PALETTE_LOAD copies 8 KiB into the tables of a pair and sets its E_LO; LOSS_REPORT enters the loss of an active slot and nothing for
another; SYNC_SIGNAL sends its operation to a head-end, or with the bytes sent on its stream to a peer; SYNC_WAIT sends its
operation and stops the sequencer (R189 to R191, R273, R282). -/
def Obligations.PaletteLossAndSync : Prop := ∀ (t : Site) (s : State), Canonical s →
  let p := physOf s.repair t.tile
  (∀ d : PaletteDesc, Runs t s → paletteCheck d = none → ∃ e : State, exec (.paletteLoad t d) s = .next (e.sendBound t.tile d.cid) ∧
    RanOn p s e ∧ tileRead e p (paletteTable d.pair.toNat 0) 0x2000 = tileRead s p d.srcAddr.toNat 0x2000 ∧
    eLoOf (tileOf e p) d.pair.toNat = d.eLo.toNat ∧
    (∀ k, k < 8 → k ≠ d.pair.toNat → eLoOf (tileOf e p) k = eLoOf (tileOf s p) k) ∧
    ∀ a, a < memKey p (paletteTable d.pair.toNat 0) ∨ memKey p (paletteTable d.pair.toNat 0) + 0x2000 ≤ a →
      rdByte e.mem a = rdByte s.mem a) ∧
  (∀ d : LossDesc, Runs t s [.fill] → lossCheck d = none →
    let v := tileNum s p d.srcAddr.toNat 4
    (s.step.current.slots.getD d.slot.toNat 0 = 0 → ∃ e : State, exec (.lossReport t d) s = .next (e.sendBound t.tile d.cid) ∧
      RanOn p s e ∧ e.mem = s.mem) ∧
    (s.step.current.slots.getD d.slot.toNat 0 ≠ 0 → ∃ e : State, exec (.lossReport t d) s = .next (e.sendBound t.tile d.cid) ∧
      smGet none e.step.loss d.slot.toNat = some (BitVec.ofNat 32 v) ∧ e.mem = s.mem ∧ e = { s with
        tiles := e.tiles
        trace := e.trace
        draws := s.draws + 1
        step := { s.step with
          loss := e.step.loss
          nfLoss := s.step.nfLoss || !(fp32.decode v).isFin
          nfLocal := s.step.nfLocal || !(fp32.decode v).isFin } })) ∧
  (∀ d : SyncDesc, Runs t s (.vote :: workPhases) → syncCheck true (smGet 0 s.prog.syncTable d.syncId.toNat) d = none →
    (d.destId = 0xFFFF → ∃ e : State, exec (.syncSignal t d) s = .next (e.sendBound t.tile d.cid) ∧ e.mem = s.mem ∧ e = { s with
      tiles := e.tiles
      trace := e.trace
      draws := s.draws + 1
      rillOut := syncMsg (BitVec.ofNat 12 p) d.syncId.toNat d.op.toNat (low32 s.currentStep) d.operand :: s.rillOut }) ∧
    (∀ n, d.destId ≠ 0xFFFF → Steady s → s.boot.positionId ≠ 0xFFFF → linkFor s (colOf t.tile / 2) = some n → ∃ e : State,
      exec (.syncSignal t d) s = .next (e.sendBound t.tile d.cid) ∧ e = { s with
        tiles := e.tiles
        trace := e.trace
        draws := s.draws + 1
        links := e.links
        sync := (s.progress (signalQueue (colOf t.tile / 2))).sync
        zOut := (n, ⟨d.destId, 0x30, d.destPb, signalBody (low32 s.currentStep) d.syncId d.channel.toNat d.op.toNat
          (smGet 0 (pbOf s (colOf t.tile / 2)).sentBytes (streamKey d.destId d.channel.toNat)) d.operand⟩) :: s.zOut })) ∧
  (∀ d : SyncDesc, Runs t s (.vote :: workPhases) → syncCheck false (smGet 0 s.prog.syncTable d.syncId.toNat) d = none → ∃ e : State,
    exec (.syncWait t d) s = .next (e.sendBound t.tile d.cid) ∧ (tileOf e p).waiting = some d.syncId.toNat ∧
    (∀ q, q ≠ p → tileOf e q = tileOf s q) ∧ e = { s with
      tiles := e.tiles
      trace := e.trace
      draws := s.draws + 1
      rillOut := syncMsg (BitVec.ofNat 12 p) d.syncId.toNat d.op.toNat (low32 s.currentStep) d.operand :: s.rillOut })

/-! ### Maps and the loss-scale register -/

/-- Under any repair map every logical tile lies on one physical tile of its own field and column: on row j of the field below the
dead row, on row j + 1 from the dead row on, and on row j when no row below the spare is dead; no two lie on the same, a dead tile
holds none, and the spare of a column with no dead row holds none (R36, R37). A step's verdict moves
LS_EXP by its rule within LS_MIN and LS_MAX, sets GOOD_STEPS, and leaves the fields the host writes (R205, R206). -/
def Obligations.MapsAndScales : Prop :=
  (∀ (r : Repair) (t : Nat), t < 2352 →
    let x := t % 48
    let fy := t / 48 / 7
    let j := t / 48 % 7
    let d := (repairEntry r (6 * (8 * fy + x / 6) + x % 6)).toNat
    physOf r t = 48 * (8 * fy + if d ≤ 6 ∧ d ≤ j then j + 1 else j) + x ∧ physOf r t < 2688 ∧
    fieldOfPhys (physOf r t) = 8 * fy + x / 6 ∧ logicalOf r (physOf r t) = some t) ∧
  (∀ (r : Repair) (p t : Nat), p < 2688 → logicalOf r p = some t → t < 2352 ∧ physOf r t = p) ∧
  (∀ (r : Repair) (p : Nat), p < 2688 →
    let d := (repairEntry r (fieldColOfPhys p)).toNat
    (d = p / 48 % 8 → logicalOf r p = none) ∧ (6 < d → p / 48 % 8 = 7 → logicalOf r p = none)) ∧
  (∀ v : BitVec 64, lsValid v = true → ∀ skip,
    let w := lsUpdate v skip
    lsValid w = true ∧ bitsOf w.toNat 47 8 = bitsOf v.toNat 47 8 ∧
    (skip = true → lsField w 7 0 = max (lsField v 15 8) (lsField v 7 0 - lsField v 31 24) ∧ lsField w 63 48 = 0) ∧
    (skip = false →
      let good := min (lsField v 63 48 + 1) 0xFFFF
      let grows := lsField v 47 32 ≠ 0 ∧ lsField v 47 32 ≤ good
      lsField w 7 0 = (if grows then min (lsField v 23 16) (lsField v 7 0 + 1) else lsField v 7 0) ∧
      lsField w 63 48 = if grows then 0 else good))
end

