-- ==== Sys2Proof/Laws/State.lean ====
section
/-! SUPPORT. Sys2Proof/Laws/State.lean: for each plain update of the state, what every other field reads as afterwards. -/

namespace Sys2Proof.Machine

variable (s : State)

@[simp] theorem State.setTile_pending (p : Nat) (t : Tile) : (s.setTile p t).pending = s.pending := rfl
@[simp] theorem State.setTile_variant (p : Nat) (t : Tile) : (s.setTile p t).variant = s.variant := rfl
@[simp] theorem State.setTile_now (p : Nat) (t : Tile) : (s.setTile p t).now = s.now := rfl
@[simp] theorem State.setTile_draws (p : Nat) (t : Tile) : (s.setTile p t).draws = s.draws := rfl
@[simp] theorem State.setTile_step (p : Nat) (t : Tile) : (s.setTile p t).step = s.step := rfl
@[simp] theorem State.setTile_mem (p : Nat) (t : Tile) : (s.setTile p t).mem = s.mem := rfl
@[simp] theorem State.setTile_sync (p : Nat) (t : Tile) : (s.setTile p t).sync = s.sync := rfl
@[simp] theorem State.setTile_pbs (p : Nat) (t : Tile) : (s.setTile p t).pbs = s.pbs := rfl
@[simp] theorem State.setTile_reduce (p : Nat) (t : Tile) : (s.setTile p t).reduce = s.reduce := rfl
@[simp] theorem State.setTile_links (p : Nat) (t : Tile) : (s.setTile p t).links = s.links := rfl
@[simp] theorem State.setTile_zOut (p : Nat) (t : Tile) : (s.setTile p t).zOut = s.zOut := rfl
@[simp] theorem State.setTile_rillOut (p : Nat) (t : Tile) : (s.setTile p t).rillOut = s.rillOut := rfl
@[simp] theorem State.setTile_mailboxes (p : Nat) (t : Tile) : (s.setTile p t).mailboxes = s.mailboxes := rfl
@[simp] theorem State.setTile_host (p : Nat) (t : Tile) : (s.setTile p t).host = s.host := rfl
@[simp] theorem State.setTile_program (p : Nat) (t : Tile) : (s.setTile p t).program = s.program := rfl
@[simp] theorem State.setTile_power (p : Nat) (t : Tile) : (s.setTile p t).power = s.power := rfl
@[simp] theorem State.setTile_seam (p : Nat) (t : Tile) : (s.setTile p t).seam = s.seam := rfl
@[simp] theorem State.setTile_arbiter (p : Nat) (t : Tile) : (s.setTile p t).arbiter = s.arbiter := rfl
@[simp] theorem State.setTile_repair (p : Nat) (t : Tile) : (s.setTile p t).repair = s.repair := rfl
@[simp] theorem State.setTile_pages (p : Nat) (t : Tile) : (s.setTile p t).pages = s.pages := rfl
@[simp] theorem State.setTile_survival (p : Nat) (t : Tile) : (s.setTile p t).survival = s.survival := rfl
@[simp] theorem State.setTile_trace (p : Nat) (t : Tile) : (s.setTile p t).trace = s.trace := rfl
@[simp] theorem State.setTile_boot (p : Nat) (t : Tile) : (s.setTile p t).boot = s.boot := rfl
@[simp] theorem State.setTile_checks (p : Nat) (t : Tile) : (s.setTile p t).checks = s.checks := rfl
@[simp] theorem State.setTile_mesh (p : Nat) (t : Tile) : (s.setTile p t).mesh = s.mesh := rfl
@[simp] theorem State.setTile_rill (p : Nat) (t : Tile) : (s.setTile p t).rill = s.rill := rfl

@[simp] theorem State.updTile_pending (p : Nat) (f : Tile → Tile) : (s.updTile p f).pending = s.pending := rfl
@[simp] theorem State.updTile_variant (p : Nat) (f : Tile → Tile) : (s.updTile p f).variant = s.variant := rfl
@[simp] theorem State.updTile_now (p : Nat) (f : Tile → Tile) : (s.updTile p f).now = s.now := rfl
@[simp] theorem State.updTile_draws (p : Nat) (f : Tile → Tile) : (s.updTile p f).draws = s.draws := rfl
@[simp] theorem State.updTile_step (p : Nat) (f : Tile → Tile) : (s.updTile p f).step = s.step := rfl
@[simp] theorem State.updTile_mem (p : Nat) (f : Tile → Tile) : (s.updTile p f).mem = s.mem := rfl
@[simp] theorem State.updTile_sync (p : Nat) (f : Tile → Tile) : (s.updTile p f).sync = s.sync := rfl
@[simp] theorem State.updTile_pbs (p : Nat) (f : Tile → Tile) : (s.updTile p f).pbs = s.pbs := rfl
@[simp] theorem State.updTile_reduce (p : Nat) (f : Tile → Tile) : (s.updTile p f).reduce = s.reduce := rfl
@[simp] theorem State.updTile_links (p : Nat) (f : Tile → Tile) : (s.updTile p f).links = s.links := rfl
@[simp] theorem State.updTile_zOut (p : Nat) (f : Tile → Tile) : (s.updTile p f).zOut = s.zOut := rfl
@[simp] theorem State.updTile_rillOut (p : Nat) (f : Tile → Tile) : (s.updTile p f).rillOut = s.rillOut := rfl
@[simp] theorem State.updTile_mailboxes (p : Nat) (f : Tile → Tile) : (s.updTile p f).mailboxes = s.mailboxes := rfl
@[simp] theorem State.updTile_host (p : Nat) (f : Tile → Tile) : (s.updTile p f).host = s.host := rfl
@[simp] theorem State.updTile_program (p : Nat) (f : Tile → Tile) : (s.updTile p f).program = s.program := rfl
@[simp] theorem State.updTile_power (p : Nat) (f : Tile → Tile) : (s.updTile p f).power = s.power := rfl
@[simp] theorem State.updTile_seam (p : Nat) (f : Tile → Tile) : (s.updTile p f).seam = s.seam := rfl
@[simp] theorem State.updTile_arbiter (p : Nat) (f : Tile → Tile) : (s.updTile p f).arbiter = s.arbiter := rfl
@[simp] theorem State.updTile_repair (p : Nat) (f : Tile → Tile) : (s.updTile p f).repair = s.repair := rfl
@[simp] theorem State.updTile_pages (p : Nat) (f : Tile → Tile) : (s.updTile p f).pages = s.pages := rfl
@[simp] theorem State.updTile_survival (p : Nat) (f : Tile → Tile) : (s.updTile p f).survival = s.survival := rfl
@[simp] theorem State.updTile_trace (p : Nat) (f : Tile → Tile) : (s.updTile p f).trace = s.trace := rfl
@[simp] theorem State.updTile_boot (p : Nat) (f : Tile → Tile) : (s.updTile p f).boot = s.boot := rfl
@[simp] theorem State.updTile_checks (p : Nat) (f : Tile → Tile) : (s.updTile p f).checks = s.checks := rfl
@[simp] theorem State.updTile_mesh (p : Nat) (f : Tile → Tile) : (s.updTile p f).mesh = s.mesh := rfl
@[simp] theorem State.updTile_rill (p : Nat) (f : Tile → Tile) : (s.updTile p f).rill = s.rill := rfl

@[simp] theorem State.tileWrite_pending (p a : Nat) (b : Bytes) : (s.tileWrite p a b).pending = s.pending := rfl
@[simp] theorem State.tileWrite_variant (p a : Nat) (b : Bytes) : (s.tileWrite p a b).variant = s.variant := rfl
@[simp] theorem State.tileWrite_now (p a : Nat) (b : Bytes) : (s.tileWrite p a b).now = s.now := rfl
@[simp] theorem State.tileWrite_draws (p a : Nat) (b : Bytes) : (s.tileWrite p a b).draws = s.draws := rfl
@[simp] theorem State.tileWrite_step (p a : Nat) (b : Bytes) : (s.tileWrite p a b).step = s.step := rfl
@[simp] theorem State.tileWrite_tiles (p a : Nat) (b : Bytes) : (s.tileWrite p a b).tiles = s.tiles := rfl
@[simp] theorem State.tileWrite_sync (p a : Nat) (b : Bytes) : (s.tileWrite p a b).sync = s.sync := rfl
@[simp] theorem State.tileWrite_pbs (p a : Nat) (b : Bytes) : (s.tileWrite p a b).pbs = s.pbs := rfl
@[simp] theorem State.tileWrite_reduce (p a : Nat) (b : Bytes) : (s.tileWrite p a b).reduce = s.reduce := rfl
@[simp] theorem State.tileWrite_links (p a : Nat) (b : Bytes) : (s.tileWrite p a b).links = s.links := rfl
@[simp] theorem State.tileWrite_zOut (p a : Nat) (b : Bytes) : (s.tileWrite p a b).zOut = s.zOut := rfl
@[simp] theorem State.tileWrite_rillOut (p a : Nat) (b : Bytes) : (s.tileWrite p a b).rillOut = s.rillOut := rfl
@[simp] theorem State.tileWrite_mailboxes (p a : Nat) (b : Bytes) : (s.tileWrite p a b).mailboxes = s.mailboxes := rfl
@[simp] theorem State.tileWrite_host (p a : Nat) (b : Bytes) : (s.tileWrite p a b).host = s.host := rfl
@[simp] theorem State.tileWrite_program (p a : Nat) (b : Bytes) : (s.tileWrite p a b).program = s.program := rfl
@[simp] theorem State.tileWrite_power (p a : Nat) (b : Bytes) : (s.tileWrite p a b).power = s.power := rfl
@[simp] theorem State.tileWrite_seam (p a : Nat) (b : Bytes) : (s.tileWrite p a b).seam = s.seam := rfl
@[simp] theorem State.tileWrite_arbiter (p a : Nat) (b : Bytes) : (s.tileWrite p a b).arbiter = s.arbiter := rfl
@[simp] theorem State.tileWrite_repair (p a : Nat) (b : Bytes) : (s.tileWrite p a b).repair = s.repair := rfl
@[simp] theorem State.tileWrite_pages (p a : Nat) (b : Bytes) : (s.tileWrite p a b).pages = s.pages := rfl
@[simp] theorem State.tileWrite_survival (p a : Nat) (b : Bytes) : (s.tileWrite p a b).survival = s.survival := rfl
@[simp] theorem State.tileWrite_trace (p a : Nat) (b : Bytes) : (s.tileWrite p a b).trace = s.trace := rfl
@[simp] theorem State.tileWrite_boot (p a : Nat) (b : Bytes) : (s.tileWrite p a b).boot = s.boot := rfl
@[simp] theorem State.tileWrite_mesh (p a : Nat) (b : Bytes) : (s.tileWrite p a b).mesh = s.mesh := rfl
@[simp] theorem State.tileWrite_rill (p a : Nat) (b : Bytes) : (s.tileWrite p a b).rill = s.rill := rfl

@[simp] theorem State.tileClear_pending (p a n : Nat) : (s.tileClear p a n).pending = s.pending := rfl
@[simp] theorem State.tileClear_variant (p a n : Nat) : (s.tileClear p a n).variant = s.variant := rfl
@[simp] theorem State.tileClear_now (p a n : Nat) : (s.tileClear p a n).now = s.now := rfl
@[simp] theorem State.tileClear_draws (p a n : Nat) : (s.tileClear p a n).draws = s.draws := rfl
@[simp] theorem State.tileClear_step (p a n : Nat) : (s.tileClear p a n).step = s.step := rfl
@[simp] theorem State.tileClear_tiles (p a n : Nat) : (s.tileClear p a n).tiles = s.tiles := rfl
@[simp] theorem State.tileClear_sync (p a n : Nat) : (s.tileClear p a n).sync = s.sync := rfl
@[simp] theorem State.tileClear_pbs (p a n : Nat) : (s.tileClear p a n).pbs = s.pbs := rfl
@[simp] theorem State.tileClear_reduce (p a n : Nat) : (s.tileClear p a n).reduce = s.reduce := rfl
@[simp] theorem State.tileClear_links (p a n : Nat) : (s.tileClear p a n).links = s.links := rfl
@[simp] theorem State.tileClear_zOut (p a n : Nat) : (s.tileClear p a n).zOut = s.zOut := rfl
@[simp] theorem State.tileClear_rillOut (p a n : Nat) : (s.tileClear p a n).rillOut = s.rillOut := rfl
@[simp] theorem State.tileClear_mailboxes (p a n : Nat) : (s.tileClear p a n).mailboxes = s.mailboxes := rfl
@[simp] theorem State.tileClear_host (p a n : Nat) : (s.tileClear p a n).host = s.host := rfl
@[simp] theorem State.tileClear_program (p a n : Nat) : (s.tileClear p a n).program = s.program := rfl
@[simp] theorem State.tileClear_power (p a n : Nat) : (s.tileClear p a n).power = s.power := rfl
@[simp] theorem State.tileClear_seam (p a n : Nat) : (s.tileClear p a n).seam = s.seam := rfl
@[simp] theorem State.tileClear_arbiter (p a n : Nat) : (s.tileClear p a n).arbiter = s.arbiter := rfl
@[simp] theorem State.tileClear_repair (p a n : Nat) : (s.tileClear p a n).repair = s.repair := rfl
@[simp] theorem State.tileClear_pages (p a n : Nat) : (s.tileClear p a n).pages = s.pages := rfl
@[simp] theorem State.tileClear_survival (p a n : Nat) : (s.tileClear p a n).survival = s.survival := rfl
@[simp] theorem State.tileClear_trace (p a n : Nat) : (s.tileClear p a n).trace = s.trace := rfl
@[simp] theorem State.tileClear_boot (p a n : Nat) : (s.tileClear p a n).boot = s.boot := rfl
@[simp] theorem State.tileClear_mesh (p a n : Nat) : (s.tileClear p a n).mesh = s.mesh := rfl
@[simp] theorem State.tileClear_rill (p a n : Nat) : (s.tileClear p a n).rill = s.rill := rfl

@[simp] theorem State.copyTile_pending (a b c n : Nat) : (s.copyTile a b c n).pending = s.pending := rfl
@[simp] theorem State.copyTile_variant (a b c n : Nat) : (s.copyTile a b c n).variant = s.variant := rfl
@[simp] theorem State.copyTile_now (a b c n : Nat) : (s.copyTile a b c n).now = s.now := rfl
@[simp] theorem State.copyTile_draws (a b c n : Nat) : (s.copyTile a b c n).draws = s.draws := rfl
@[simp] theorem State.copyTile_step (a b c n : Nat) : (s.copyTile a b c n).step = s.step := rfl
@[simp] theorem State.copyTile_tiles (a b c n : Nat) : (s.copyTile a b c n).tiles = s.tiles := rfl
@[simp] theorem State.copyTile_sync (a b c n : Nat) : (s.copyTile a b c n).sync = s.sync := rfl
@[simp] theorem State.copyTile_pbs (a b c n : Nat) : (s.copyTile a b c n).pbs = s.pbs := rfl
@[simp] theorem State.copyTile_reduce (a b c n : Nat) : (s.copyTile a b c n).reduce = s.reduce := rfl
@[simp] theorem State.copyTile_links (a b c n : Nat) : (s.copyTile a b c n).links = s.links := rfl
@[simp] theorem State.copyTile_zOut (a b c n : Nat) : (s.copyTile a b c n).zOut = s.zOut := rfl
@[simp] theorem State.copyTile_rillOut (a b c n : Nat) : (s.copyTile a b c n).rillOut = s.rillOut := rfl
@[simp] theorem State.copyTile_mailboxes (a b c n : Nat) : (s.copyTile a b c n).mailboxes = s.mailboxes := rfl
@[simp] theorem State.copyTile_host (a b c n : Nat) : (s.copyTile a b c n).host = s.host := rfl
@[simp] theorem State.copyTile_program (a b c n : Nat) : (s.copyTile a b c n).program = s.program := rfl
@[simp] theorem State.copyTile_power (a b c n : Nat) : (s.copyTile a b c n).power = s.power := rfl
@[simp] theorem State.copyTile_seam (a b c n : Nat) : (s.copyTile a b c n).seam = s.seam := rfl
@[simp] theorem State.copyTile_arbiter (a b c n : Nat) : (s.copyTile a b c n).arbiter = s.arbiter := rfl
@[simp] theorem State.copyTile_repair (a b c n : Nat) : (s.copyTile a b c n).repair = s.repair := rfl
@[simp] theorem State.copyTile_pages (a b c n : Nat) : (s.copyTile a b c n).pages = s.pages := rfl
@[simp] theorem State.copyTile_survival (a b c n : Nat) : (s.copyTile a b c n).survival = s.survival := rfl
@[simp] theorem State.copyTile_trace (a b c n : Nat) : (s.copyTile a b c n).trace = s.trace := rfl
@[simp] theorem State.copyTile_boot (a b c n : Nat) : (s.copyTile a b c n).boot = s.boot := rfl
@[simp] theorem State.copyTile_mesh (a b c n : Nat) : (s.copyTile a b c n).mesh = s.mesh := rfl
@[simp] theorem State.copyTile_rill (a b c n : Nat) : (s.copyTile a b c n).rill = s.rill := rfl

@[simp] theorem State.setPb_pending (n : Nat) (p : PbState) : (s.setPb n p).pending = s.pending := rfl
@[simp] theorem State.setPb_variant (n : Nat) (p : PbState) : (s.setPb n p).variant = s.variant := rfl
@[simp] theorem State.setPb_now (n : Nat) (p : PbState) : (s.setPb n p).now = s.now := rfl
@[simp] theorem State.setPb_draws (n : Nat) (p : PbState) : (s.setPb n p).draws = s.draws := rfl
@[simp] theorem State.setPb_step (n : Nat) (p : PbState) : (s.setPb n p).step = s.step := rfl
@[simp] theorem State.setPb_mem (n : Nat) (p : PbState) : (s.setPb n p).mem = s.mem := rfl
@[simp] theorem State.setPb_tiles (n : Nat) (p : PbState) : (s.setPb n p).tiles = s.tiles := rfl
@[simp] theorem State.setPb_sync (n : Nat) (p : PbState) : (s.setPb n p).sync = s.sync := rfl
@[simp] theorem State.setPb_reduce (n : Nat) (p : PbState) : (s.setPb n p).reduce = s.reduce := rfl
@[simp] theorem State.setPb_links (n : Nat) (p : PbState) : (s.setPb n p).links = s.links := rfl
@[simp] theorem State.setPb_zOut (n : Nat) (p : PbState) : (s.setPb n p).zOut = s.zOut := rfl
@[simp] theorem State.setPb_rillOut (n : Nat) (p : PbState) : (s.setPb n p).rillOut = s.rillOut := rfl
@[simp] theorem State.setPb_mailboxes (n : Nat) (p : PbState) : (s.setPb n p).mailboxes = s.mailboxes := rfl
@[simp] theorem State.setPb_host (n : Nat) (p : PbState) : (s.setPb n p).host = s.host := rfl
@[simp] theorem State.setPb_program (n : Nat) (p : PbState) : (s.setPb n p).program = s.program := rfl
@[simp] theorem State.setPb_power (n : Nat) (p : PbState) : (s.setPb n p).power = s.power := rfl
@[simp] theorem State.setPb_seam (n : Nat) (p : PbState) : (s.setPb n p).seam = s.seam := rfl
@[simp] theorem State.setPb_arbiter (n : Nat) (p : PbState) : (s.setPb n p).arbiter = s.arbiter := rfl
@[simp] theorem State.setPb_repair (n : Nat) (p : PbState) : (s.setPb n p).repair = s.repair := rfl
@[simp] theorem State.setPb_pages (n : Nat) (p : PbState) : (s.setPb n p).pages = s.pages := rfl
@[simp] theorem State.setPb_survival (n : Nat) (p : PbState) : (s.setPb n p).survival = s.survival := rfl
@[simp] theorem State.setPb_trace (n : Nat) (p : PbState) : (s.setPb n p).trace = s.trace := rfl
@[simp] theorem State.setPb_boot (n : Nat) (p : PbState) : (s.setPb n p).boot = s.boot := rfl
@[simp] theorem State.setPb_checks (n : Nat) (p : PbState) : (s.setPb n p).checks = s.checks := rfl
@[simp] theorem State.setPb_mesh (n : Nat) (p : PbState) : (s.setPb n p).mesh = s.mesh := rfl
@[simp] theorem State.setPb_rill (n : Nat) (p : PbState) : (s.setPb n p).rill = s.rill := rfl

@[simp] theorem State.updPb_pending (n : Nat) (f : PbState → PbState) : (s.updPb n f).pending = s.pending := rfl
@[simp] theorem State.updPb_variant (n : Nat) (f : PbState → PbState) : (s.updPb n f).variant = s.variant := rfl
@[simp] theorem State.updPb_now (n : Nat) (f : PbState → PbState) : (s.updPb n f).now = s.now := rfl
@[simp] theorem State.updPb_draws (n : Nat) (f : PbState → PbState) : (s.updPb n f).draws = s.draws := rfl
@[simp] theorem State.updPb_step (n : Nat) (f : PbState → PbState) : (s.updPb n f).step = s.step := rfl
@[simp] theorem State.updPb_mem (n : Nat) (f : PbState → PbState) : (s.updPb n f).mem = s.mem := rfl
@[simp] theorem State.updPb_tiles (n : Nat) (f : PbState → PbState) : (s.updPb n f).tiles = s.tiles := rfl
@[simp] theorem State.updPb_sync (n : Nat) (f : PbState → PbState) : (s.updPb n f).sync = s.sync := rfl
@[simp] theorem State.updPb_reduce (n : Nat) (f : PbState → PbState) : (s.updPb n f).reduce = s.reduce := rfl
@[simp] theorem State.updPb_links (n : Nat) (f : PbState → PbState) : (s.updPb n f).links = s.links := rfl
@[simp] theorem State.updPb_zOut (n : Nat) (f : PbState → PbState) : (s.updPb n f).zOut = s.zOut := rfl
@[simp] theorem State.updPb_rillOut (n : Nat) (f : PbState → PbState) : (s.updPb n f).rillOut = s.rillOut := rfl
@[simp] theorem State.updPb_mailboxes (n : Nat) (f : PbState → PbState) : (s.updPb n f).mailboxes = s.mailboxes := rfl
@[simp] theorem State.updPb_host (n : Nat) (f : PbState → PbState) : (s.updPb n f).host = s.host := rfl
@[simp] theorem State.updPb_program (n : Nat) (f : PbState → PbState) : (s.updPb n f).program = s.program := rfl
@[simp] theorem State.updPb_power (n : Nat) (f : PbState → PbState) : (s.updPb n f).power = s.power := rfl
@[simp] theorem State.updPb_seam (n : Nat) (f : PbState → PbState) : (s.updPb n f).seam = s.seam := rfl
@[simp] theorem State.updPb_arbiter (n : Nat) (f : PbState → PbState) : (s.updPb n f).arbiter = s.arbiter := rfl
@[simp] theorem State.updPb_repair (n : Nat) (f : PbState → PbState) : (s.updPb n f).repair = s.repair := rfl
@[simp] theorem State.updPb_pages (n : Nat) (f : PbState → PbState) : (s.updPb n f).pages = s.pages := rfl
@[simp] theorem State.updPb_survival (n : Nat) (f : PbState → PbState) : (s.updPb n f).survival = s.survival := rfl
@[simp] theorem State.updPb_trace (n : Nat) (f : PbState → PbState) : (s.updPb n f).trace = s.trace := rfl
@[simp] theorem State.updPb_boot (n : Nat) (f : PbState → PbState) : (s.updPb n f).boot = s.boot := rfl
@[simp] theorem State.updPb_checks (n : Nat) (f : PbState → PbState) : (s.updPb n f).checks = s.checks := rfl
@[simp] theorem State.updPb_mesh (n : Nat) (f : PbState → PbState) : (s.updPb n f).mesh = s.mesh := rfl
@[simp] theorem State.updPb_rill (n : Nat) (f : PbState → PbState) : (s.updPb n f).rill = s.rill := rfl

@[simp] theorem State.setLink_pending (n : Nat) (l : Link) : (s.setLink n l).pending = s.pending := rfl
@[simp] theorem State.setLink_variant (n : Nat) (l : Link) : (s.setLink n l).variant = s.variant := rfl
@[simp] theorem State.setLink_now (n : Nat) (l : Link) : (s.setLink n l).now = s.now := rfl
@[simp] theorem State.setLink_draws (n : Nat) (l : Link) : (s.setLink n l).draws = s.draws := rfl
@[simp] theorem State.setLink_step (n : Nat) (l : Link) : (s.setLink n l).step = s.step := rfl
@[simp] theorem State.setLink_mem (n : Nat) (l : Link) : (s.setLink n l).mem = s.mem := rfl
@[simp] theorem State.setLink_tiles (n : Nat) (l : Link) : (s.setLink n l).tiles = s.tiles := rfl
@[simp] theorem State.setLink_sync (n : Nat) (l : Link) : (s.setLink n l).sync = s.sync := rfl
@[simp] theorem State.setLink_pbs (n : Nat) (l : Link) : (s.setLink n l).pbs = s.pbs := rfl
@[simp] theorem State.setLink_reduce (n : Nat) (l : Link) : (s.setLink n l).reduce = s.reduce := rfl
@[simp] theorem State.setLink_zOut (n : Nat) (l : Link) : (s.setLink n l).zOut = s.zOut := rfl
@[simp] theorem State.setLink_rillOut (n : Nat) (l : Link) : (s.setLink n l).rillOut = s.rillOut := rfl
@[simp] theorem State.setLink_mailboxes (n : Nat) (l : Link) : (s.setLink n l).mailboxes = s.mailboxes := rfl
@[simp] theorem State.setLink_host (n : Nat) (l : Link) : (s.setLink n l).host = s.host := rfl
@[simp] theorem State.setLink_program (n : Nat) (l : Link) : (s.setLink n l).program = s.program := rfl
@[simp] theorem State.setLink_power (n : Nat) (l : Link) : (s.setLink n l).power = s.power := rfl
@[simp] theorem State.setLink_seam (n : Nat) (l : Link) : (s.setLink n l).seam = s.seam := rfl
@[simp] theorem State.setLink_arbiter (n : Nat) (l : Link) : (s.setLink n l).arbiter = s.arbiter := rfl
@[simp] theorem State.setLink_repair (n : Nat) (l : Link) : (s.setLink n l).repair = s.repair := rfl
@[simp] theorem State.setLink_pages (n : Nat) (l : Link) : (s.setLink n l).pages = s.pages := rfl
@[simp] theorem State.setLink_survival (n : Nat) (l : Link) : (s.setLink n l).survival = s.survival := rfl
@[simp] theorem State.setLink_trace (n : Nat) (l : Link) : (s.setLink n l).trace = s.trace := rfl
@[simp] theorem State.setLink_boot (n : Nat) (l : Link) : (s.setLink n l).boot = s.boot := rfl
@[simp] theorem State.setLink_checks (n : Nat) (l : Link) : (s.setLink n l).checks = s.checks := rfl
@[simp] theorem State.setLink_mesh (n : Nat) (l : Link) : (s.setLink n l).mesh = s.mesh := rfl
@[simp] theorem State.setLink_rill (n : Nat) (l : Link) : (s.setLink n l).rill = s.rill := rfl

@[simp] theorem State.updLink_pending (n : Nat) (f : Link → Link) : (s.updLink n f).pending = s.pending := rfl
@[simp] theorem State.updLink_variant (n : Nat) (f : Link → Link) : (s.updLink n f).variant = s.variant := rfl
@[simp] theorem State.updLink_now (n : Nat) (f : Link → Link) : (s.updLink n f).now = s.now := rfl
@[simp] theorem State.updLink_draws (n : Nat) (f : Link → Link) : (s.updLink n f).draws = s.draws := rfl
@[simp] theorem State.updLink_step (n : Nat) (f : Link → Link) : (s.updLink n f).step = s.step := rfl
@[simp] theorem State.updLink_mem (n : Nat) (f : Link → Link) : (s.updLink n f).mem = s.mem := rfl
@[simp] theorem State.updLink_tiles (n : Nat) (f : Link → Link) : (s.updLink n f).tiles = s.tiles := rfl
@[simp] theorem State.updLink_sync (n : Nat) (f : Link → Link) : (s.updLink n f).sync = s.sync := rfl
@[simp] theorem State.updLink_pbs (n : Nat) (f : Link → Link) : (s.updLink n f).pbs = s.pbs := rfl
@[simp] theorem State.updLink_reduce (n : Nat) (f : Link → Link) : (s.updLink n f).reduce = s.reduce := rfl
@[simp] theorem State.updLink_zOut (n : Nat) (f : Link → Link) : (s.updLink n f).zOut = s.zOut := rfl
@[simp] theorem State.updLink_rillOut (n : Nat) (f : Link → Link) : (s.updLink n f).rillOut = s.rillOut := rfl
@[simp] theorem State.updLink_mailboxes (n : Nat) (f : Link → Link) : (s.updLink n f).mailboxes = s.mailboxes := rfl
@[simp] theorem State.updLink_host (n : Nat) (f : Link → Link) : (s.updLink n f).host = s.host := rfl
@[simp] theorem State.updLink_program (n : Nat) (f : Link → Link) : (s.updLink n f).program = s.program := rfl
@[simp] theorem State.updLink_power (n : Nat) (f : Link → Link) : (s.updLink n f).power = s.power := rfl
@[simp] theorem State.updLink_seam (n : Nat) (f : Link → Link) : (s.updLink n f).seam = s.seam := rfl
@[simp] theorem State.updLink_arbiter (n : Nat) (f : Link → Link) : (s.updLink n f).arbiter = s.arbiter := rfl
@[simp] theorem State.updLink_repair (n : Nat) (f : Link → Link) : (s.updLink n f).repair = s.repair := rfl
@[simp] theorem State.updLink_pages (n : Nat) (f : Link → Link) : (s.updLink n f).pages = s.pages := rfl
@[simp] theorem State.updLink_survival (n : Nat) (f : Link → Link) : (s.updLink n f).survival = s.survival := rfl
@[simp] theorem State.updLink_trace (n : Nat) (f : Link → Link) : (s.updLink n f).trace = s.trace := rfl
@[simp] theorem State.updLink_boot (n : Nat) (f : Link → Link) : (s.updLink n f).boot = s.boot := rfl
@[simp] theorem State.updLink_checks (n : Nat) (f : Link → Link) : (s.updLink n f).checks = s.checks := rfl
@[simp] theorem State.updLink_mesh (n : Nat) (f : Link → Link) : (s.updLink n f).mesh = s.mesh := rfl
@[simp] theorem State.updLink_rill (n : Nat) (f : Link → Link) : (s.updLink n f).rill = s.rill := rfl

@[simp] theorem State.setObj_pending (i : Nat) (o : SyncObj) : (s.setObj i o).pending = s.pending := rfl
@[simp] theorem State.setObj_variant (i : Nat) (o : SyncObj) : (s.setObj i o).variant = s.variant := rfl
@[simp] theorem State.setObj_now (i : Nat) (o : SyncObj) : (s.setObj i o).now = s.now := rfl
@[simp] theorem State.setObj_draws (i : Nat) (o : SyncObj) : (s.setObj i o).draws = s.draws := rfl
@[simp] theorem State.setObj_step (i : Nat) (o : SyncObj) : (s.setObj i o).step = s.step := rfl
@[simp] theorem State.setObj_mem (i : Nat) (o : SyncObj) : (s.setObj i o).mem = s.mem := rfl
@[simp] theorem State.setObj_tiles (i : Nat) (o : SyncObj) : (s.setObj i o).tiles = s.tiles := rfl
@[simp] theorem State.setObj_pbs (i : Nat) (o : SyncObj) : (s.setObj i o).pbs = s.pbs := rfl
@[simp] theorem State.setObj_reduce (i : Nat) (o : SyncObj) : (s.setObj i o).reduce = s.reduce := rfl
@[simp] theorem State.setObj_links (i : Nat) (o : SyncObj) : (s.setObj i o).links = s.links := rfl
@[simp] theorem State.setObj_zOut (i : Nat) (o : SyncObj) : (s.setObj i o).zOut = s.zOut := rfl
@[simp] theorem State.setObj_rillOut (i : Nat) (o : SyncObj) : (s.setObj i o).rillOut = s.rillOut := rfl
@[simp] theorem State.setObj_mailboxes (i : Nat) (o : SyncObj) : (s.setObj i o).mailboxes = s.mailboxes := rfl
@[simp] theorem State.setObj_host (i : Nat) (o : SyncObj) : (s.setObj i o).host = s.host := rfl
@[simp] theorem State.setObj_program (i : Nat) (o : SyncObj) : (s.setObj i o).program = s.program := rfl
@[simp] theorem State.setObj_power (i : Nat) (o : SyncObj) : (s.setObj i o).power = s.power := rfl
@[simp] theorem State.setObj_seam (i : Nat) (o : SyncObj) : (s.setObj i o).seam = s.seam := rfl
@[simp] theorem State.setObj_arbiter (i : Nat) (o : SyncObj) : (s.setObj i o).arbiter = s.arbiter := rfl
@[simp] theorem State.setObj_repair (i : Nat) (o : SyncObj) : (s.setObj i o).repair = s.repair := rfl
@[simp] theorem State.setObj_pages (i : Nat) (o : SyncObj) : (s.setObj i o).pages = s.pages := rfl
@[simp] theorem State.setObj_survival (i : Nat) (o : SyncObj) : (s.setObj i o).survival = s.survival := rfl
@[simp] theorem State.setObj_trace (i : Nat) (o : SyncObj) : (s.setObj i o).trace = s.trace := rfl
@[simp] theorem State.setObj_boot (i : Nat) (o : SyncObj) : (s.setObj i o).boot = s.boot := rfl
@[simp] theorem State.setObj_checks (i : Nat) (o : SyncObj) : (s.setObj i o).checks = s.checks := rfl
@[simp] theorem State.setObj_mesh (i : Nat) (o : SyncObj) : (s.setObj i o).mesh = s.mesh := rfl
@[simp] theorem State.setObj_rill (i : Nat) (o : SyncObj) : (s.setObj i o).rill = s.rill := rfl

@[simp] theorem State.sendHost_pending (m : HostMsg) : (s.sendHost m).pending = s.pending := rfl
@[simp] theorem State.sendHost_variant (m : HostMsg) : (s.sendHost m).variant = s.variant := rfl
@[simp] theorem State.sendHost_now (m : HostMsg) : (s.sendHost m).now = s.now := rfl
@[simp] theorem State.sendHost_draws (m : HostMsg) : (s.sendHost m).draws = s.draws := rfl
@[simp] theorem State.sendHost_step (m : HostMsg) : (s.sendHost m).step = s.step := rfl
@[simp] theorem State.sendHost_mem (m : HostMsg) : (s.sendHost m).mem = s.mem := rfl
@[simp] theorem State.sendHost_tiles (m : HostMsg) : (s.sendHost m).tiles = s.tiles := rfl
@[simp] theorem State.sendHost_sync (m : HostMsg) : (s.sendHost m).sync = s.sync := rfl
@[simp] theorem State.sendHost_pbs (m : HostMsg) : (s.sendHost m).pbs = s.pbs := rfl
@[simp] theorem State.sendHost_reduce (m : HostMsg) : (s.sendHost m).reduce = s.reduce := rfl
@[simp] theorem State.sendHost_links (m : HostMsg) : (s.sendHost m).links = s.links := rfl
@[simp] theorem State.sendHost_zOut (m : HostMsg) : (s.sendHost m).zOut = s.zOut := rfl
@[simp] theorem State.sendHost_rillOut (m : HostMsg) : (s.sendHost m).rillOut = s.rillOut := rfl
@[simp] theorem State.sendHost_mailboxes (m : HostMsg) : (s.sendHost m).mailboxes = s.mailboxes := rfl
@[simp] theorem State.sendHost_program (m : HostMsg) : (s.sendHost m).program = s.program := rfl
@[simp] theorem State.sendHost_power (m : HostMsg) : (s.sendHost m).power = s.power := rfl
@[simp] theorem State.sendHost_seam (m : HostMsg) : (s.sendHost m).seam = s.seam := rfl
@[simp] theorem State.sendHost_arbiter (m : HostMsg) : (s.sendHost m).arbiter = s.arbiter := rfl
@[simp] theorem State.sendHost_repair (m : HostMsg) : (s.sendHost m).repair = s.repair := rfl
@[simp] theorem State.sendHost_pages (m : HostMsg) : (s.sendHost m).pages = s.pages := rfl
@[simp] theorem State.sendHost_survival (m : HostMsg) : (s.sendHost m).survival = s.survival := rfl
@[simp] theorem State.sendHost_trace (m : HostMsg) : (s.sendHost m).trace = s.trace := rfl
@[simp] theorem State.sendHost_boot (m : HostMsg) : (s.sendHost m).boot = s.boot := rfl
@[simp] theorem State.sendHost_checks (m : HostMsg) : (s.sendHost m).checks = s.checks := rfl
@[simp] theorem State.sendHost_mesh (m : HostMsg) : (s.sendHost m).mesh = s.mesh := rfl
@[simp] theorem State.sendHost_rill (m : HostMsg) : (s.sendHost m).rill = s.rill := rfl

@[simp] theorem State.sendRill_pending (m : RillMsg) : (s.sendRill m).pending = s.pending := rfl
@[simp] theorem State.sendRill_variant (m : RillMsg) : (s.sendRill m).variant = s.variant := rfl
@[simp] theorem State.sendRill_now (m : RillMsg) : (s.sendRill m).now = s.now := rfl
@[simp] theorem State.sendRill_draws (m : RillMsg) : (s.sendRill m).draws = s.draws := rfl
@[simp] theorem State.sendRill_step (m : RillMsg) : (s.sendRill m).step = s.step := rfl
@[simp] theorem State.sendRill_mem (m : RillMsg) : (s.sendRill m).mem = s.mem := rfl
@[simp] theorem State.sendRill_tiles (m : RillMsg) : (s.sendRill m).tiles = s.tiles := rfl
@[simp] theorem State.sendRill_sync (m : RillMsg) : (s.sendRill m).sync = s.sync := rfl
@[simp] theorem State.sendRill_pbs (m : RillMsg) : (s.sendRill m).pbs = s.pbs := rfl
@[simp] theorem State.sendRill_reduce (m : RillMsg) : (s.sendRill m).reduce = s.reduce := rfl
@[simp] theorem State.sendRill_links (m : RillMsg) : (s.sendRill m).links = s.links := rfl
@[simp] theorem State.sendRill_zOut (m : RillMsg) : (s.sendRill m).zOut = s.zOut := rfl
@[simp] theorem State.sendRill_mailboxes (m : RillMsg) : (s.sendRill m).mailboxes = s.mailboxes := rfl
@[simp] theorem State.sendRill_host (m : RillMsg) : (s.sendRill m).host = s.host := rfl
@[simp] theorem State.sendRill_program (m : RillMsg) : (s.sendRill m).program = s.program := rfl
@[simp] theorem State.sendRill_power (m : RillMsg) : (s.sendRill m).power = s.power := rfl
@[simp] theorem State.sendRill_seam (m : RillMsg) : (s.sendRill m).seam = s.seam := rfl
@[simp] theorem State.sendRill_arbiter (m : RillMsg) : (s.sendRill m).arbiter = s.arbiter := rfl
@[simp] theorem State.sendRill_repair (m : RillMsg) : (s.sendRill m).repair = s.repair := rfl
@[simp] theorem State.sendRill_pages (m : RillMsg) : (s.sendRill m).pages = s.pages := rfl
@[simp] theorem State.sendRill_survival (m : RillMsg) : (s.sendRill m).survival = s.survival := rfl
@[simp] theorem State.sendRill_trace (m : RillMsg) : (s.sendRill m).trace = s.trace := rfl
@[simp] theorem State.sendRill_boot (m : RillMsg) : (s.sendRill m).boot = s.boot := rfl
@[simp] theorem State.sendRill_checks (m : RillMsg) : (s.sendRill m).checks = s.checks := rfl
@[simp] theorem State.sendRill_mesh (m : RillMsg) : (s.sendRill m).mesh = s.mesh := rfl
@[simp] theorem State.sendRill_rill (m : RillMsg) : (s.sendRill m).rill = s.rill := rfl

@[simp] theorem State.updSession_pending (id : Nat) (f : Session → Session) : (s.updSession id f).pending = s.pending := rfl
@[simp] theorem State.updSession_variant (id : Nat) (f : Session → Session) : (s.updSession id f).variant = s.variant := rfl
@[simp] theorem State.updSession_now (id : Nat) (f : Session → Session) : (s.updSession id f).now = s.now := rfl
@[simp] theorem State.updSession_draws (id : Nat) (f : Session → Session) : (s.updSession id f).draws = s.draws := rfl
@[simp] theorem State.updSession_step (id : Nat) (f : Session → Session) : (s.updSession id f).step = s.step := rfl
@[simp] theorem State.updSession_mem (id : Nat) (f : Session → Session) : (s.updSession id f).mem = s.mem := rfl
@[simp] theorem State.updSession_tiles (id : Nat) (f : Session → Session) : (s.updSession id f).tiles = s.tiles := rfl
@[simp] theorem State.updSession_sync (id : Nat) (f : Session → Session) : (s.updSession id f).sync = s.sync := rfl
@[simp] theorem State.updSession_pbs (id : Nat) (f : Session → Session) : (s.updSession id f).pbs = s.pbs := rfl
@[simp] theorem State.updSession_reduce (id : Nat) (f : Session → Session) : (s.updSession id f).reduce = s.reduce := rfl
@[simp] theorem State.updSession_links (id : Nat) (f : Session → Session) : (s.updSession id f).links = s.links := rfl
@[simp] theorem State.updSession_zOut (id : Nat) (f : Session → Session) : (s.updSession id f).zOut = s.zOut := rfl
@[simp] theorem State.updSession_rillOut (id : Nat) (f : Session → Session) : (s.updSession id f).rillOut = s.rillOut := rfl
@[simp] theorem State.updSession_mailboxes (id : Nat) (f : Session → Session) : (s.updSession id f).mailboxes = s.mailboxes := rfl
@[simp] theorem State.updSession_program (id : Nat) (f : Session → Session) : (s.updSession id f).program = s.program := rfl
@[simp] theorem State.updSession_power (id : Nat) (f : Session → Session) : (s.updSession id f).power = s.power := rfl
@[simp] theorem State.updSession_seam (id : Nat) (f : Session → Session) : (s.updSession id f).seam = s.seam := rfl
@[simp] theorem State.updSession_arbiter (id : Nat) (f : Session → Session) : (s.updSession id f).arbiter = s.arbiter := rfl
@[simp] theorem State.updSession_repair (id : Nat) (f : Session → Session) : (s.updSession id f).repair = s.repair := rfl
@[simp] theorem State.updSession_pages (id : Nat) (f : Session → Session) : (s.updSession id f).pages = s.pages := rfl
@[simp] theorem State.updSession_survival (id : Nat) (f : Session → Session) : (s.updSession id f).survival = s.survival := rfl
@[simp] theorem State.updSession_trace (id : Nat) (f : Session → Session) : (s.updSession id f).trace = s.trace := rfl
@[simp] theorem State.updSession_boot (id : Nat) (f : Session → Session) : (s.updSession id f).boot = s.boot := rfl
@[simp] theorem State.updSession_checks (id : Nat) (f : Session → Session) : (s.updSession id f).checks = s.checks := rfl
@[simp] theorem State.updSession_mesh (id : Nat) (f : Session → Session) : (s.updSession id f).mesh = s.mesh := rfl
@[simp] theorem State.updSession_rill (id : Nat) (f : Session → Session) : (s.updSession id f).rill = s.rill := rfl

@[simp] theorem State.heard_pending (id : Nat) : (s.heard id).pending = s.pending := rfl
@[simp] theorem State.heard_variant (id : Nat) : (s.heard id).variant = s.variant := rfl
@[simp] theorem State.heard_now (id : Nat) : (s.heard id).now = s.now := rfl
@[simp] theorem State.heard_draws (id : Nat) : (s.heard id).draws = s.draws := rfl
@[simp] theorem State.heard_step (id : Nat) : (s.heard id).step = s.step := rfl
@[simp] theorem State.heard_mem (id : Nat) : (s.heard id).mem = s.mem := rfl
@[simp] theorem State.heard_tiles (id : Nat) : (s.heard id).tiles = s.tiles := rfl
@[simp] theorem State.heard_sync (id : Nat) : (s.heard id).sync = s.sync := rfl
@[simp] theorem State.heard_pbs (id : Nat) : (s.heard id).pbs = s.pbs := rfl
@[simp] theorem State.heard_reduce (id : Nat) : (s.heard id).reduce = s.reduce := rfl
@[simp] theorem State.heard_links (id : Nat) : (s.heard id).links = s.links := rfl
@[simp] theorem State.heard_zOut (id : Nat) : (s.heard id).zOut = s.zOut := rfl
@[simp] theorem State.heard_rillOut (id : Nat) : (s.heard id).rillOut = s.rillOut := rfl
@[simp] theorem State.heard_mailboxes (id : Nat) : (s.heard id).mailboxes = s.mailboxes := rfl
@[simp] theorem State.heard_program (id : Nat) : (s.heard id).program = s.program := rfl
@[simp] theorem State.heard_power (id : Nat) : (s.heard id).power = s.power := rfl
@[simp] theorem State.heard_seam (id : Nat) : (s.heard id).seam = s.seam := rfl
@[simp] theorem State.heard_arbiter (id : Nat) : (s.heard id).arbiter = s.arbiter := rfl
@[simp] theorem State.heard_repair (id : Nat) : (s.heard id).repair = s.repair := rfl
@[simp] theorem State.heard_pages (id : Nat) : (s.heard id).pages = s.pages := rfl
@[simp] theorem State.heard_survival (id : Nat) : (s.heard id).survival = s.survival := rfl
@[simp] theorem State.heard_trace (id : Nat) : (s.heard id).trace = s.trace := rfl
@[simp] theorem State.heard_boot (id : Nat) : (s.heard id).boot = s.boot := rfl
@[simp] theorem State.heard_checks (id : Nat) : (s.heard id).checks = s.checks := rfl
@[simp] theorem State.heard_mesh (id : Nat) : (s.heard id).mesh = s.mesh := rfl
@[simp] theorem State.heard_rill (id : Nat) : (s.heard id).rill = s.rill := rfl

@[simp] theorem State.updTrace_pending (f : Trace → Trace) : (s.updTrace f).pending = s.pending := rfl
@[simp] theorem State.updTrace_variant (f : Trace → Trace) : (s.updTrace f).variant = s.variant := rfl
@[simp] theorem State.updTrace_now (f : Trace → Trace) : (s.updTrace f).now = s.now := rfl
@[simp] theorem State.updTrace_draws (f : Trace → Trace) : (s.updTrace f).draws = s.draws := rfl
@[simp] theorem State.updTrace_step (f : Trace → Trace) : (s.updTrace f).step = s.step := rfl
@[simp] theorem State.updTrace_mem (f : Trace → Trace) : (s.updTrace f).mem = s.mem := rfl
@[simp] theorem State.updTrace_tiles (f : Trace → Trace) : (s.updTrace f).tiles = s.tiles := rfl
@[simp] theorem State.updTrace_sync (f : Trace → Trace) : (s.updTrace f).sync = s.sync := rfl
@[simp] theorem State.updTrace_pbs (f : Trace → Trace) : (s.updTrace f).pbs = s.pbs := rfl
@[simp] theorem State.updTrace_reduce (f : Trace → Trace) : (s.updTrace f).reduce = s.reduce := rfl
@[simp] theorem State.updTrace_links (f : Trace → Trace) : (s.updTrace f).links = s.links := rfl
@[simp] theorem State.updTrace_zOut (f : Trace → Trace) : (s.updTrace f).zOut = s.zOut := rfl
@[simp] theorem State.updTrace_rillOut (f : Trace → Trace) : (s.updTrace f).rillOut = s.rillOut := rfl
@[simp] theorem State.updTrace_mailboxes (f : Trace → Trace) : (s.updTrace f).mailboxes = s.mailboxes := rfl
@[simp] theorem State.updTrace_host (f : Trace → Trace) : (s.updTrace f).host = s.host := rfl
@[simp] theorem State.updTrace_program (f : Trace → Trace) : (s.updTrace f).program = s.program := rfl
@[simp] theorem State.updTrace_power (f : Trace → Trace) : (s.updTrace f).power = s.power := rfl
@[simp] theorem State.updTrace_seam (f : Trace → Trace) : (s.updTrace f).seam = s.seam := rfl
@[simp] theorem State.updTrace_arbiter (f : Trace → Trace) : (s.updTrace f).arbiter = s.arbiter := rfl
@[simp] theorem State.updTrace_repair (f : Trace → Trace) : (s.updTrace f).repair = s.repair := rfl
@[simp] theorem State.updTrace_pages (f : Trace → Trace) : (s.updTrace f).pages = s.pages := rfl
@[simp] theorem State.updTrace_survival (f : Trace → Trace) : (s.updTrace f).survival = s.survival := rfl
@[simp] theorem State.updTrace_boot (f : Trace → Trace) : (s.updTrace f).boot = s.boot := rfl
@[simp] theorem State.updTrace_checks (f : Trace → Trace) : (s.updTrace f).checks = s.checks := rfl
@[simp] theorem State.updTrace_mesh (f : Trace → Trace) : (s.updTrace f).mesh = s.mesh := rfl
@[simp] theorem State.updTrace_rill (f : Trace → Trace) : (s.updTrace f).rill = s.rill := rfl

@[simp] theorem State.setRing_pending (k : Nat) (r : Ring) : (s.setRing k r).pending = s.pending := rfl
@[simp] theorem State.setRing_variant (k : Nat) (r : Ring) : (s.setRing k r).variant = s.variant := rfl
@[simp] theorem State.setRing_now (k : Nat) (r : Ring) : (s.setRing k r).now = s.now := rfl
@[simp] theorem State.setRing_draws (k : Nat) (r : Ring) : (s.setRing k r).draws = s.draws := rfl
@[simp] theorem State.setRing_step (k : Nat) (r : Ring) : (s.setRing k r).step = s.step := rfl
@[simp] theorem State.setRing_mem (k : Nat) (r : Ring) : (s.setRing k r).mem = s.mem := rfl
@[simp] theorem State.setRing_tiles (k : Nat) (r : Ring) : (s.setRing k r).tiles = s.tiles := rfl
@[simp] theorem State.setRing_sync (k : Nat) (r : Ring) : (s.setRing k r).sync = s.sync := rfl
@[simp] theorem State.setRing_pbs (k : Nat) (r : Ring) : (s.setRing k r).pbs = s.pbs := rfl
@[simp] theorem State.setRing_reduce (k : Nat) (r : Ring) : (s.setRing k r).reduce = s.reduce := rfl
@[simp] theorem State.setRing_links (k : Nat) (r : Ring) : (s.setRing k r).links = s.links := rfl
@[simp] theorem State.setRing_zOut (k : Nat) (r : Ring) : (s.setRing k r).zOut = s.zOut := rfl
@[simp] theorem State.setRing_rillOut (k : Nat) (r : Ring) : (s.setRing k r).rillOut = s.rillOut := rfl
@[simp] theorem State.setRing_mailboxes (k : Nat) (r : Ring) : (s.setRing k r).mailboxes = s.mailboxes := rfl
@[simp] theorem State.setRing_host (k : Nat) (r : Ring) : (s.setRing k r).host = s.host := rfl
@[simp] theorem State.setRing_program (k : Nat) (r : Ring) : (s.setRing k r).program = s.program := rfl
@[simp] theorem State.setRing_power (k : Nat) (r : Ring) : (s.setRing k r).power = s.power := rfl
@[simp] theorem State.setRing_seam (k : Nat) (r : Ring) : (s.setRing k r).seam = s.seam := rfl
@[simp] theorem State.setRing_arbiter (k : Nat) (r : Ring) : (s.setRing k r).arbiter = s.arbiter := rfl
@[simp] theorem State.setRing_repair (k : Nat) (r : Ring) : (s.setRing k r).repair = s.repair := rfl
@[simp] theorem State.setRing_pages (k : Nat) (r : Ring) : (s.setRing k r).pages = s.pages := rfl
@[simp] theorem State.setRing_survival (k : Nat) (r : Ring) : (s.setRing k r).survival = s.survival := rfl
@[simp] theorem State.setRing_boot (k : Nat) (r : Ring) : (s.setRing k r).boot = s.boot := rfl
@[simp] theorem State.setRing_checks (k : Nat) (r : Ring) : (s.setRing k r).checks = s.checks := rfl
@[simp] theorem State.setRing_mesh (k : Nat) (r : Ring) : (s.setRing k r).mesh = s.mesh := rfl
@[simp] theorem State.setRing_rill (k : Nat) (r : Ring) : (s.setRing k r).rill = s.rill := rfl

@[simp] theorem State.updReduce_pending (f : Reduce → Reduce) : (s.updReduce f).pending = s.pending := rfl
@[simp] theorem State.updReduce_variant (f : Reduce → Reduce) : (s.updReduce f).variant = s.variant := rfl
@[simp] theorem State.updReduce_now (f : Reduce → Reduce) : (s.updReduce f).now = s.now := rfl
@[simp] theorem State.updReduce_draws (f : Reduce → Reduce) : (s.updReduce f).draws = s.draws := rfl
@[simp] theorem State.updReduce_step (f : Reduce → Reduce) : (s.updReduce f).step = s.step := rfl
@[simp] theorem State.updReduce_mem (f : Reduce → Reduce) : (s.updReduce f).mem = s.mem := rfl
@[simp] theorem State.updReduce_tiles (f : Reduce → Reduce) : (s.updReduce f).tiles = s.tiles := rfl
@[simp] theorem State.updReduce_sync (f : Reduce → Reduce) : (s.updReduce f).sync = s.sync := rfl
@[simp] theorem State.updReduce_pbs (f : Reduce → Reduce) : (s.updReduce f).pbs = s.pbs := rfl
@[simp] theorem State.updReduce_links (f : Reduce → Reduce) : (s.updReduce f).links = s.links := rfl
@[simp] theorem State.updReduce_zOut (f : Reduce → Reduce) : (s.updReduce f).zOut = s.zOut := rfl
@[simp] theorem State.updReduce_rillOut (f : Reduce → Reduce) : (s.updReduce f).rillOut = s.rillOut := rfl
@[simp] theorem State.updReduce_mailboxes (f : Reduce → Reduce) : (s.updReduce f).mailboxes = s.mailboxes := rfl
@[simp] theorem State.updReduce_host (f : Reduce → Reduce) : (s.updReduce f).host = s.host := rfl
@[simp] theorem State.updReduce_program (f : Reduce → Reduce) : (s.updReduce f).program = s.program := rfl
@[simp] theorem State.updReduce_power (f : Reduce → Reduce) : (s.updReduce f).power = s.power := rfl
@[simp] theorem State.updReduce_seam (f : Reduce → Reduce) : (s.updReduce f).seam = s.seam := rfl
@[simp] theorem State.updReduce_arbiter (f : Reduce → Reduce) : (s.updReduce f).arbiter = s.arbiter := rfl
@[simp] theorem State.updReduce_repair (f : Reduce → Reduce) : (s.updReduce f).repair = s.repair := rfl
@[simp] theorem State.updReduce_pages (f : Reduce → Reduce) : (s.updReduce f).pages = s.pages := rfl
@[simp] theorem State.updReduce_survival (f : Reduce → Reduce) : (s.updReduce f).survival = s.survival := rfl
@[simp] theorem State.updReduce_trace (f : Reduce → Reduce) : (s.updReduce f).trace = s.trace := rfl
@[simp] theorem State.updReduce_boot (f : Reduce → Reduce) : (s.updReduce f).boot = s.boot := rfl
@[simp] theorem State.updReduce_checks (f : Reduce → Reduce) : (s.updReduce f).checks = s.checks := rfl
@[simp] theorem State.updReduce_mesh (f : Reduce → Reduce) : (s.updReduce f).mesh = s.mesh := rfl
@[simp] theorem State.updReduce_rill (f : Reduce → Reduce) : (s.updReduce f).rill = s.rill := rfl

@[simp] theorem State.updPower_pending (f : Power → Power) : (s.updPower f).pending = s.pending := rfl
@[simp] theorem State.updPower_variant (f : Power → Power) : (s.updPower f).variant = s.variant := rfl
@[simp] theorem State.updPower_now (f : Power → Power) : (s.updPower f).now = s.now := rfl
@[simp] theorem State.updPower_draws (f : Power → Power) : (s.updPower f).draws = s.draws := rfl
@[simp] theorem State.updPower_step (f : Power → Power) : (s.updPower f).step = s.step := rfl
@[simp] theorem State.updPower_mem (f : Power → Power) : (s.updPower f).mem = s.mem := rfl
@[simp] theorem State.updPower_tiles (f : Power → Power) : (s.updPower f).tiles = s.tiles := rfl
@[simp] theorem State.updPower_sync (f : Power → Power) : (s.updPower f).sync = s.sync := rfl
@[simp] theorem State.updPower_pbs (f : Power → Power) : (s.updPower f).pbs = s.pbs := rfl
@[simp] theorem State.updPower_reduce (f : Power → Power) : (s.updPower f).reduce = s.reduce := rfl
@[simp] theorem State.updPower_links (f : Power → Power) : (s.updPower f).links = s.links := rfl
@[simp] theorem State.updPower_zOut (f : Power → Power) : (s.updPower f).zOut = s.zOut := rfl
@[simp] theorem State.updPower_rillOut (f : Power → Power) : (s.updPower f).rillOut = s.rillOut := rfl
@[simp] theorem State.updPower_mailboxes (f : Power → Power) : (s.updPower f).mailboxes = s.mailboxes := rfl
@[simp] theorem State.updPower_host (f : Power → Power) : (s.updPower f).host = s.host := rfl
@[simp] theorem State.updPower_program (f : Power → Power) : (s.updPower f).program = s.program := rfl
@[simp] theorem State.updPower_seam (f : Power → Power) : (s.updPower f).seam = s.seam := rfl
@[simp] theorem State.updPower_arbiter (f : Power → Power) : (s.updPower f).arbiter = s.arbiter := rfl
@[simp] theorem State.updPower_repair (f : Power → Power) : (s.updPower f).repair = s.repair := rfl
@[simp] theorem State.updPower_pages (f : Power → Power) : (s.updPower f).pages = s.pages := rfl
@[simp] theorem State.updPower_survival (f : Power → Power) : (s.updPower f).survival = s.survival := rfl
@[simp] theorem State.updPower_trace (f : Power → Power) : (s.updPower f).trace = s.trace := rfl
@[simp] theorem State.updPower_boot (f : Power → Power) : (s.updPower f).boot = s.boot := rfl
@[simp] theorem State.updPower_checks (f : Power → Power) : (s.updPower f).checks = s.checks := rfl
@[simp] theorem State.updPower_mesh (f : Power → Power) : (s.updPower f).mesh = s.mesh := rfl
@[simp] theorem State.updPower_rill (f : Power → Power) : (s.updPower f).rill = s.rill := rfl

@[simp] theorem State.updRepair_pending (f : Repair → Repair) : (s.updRepair f).pending = s.pending := rfl
@[simp] theorem State.updRepair_variant (f : Repair → Repair) : (s.updRepair f).variant = s.variant := rfl
@[simp] theorem State.updRepair_now (f : Repair → Repair) : (s.updRepair f).now = s.now := rfl
@[simp] theorem State.updRepair_draws (f : Repair → Repair) : (s.updRepair f).draws = s.draws := rfl
@[simp] theorem State.updRepair_step (f : Repair → Repair) : (s.updRepair f).step = s.step := rfl
@[simp] theorem State.updRepair_mem (f : Repair → Repair) : (s.updRepair f).mem = s.mem := rfl
@[simp] theorem State.updRepair_tiles (f : Repair → Repair) : (s.updRepair f).tiles = s.tiles := rfl
@[simp] theorem State.updRepair_sync (f : Repair → Repair) : (s.updRepair f).sync = s.sync := rfl
@[simp] theorem State.updRepair_pbs (f : Repair → Repair) : (s.updRepair f).pbs = s.pbs := rfl
@[simp] theorem State.updRepair_reduce (f : Repair → Repair) : (s.updRepair f).reduce = s.reduce := rfl
@[simp] theorem State.updRepair_links (f : Repair → Repair) : (s.updRepair f).links = s.links := rfl
@[simp] theorem State.updRepair_zOut (f : Repair → Repair) : (s.updRepair f).zOut = s.zOut := rfl
@[simp] theorem State.updRepair_rillOut (f : Repair → Repair) : (s.updRepair f).rillOut = s.rillOut := rfl
@[simp] theorem State.updRepair_mailboxes (f : Repair → Repair) : (s.updRepair f).mailboxes = s.mailboxes := rfl
@[simp] theorem State.updRepair_host (f : Repair → Repair) : (s.updRepair f).host = s.host := rfl
@[simp] theorem State.updRepair_program (f : Repair → Repair) : (s.updRepair f).program = s.program := rfl
@[simp] theorem State.updRepair_power (f : Repair → Repair) : (s.updRepair f).power = s.power := rfl
@[simp] theorem State.updRepair_seam (f : Repair → Repair) : (s.updRepair f).seam = s.seam := rfl
@[simp] theorem State.updRepair_arbiter (f : Repair → Repair) : (s.updRepair f).arbiter = s.arbiter := rfl
@[simp] theorem State.updRepair_pages (f : Repair → Repair) : (s.updRepair f).pages = s.pages := rfl
@[simp] theorem State.updRepair_survival (f : Repair → Repair) : (s.updRepair f).survival = s.survival := rfl
@[simp] theorem State.updRepair_trace (f : Repair → Repair) : (s.updRepair f).trace = s.trace := rfl
@[simp] theorem State.updRepair_boot (f : Repair → Repair) : (s.updRepair f).boot = s.boot := rfl
@[simp] theorem State.updRepair_checks (f : Repair → Repair) : (s.updRepair f).checks = s.checks := rfl
@[simp] theorem State.updRepair_mesh (f : Repair → Repair) : (s.updRepair f).mesh = s.mesh := rfl
@[simp] theorem State.updRepair_rill (f : Repair → Repair) : (s.updRepair f).rill = s.rill := rfl

@[simp] theorem State.updBoot_pending (f : Boot → Boot) : (s.updBoot f).pending = s.pending := rfl
@[simp] theorem State.updBoot_variant (f : Boot → Boot) : (s.updBoot f).variant = s.variant := rfl
@[simp] theorem State.updBoot_now (f : Boot → Boot) : (s.updBoot f).now = s.now := rfl
@[simp] theorem State.updBoot_draws (f : Boot → Boot) : (s.updBoot f).draws = s.draws := rfl
@[simp] theorem State.updBoot_step (f : Boot → Boot) : (s.updBoot f).step = s.step := rfl
@[simp] theorem State.updBoot_mem (f : Boot → Boot) : (s.updBoot f).mem = s.mem := rfl
@[simp] theorem State.updBoot_tiles (f : Boot → Boot) : (s.updBoot f).tiles = s.tiles := rfl
@[simp] theorem State.updBoot_sync (f : Boot → Boot) : (s.updBoot f).sync = s.sync := rfl
@[simp] theorem State.updBoot_pbs (f : Boot → Boot) : (s.updBoot f).pbs = s.pbs := rfl
@[simp] theorem State.updBoot_reduce (f : Boot → Boot) : (s.updBoot f).reduce = s.reduce := rfl
@[simp] theorem State.updBoot_links (f : Boot → Boot) : (s.updBoot f).links = s.links := rfl
@[simp] theorem State.updBoot_zOut (f : Boot → Boot) : (s.updBoot f).zOut = s.zOut := rfl
@[simp] theorem State.updBoot_rillOut (f : Boot → Boot) : (s.updBoot f).rillOut = s.rillOut := rfl
@[simp] theorem State.updBoot_mailboxes (f : Boot → Boot) : (s.updBoot f).mailboxes = s.mailboxes := rfl
@[simp] theorem State.updBoot_host (f : Boot → Boot) : (s.updBoot f).host = s.host := rfl
@[simp] theorem State.updBoot_program (f : Boot → Boot) : (s.updBoot f).program = s.program := rfl
@[simp] theorem State.updBoot_power (f : Boot → Boot) : (s.updBoot f).power = s.power := rfl
@[simp] theorem State.updBoot_seam (f : Boot → Boot) : (s.updBoot f).seam = s.seam := rfl
@[simp] theorem State.updBoot_arbiter (f : Boot → Boot) : (s.updBoot f).arbiter = s.arbiter := rfl
@[simp] theorem State.updBoot_repair (f : Boot → Boot) : (s.updBoot f).repair = s.repair := rfl
@[simp] theorem State.updBoot_pages (f : Boot → Boot) : (s.updBoot f).pages = s.pages := rfl
@[simp] theorem State.updBoot_survival (f : Boot → Boot) : (s.updBoot f).survival = s.survival := rfl
@[simp] theorem State.updBoot_trace (f : Boot → Boot) : (s.updBoot f).trace = s.trace := rfl
@[simp] theorem State.updBoot_checks (f : Boot → Boot) : (s.updBoot f).checks = s.checks := rfl
@[simp] theorem State.updBoot_mesh (f : Boot → Boot) : (s.updBoot f).mesh = s.mesh := rfl
@[simp] theorem State.updBoot_rill (f : Boot → Boot) : (s.updBoot f).rill = s.rill := rfl

@[simp] theorem State.updSurvival_pending (f : Survival → Survival) : (s.updSurvival f).pending = s.pending := rfl
@[simp] theorem State.updSurvival_variant (f : Survival → Survival) : (s.updSurvival f).variant = s.variant := rfl
@[simp] theorem State.updSurvival_now (f : Survival → Survival) : (s.updSurvival f).now = s.now := rfl
@[simp] theorem State.updSurvival_draws (f : Survival → Survival) : (s.updSurvival f).draws = s.draws := rfl
@[simp] theorem State.updSurvival_step (f : Survival → Survival) : (s.updSurvival f).step = s.step := rfl
@[simp] theorem State.updSurvival_mem (f : Survival → Survival) : (s.updSurvival f).mem = s.mem := rfl
@[simp] theorem State.updSurvival_tiles (f : Survival → Survival) : (s.updSurvival f).tiles = s.tiles := rfl
@[simp] theorem State.updSurvival_sync (f : Survival → Survival) : (s.updSurvival f).sync = s.sync := rfl
@[simp] theorem State.updSurvival_pbs (f : Survival → Survival) : (s.updSurvival f).pbs = s.pbs := rfl
@[simp] theorem State.updSurvival_reduce (f : Survival → Survival) : (s.updSurvival f).reduce = s.reduce := rfl
@[simp] theorem State.updSurvival_links (f : Survival → Survival) : (s.updSurvival f).links = s.links := rfl
@[simp] theorem State.updSurvival_zOut (f : Survival → Survival) : (s.updSurvival f).zOut = s.zOut := rfl
@[simp] theorem State.updSurvival_rillOut (f : Survival → Survival) : (s.updSurvival f).rillOut = s.rillOut := rfl
@[simp] theorem State.updSurvival_mailboxes (f : Survival → Survival) : (s.updSurvival f).mailboxes = s.mailboxes := rfl
@[simp] theorem State.updSurvival_host (f : Survival → Survival) : (s.updSurvival f).host = s.host := rfl
@[simp] theorem State.updSurvival_program (f : Survival → Survival) : (s.updSurvival f).program = s.program := rfl
@[simp] theorem State.updSurvival_power (f : Survival → Survival) : (s.updSurvival f).power = s.power := rfl
@[simp] theorem State.updSurvival_seam (f : Survival → Survival) : (s.updSurvival f).seam = s.seam := rfl
@[simp] theorem State.updSurvival_arbiter (f : Survival → Survival) : (s.updSurvival f).arbiter = s.arbiter := rfl
@[simp] theorem State.updSurvival_repair (f : Survival → Survival) : (s.updSurvival f).repair = s.repair := rfl
@[simp] theorem State.updSurvival_pages (f : Survival → Survival) : (s.updSurvival f).pages = s.pages := rfl
@[simp] theorem State.updSurvival_trace (f : Survival → Survival) : (s.updSurvival f).trace = s.trace := rfl
@[simp] theorem State.updSurvival_boot (f : Survival → Survival) : (s.updSurvival f).boot = s.boot := rfl
@[simp] theorem State.updSurvival_checks (f : Survival → Survival) : (s.updSurvival f).checks = s.checks := rfl
@[simp] theorem State.updSurvival_mesh (f : Survival → Survival) : (s.updSurvival f).mesh = s.mesh := rfl
@[simp] theorem State.updSurvival_rill (f : Survival → Survival) : (s.updSurvival f).rill = s.rill := rfl

@[simp] theorem State.setEntry_pending (t lp : Nat) (e : BitVec 64) : (s.setEntry t lp e).pending = s.pending := rfl
@[simp] theorem State.setEntry_variant (t lp : Nat) (e : BitVec 64) : (s.setEntry t lp e).variant = s.variant := rfl
@[simp] theorem State.setEntry_now (t lp : Nat) (e : BitVec 64) : (s.setEntry t lp e).now = s.now := rfl
@[simp] theorem State.setEntry_draws (t lp : Nat) (e : BitVec 64) : (s.setEntry t lp e).draws = s.draws := rfl
@[simp] theorem State.setEntry_step (t lp : Nat) (e : BitVec 64) : (s.setEntry t lp e).step = s.step := rfl
@[simp] theorem State.setEntry_mem (t lp : Nat) (e : BitVec 64) : (s.setEntry t lp e).mem = s.mem := rfl
@[simp] theorem State.setEntry_tiles (t lp : Nat) (e : BitVec 64) : (s.setEntry t lp e).tiles = s.tiles := rfl
@[simp] theorem State.setEntry_sync (t lp : Nat) (e : BitVec 64) : (s.setEntry t lp e).sync = s.sync := rfl
@[simp] theorem State.setEntry_pbs (t lp : Nat) (e : BitVec 64) : (s.setEntry t lp e).pbs = s.pbs := rfl
@[simp] theorem State.setEntry_reduce (t lp : Nat) (e : BitVec 64) : (s.setEntry t lp e).reduce = s.reduce := rfl
@[simp] theorem State.setEntry_links (t lp : Nat) (e : BitVec 64) : (s.setEntry t lp e).links = s.links := rfl
@[simp] theorem State.setEntry_zOut (t lp : Nat) (e : BitVec 64) : (s.setEntry t lp e).zOut = s.zOut := rfl
@[simp] theorem State.setEntry_rillOut (t lp : Nat) (e : BitVec 64) : (s.setEntry t lp e).rillOut = s.rillOut := rfl
@[simp] theorem State.setEntry_mailboxes (t lp : Nat) (e : BitVec 64) : (s.setEntry t lp e).mailboxes = s.mailboxes := rfl
@[simp] theorem State.setEntry_host (t lp : Nat) (e : BitVec 64) : (s.setEntry t lp e).host = s.host := rfl
@[simp] theorem State.setEntry_program (t lp : Nat) (e : BitVec 64) : (s.setEntry t lp e).program = s.program := rfl
@[simp] theorem State.setEntry_power (t lp : Nat) (e : BitVec 64) : (s.setEntry t lp e).power = s.power := rfl
@[simp] theorem State.setEntry_seam (t lp : Nat) (e : BitVec 64) : (s.setEntry t lp e).seam = s.seam := rfl
@[simp] theorem State.setEntry_arbiter (t lp : Nat) (e : BitVec 64) : (s.setEntry t lp e).arbiter = s.arbiter := rfl
@[simp] theorem State.setEntry_repair (t lp : Nat) (e : BitVec 64) : (s.setEntry t lp e).repair = s.repair := rfl
@[simp] theorem State.setEntry_survival (t lp : Nat) (e : BitVec 64) : (s.setEntry t lp e).survival = s.survival := rfl
@[simp] theorem State.setEntry_trace (t lp : Nat) (e : BitVec 64) : (s.setEntry t lp e).trace = s.trace := rfl
@[simp] theorem State.setEntry_boot (t lp : Nat) (e : BitVec 64) : (s.setEntry t lp e).boot = s.boot := rfl
@[simp] theorem State.setEntry_checks (t lp : Nat) (e : BitVec 64) : (s.setEntry t lp e).checks = s.checks := rfl
@[simp] theorem State.setEntry_mesh (t lp : Nat) (e : BitVec 64) : (s.setEntry t lp e).mesh = s.mesh := rfl
@[simp] theorem State.setEntry_rill (t lp : Nat) (e : BitVec 64) : (s.setEntry t lp e).rill = s.rill := rfl

@[simp] theorem State.mapEntries_pending (f : Nat → BitVec 64 → BitVec 64) : (s.mapEntries f).pending = s.pending := rfl
@[simp] theorem State.mapEntries_variant (f : Nat → BitVec 64 → BitVec 64) : (s.mapEntries f).variant = s.variant := rfl
@[simp] theorem State.mapEntries_now (f : Nat → BitVec 64 → BitVec 64) : (s.mapEntries f).now = s.now := rfl
@[simp] theorem State.mapEntries_draws (f : Nat → BitVec 64 → BitVec 64) : (s.mapEntries f).draws = s.draws := rfl
@[simp] theorem State.mapEntries_step (f : Nat → BitVec 64 → BitVec 64) : (s.mapEntries f).step = s.step := rfl
@[simp] theorem State.mapEntries_mem (f : Nat → BitVec 64 → BitVec 64) : (s.mapEntries f).mem = s.mem := rfl
@[simp] theorem State.mapEntries_tiles (f : Nat → BitVec 64 → BitVec 64) : (s.mapEntries f).tiles = s.tiles := rfl
@[simp] theorem State.mapEntries_sync (f : Nat → BitVec 64 → BitVec 64) : (s.mapEntries f).sync = s.sync := rfl
@[simp] theorem State.mapEntries_pbs (f : Nat → BitVec 64 → BitVec 64) : (s.mapEntries f).pbs = s.pbs := rfl
@[simp] theorem State.mapEntries_reduce (f : Nat → BitVec 64 → BitVec 64) : (s.mapEntries f).reduce = s.reduce := rfl
@[simp] theorem State.mapEntries_links (f : Nat → BitVec 64 → BitVec 64) : (s.mapEntries f).links = s.links := rfl
@[simp] theorem State.mapEntries_zOut (f : Nat → BitVec 64 → BitVec 64) : (s.mapEntries f).zOut = s.zOut := rfl
@[simp] theorem State.mapEntries_rillOut (f : Nat → BitVec 64 → BitVec 64) : (s.mapEntries f).rillOut = s.rillOut := rfl
@[simp] theorem State.mapEntries_mailboxes (f : Nat → BitVec 64 → BitVec 64) : (s.mapEntries f).mailboxes = s.mailboxes := rfl
@[simp] theorem State.mapEntries_host (f : Nat → BitVec 64 → BitVec 64) : (s.mapEntries f).host = s.host := rfl
@[simp] theorem State.mapEntries_program (f : Nat → BitVec 64 → BitVec 64) : (s.mapEntries f).program = s.program := rfl
@[simp] theorem State.mapEntries_power (f : Nat → BitVec 64 → BitVec 64) : (s.mapEntries f).power = s.power := rfl
@[simp] theorem State.mapEntries_seam (f : Nat → BitVec 64 → BitVec 64) : (s.mapEntries f).seam = s.seam := rfl
@[simp] theorem State.mapEntries_arbiter (f : Nat → BitVec 64 → BitVec 64) : (s.mapEntries f).arbiter = s.arbiter := rfl
@[simp] theorem State.mapEntries_repair (f : Nat → BitVec 64 → BitVec 64) : (s.mapEntries f).repair = s.repair := rfl
@[simp] theorem State.mapEntries_survival (f : Nat → BitVec 64 → BitVec 64) : (s.mapEntries f).survival = s.survival := rfl
@[simp] theorem State.mapEntries_trace (f : Nat → BitVec 64 → BitVec 64) : (s.mapEntries f).trace = s.trace := rfl
@[simp] theorem State.mapEntries_boot (f : Nat → BitVec 64 → BitVec 64) : (s.mapEntries f).boot = s.boot := rfl
@[simp] theorem State.mapEntries_checks (f : Nat → BitVec 64 → BitVec 64) : (s.mapEntries f).checks = s.checks := rfl
@[simp] theorem State.mapEntries_mesh (f : Nat → BitVec 64 → BitVec 64) : (s.mapEntries f).mesh = s.mesh := rfl
@[simp] theorem State.mapEntries_rill (f : Nat → BitVec 64 → BitVec 64) : (s.mapEntries f).rill = s.rill := rfl

@[simp] theorem State.draw_pending : s.draw.2.pending = s.pending := rfl
@[simp] theorem State.draw_variant : s.draw.2.variant = s.variant := rfl
@[simp] theorem State.draw_now : s.draw.2.now = s.now := rfl
@[simp] theorem State.draw_step : s.draw.2.step = s.step := rfl
@[simp] theorem State.draw_mem : s.draw.2.mem = s.mem := rfl
@[simp] theorem State.draw_tiles : s.draw.2.tiles = s.tiles := rfl
@[simp] theorem State.draw_sync : s.draw.2.sync = s.sync := rfl
@[simp] theorem State.draw_pbs : s.draw.2.pbs = s.pbs := rfl
@[simp] theorem State.draw_reduce : s.draw.2.reduce = s.reduce := rfl
@[simp] theorem State.draw_links : s.draw.2.links = s.links := rfl
@[simp] theorem State.draw_zOut : s.draw.2.zOut = s.zOut := rfl
@[simp] theorem State.draw_rillOut : s.draw.2.rillOut = s.rillOut := rfl
@[simp] theorem State.draw_mailboxes : s.draw.2.mailboxes = s.mailboxes := rfl
@[simp] theorem State.draw_host : s.draw.2.host = s.host := rfl
@[simp] theorem State.draw_program : s.draw.2.program = s.program := rfl
@[simp] theorem State.draw_power : s.draw.2.power = s.power := rfl
@[simp] theorem State.draw_seam : s.draw.2.seam = s.seam := rfl
@[simp] theorem State.draw_arbiter : s.draw.2.arbiter = s.arbiter := rfl
@[simp] theorem State.draw_repair : s.draw.2.repair = s.repair := rfl
@[simp] theorem State.draw_pages : s.draw.2.pages = s.pages := rfl
@[simp] theorem State.draw_survival : s.draw.2.survival = s.survival := rfl
@[simp] theorem State.draw_trace : s.draw.2.trace = s.trace := rfl
@[simp] theorem State.draw_boot : s.draw.2.boot = s.boot := rfl
@[simp] theorem State.draw_checks : s.draw.2.checks = s.checks := rfl
@[simp] theorem State.draw_mesh : s.draw.2.mesh = s.mesh := rfl
@[simp] theorem State.draw_rill : s.draw.2.rill = s.rill := rfl

@[simp] theorem State.setTile_tiles (p : Nat) (t : Tile) : (s.setTile p t).tiles = smPut {} p t s.tiles := rfl
@[simp] theorem State.tileWrite_mem (p a : Nat) (b : Bytes) : (s.tileWrite p a b).mem = wrBytes s.mem (memKey p a) b := rfl
@[simp] theorem State.tileClear_mem (p a n : Nat) : (s.tileClear p a n).mem = clearRange s.mem (memKey p a) (memKey p (a + n)) := rfl
@[simp] theorem State.sendRill_rillOut (m : RillMsg) : (s.sendRill m).rillOut = m :: s.rillOut := rfl
@[simp] theorem State.draw_draws : s.draw.2.draws = s.draws + 1 := rfl
@[simp] theorem State.updReduce_reduce (f : Reduce → Reduce) : (s.updReduce f).reduce = f s.reduce := rfl
@[simp] theorem State.updPower_power (f : Power → Power) : (s.updPower f).power = f s.power := rfl
@[simp] theorem State.updRepair_repair (f : Repair → Repair) : (s.updRepair f).repair = f s.repair := rfl
@[simp] theorem State.updBoot_boot (f : Boot → Boot) : (s.updBoot f).boot = f s.boot := rfl
@[simp] theorem State.updTrace_trace (f : Trace → Trace) : (s.updTrace f).trace = f s.trace := rfl
@[simp] theorem State.updSurvival_survival (f : Survival → Survival) : (s.updSurvival f).survival = f s.survival := rfl

end Sys2Proof.Machine
end

