-- ==== Sys2Proof/Laws/Delit.lean ====
section
/-! SUPPORT. Sys2Proof/Laws/Delit.lean: what a Delit command that is executed at once answers and leaves. -/

namespace Sys2Proof.Machine

open Sys2Proof.Safety

/-- The sessions after one has been heard of. -/
theorem State.sessionOf_heard (s : State) (id : Nat) :
    (s.heard id).sessionOf id = (s.sessionOf id).map (fun y => { y with lastHeard := s.now }) := by
  simp only [State.sessionOf, State.heard, State.updSession]
  induction s.host.sessions with
  | nil => rfl
  | cons y r ih => by_cases e : y.id = id <;> simp [e, ih]

/-- A whole message is acted on in the state that has heard of its session. -/
theorem State.takeDgram_arrives {d : Dgram} {kind : BitVec 8} {session seq : Nat} {s : State} (r : Arrives d kind session seq s)
    (act : State → State) : s.takeDgram session seq kind d act = act (s.heard session) := by
  obtain ⟨net, sound, known, tag, whole, fresh⟩ := r
  have none_held : s.host.fragments.filter (fun x => x.1 == session && x.2.1 == seq) = [] := by
    simpa [List.filter_eq_nil_iff] using fresh
  have all_kept : s.host.fragments.filter (fun x => !(x.1 == session && x.2.1 == seq)) = s.host.fragments := by
    rw [List.filter_eq_self]; simpa [imp_iff_not_or] using fresh
  have frags : (s.heard session).host.fragments = s.host.fragments := rfl
  have t : ¬ (kind ≠ 1 ∧ ¬ d.tagOk = true) := by
    rintro ⟨a, b⟩; exact tag.elim a b
  have h : (s.heard session).gather session seq d = (s.heard session, true) := by
    simp only [State.gather, State.fragmentsOf, frags, none_held, all_kept, List.flatMap_nil, List.nil_append, whole, if_true]
    rfl
  simp [State.takeDgram, net, sound, known, h]
  intro a b; exact absurd ⟨a, by simp [b]⟩ t

/-- A command in order is executed on the state that has heard of its session. -/
theorem State.delit_inOrder {h : Hdr} {x : Session} {s : State} (r : InOrder h x s) (op : DelitOp) :
    s.delit h op = (s.heard h.session).execute h op x.control := by
  obtain ⟨r, a, b, c, d, e⟩ := r
  have p : (s.heard h.session).openPending h.session = false := e
  rw [State.delit, State.takeDgram_arrives r]
  simp [State.takeCommand, State.sessionOf_heard, a, b, d, p, c]

/-- Its answer is that of its own work, once its sender, its moment and its reserved fields are right. -/
theorem answerOp_perform {h : Hdr} {op : DelitOp} {ctl : Bool} {s : State} (c : needsControl op = false ∨ ctl = true)
    (w : betweenSteps op = false ∨ s.step.inProgress = false) (v : h.resv = false) :
    answerOp h op ctl s = performOp h op s := by
  unfold answerOp
  split
  · rename_i hh; obtain c | c := c <;> simp [c] at hh
  · split
    · rename_i hh; obtain w | w := w <;> simp [w] at hh
    · simp [v]

/-- The response to a state that has heard of the session. -/
theorem State.respond_heard {h : Hdr} (s : State) (st : Code) (b : Bytes) :
    (s.heard h.session).respond h st b = replied h st b s := by
  simp only [State.respond, State.updSession, State.sendHost, replied, State.heard, List.map_map]
  congr 3
  funext y
  simp only [Function.comp]
  split <;> simp [*]

/-- No STEP_OPEN: such a command never waits. -/
theorem mustWait_other {h : Hdr} {op : DelitOp} {ctl : Bool} {s : State} (no : ∀ p, op ≠ .stepOpen p) :
    mustWait h op ctl s = false := by
  cases op <;> simp_all [mustWait]

/-- A command other than STEP_OPEN that is ready: from its own work `t` (seen as a state that has heard of the session), its
status and its payload, the state it leaves. -/
theorem State.delit_ready {h : Hdr} {x : Session} {s t : State} {op : DelitOp} {st : Code} {b : Bytes} (r : Ready h x s)
    (no : ∀ p, op ≠ .stepOpen p) (c : needsControl op = false ∨ x.control = true)
    (w : betweenSteps op = false ∨ s.step.inProgress = false)
    (a : performOp h op (s.heard h.session) = (t.heard h.session, st, b)) :
    s.delit h op = if st.toNat ≤ 1 then followOp h op (replied h st b t) else replied h st b t := by
  rw [State.delit_inOrder r.1]
  unfold State.execute
  rw [mustWait_other no, answerOp_perform (s := s.heard h.session) c w r.2, a]
  simp [State.respond_heard]

/-- A command that answers OK or 0x0001 and leaves nothing behind its response. -/
theorem State.delit_ok {h : Hdr} {x : Session} {s t : State} {op : DelitOp} {b : Bytes} (r : Ready h x s)
    (no : ∀ p, op ≠ .stepOpen p) (c : needsControl op = false ∨ x.control = true)
    (w : betweenSteps op = false ∨ s.step.inProgress = false) (f : ∀ u, followOp h op u = u)
    (a : performOp h op (s.heard h.session) = (t.heard h.session, 0, b)) : s.delit h op = replied h 0 b t := by
  rw [State.delit_ready r no c w a, f]; simp

/-- A command accepted with 0x0001. -/
theorem State.delit_accepted {h : Hdr} {x : Session} {s t : State} {op : DelitOp} (r : Ready h x s)
    (no : ∀ p, op ≠ .stepOpen p) (c : needsControl op = false ∨ x.control = true)
    (w : betweenSteps op = false ∨ s.step.inProgress = false)
    (a : performOp h op (s.heard h.session) = (t.heard h.session, 0x0001, [])) :
    s.delit h op = followOp h op (replied h 0x0001 [] t) := by
  rw [State.delit_ready r no c w a]; simp

/-- A command refused with a status: nothing but the session changes. -/
theorem State.delit_refused {h : Hdr} {x : Session} {s : State} {op : DelitOp} {st : Code} (r : Ready h x s)
    (no : ∀ p, op ≠ .stepOpen p) (c : needsControl op = false ∨ x.control = true)
    (w : betweenSteps op = false ∨ s.step.inProgress = false) (n : 1 < st.toNat)
    (a : performOp h op (s.heard h.session) = (s.heard h.session, st, [])) : s.delit h op = replied h st [] s := by
  rw [State.delit_ready r no c w a, if_neg (by omega)]

end Sys2Proof.Machine
end

