-- ==== Sys2Proof/Laws/Memory.lean ====
section
/-! SUPPORT. Sys2Proof/Laws/Memory.lean: sparse tables and byte memories: every update keeps the canonical form, a read after a
write gives what was written, and a write leaves every other place alone. -/

namespace Sys2Proof.Laws

open Sys2Proof.Machine

variable {α : Type} [DecidableEq α]

theorem smWf_mono {d : α} {lo lo' : Nat} (h : lo' ≤ lo) {m : SMap α} (w : smWf d lo m = true) : smWf d lo' m = true := by
  cases m with
  | nil => rfl
  | cons x r => simp [smWf] at w ⊢; exact ⟨⟨le_trans h w.1.1, w.1.2⟩, w.2⟩

theorem smGet_below {d : α} {lo k : Nat} {m : SMap α} (w : smWf d lo m = true) (h : k < lo) : smGet d m k = d := by
  cases m with
  | nil => rfl
  | cons x r =>
    simp only [smWf, Bool.and_eq_true, decide_eq_true_eq] at w
    have : k < x.1 := lt_of_lt_of_le h w.1.1
    simp [smGet, this, Nat.ne_of_lt this]

/-- A store keeps the canonical form. -/
theorem smPut_wf {d : α} {k : Nat} {v : α} : ∀ {lo : Nat} {m : SMap α}, lo ≤ k → smWf d lo m = true →
    smWf d lo (smPut d k v m) = true
  | lo, [], h, _ => by
    by_cases hv : v = d <;> simp [smPut, smWf, hv, h]
  | lo, (a, w) :: r, h, hw => by
    simp only [smWf, Bool.and_eq_true, decide_eq_true_eq] at hw
    obtain ⟨⟨h1, h2⟩, h3⟩ := hw
    unfold smPut
    split
    · split
      · simp [smWf, h1, h2, h3]
      · rename_i hk hv
        simp [smWf, h, hv, h2, h3, Nat.succ_le_of_lt hk]
    · split
      · split
        · exact smWf_mono (by omega) h3
        · rename_i hk hv
          subst hk
          simp [smWf, h1, hv, h3]
      · rename_i hk hk'
        simp [smWf, h1, h2, smPut_wf (d := d) (v := v) (show a + 1 ≤ k by omega) h3]

/-- A read after a store to the same key gives the value stored. -/
theorem smGet_smPut_same {d : α} {k : Nat} {v : α} : ∀ {lo : Nat} {m : SMap α}, smWf d lo m = true →
    smGet d (smPut d k v m) k = v
  | _, [], _ => by by_cases hv : v = d <;> simp [smPut, smGet, hv]
  | lo, (a, w) :: r, hw => by
    simp only [smWf, Bool.and_eq_true, decide_eq_true_eq] at hw
    unfold smPut
    split
    · rename_i hk
      split
      · rename_i hv; simp [smGet, hk, Nat.ne_of_lt hk, hv]
      · simp [smGet]
    · split
      · rename_i hk
        split
        · rename_i hv; subst hv; subst hk; exact smGet_below hw.2 (by omega)
        · simp [smGet]
      · rename_i hk hk'
        simp [smGet, hk, hk', smGet_smPut_same hw.2]

/-- A store leaves every other key alone. -/
theorem smGet_smPut_other {d : α} {k k' : Nat} {v : α} (hne : k' ≠ k) : ∀ {lo : Nat} {m : SMap α}, smWf d lo m = true →
    smGet d (smPut d k v m) k' = smGet d m k'
  | _, [], _ => by by_cases hv : v = d <;> simp [smPut, smGet, hv, hne]
  | lo, (a, w) :: r, hw => by
    simp only [smWf, Bool.and_eq_true, decide_eq_true_eq] at hw
    unfold smPut
    split
    · rename_i hk
      split
      · rfl
      · by_cases hlt : k' < k
        · have : k' < a := by omega
          simp [smGet, hne, hlt, this, Nat.ne_of_lt this]
        · simp [smGet, hne, hlt]
    · split
      · rename_i hk
        subst hk
        split
        · by_cases hlt : k' < k
          · simp [smGet, hne, hlt, smGet_below hw.2 (show k' < k + 1 by omega)]
          · simp [smGet, hne, hlt]
        · simp [smGet, hne]
      · simp [smGet, smGet_smPut_other hne hw.2]

/-- Filtering keeps the canonical form. -/
theorem smWf_filter {d : α} (p : Nat × α → Bool) : ∀ {lo : Nat} {m : SMap α}, smWf d lo m = true →
    smWf d lo (m.filter p) = true
  | _, [], _ => rfl
  | lo, (a, w) :: r, hw => by
    simp only [smWf, Bool.and_eq_true, decide_eq_true_eq] at hw
    by_cases hp : p (a, w) = true
    · simp [List.filter, hp, smWf, hw.1.1, hw.1.2, smWf_filter p hw.2]
    · simp only [Bool.not_eq_true] at hp
      simp only [List.filter, hp]
      exact smWf_mono (by omega) (smWf_filter p hw.2)

/-! ### Byte memories -/

theorem wrByte_wf {m : List Host.Cell} (a : Nat) (v : Byte) (w : Memory.wf m = true) : Memory.wf (wrByte m a v) = true :=
  smPut_wf (Nat.zero_le a) w

theorem wrBytes_wf : ∀ {m : List Host.Cell} (a : Nat) (b : Bytes), Memory.wf m = true → Memory.wf (wrBytes m a b) = true
  | _, _, [], w => w
  | _, a, _ :: r, w => wrBytes_wf (a + 1) r (wrByte_wf a _ w)

theorem clearRange_wf {m : List Host.Cell} (lo hi : Nat) (w : Memory.wf m = true) : Memory.wf (clearRange m lo hi) = true :=
  smWf_filter _ w

theorem rdByte_wrByte_same {m : List Host.Cell} {a : Nat} {v : Byte} (w : Memory.wf m = true) :
    rdByte (wrByte m a v) a = v := smGet_smPut_same w

theorem rdByte_wrByte_other {m : List Host.Cell} {a b : Nat} {v : Byte} (h : b ≠ a) (w : Memory.wf m = true) :
    rdByte (wrByte m a v) b = rdByte m b := smGet_smPut_other h w

/-- A store of bytes leaves every address outside them alone. -/
theorem rdByte_wrBytes_other : ∀ {m : List Host.Cell} {a : Nat} (l : Bytes) {b : Nat}, Memory.wf m = true →
    b < a ∨ a + l.length ≤ b → rdByte (wrBytes m a l) b = rdByte m b
  | _, _, [], _, _, _ => rfl
  | m, a, v :: r, b, w, h => by
    have hb : b ≠ a := by
      rcases h with h | h
      · omega
      · simp only [List.length_cons] at h; omega
    rw [wrBytes, rdByte_wrBytes_other r (wrByte_wf a v w) (by simp only [List.length_cons] at h; omega),
      rdByte_wrByte_other hb w]

/-- A read after a store of bytes gives them. -/
theorem rdBytes_wrBytes_same : ∀ {m : List Host.Cell} {a : Nat} (l : Bytes), Memory.wf m = true →
    rdBytes (wrBytes m a l) a l.length = l
  | _, _, [], _ => rfl
  | m, a, v :: r, w => by
    have w1 := wrByte_wf a v w
    simp only [List.length_cons, rdBytes, wrBytes]
    rw [rdByte_wrBytes_other r w1 (Or.inl (Nat.lt_succ_self a)), rdByte_wrByte_same w, rdBytes_wrBytes_same r w1]

/-- A store leaves every number that lies outside its bytes. -/
theorem rdBytes_wrBytes_other {m : List Host.Cell} {a : Nat} (l : Bytes) (w : Memory.wf m = true) : ∀ (n : Nat) {b : Nat},
    b + n ≤ a ∨ a + l.length ≤ b → rdBytes (wrBytes m a l) b n = rdBytes m b n
  | 0, _, _ => rfl
  | n + 1, b, h => by
    have first := rdByte_wrBytes_other (m := m) (a := a) l (b := b) w (by omega)
    have rest := rdBytes_wrBytes_other (m := m) (a := a) l w n (b := b + 1) (by omega)
    simp only [rdBytes, first, rest]

/-- A cleared range reads as zero outside what stays. -/
theorem rdByte_clearRange {m : List Host.Cell} : ∀ {lo' : Nat} (lo hi b : Nat), smWf (0 : Byte) lo' m = true →
    rdByte (clearRange m lo hi) b = if lo ≤ b ∧ b < hi then 0 else rdByte m b := by
  induction m with
  | nil => intro lo' lo hi b _; simp [clearRange, rdByte, smGet]
  | cons x r ih =>
    intro lo' lo hi b w
    simp only [smWf, Bool.and_eq_true, decide_eq_true_eq] at w
    have ihr := ih lo hi b w.2
    simp only [clearRange, rdByte] at ihr ⊢
    by_cases hx : x.1 < lo ∨ hi ≤ x.1
    · have hx' : (decide (x.1 < lo) || decide (hi ≤ x.1)) = true := by simpa using hx
      simp only [List.filter, hx']
      by_cases hb : b = x.1
      · subst hb
        simp only [smGet, if_true]
        rw [if_neg (by omega)]
      · by_cases hl : b < x.1
        · simp only [smGet, hb, hl, if_true, if_false]; simp
        · simp only [smGet, hb, hl, if_false]; exact ihr
    · have hx' : (decide (x.1 < lo) || decide (hi ≤ x.1)) = false := by simp; omega
      simp only [List.filter, hx']
      by_cases hb : b = x.1
      · subst hb
        rw [ihr, if_pos (by omega), if_pos (by omega)]
      · by_cases hl : b < x.1
        · rw [ihr]
          simp only [smGet, hb, hl, if_true, if_false]
          rw [smGet_below w.2 (by omega)]
        · rw [ihr]; simp only [smGet, hb, hl, if_false]

/-- Clearing a range leaves what lies below it. -/
theorem rdBytes_clearRange {m : List Host.Cell} (lo hi : Nat) (w : Memory.wf m = true) : ∀ (n : Nat) {b : Nat}, b + n ≤ lo →
    rdBytes (clearRange m lo hi) b n = rdBytes m b n
  | 0, _, _ => rfl
  | n + 1, b, h => by
    have first := rdByte_clearRange lo hi b w
    rw [if_neg (by omega)] at first
    simp only [rdBytes, first, rdBytes_clearRange lo hi w n (b := b + 1) (by omega)]

end Sys2Proof.Laws
end

