-- ==== Sys2Proof/Laws/Report.lean ====
section
/-! SUPPORT. Sys2Proof/Laws/Report.lean: which fields of the state each reporting operation leaves alone. -/

set_option linter.unusedTactic false
set_option linter.unnecessarySeqFocus false
set_option linter.unreachableTactic false
set_option linter.unusedSimpArgs false

namespace Sys2Proof.Machine

/-- A fold whose function leaves a field alone leaves it alone. -/
theorem foldl_keeps {α β : Type} (f : State → β) (g : State → α → State) (h : ∀ t x, f (g t x) = f t) :
    ∀ (l : List α) (s : State), f (l.foldl g s) = f s
  | [], _ => rfl
  | x :: r, s => (foldl_keeps f g h r (g s x)).trans (h s x)

variable (s : State)

@[simp] theorem State.traceTo_pending (k : Nat) (x : TraceRec) : (s.traceTo k x).pending = s.pending := by
  simp only [State.traceTo]
  (repeat' split) <;> rfl
@[simp] theorem State.traceTo_variant (k : Nat) (x : TraceRec) : (s.traceTo k x).variant = s.variant := by
  simp only [State.traceTo]
  (repeat' split) <;> rfl
@[simp] theorem State.traceTo_now (k : Nat) (x : TraceRec) : (s.traceTo k x).now = s.now := by
  simp only [State.traceTo]
  (repeat' split) <;> rfl
@[simp] theorem State.traceTo_draws (k : Nat) (x : TraceRec) : (s.traceTo k x).draws = s.draws := by
  simp only [State.traceTo]
  (repeat' split) <;> rfl
@[simp] theorem State.traceTo_step (k : Nat) (x : TraceRec) : (s.traceTo k x).step = s.step := by
  simp only [State.traceTo]
  (repeat' split) <;> rfl
@[simp] theorem State.traceTo_mem (k : Nat) (x : TraceRec) : (s.traceTo k x).mem = s.mem := by
  simp only [State.traceTo]
  (repeat' split) <;> rfl
@[simp] theorem State.traceTo_tiles (k : Nat) (x : TraceRec) : (s.traceTo k x).tiles = s.tiles := by
  simp only [State.traceTo]
  (repeat' split) <;> rfl
@[simp] theorem State.traceTo_sync (k : Nat) (x : TraceRec) : (s.traceTo k x).sync = s.sync := by
  simp only [State.traceTo]
  (repeat' split) <;> rfl
@[simp] theorem State.traceTo_pbs (k : Nat) (x : TraceRec) : (s.traceTo k x).pbs = s.pbs := by
  simp only [State.traceTo]
  (repeat' split) <;> rfl
@[simp] theorem State.traceTo_reduce (k : Nat) (x : TraceRec) : (s.traceTo k x).reduce = s.reduce := by
  simp only [State.traceTo]
  (repeat' split) <;> rfl
@[simp] theorem State.traceTo_links (k : Nat) (x : TraceRec) : (s.traceTo k x).links = s.links := by
  simp only [State.traceTo]
  (repeat' split) <;> rfl
@[simp] theorem State.traceTo_zOut (k : Nat) (x : TraceRec) : (s.traceTo k x).zOut = s.zOut := by
  simp only [State.traceTo]
  (repeat' split) <;> rfl
@[simp] theorem State.traceTo_rillOut (k : Nat) (x : TraceRec) : (s.traceTo k x).rillOut = s.rillOut := by
  simp only [State.traceTo]
  (repeat' split) <;> rfl
@[simp] theorem State.traceTo_mailboxes (k : Nat) (x : TraceRec) : (s.traceTo k x).mailboxes = s.mailboxes := by
  simp only [State.traceTo]
  (repeat' split) <;> rfl
@[simp] theorem State.traceTo_host (k : Nat) (x : TraceRec) : (s.traceTo k x).host = s.host := by
  simp only [State.traceTo]
  (repeat' split) <;> rfl
@[simp] theorem State.traceTo_program (k : Nat) (x : TraceRec) : (s.traceTo k x).program = s.program := by
  simp only [State.traceTo]
  (repeat' split) <;> rfl
@[simp] theorem State.traceTo_power (k : Nat) (x : TraceRec) : (s.traceTo k x).power = s.power := by
  simp only [State.traceTo]
  (repeat' split) <;> rfl
@[simp] theorem State.traceTo_seam (k : Nat) (x : TraceRec) : (s.traceTo k x).seam = s.seam := by
  simp only [State.traceTo]
  (repeat' split) <;> rfl
@[simp] theorem State.traceTo_arbiter (k : Nat) (x : TraceRec) : (s.traceTo k x).arbiter = s.arbiter := by
  simp only [State.traceTo]
  (repeat' split) <;> rfl
@[simp] theorem State.traceTo_repair (k : Nat) (x : TraceRec) : (s.traceTo k x).repair = s.repair := by
  simp only [State.traceTo]
  (repeat' split) <;> rfl
@[simp] theorem State.traceTo_pages (k : Nat) (x : TraceRec) : (s.traceTo k x).pages = s.pages := by
  simp only [State.traceTo]
  (repeat' split) <;> rfl
@[simp] theorem State.traceTo_survival (k : Nat) (x : TraceRec) : (s.traceTo k x).survival = s.survival := by
  simp only [State.traceTo]
  (repeat' split) <;> rfl
@[simp] theorem State.traceTo_boot (k : Nat) (x : TraceRec) : (s.traceTo k x).boot = s.boot := by
  simp only [State.traceTo]
  (repeat' split) <;> rfl
@[simp] theorem State.traceTo_checks (k : Nat) (x : TraceRec) : (s.traceTo k x).checks = s.checks := by
  simp only [State.traceTo]
  (repeat' split) <;> rfl
@[simp] theorem State.traceTo_mesh (k : Nat) (x : TraceRec) : (s.traceTo k x).mesh = s.mesh := by
  simp only [State.traceTo]
  (repeat' split) <;> rfl
@[simp] theorem State.traceTo_rill (k : Nat) (x : TraceRec) : (s.traceTo k x).rill = s.rill := by
  simp only [State.traceTo]
  (repeat' split) <;> rfl

@[simp] theorem State.trace1_pending (x : TraceRec) : (s.trace1 x).pending = s.pending := by
  simp [State.trace1]
@[simp] theorem State.trace1_variant (x : TraceRec) : (s.trace1 x).variant = s.variant := by
  simp [State.trace1]
@[simp] theorem State.trace1_now (x : TraceRec) : (s.trace1 x).now = s.now := by
  simp [State.trace1]
@[simp] theorem State.trace1_draws (x : TraceRec) : (s.trace1 x).draws = s.draws := by
  simp [State.trace1]
@[simp] theorem State.trace1_step (x : TraceRec) : (s.trace1 x).step = s.step := by
  simp [State.trace1]
@[simp] theorem State.trace1_mem (x : TraceRec) : (s.trace1 x).mem = s.mem := by
  simp [State.trace1]
@[simp] theorem State.trace1_tiles (x : TraceRec) : (s.trace1 x).tiles = s.tiles := by
  simp [State.trace1]
@[simp] theorem State.trace1_sync (x : TraceRec) : (s.trace1 x).sync = s.sync := by
  simp [State.trace1]
@[simp] theorem State.trace1_pbs (x : TraceRec) : (s.trace1 x).pbs = s.pbs := by
  simp [State.trace1]
@[simp] theorem State.trace1_reduce (x : TraceRec) : (s.trace1 x).reduce = s.reduce := by
  simp [State.trace1]
@[simp] theorem State.trace1_links (x : TraceRec) : (s.trace1 x).links = s.links := by
  simp [State.trace1]
@[simp] theorem State.trace1_zOut (x : TraceRec) : (s.trace1 x).zOut = s.zOut := by
  simp [State.trace1]
@[simp] theorem State.trace1_rillOut (x : TraceRec) : (s.trace1 x).rillOut = s.rillOut := by
  simp [State.trace1]
@[simp] theorem State.trace1_mailboxes (x : TraceRec) : (s.trace1 x).mailboxes = s.mailboxes := by
  simp [State.trace1]
@[simp] theorem State.trace1_host (x : TraceRec) : (s.trace1 x).host = s.host := by
  simp [State.trace1]
@[simp] theorem State.trace1_program (x : TraceRec) : (s.trace1 x).program = s.program := by
  simp [State.trace1]
@[simp] theorem State.trace1_power (x : TraceRec) : (s.trace1 x).power = s.power := by
  simp [State.trace1]
@[simp] theorem State.trace1_seam (x : TraceRec) : (s.trace1 x).seam = s.seam := by
  simp [State.trace1]
@[simp] theorem State.trace1_arbiter (x : TraceRec) : (s.trace1 x).arbiter = s.arbiter := by
  simp [State.trace1]
@[simp] theorem State.trace1_repair (x : TraceRec) : (s.trace1 x).repair = s.repair := by
  simp [State.trace1]
@[simp] theorem State.trace1_pages (x : TraceRec) : (s.trace1 x).pages = s.pages := by
  simp [State.trace1]
@[simp] theorem State.trace1_survival (x : TraceRec) : (s.trace1 x).survival = s.survival := by
  simp [State.trace1]
@[simp] theorem State.trace1_boot (x : TraceRec) : (s.trace1 x).boot = s.boot := by
  simp [State.trace1]
@[simp] theorem State.trace1_checks (x : TraceRec) : (s.trace1 x).checks = s.checks := by
  simp [State.trace1]
@[simp] theorem State.trace1_mesh (x : TraceRec) : (s.trace1 x).mesh = s.mesh := by
  simp [State.trace1]
@[simp] theorem State.trace1_rill (x : TraceRec) : (s.trace1 x).rill = s.rill := by
  simp [State.trace1]

@[simp] theorem State.traceAt_pending (k : Nat) (b : Bool) (p : BitVec 12) (c : BitVec 64) (d : Nat) : (s.traceAt k b p c d).pending = s.pending := by
  simp [State.traceAt]
@[simp] theorem State.traceAt_variant (k : Nat) (b : Bool) (p : BitVec 12) (c : BitVec 64) (d : Nat) : (s.traceAt k b p c d).variant = s.variant := by
  simp [State.traceAt]
@[simp] theorem State.traceAt_now (k : Nat) (b : Bool) (p : BitVec 12) (c : BitVec 64) (d : Nat) : (s.traceAt k b p c d).now = s.now := by
  simp [State.traceAt]
@[simp] theorem State.traceAt_draws (k : Nat) (b : Bool) (p : BitVec 12) (c : BitVec 64) (d : Nat) : (s.traceAt k b p c d).draws = s.draws := by
  simp [State.traceAt]
@[simp] theorem State.traceAt_step (k : Nat) (b : Bool) (p : BitVec 12) (c : BitVec 64) (d : Nat) : (s.traceAt k b p c d).step = s.step := by
  simp [State.traceAt]
@[simp] theorem State.traceAt_mem (k : Nat) (b : Bool) (p : BitVec 12) (c : BitVec 64) (d : Nat) : (s.traceAt k b p c d).mem = s.mem := by
  simp [State.traceAt]
@[simp] theorem State.traceAt_tiles (k : Nat) (b : Bool) (p : BitVec 12) (c : BitVec 64) (d : Nat) : (s.traceAt k b p c d).tiles = s.tiles := by
  simp [State.traceAt]
@[simp] theorem State.traceAt_sync (k : Nat) (b : Bool) (p : BitVec 12) (c : BitVec 64) (d : Nat) : (s.traceAt k b p c d).sync = s.sync := by
  simp [State.traceAt]
@[simp] theorem State.traceAt_pbs (k : Nat) (b : Bool) (p : BitVec 12) (c : BitVec 64) (d : Nat) : (s.traceAt k b p c d).pbs = s.pbs := by
  simp [State.traceAt]
@[simp] theorem State.traceAt_reduce (k : Nat) (b : Bool) (p : BitVec 12) (c : BitVec 64) (d : Nat) : (s.traceAt k b p c d).reduce = s.reduce := by
  simp [State.traceAt]
@[simp] theorem State.traceAt_links (k : Nat) (b : Bool) (p : BitVec 12) (c : BitVec 64) (d : Nat) : (s.traceAt k b p c d).links = s.links := by
  simp [State.traceAt]
@[simp] theorem State.traceAt_zOut (k : Nat) (b : Bool) (p : BitVec 12) (c : BitVec 64) (d : Nat) : (s.traceAt k b p c d).zOut = s.zOut := by
  simp [State.traceAt]
@[simp] theorem State.traceAt_rillOut (k : Nat) (b : Bool) (p : BitVec 12) (c : BitVec 64) (d : Nat) : (s.traceAt k b p c d).rillOut = s.rillOut := by
  simp [State.traceAt]
@[simp] theorem State.traceAt_mailboxes (k : Nat) (b : Bool) (p : BitVec 12) (c : BitVec 64) (d : Nat) : (s.traceAt k b p c d).mailboxes = s.mailboxes := by
  simp [State.traceAt]
@[simp] theorem State.traceAt_host (k : Nat) (b : Bool) (p : BitVec 12) (c : BitVec 64) (d : Nat) : (s.traceAt k b p c d).host = s.host := by
  simp [State.traceAt]
@[simp] theorem State.traceAt_program (k : Nat) (b : Bool) (p : BitVec 12) (c : BitVec 64) (d : Nat) : (s.traceAt k b p c d).program = s.program := by
  simp [State.traceAt]
@[simp] theorem State.traceAt_power (k : Nat) (b : Bool) (p : BitVec 12) (c : BitVec 64) (d : Nat) : (s.traceAt k b p c d).power = s.power := by
  simp [State.traceAt]
@[simp] theorem State.traceAt_seam (k : Nat) (b : Bool) (p : BitVec 12) (c : BitVec 64) (d : Nat) : (s.traceAt k b p c d).seam = s.seam := by
  simp [State.traceAt]
@[simp] theorem State.traceAt_arbiter (k : Nat) (b : Bool) (p : BitVec 12) (c : BitVec 64) (d : Nat) : (s.traceAt k b p c d).arbiter = s.arbiter := by
  simp [State.traceAt]
@[simp] theorem State.traceAt_repair (k : Nat) (b : Bool) (p : BitVec 12) (c : BitVec 64) (d : Nat) : (s.traceAt k b p c d).repair = s.repair := by
  simp [State.traceAt]
@[simp] theorem State.traceAt_pages (k : Nat) (b : Bool) (p : BitVec 12) (c : BitVec 64) (d : Nat) : (s.traceAt k b p c d).pages = s.pages := by
  simp [State.traceAt]
@[simp] theorem State.traceAt_survival (k : Nat) (b : Bool) (p : BitVec 12) (c : BitVec 64) (d : Nat) : (s.traceAt k b p c d).survival = s.survival := by
  simp [State.traceAt]
@[simp] theorem State.traceAt_boot (k : Nat) (b : Bool) (p : BitVec 12) (c : BitVec 64) (d : Nat) : (s.traceAt k b p c d).boot = s.boot := by
  simp [State.traceAt]
@[simp] theorem State.traceAt_checks (k : Nat) (b : Bool) (p : BitVec 12) (c : BitVec 64) (d : Nat) : (s.traceAt k b p c d).checks = s.checks := by
  simp [State.traceAt]
@[simp] theorem State.traceAt_mesh (k : Nat) (b : Bool) (p : BitVec 12) (c : BitVec 64) (d : Nat) : (s.traceAt k b p c d).mesh = s.mesh := by
  simp [State.traceAt]
@[simp] theorem State.traceAt_rill (k : Nat) (b : Bool) (p : BitVec 12) (c : BitVec 64) (d : Nat) : (s.traceAt k b p c d).rill = s.rill := by
  simp [State.traceAt]

@[simp] theorem State.freezeRings_pending : s.freezeRings.pending = s.pending := rfl
@[simp] theorem State.freezeRings_variant : s.freezeRings.variant = s.variant := rfl
@[simp] theorem State.freezeRings_now : s.freezeRings.now = s.now := rfl
@[simp] theorem State.freezeRings_draws : s.freezeRings.draws = s.draws := rfl
@[simp] theorem State.freezeRings_step : s.freezeRings.step = s.step := rfl
@[simp] theorem State.freezeRings_mem : s.freezeRings.mem = s.mem := rfl
@[simp] theorem State.freezeRings_tiles : s.freezeRings.tiles = s.tiles := rfl
@[simp] theorem State.freezeRings_sync : s.freezeRings.sync = s.sync := rfl
@[simp] theorem State.freezeRings_pbs : s.freezeRings.pbs = s.pbs := rfl
@[simp] theorem State.freezeRings_reduce : s.freezeRings.reduce = s.reduce := rfl
@[simp] theorem State.freezeRings_links : s.freezeRings.links = s.links := rfl
@[simp] theorem State.freezeRings_zOut : s.freezeRings.zOut = s.zOut := rfl
@[simp] theorem State.freezeRings_rillOut : s.freezeRings.rillOut = s.rillOut := rfl
@[simp] theorem State.freezeRings_mailboxes : s.freezeRings.mailboxes = s.mailboxes := rfl
@[simp] theorem State.freezeRings_host : s.freezeRings.host = s.host := rfl
@[simp] theorem State.freezeRings_program : s.freezeRings.program = s.program := rfl
@[simp] theorem State.freezeRings_power : s.freezeRings.power = s.power := rfl
@[simp] theorem State.freezeRings_seam : s.freezeRings.seam = s.seam := rfl
@[simp] theorem State.freezeRings_arbiter : s.freezeRings.arbiter = s.arbiter := rfl
@[simp] theorem State.freezeRings_repair : s.freezeRings.repair = s.repair := rfl
@[simp] theorem State.freezeRings_pages : s.freezeRings.pages = s.pages := rfl
@[simp] theorem State.freezeRings_survival : s.freezeRings.survival = s.survival := rfl
@[simp] theorem State.freezeRings_boot : s.freezeRings.boot = s.boot := rfl
@[simp] theorem State.freezeRings_checks : s.freezeRings.checks = s.checks := rfl
@[simp] theorem State.freezeRings_mesh : s.freezeRings.mesh = s.mesh := rfl
@[simp] theorem State.freezeRings_rill : s.freezeRings.rill = s.rill := rfl

@[simp] theorem State.closeSession_pending (id : Nat) (c : Code) : (s.closeSession id c).pending = s.pending := rfl
@[simp] theorem State.closeSession_variant (id : Nat) (c : Code) : (s.closeSession id c).variant = s.variant := rfl
@[simp] theorem State.closeSession_now (id : Nat) (c : Code) : (s.closeSession id c).now = s.now := rfl
@[simp] theorem State.closeSession_draws (id : Nat) (c : Code) : (s.closeSession id c).draws = s.draws := rfl
@[simp] theorem State.closeSession_step (id : Nat) (c : Code) : (s.closeSession id c).step = s.step := rfl
@[simp] theorem State.closeSession_mem (id : Nat) (c : Code) : (s.closeSession id c).mem = s.mem := rfl
@[simp] theorem State.closeSession_tiles (id : Nat) (c : Code) : (s.closeSession id c).tiles = s.tiles := rfl
@[simp] theorem State.closeSession_sync (id : Nat) (c : Code) : (s.closeSession id c).sync = s.sync := rfl
@[simp] theorem State.closeSession_pbs (id : Nat) (c : Code) : (s.closeSession id c).pbs = s.pbs := rfl
@[simp] theorem State.closeSession_reduce (id : Nat) (c : Code) : (s.closeSession id c).reduce = s.reduce := rfl
@[simp] theorem State.closeSession_links (id : Nat) (c : Code) : (s.closeSession id c).links = s.links := rfl
@[simp] theorem State.closeSession_zOut (id : Nat) (c : Code) : (s.closeSession id c).zOut = s.zOut := rfl
@[simp] theorem State.closeSession_rillOut (id : Nat) (c : Code) : (s.closeSession id c).rillOut = s.rillOut := rfl
@[simp] theorem State.closeSession_mailboxes (id : Nat) (c : Code) : (s.closeSession id c).mailboxes = s.mailboxes := rfl
@[simp] theorem State.closeSession_program (id : Nat) (c : Code) : (s.closeSession id c).program = s.program := rfl
@[simp] theorem State.closeSession_power (id : Nat) (c : Code) : (s.closeSession id c).power = s.power := rfl
@[simp] theorem State.closeSession_seam (id : Nat) (c : Code) : (s.closeSession id c).seam = s.seam := rfl
@[simp] theorem State.closeSession_arbiter (id : Nat) (c : Code) : (s.closeSession id c).arbiter = s.arbiter := rfl
@[simp] theorem State.closeSession_repair (id : Nat) (c : Code) : (s.closeSession id c).repair = s.repair := rfl
@[simp] theorem State.closeSession_pages (id : Nat) (c : Code) : (s.closeSession id c).pages = s.pages := rfl
@[simp] theorem State.closeSession_survival (id : Nat) (c : Code) : (s.closeSession id c).survival = s.survival := rfl
@[simp] theorem State.closeSession_trace (id : Nat) (c : Code) : (s.closeSession id c).trace = s.trace := rfl
@[simp] theorem State.closeSession_boot (id : Nat) (c : Code) : (s.closeSession id c).boot = s.boot := rfl
@[simp] theorem State.closeSession_checks (id : Nat) (c : Code) : (s.closeSession id c).checks = s.checks := rfl
@[simp] theorem State.closeSession_mesh (id : Nat) (c : Code) : (s.closeSession id c).mesh = s.mesh := rfl
@[simp] theorem State.closeSession_rill (id : Nat) (c : Code) : (s.closeSession id c).rill = s.rill := rfl

@[simp] theorem State.eventTo_pending (id : Nat) (e : Event) : (s.eventTo id e).pending = s.pending := by
  simp only [State.eventTo]
  (repeat' split) <;> rfl
@[simp] theorem State.eventTo_variant (id : Nat) (e : Event) : (s.eventTo id e).variant = s.variant := by
  simp only [State.eventTo]
  (repeat' split) <;> rfl
@[simp] theorem State.eventTo_now (id : Nat) (e : Event) : (s.eventTo id e).now = s.now := by
  simp only [State.eventTo]
  (repeat' split) <;> rfl
@[simp] theorem State.eventTo_draws (id : Nat) (e : Event) : (s.eventTo id e).draws = s.draws := by
  simp only [State.eventTo]
  (repeat' split) <;> rfl
@[simp] theorem State.eventTo_step (id : Nat) (e : Event) : (s.eventTo id e).step = s.step := by
  simp only [State.eventTo]
  (repeat' split) <;> rfl
@[simp] theorem State.eventTo_mem (id : Nat) (e : Event) : (s.eventTo id e).mem = s.mem := by
  simp only [State.eventTo]
  (repeat' split) <;> rfl
@[simp] theorem State.eventTo_tiles (id : Nat) (e : Event) : (s.eventTo id e).tiles = s.tiles := by
  simp only [State.eventTo]
  (repeat' split) <;> rfl
@[simp] theorem State.eventTo_sync (id : Nat) (e : Event) : (s.eventTo id e).sync = s.sync := by
  simp only [State.eventTo]
  (repeat' split) <;> rfl
@[simp] theorem State.eventTo_pbs (id : Nat) (e : Event) : (s.eventTo id e).pbs = s.pbs := by
  simp only [State.eventTo]
  (repeat' split) <;> rfl
@[simp] theorem State.eventTo_reduce (id : Nat) (e : Event) : (s.eventTo id e).reduce = s.reduce := by
  simp only [State.eventTo]
  (repeat' split) <;> rfl
@[simp] theorem State.eventTo_links (id : Nat) (e : Event) : (s.eventTo id e).links = s.links := by
  simp only [State.eventTo]
  (repeat' split) <;> rfl
@[simp] theorem State.eventTo_zOut (id : Nat) (e : Event) : (s.eventTo id e).zOut = s.zOut := by
  simp only [State.eventTo]
  (repeat' split) <;> rfl
@[simp] theorem State.eventTo_rillOut (id : Nat) (e : Event) : (s.eventTo id e).rillOut = s.rillOut := by
  simp only [State.eventTo]
  (repeat' split) <;> rfl
@[simp] theorem State.eventTo_mailboxes (id : Nat) (e : Event) : (s.eventTo id e).mailboxes = s.mailboxes := by
  simp only [State.eventTo]
  (repeat' split) <;> rfl
@[simp] theorem State.eventTo_program (id : Nat) (e : Event) : (s.eventTo id e).program = s.program := by
  simp only [State.eventTo]
  (repeat' split) <;> rfl
@[simp] theorem State.eventTo_power (id : Nat) (e : Event) : (s.eventTo id e).power = s.power := by
  simp only [State.eventTo]
  (repeat' split) <;> rfl
@[simp] theorem State.eventTo_seam (id : Nat) (e : Event) : (s.eventTo id e).seam = s.seam := by
  simp only [State.eventTo]
  (repeat' split) <;> rfl
@[simp] theorem State.eventTo_arbiter (id : Nat) (e : Event) : (s.eventTo id e).arbiter = s.arbiter := by
  simp only [State.eventTo]
  (repeat' split) <;> rfl
@[simp] theorem State.eventTo_repair (id : Nat) (e : Event) : (s.eventTo id e).repair = s.repair := by
  simp only [State.eventTo]
  (repeat' split) <;> rfl
@[simp] theorem State.eventTo_pages (id : Nat) (e : Event) : (s.eventTo id e).pages = s.pages := by
  simp only [State.eventTo]
  (repeat' split) <;> rfl
@[simp] theorem State.eventTo_survival (id : Nat) (e : Event) : (s.eventTo id e).survival = s.survival := by
  simp only [State.eventTo]
  (repeat' split) <;> rfl
@[simp] theorem State.eventTo_trace (id : Nat) (e : Event) : (s.eventTo id e).trace = s.trace := by
  simp only [State.eventTo]
  (repeat' split) <;> rfl
@[simp] theorem State.eventTo_boot (id : Nat) (e : Event) : (s.eventTo id e).boot = s.boot := by
  simp only [State.eventTo]
  (repeat' split) <;> rfl
@[simp] theorem State.eventTo_checks (id : Nat) (e : Event) : (s.eventTo id e).checks = s.checks := by
  simp only [State.eventTo]
  (repeat' split) <;> rfl
@[simp] theorem State.eventTo_mesh (id : Nat) (e : Event) : (s.eventTo id e).mesh = s.mesh := by
  simp only [State.eventTo]
  (repeat' split) <;> rfl
@[simp] theorem State.eventTo_rill (id : Nat) (e : Event) : (s.eventTo id e).rill = s.rill := by
  simp only [State.eventTo]
  (repeat' split) <;> rfl

@[simp] theorem State.sendEvent_pending (e : Event) : (s.sendEvent e).pending = s.pending := by
  simp only [State.sendEvent]
  exact foldl_keeps _ _ (fun t x => by simp) _ s
@[simp] theorem State.sendEvent_variant (e : Event) : (s.sendEvent e).variant = s.variant := by
  simp only [State.sendEvent]
  exact foldl_keeps _ _ (fun t x => by simp) _ s
@[simp] theorem State.sendEvent_now (e : Event) : (s.sendEvent e).now = s.now := by
  simp only [State.sendEvent]
  exact foldl_keeps _ _ (fun t x => by simp) _ s
@[simp] theorem State.sendEvent_draws (e : Event) : (s.sendEvent e).draws = s.draws := by
  simp only [State.sendEvent]
  exact foldl_keeps _ _ (fun t x => by simp) _ s
@[simp] theorem State.sendEvent_step (e : Event) : (s.sendEvent e).step = s.step := by
  simp only [State.sendEvent]
  exact foldl_keeps _ _ (fun t x => by simp) _ s
@[simp] theorem State.sendEvent_mem (e : Event) : (s.sendEvent e).mem = s.mem := by
  simp only [State.sendEvent]
  exact foldl_keeps _ _ (fun t x => by simp) _ s
@[simp] theorem State.sendEvent_tiles (e : Event) : (s.sendEvent e).tiles = s.tiles := by
  simp only [State.sendEvent]
  exact foldl_keeps _ _ (fun t x => by simp) _ s
@[simp] theorem State.sendEvent_sync (e : Event) : (s.sendEvent e).sync = s.sync := by
  simp only [State.sendEvent]
  exact foldl_keeps _ _ (fun t x => by simp) _ s
@[simp] theorem State.sendEvent_pbs (e : Event) : (s.sendEvent e).pbs = s.pbs := by
  simp only [State.sendEvent]
  exact foldl_keeps _ _ (fun t x => by simp) _ s
@[simp] theorem State.sendEvent_reduce (e : Event) : (s.sendEvent e).reduce = s.reduce := by
  simp only [State.sendEvent]
  exact foldl_keeps _ _ (fun t x => by simp) _ s
@[simp] theorem State.sendEvent_links (e : Event) : (s.sendEvent e).links = s.links := by
  simp only [State.sendEvent]
  exact foldl_keeps _ _ (fun t x => by simp) _ s
@[simp] theorem State.sendEvent_zOut (e : Event) : (s.sendEvent e).zOut = s.zOut := by
  simp only [State.sendEvent]
  exact foldl_keeps _ _ (fun t x => by simp) _ s
@[simp] theorem State.sendEvent_rillOut (e : Event) : (s.sendEvent e).rillOut = s.rillOut := by
  simp only [State.sendEvent]
  exact foldl_keeps _ _ (fun t x => by simp) _ s
@[simp] theorem State.sendEvent_mailboxes (e : Event) : (s.sendEvent e).mailboxes = s.mailboxes := by
  simp only [State.sendEvent]
  exact foldl_keeps _ _ (fun t x => by simp) _ s
@[simp] theorem State.sendEvent_program (e : Event) : (s.sendEvent e).program = s.program := by
  simp only [State.sendEvent]
  exact foldl_keeps _ _ (fun t x => by simp) _ s
@[simp] theorem State.sendEvent_power (e : Event) : (s.sendEvent e).power = s.power := by
  simp only [State.sendEvent]
  exact foldl_keeps _ _ (fun t x => by simp) _ s
@[simp] theorem State.sendEvent_seam (e : Event) : (s.sendEvent e).seam = s.seam := by
  simp only [State.sendEvent]
  exact foldl_keeps _ _ (fun t x => by simp) _ s
@[simp] theorem State.sendEvent_arbiter (e : Event) : (s.sendEvent e).arbiter = s.arbiter := by
  simp only [State.sendEvent]
  exact foldl_keeps _ _ (fun t x => by simp) _ s
@[simp] theorem State.sendEvent_repair (e : Event) : (s.sendEvent e).repair = s.repair := by
  simp only [State.sendEvent]
  exact foldl_keeps _ _ (fun t x => by simp) _ s
@[simp] theorem State.sendEvent_pages (e : Event) : (s.sendEvent e).pages = s.pages := by
  simp only [State.sendEvent]
  exact foldl_keeps _ _ (fun t x => by simp) _ s
@[simp] theorem State.sendEvent_survival (e : Event) : (s.sendEvent e).survival = s.survival := by
  simp only [State.sendEvent]
  exact foldl_keeps _ _ (fun t x => by simp) _ s
@[simp] theorem State.sendEvent_trace (e : Event) : (s.sendEvent e).trace = s.trace := by
  simp only [State.sendEvent]
  exact foldl_keeps _ _ (fun t x => by simp) _ s
@[simp] theorem State.sendEvent_boot (e : Event) : (s.sendEvent e).boot = s.boot := by
  simp only [State.sendEvent]
  exact foldl_keeps _ _ (fun t x => by simp) _ s
@[simp] theorem State.sendEvent_checks (e : Event) : (s.sendEvent e).checks = s.checks := by
  simp only [State.sendEvent]
  exact foldl_keeps _ _ (fun t x => by simp) _ s
@[simp] theorem State.sendEvent_mesh (e : Event) : (s.sendEvent e).mesh = s.mesh := by
  simp only [State.sendEvent]
  exact foldl_keeps _ _ (fun t x => by simp) _ s
@[simp] theorem State.sendEvent_rill (e : Event) : (s.sendEvent e).rill = s.rill := by
  simp only [State.sendEvent]
  exact foldl_keeps _ _ (fun t x => by simp) _ s

@[simp] theorem State.commandDone_pending (o : Owed) (c : Code) : (s.commandDone o c).pending = s.pending := by
  simp [State.commandDone]
@[simp] theorem State.commandDone_variant (o : Owed) (c : Code) : (s.commandDone o c).variant = s.variant := by
  simp [State.commandDone]
@[simp] theorem State.commandDone_now (o : Owed) (c : Code) : (s.commandDone o c).now = s.now := by
  simp [State.commandDone]
@[simp] theorem State.commandDone_draws (o : Owed) (c : Code) : (s.commandDone o c).draws = s.draws := by
  simp [State.commandDone]
@[simp] theorem State.commandDone_step (o : Owed) (c : Code) : (s.commandDone o c).step = s.step := by
  simp [State.commandDone]
@[simp] theorem State.commandDone_mem (o : Owed) (c : Code) : (s.commandDone o c).mem = s.mem := by
  simp [State.commandDone]
@[simp] theorem State.commandDone_tiles (o : Owed) (c : Code) : (s.commandDone o c).tiles = s.tiles := by
  simp [State.commandDone]
@[simp] theorem State.commandDone_sync (o : Owed) (c : Code) : (s.commandDone o c).sync = s.sync := by
  simp [State.commandDone]
@[simp] theorem State.commandDone_pbs (o : Owed) (c : Code) : (s.commandDone o c).pbs = s.pbs := by
  simp [State.commandDone]
@[simp] theorem State.commandDone_reduce (o : Owed) (c : Code) : (s.commandDone o c).reduce = s.reduce := by
  simp [State.commandDone]
@[simp] theorem State.commandDone_links (o : Owed) (c : Code) : (s.commandDone o c).links = s.links := by
  simp [State.commandDone]
@[simp] theorem State.commandDone_zOut (o : Owed) (c : Code) : (s.commandDone o c).zOut = s.zOut := by
  simp [State.commandDone]
@[simp] theorem State.commandDone_rillOut (o : Owed) (c : Code) : (s.commandDone o c).rillOut = s.rillOut := by
  simp [State.commandDone]
@[simp] theorem State.commandDone_mailboxes (o : Owed) (c : Code) : (s.commandDone o c).mailboxes = s.mailboxes := by
  simp [State.commandDone]
@[simp] theorem State.commandDone_program (o : Owed) (c : Code) : (s.commandDone o c).program = s.program := by
  simp [State.commandDone]
@[simp] theorem State.commandDone_power (o : Owed) (c : Code) : (s.commandDone o c).power = s.power := by
  simp [State.commandDone]
@[simp] theorem State.commandDone_seam (o : Owed) (c : Code) : (s.commandDone o c).seam = s.seam := by
  simp [State.commandDone]
@[simp] theorem State.commandDone_arbiter (o : Owed) (c : Code) : (s.commandDone o c).arbiter = s.arbiter := by
  simp [State.commandDone]
@[simp] theorem State.commandDone_repair (o : Owed) (c : Code) : (s.commandDone o c).repair = s.repair := by
  simp [State.commandDone]
@[simp] theorem State.commandDone_pages (o : Owed) (c : Code) : (s.commandDone o c).pages = s.pages := by
  simp [State.commandDone]
@[simp] theorem State.commandDone_survival (o : Owed) (c : Code) : (s.commandDone o c).survival = s.survival := by
  simp [State.commandDone]
@[simp] theorem State.commandDone_trace (o : Owed) (c : Code) : (s.commandDone o c).trace = s.trace := by
  simp [State.commandDone]
@[simp] theorem State.commandDone_boot (o : Owed) (c : Code) : (s.commandDone o c).boot = s.boot := by
  simp [State.commandDone]
@[simp] theorem State.commandDone_checks (o : Owed) (c : Code) : (s.commandDone o c).checks = s.checks := by
  simp [State.commandDone]
@[simp] theorem State.commandDone_mesh (o : Owed) (c : Code) : (s.commandDone o c).mesh = s.mesh := by
  simp [State.commandDone]
@[simp] theorem State.commandDone_rill (o : Owed) (c : Code) : (s.commandDone o c).rill = s.rill := by
  simp [State.commandDone]

@[simp] theorem State.count_pending (p i n : Nat) : (s.count p i n).pending = s.pending := rfl
@[simp] theorem State.count_variant (p i n : Nat) : (s.count p i n).variant = s.variant := rfl
@[simp] theorem State.count_now (p i n : Nat) : (s.count p i n).now = s.now := rfl
@[simp] theorem State.count_draws (p i n : Nat) : (s.count p i n).draws = s.draws := rfl
@[simp] theorem State.count_step (p i n : Nat) : (s.count p i n).step = s.step := rfl
@[simp] theorem State.count_mem (p i n : Nat) : (s.count p i n).mem = s.mem := rfl
@[simp] theorem State.count_sync (p i n : Nat) : (s.count p i n).sync = s.sync := rfl
@[simp] theorem State.count_pbs (p i n : Nat) : (s.count p i n).pbs = s.pbs := rfl
@[simp] theorem State.count_reduce (p i n : Nat) : (s.count p i n).reduce = s.reduce := rfl
@[simp] theorem State.count_links (p i n : Nat) : (s.count p i n).links = s.links := rfl
@[simp] theorem State.count_zOut (p i n : Nat) : (s.count p i n).zOut = s.zOut := rfl
@[simp] theorem State.count_rillOut (p i n : Nat) : (s.count p i n).rillOut = s.rillOut := rfl
@[simp] theorem State.count_mailboxes (p i n : Nat) : (s.count p i n).mailboxes = s.mailboxes := rfl
@[simp] theorem State.count_host (p i n : Nat) : (s.count p i n).host = s.host := rfl
@[simp] theorem State.count_program (p i n : Nat) : (s.count p i n).program = s.program := rfl
@[simp] theorem State.count_power (p i n : Nat) : (s.count p i n).power = s.power := rfl
@[simp] theorem State.count_seam (p i n : Nat) : (s.count p i n).seam = s.seam := rfl
@[simp] theorem State.count_arbiter (p i n : Nat) : (s.count p i n).arbiter = s.arbiter := rfl
@[simp] theorem State.count_repair (p i n : Nat) : (s.count p i n).repair = s.repair := rfl
@[simp] theorem State.count_pages (p i n : Nat) : (s.count p i n).pages = s.pages := rfl
@[simp] theorem State.count_survival (p i n : Nat) : (s.count p i n).survival = s.survival := rfl
@[simp] theorem State.count_trace (p i n : Nat) : (s.count p i n).trace = s.trace := rfl
@[simp] theorem State.count_boot (p i n : Nat) : (s.count p i n).boot = s.boot := rfl
@[simp] theorem State.count_checks (p i n : Nat) : (s.count p i n).checks = s.checks := rfl
@[simp] theorem State.count_mesh (p i n : Nat) : (s.count p i n).mesh = s.mesh := rfl
@[simp] theorem State.count_rill (p i n : Nat) : (s.count p i n).rill = s.rill := rfl

@[simp] theorem State.startUnit_pending (p u : Nat) (c : BitVec 64) : (s.startUnit p u c).pending = s.pending := rfl
@[simp] theorem State.startUnit_variant (p u : Nat) (c : BitVec 64) : (s.startUnit p u c).variant = s.variant := rfl
@[simp] theorem State.startUnit_now (p u : Nat) (c : BitVec 64) : (s.startUnit p u c).now = s.now := rfl
@[simp] theorem State.startUnit_draws (p u : Nat) (c : BitVec 64) : (s.startUnit p u c).draws = s.draws := rfl
@[simp] theorem State.startUnit_step (p u : Nat) (c : BitVec 64) : (s.startUnit p u c).step = s.step := rfl
@[simp] theorem State.startUnit_mem (p u : Nat) (c : BitVec 64) : (s.startUnit p u c).mem = s.mem := rfl
@[simp] theorem State.startUnit_sync (p u : Nat) (c : BitVec 64) : (s.startUnit p u c).sync = s.sync := rfl
@[simp] theorem State.startUnit_pbs (p u : Nat) (c : BitVec 64) : (s.startUnit p u c).pbs = s.pbs := rfl
@[simp] theorem State.startUnit_reduce (p u : Nat) (c : BitVec 64) : (s.startUnit p u c).reduce = s.reduce := rfl
@[simp] theorem State.startUnit_links (p u : Nat) (c : BitVec 64) : (s.startUnit p u c).links = s.links := rfl
@[simp] theorem State.startUnit_zOut (p u : Nat) (c : BitVec 64) : (s.startUnit p u c).zOut = s.zOut := rfl
@[simp] theorem State.startUnit_rillOut (p u : Nat) (c : BitVec 64) : (s.startUnit p u c).rillOut = s.rillOut := rfl
@[simp] theorem State.startUnit_mailboxes (p u : Nat) (c : BitVec 64) : (s.startUnit p u c).mailboxes = s.mailboxes := rfl
@[simp] theorem State.startUnit_host (p u : Nat) (c : BitVec 64) : (s.startUnit p u c).host = s.host := rfl
@[simp] theorem State.startUnit_program (p u : Nat) (c : BitVec 64) : (s.startUnit p u c).program = s.program := rfl
@[simp] theorem State.startUnit_power (p u : Nat) (c : BitVec 64) : (s.startUnit p u c).power = s.power := rfl
@[simp] theorem State.startUnit_seam (p u : Nat) (c : BitVec 64) : (s.startUnit p u c).seam = s.seam := rfl
@[simp] theorem State.startUnit_arbiter (p u : Nat) (c : BitVec 64) : (s.startUnit p u c).arbiter = s.arbiter := rfl
@[simp] theorem State.startUnit_repair (p u : Nat) (c : BitVec 64) : (s.startUnit p u c).repair = s.repair := rfl
@[simp] theorem State.startUnit_pages (p u : Nat) (c : BitVec 64) : (s.startUnit p u c).pages = s.pages := rfl
@[simp] theorem State.startUnit_survival (p u : Nat) (c : BitVec 64) : (s.startUnit p u c).survival = s.survival := rfl
@[simp] theorem State.startUnit_trace (p u : Nat) (c : BitVec 64) : (s.startUnit p u c).trace = s.trace := rfl
@[simp] theorem State.startUnit_boot (p u : Nat) (c : BitVec 64) : (s.startUnit p u c).boot = s.boot := rfl
@[simp] theorem State.startUnit_checks (p u : Nat) (c : BitVec 64) : (s.startUnit p u c).checks = s.checks := rfl
@[simp] theorem State.startUnit_mesh (p u : Nat) (c : BitVec 64) : (s.startUnit p u c).mesh = s.mesh := rfl
@[simp] theorem State.startUnit_rill (p u : Nat) (c : BitVec 64) : (s.startUnit p u c).rill = s.rill := rfl

@[simp] theorem State.beginPhase_pending (ph : Phase) : (s.beginPhase ph).pending = s.pending := by
  simp [State.beginPhase]
@[simp] theorem State.beginPhase_variant (ph : Phase) : (s.beginPhase ph).variant = s.variant := by
  simp [State.beginPhase]
@[simp] theorem State.beginPhase_now (ph : Phase) : (s.beginPhase ph).now = s.now := by
  simp [State.beginPhase]
@[simp] theorem State.beginPhase_draws (ph : Phase) : (s.beginPhase ph).draws = s.draws := by
  simp [State.beginPhase]
@[simp] theorem State.beginPhase_mem (ph : Phase) : (s.beginPhase ph).mem = s.mem := by
  simp [State.beginPhase]
@[simp] theorem State.beginPhase_tiles (ph : Phase) : (s.beginPhase ph).tiles = s.tiles := by
  simp [State.beginPhase]
@[simp] theorem State.beginPhase_sync (ph : Phase) : (s.beginPhase ph).sync = s.sync := by
  simp [State.beginPhase]
@[simp] theorem State.beginPhase_pbs (ph : Phase) : (s.beginPhase ph).pbs = s.pbs := by
  simp [State.beginPhase]
@[simp] theorem State.beginPhase_reduce (ph : Phase) : (s.beginPhase ph).reduce = s.reduce := by
  simp [State.beginPhase]
@[simp] theorem State.beginPhase_links (ph : Phase) : (s.beginPhase ph).links = s.links := by
  simp [State.beginPhase]
@[simp] theorem State.beginPhase_zOut (ph : Phase) : (s.beginPhase ph).zOut = s.zOut := by
  simp [State.beginPhase]
@[simp] theorem State.beginPhase_rillOut (ph : Phase) : (s.beginPhase ph).rillOut = s.rillOut := by
  simp [State.beginPhase]
@[simp] theorem State.beginPhase_mailboxes (ph : Phase) : (s.beginPhase ph).mailboxes = s.mailboxes := by
  simp [State.beginPhase]
@[simp] theorem State.beginPhase_host (ph : Phase) : (s.beginPhase ph).host = s.host := by
  simp [State.beginPhase]
@[simp] theorem State.beginPhase_program (ph : Phase) : (s.beginPhase ph).program = s.program := by
  simp [State.beginPhase]
@[simp] theorem State.beginPhase_power (ph : Phase) : (s.beginPhase ph).power = s.power := by
  simp [State.beginPhase]
@[simp] theorem State.beginPhase_seam (ph : Phase) : (s.beginPhase ph).seam = s.seam := by
  simp [State.beginPhase]
@[simp] theorem State.beginPhase_arbiter (ph : Phase) : (s.beginPhase ph).arbiter = s.arbiter := by
  simp [State.beginPhase]
@[simp] theorem State.beginPhase_repair (ph : Phase) : (s.beginPhase ph).repair = s.repair := by
  simp [State.beginPhase]
@[simp] theorem State.beginPhase_pages (ph : Phase) : (s.beginPhase ph).pages = s.pages := by
  simp [State.beginPhase]
@[simp] theorem State.beginPhase_survival (ph : Phase) : (s.beginPhase ph).survival = s.survival := by
  simp [State.beginPhase]
@[simp] theorem State.beginPhase_boot (ph : Phase) : (s.beginPhase ph).boot = s.boot := by
  simp [State.beginPhase]
@[simp] theorem State.beginPhase_checks (ph : Phase) : (s.beginPhase ph).checks = s.checks := by
  simp [State.beginPhase]
@[simp] theorem State.beginPhase_mesh (ph : Phase) : (s.beginPhase ph).mesh = s.mesh := by
  simp [State.beginPhase]
@[simp] theorem State.beginPhase_rill (ph : Phase) : (s.beginPhase ph).rill = s.rill := by
  simp [State.beginPhase]

@[simp] theorem State.endPhase_pending (ph : Phase) : (s.endPhase ph).pending = s.pending := rfl
@[simp] theorem State.endPhase_variant (ph : Phase) : (s.endPhase ph).variant = s.variant := rfl
@[simp] theorem State.endPhase_now (ph : Phase) : (s.endPhase ph).now = s.now := rfl
@[simp] theorem State.endPhase_draws (ph : Phase) : (s.endPhase ph).draws = s.draws := rfl
@[simp] theorem State.endPhase_mem (ph : Phase) : (s.endPhase ph).mem = s.mem := rfl
@[simp] theorem State.endPhase_tiles (ph : Phase) : (s.endPhase ph).tiles = s.tiles := rfl
@[simp] theorem State.endPhase_sync (ph : Phase) : (s.endPhase ph).sync = s.sync := rfl
@[simp] theorem State.endPhase_pbs (ph : Phase) : (s.endPhase ph).pbs = s.pbs := rfl
@[simp] theorem State.endPhase_reduce (ph : Phase) : (s.endPhase ph).reduce = s.reduce := rfl
@[simp] theorem State.endPhase_links (ph : Phase) : (s.endPhase ph).links = s.links := rfl
@[simp] theorem State.endPhase_zOut (ph : Phase) : (s.endPhase ph).zOut = s.zOut := rfl
@[simp] theorem State.endPhase_rillOut (ph : Phase) : (s.endPhase ph).rillOut = s.rillOut := rfl
@[simp] theorem State.endPhase_mailboxes (ph : Phase) : (s.endPhase ph).mailboxes = s.mailboxes := rfl
@[simp] theorem State.endPhase_host (ph : Phase) : (s.endPhase ph).host = s.host := rfl
@[simp] theorem State.endPhase_program (ph : Phase) : (s.endPhase ph).program = s.program := rfl
@[simp] theorem State.endPhase_power (ph : Phase) : (s.endPhase ph).power = s.power := rfl
@[simp] theorem State.endPhase_seam (ph : Phase) : (s.endPhase ph).seam = s.seam := rfl
@[simp] theorem State.endPhase_arbiter (ph : Phase) : (s.endPhase ph).arbiter = s.arbiter := rfl
@[simp] theorem State.endPhase_repair (ph : Phase) : (s.endPhase ph).repair = s.repair := rfl
@[simp] theorem State.endPhase_pages (ph : Phase) : (s.endPhase ph).pages = s.pages := rfl
@[simp] theorem State.endPhase_survival (ph : Phase) : (s.endPhase ph).survival = s.survival := rfl
@[simp] theorem State.endPhase_trace (ph : Phase) : (s.endPhase ph).trace = s.trace := rfl
@[simp] theorem State.endPhase_boot (ph : Phase) : (s.endPhase ph).boot = s.boot := rfl
@[simp] theorem State.endPhase_checks (ph : Phase) : (s.endPhase ph).checks = s.checks := rfl
@[simp] theorem State.endPhase_mesh (ph : Phase) : (s.endPhase ph).mesh = s.mesh := rfl
@[simp] theorem State.endPhase_rill (ph : Phase) : (s.endPhase ph).rill = s.rill := rfl

@[simp] theorem State.noteDeath_pending (c : Code) (p : Place) : (s.noteDeath c p).pending = s.pending := by
  simp only [State.noteDeath]
  split <;> rfl
@[simp] theorem State.noteDeath_variant (c : Code) (p : Place) : (s.noteDeath c p).variant = s.variant := by
  simp only [State.noteDeath]
  split <;> rfl
@[simp] theorem State.noteDeath_now (c : Code) (p : Place) : (s.noteDeath c p).now = s.now := by
  simp only [State.noteDeath]
  split <;> rfl
@[simp] theorem State.noteDeath_draws (c : Code) (p : Place) : (s.noteDeath c p).draws = s.draws := by
  simp only [State.noteDeath]
  split <;> rfl
@[simp] theorem State.noteDeath_step (c : Code) (p : Place) : (s.noteDeath c p).step = s.step := by
  simp only [State.noteDeath]
  split <;> rfl
@[simp] theorem State.noteDeath_mem (c : Code) (p : Place) : (s.noteDeath c p).mem = s.mem := by
  simp only [State.noteDeath]
  split <;> rfl
@[simp] theorem State.noteDeath_tiles (c : Code) (p : Place) : (s.noteDeath c p).tiles = s.tiles := by
  simp only [State.noteDeath]
  split <;> rfl
@[simp] theorem State.noteDeath_sync (c : Code) (p : Place) : (s.noteDeath c p).sync = s.sync := by
  simp only [State.noteDeath]
  split <;> rfl
@[simp] theorem State.noteDeath_pbs (c : Code) (p : Place) : (s.noteDeath c p).pbs = s.pbs := by
  simp only [State.noteDeath]
  split <;> rfl
@[simp] theorem State.noteDeath_reduce (c : Code) (p : Place) : (s.noteDeath c p).reduce = s.reduce := by
  simp only [State.noteDeath]
  split <;> rfl
@[simp] theorem State.noteDeath_links (c : Code) (p : Place) : (s.noteDeath c p).links = s.links := by
  simp only [State.noteDeath]
  split <;> rfl
@[simp] theorem State.noteDeath_zOut (c : Code) (p : Place) : (s.noteDeath c p).zOut = s.zOut := by
  simp only [State.noteDeath]
  split <;> rfl
@[simp] theorem State.noteDeath_rillOut (c : Code) (p : Place) : (s.noteDeath c p).rillOut = s.rillOut := by
  simp only [State.noteDeath]
  split <;> rfl
@[simp] theorem State.noteDeath_mailboxes (c : Code) (p : Place) : (s.noteDeath c p).mailboxes = s.mailboxes := by
  simp only [State.noteDeath]
  split <;> rfl
@[simp] theorem State.noteDeath_host (c : Code) (p : Place) : (s.noteDeath c p).host = s.host := by
  simp only [State.noteDeath]
  split <;> rfl
@[simp] theorem State.noteDeath_program (c : Code) (p : Place) : (s.noteDeath c p).program = s.program := by
  simp only [State.noteDeath]
  split <;> rfl
@[simp] theorem State.noteDeath_power (c : Code) (p : Place) : (s.noteDeath c p).power = s.power := by
  simp only [State.noteDeath]
  split <;> rfl
@[simp] theorem State.noteDeath_seam (c : Code) (p : Place) : (s.noteDeath c p).seam = s.seam := by
  simp only [State.noteDeath]
  split <;> rfl
@[simp] theorem State.noteDeath_repair (c : Code) (p : Place) : (s.noteDeath c p).repair = s.repair := by
  simp only [State.noteDeath]
  split <;> rfl
@[simp] theorem State.noteDeath_pages (c : Code) (p : Place) : (s.noteDeath c p).pages = s.pages := by
  simp only [State.noteDeath]
  split <;> rfl
@[simp] theorem State.noteDeath_survival (c : Code) (p : Place) : (s.noteDeath c p).survival = s.survival := by
  simp only [State.noteDeath]
  split <;> rfl
@[simp] theorem State.noteDeath_trace (c : Code) (p : Place) : (s.noteDeath c p).trace = s.trace := by
  simp only [State.noteDeath]
  split <;> rfl
@[simp] theorem State.noteDeath_boot (c : Code) (p : Place) : (s.noteDeath c p).boot = s.boot := by
  simp only [State.noteDeath]
  split <;> rfl
@[simp] theorem State.noteDeath_checks (c : Code) (p : Place) : (s.noteDeath c p).checks = s.checks := by
  simp only [State.noteDeath]
  split <;> rfl
@[simp] theorem State.noteDeath_mesh (c : Code) (p : Place) : (s.noteDeath c p).mesh = s.mesh := by
  simp only [State.noteDeath]
  split <;> rfl
@[simp] theorem State.noteDeath_rill (c : Code) (p : Place) : (s.noteDeath c p).rill = s.rill := by
  simp only [State.noteDeath]
  split <;> rfl

@[simp] theorem State.latch_pending (c : Code) (p : Place) : (s.latch c p).pending = s.pending := by
  simp only [State.latch]
  (repeat' split) <;> simp
@[simp] theorem State.latch_variant (c : Code) (p : Place) : (s.latch c p).variant = s.variant := by
  simp only [State.latch]
  (repeat' split) <;> simp
@[simp] theorem State.latch_now (c : Code) (p : Place) : (s.latch c p).now = s.now := by
  simp only [State.latch]
  (repeat' split) <;> simp
@[simp] theorem State.latch_draws (c : Code) (p : Place) : (s.latch c p).draws = s.draws := by
  simp only [State.latch]
  (repeat' split) <;> simp
@[simp] theorem State.latch_mem (c : Code) (p : Place) : (s.latch c p).mem = s.mem := by
  simp only [State.latch]
  (repeat' split) <;> simp
@[simp] theorem State.latch_tiles (c : Code) (p : Place) : (s.latch c p).tiles = s.tiles := by
  simp only [State.latch]
  (repeat' split) <;> simp
@[simp] theorem State.latch_sync (c : Code) (p : Place) : (s.latch c p).sync = s.sync := by
  simp only [State.latch]
  (repeat' split) <;> simp
@[simp] theorem State.latch_pbs (c : Code) (p : Place) : (s.latch c p).pbs = s.pbs := by
  simp only [State.latch]
  (repeat' split) <;> simp
@[simp] theorem State.latch_reduce (c : Code) (p : Place) : (s.latch c p).reduce = s.reduce := by
  simp only [State.latch]
  (repeat' split) <;> simp
@[simp] theorem State.latch_links (c : Code) (p : Place) : (s.latch c p).links = s.links := by
  simp only [State.latch]
  (repeat' split) <;> simp
@[simp] theorem State.latch_zOut (c : Code) (p : Place) : (s.latch c p).zOut = s.zOut := by
  simp only [State.latch]
  (repeat' split) <;> simp
@[simp] theorem State.latch_mailboxes (c : Code) (p : Place) : (s.latch c p).mailboxes = s.mailboxes := by
  simp only [State.latch]
  (repeat' split) <;> simp
@[simp] theorem State.latch_host (c : Code) (p : Place) : (s.latch c p).host = s.host := by
  simp only [State.latch]
  (repeat' split) <;> simp
@[simp] theorem State.latch_program (c : Code) (p : Place) : (s.latch c p).program = s.program := by
  simp only [State.latch]
  (repeat' split) <;> simp
@[simp] theorem State.latch_power (c : Code) (p : Place) : (s.latch c p).power = s.power := by
  simp only [State.latch]
  (repeat' split) <;> simp
@[simp] theorem State.latch_seam (c : Code) (p : Place) : (s.latch c p).seam = s.seam := by
  simp only [State.latch]
  (repeat' split) <;> simp
@[simp] theorem State.latch_repair (c : Code) (p : Place) : (s.latch c p).repair = s.repair := by
  simp only [State.latch]
  (repeat' split) <;> simp
@[simp] theorem State.latch_pages (c : Code) (p : Place) : (s.latch c p).pages = s.pages := by
  simp only [State.latch]
  (repeat' split) <;> simp
@[simp] theorem State.latch_survival (c : Code) (p : Place) : (s.latch c p).survival = s.survival := by
  simp only [State.latch]
  (repeat' split) <;> simp
@[simp] theorem State.latch_boot (c : Code) (p : Place) : (s.latch c p).boot = s.boot := by
  simp only [State.latch]
  (repeat' split) <;> simp
@[simp] theorem State.latch_checks (c : Code) (p : Place) : (s.latch c p).checks = s.checks := by
  simp only [State.latch]
  (repeat' split) <;> simp
@[simp] theorem State.latch_mesh (c : Code) (p : Place) : (s.latch c p).mesh = s.mesh := by
  simp only [State.latch]
  (repeat' split) <;> simp
@[simp] theorem State.latch_rill (c : Code) (p : Place) : (s.latch c p).rill = s.rill := by
  simp only [State.latch]
  (repeat' split) <;> simp

@[simp] theorem State.startFatal_pending (c : Code) : (s.startFatal c).pending = s.pending := by
  simp only [State.startFatal]
  split <;> simp
@[simp] theorem State.startFatal_variant (c : Code) : (s.startFatal c).variant = s.variant := by
  simp only [State.startFatal]
  split <;> simp
@[simp] theorem State.startFatal_now (c : Code) : (s.startFatal c).now = s.now := by
  simp only [State.startFatal]
  split <;> simp
@[simp] theorem State.startFatal_draws (c : Code) : (s.startFatal c).draws = s.draws := by
  simp only [State.startFatal]
  split <;> simp
@[simp] theorem State.startFatal_step (c : Code) : (s.startFatal c).step = s.step := by
  simp only [State.startFatal]
  split <;> simp
@[simp] theorem State.startFatal_mem (c : Code) : (s.startFatal c).mem = s.mem := by
  simp only [State.startFatal]
  split <;> simp
@[simp] theorem State.startFatal_tiles (c : Code) : (s.startFatal c).tiles = s.tiles := by
  simp only [State.startFatal]
  split <;> simp
@[simp] theorem State.startFatal_sync (c : Code) : (s.startFatal c).sync = s.sync := by
  simp only [State.startFatal]
  split <;> simp
@[simp] theorem State.startFatal_pbs (c : Code) : (s.startFatal c).pbs = s.pbs := by
  simp only [State.startFatal]
  split <;> simp
@[simp] theorem State.startFatal_reduce (c : Code) : (s.startFatal c).reduce = s.reduce := by
  simp only [State.startFatal]
  split <;> simp
@[simp] theorem State.startFatal_links (c : Code) : (s.startFatal c).links = s.links := by
  simp only [State.startFatal]
  split <;> simp
@[simp] theorem State.startFatal_zOut (c : Code) : (s.startFatal c).zOut = s.zOut := by
  simp only [State.startFatal]
  split <;> simp
@[simp] theorem State.startFatal_mailboxes (c : Code) : (s.startFatal c).mailboxes = s.mailboxes := by
  simp only [State.startFatal]
  split <;> simp
@[simp] theorem State.startFatal_host (c : Code) : (s.startFatal c).host = s.host := by
  simp only [State.startFatal]
  split <;> simp
@[simp] theorem State.startFatal_program (c : Code) : (s.startFatal c).program = s.program := by
  simp only [State.startFatal]
  split <;> simp
@[simp] theorem State.startFatal_power (c : Code) : (s.startFatal c).power = s.power := by
  simp only [State.startFatal]
  split <;> simp
@[simp] theorem State.startFatal_seam (c : Code) : (s.startFatal c).seam = s.seam := by
  simp only [State.startFatal]
  split <;> simp
@[simp] theorem State.startFatal_repair (c : Code) : (s.startFatal c).repair = s.repair := by
  simp only [State.startFatal]
  split <;> simp
@[simp] theorem State.startFatal_pages (c : Code) : (s.startFatal c).pages = s.pages := by
  simp only [State.startFatal]
  split <;> simp
@[simp] theorem State.startFatal_survival (c : Code) : (s.startFatal c).survival = s.survival := by
  simp only [State.startFatal]
  split <;> simp
@[simp] theorem State.startFatal_boot (c : Code) : (s.startFatal c).boot = s.boot := by
  simp only [State.startFatal]
  split <;> simp
@[simp] theorem State.startFatal_checks (c : Code) : (s.startFatal c).checks = s.checks := by
  simp only [State.startFatal]
  split <;> simp
@[simp] theorem State.startFatal_mesh (c : Code) : (s.startFatal c).mesh = s.mesh := by
  simp only [State.startFatal]
  split <;> simp
@[simp] theorem State.startFatal_rill (c : Code) : (s.startFatal c).rill = s.rill := by
  simp only [State.startFatal]
  split <;> simp

@[simp] theorem State.raise_pending (c : Code) (p : Place) (i : BitVec 64) (d : Nat) (e : BitVec 64) : (s.raise c p i d e).pending = s.pending := by
  simp only [State.raise]
  (repeat' split) <;> simp
@[simp] theorem State.raise_variant (c : Code) (p : Place) (i : BitVec 64) (d : Nat) (e : BitVec 64) : (s.raise c p i d e).variant = s.variant := by
  simp only [State.raise]
  (repeat' split) <;> simp
@[simp] theorem State.raise_now (c : Code) (p : Place) (i : BitVec 64) (d : Nat) (e : BitVec 64) : (s.raise c p i d e).now = s.now := by
  simp only [State.raise]
  (repeat' split) <;> simp
@[simp] theorem State.raise_draws (c : Code) (p : Place) (i : BitVec 64) (d : Nat) (e : BitVec 64) : (s.raise c p i d e).draws = s.draws := by
  simp only [State.raise]
  (repeat' split) <;> simp
@[simp] theorem State.raise_mem (c : Code) (p : Place) (i : BitVec 64) (d : Nat) (e : BitVec 64) : (s.raise c p i d e).mem = s.mem := by
  simp only [State.raise]
  (repeat' split) <;> simp
@[simp] theorem State.raise_tiles (c : Code) (p : Place) (i : BitVec 64) (d : Nat) (e : BitVec 64) : (s.raise c p i d e).tiles = s.tiles := by
  simp only [State.raise]
  (repeat' split) <;> simp
@[simp] theorem State.raise_sync (c : Code) (p : Place) (i : BitVec 64) (d : Nat) (e : BitVec 64) : (s.raise c p i d e).sync = s.sync := by
  simp only [State.raise]
  (repeat' split) <;> simp
@[simp] theorem State.raise_pbs (c : Code) (p : Place) (i : BitVec 64) (d : Nat) (e : BitVec 64) : (s.raise c p i d e).pbs = s.pbs := by
  simp only [State.raise]
  (repeat' split) <;> simp
@[simp] theorem State.raise_reduce (c : Code) (p : Place) (i : BitVec 64) (d : Nat) (e : BitVec 64) : (s.raise c p i d e).reduce = s.reduce := by
  simp only [State.raise]
  (repeat' split) <;> simp
@[simp] theorem State.raise_links (c : Code) (p : Place) (i : BitVec 64) (d : Nat) (e : BitVec 64) : (s.raise c p i d e).links = s.links := by
  simp only [State.raise]
  (repeat' split) <;> simp
@[simp] theorem State.raise_zOut (c : Code) (p : Place) (i : BitVec 64) (d : Nat) (e : BitVec 64) : (s.raise c p i d e).zOut = s.zOut := by
  simp only [State.raise]
  (repeat' split) <;> simp
@[simp] theorem State.raise_mailboxes (c : Code) (p : Place) (i : BitVec 64) (d : Nat) (e : BitVec 64) : (s.raise c p i d e).mailboxes = s.mailboxes := by
  simp only [State.raise]
  (repeat' split) <;> simp
@[simp] theorem State.raise_program (c : Code) (p : Place) (i : BitVec 64) (d : Nat) (e : BitVec 64) : (s.raise c p i d e).program = s.program := by
  simp only [State.raise]
  (repeat' split) <;> simp
@[simp] theorem State.raise_power (c : Code) (p : Place) (i : BitVec 64) (d : Nat) (e : BitVec 64) : (s.raise c p i d e).power = s.power := by
  simp only [State.raise]
  (repeat' split) <;> simp
@[simp] theorem State.raise_seam (c : Code) (p : Place) (i : BitVec 64) (d : Nat) (e : BitVec 64) : (s.raise c p i d e).seam = s.seam := by
  simp only [State.raise]
  (repeat' split) <;> simp
@[simp] theorem State.raise_repair (c : Code) (p : Place) (i : BitVec 64) (d : Nat) (e : BitVec 64) : (s.raise c p i d e).repair = s.repair := by
  simp only [State.raise]
  (repeat' split) <;> simp
@[simp] theorem State.raise_pages (c : Code) (p : Place) (i : BitVec 64) (d : Nat) (e : BitVec 64) : (s.raise c p i d e).pages = s.pages := by
  simp only [State.raise]
  (repeat' split) <;> simp
@[simp] theorem State.raise_survival (c : Code) (p : Place) (i : BitVec 64) (d : Nat) (e : BitVec 64) : (s.raise c p i d e).survival = s.survival := by
  simp only [State.raise]
  (repeat' split) <;> simp
@[simp] theorem State.raise_boot (c : Code) (p : Place) (i : BitVec 64) (d : Nat) (e : BitVec 64) : (s.raise c p i d e).boot = s.boot := by
  simp only [State.raise]
  (repeat' split) <;> simp
@[simp] theorem State.raise_checks (c : Code) (p : Place) (i : BitVec 64) (d : Nat) (e : BitVec 64) : (s.raise c p i d e).checks = s.checks := by
  simp only [State.raise]
  (repeat' split) <;> simp
@[simp] theorem State.raise_mesh (c : Code) (p : Place) (i : BitVec 64) (d : Nat) (e : BitVec 64) : (s.raise c p i d e).mesh = s.mesh := by
  simp only [State.raise]
  (repeat' split) <;> simp
@[simp] theorem State.raise_rill (c : Code) (p : Place) (i : BitVec 64) (d : Nat) (e : BitVec 64) : (s.raise c p i d e).rill = s.rill := by
  simp only [State.raise]
  (repeat' split) <;> simp

/-- Two states whose fields agree are equal. -/
theorem State.eq_of_fields {s t : State} (h : s.pending = t.pending ∧ s.variant = t.variant ∧ s.now = t.now ∧ s.draws = t.draws ∧
    s.step = t.step ∧ s.mem = t.mem ∧ s.tiles = t.tiles ∧ s.sync = t.sync ∧ s.pbs = t.pbs ∧ s.reduce = t.reduce ∧
    s.links = t.links ∧ s.zOut = t.zOut ∧ s.rillOut = t.rillOut ∧ s.mailboxes = t.mailboxes ∧ s.host = t.host ∧
    s.program = t.program ∧ s.power = t.power ∧ s.seam = t.seam ∧ s.arbiter = t.arbiter ∧ s.repair = t.repair ∧
    s.pages = t.pages ∧ s.survival = t.survival ∧ s.trace = t.trace ∧ s.boot = t.boot ∧ s.checks = t.checks ∧ s.mesh = t.mesh ∧
    s.rill = t.rill) : s = t := by
  cases s; cases t; simp_all

/-- What a raised code does: the reports change trace and host, then a dying tile is noted, and the code is latched or starts the
fatal path. -/
theorem State.raise_eq (s : State) {c : Code} {p : Place} {i : BitVec 64} {d : Nat} {e : BitVec 64}
    (h : severityOf s.step.inProgress p d c ≠ 0) : ∃ tr ho, s.raise c p i d e =
      (let v := { s with
        trace := tr
        host := ho }.noteDeath c p
       if severityOf s.step.inProgress p d c = 3 then v.latch c p
       else if severityOf s.step.inProgress p d c = 4 then v.startFatal c else v) := by
  simp only [State.raise, if_neg h]
  generalize hu : (if countedOnlyCodes.contains c.toNat = true then
      s.traceAt 4 (decide (2 ≤ severityOf s.step.inProgress p d c)) p.site i (c.toNat + 65536 * severityOf s.step.inProgress p d c)
    else _) = u
  have k : u = { s with
      trace := u.trace
      host := u.host } := by
    rw [← hu]; split <;> (apply State.eq_of_fields; simp)
  exact ⟨u.trace, u.host, by rw [← k]⟩

/-- A code below Step-fatal leaves trace records and events only. -/
theorem State.raise_minor {s : State} {c : Code} {p : Place} {i : BitVec 64} {d : Nat} {e : BitVec 64}
    (h : severityOf s.step.inProgress p d c < 3) (n : c ≠ 0x4009) (m : c ≠ 0x400A) :
    s.raise c p i d e = { s with
      trace := (s.raise c p i d e).trace
      host := (s.raise c p i d e).host } := by
  by_cases z : severityOf s.step.inProgress p d c = 0
  · simp [State.raise, z]
  · obtain ⟨tr, ho, q⟩ := s.raise_eq (c := c) (p := p) (i := i) (d := d) (e := e) z
    rw [q]
    simp only [if_neg (show severityOf s.step.inProgress p d c ≠ 3 by omega), if_neg (show severityOf s.step.inProgress p d c ≠ 4 by omega)]
    simp only [State.noteDeath, n, m, false_or, false_and, if_false]

/-- A Step-fatal code before the commit point begins the discard. -/
theorem State.raise_discards {s : State} {c : Code} {p : Place} {i : BitVec 64} {d : Nat} {e : BitVec 64}
    (h : severityOf s.step.inProgress p d c = 3) (k : Sys2Proof.Safety.CanDiscard s) : ∃ tr ho, s.raise c p i d e =
      { s with
        trace := tr
        host := ho
        step := { s.step with phase := .discarding }
        rillOut := haltMsg :: s.rillOut
        arbiter := { (s.noteDeath c p).arbiter with
          latched := [⟨c, p, s.now⟩], windowOpen := true, cause := none, repaired := false, fenced := false,
          pagesLost := false, takeover := false, released := false } } := by
  obtain ⟨tr, ho, q⟩ := s.raise_eq (c := c) (p := p) (i := i) (d := d) (e := e) (by omega)
  obtain ⟨k1, k2, k3⟩ := k
  refine ⟨(s.raise c p i d e).trace, ho, ?_⟩
  rw [h] at q
  simp only [if_true, State.latch, State.noteDeath_step, k1, k2, k3, if_false, Bool.false_eq_true, not_false_eq_true,
    and_self] at q
  rw [q]
  apply State.eq_of_fields
  and_intros
  all_goals first
    | (simp; done)
    | (simp only [State.noteDeath, State.traceAt_arbiter, State.sendRill]
       split <;> rfl)
    | simp [k2]

/-- A Module-fatal code starts the fatal path. -/
theorem State.raise_fatal {s : State} {c : Code} {p : Place} {i : BitVec 64} {d : Nat} {e : BitVec 64}
    (h : severityOf s.step.inProgress p d c = 4) (f : s.arbiter.fatal = none) (n : c ≠ 0x4009) (m : c ≠ 0x400A) :
    Sys2Proof.Safety.TurnsFatal s (s.raise c p i d e) c := by
  obtain ⟨tr, ho, q⟩ := s.raise_eq (c := c) (p := p) (i := i) (d := d) (e := e) (by omega)
  rw [q]
  simp only [h, show ¬ (4 = 3) by decide, if_false, if_true, State.noteDeath, n, m, false_or, false_and]
  simp [State.startFatal, f, Sys2Proof.Safety.TurnsFatal, State.freezeRings]


end Sys2Proof.Machine
end

