-- ==== Sys2Proof/Laws/Frames.lean ====
section
/-! SUPPORT. Sys2Proof/Laws/Frames.lean: which fields of the state each shared operation leaves alone. -/

set_option linter.unusedTactic false
set_option linter.unnecessarySeqFocus false
set_option linter.unreachableTactic false
set_option linter.unusedSimpArgs false

namespace Sys2Proof.Machine


variable (s : State)

@[simp] theorem State.traceSuspect_pending (i : Nat) (b : Bool) : (s.traceSuspect i b).pending = s.pending := by
  simp only [State.traceSuspect]
  (repeat' split) <;> simp
@[simp] theorem State.traceSuspect_variant (i : Nat) (b : Bool) : (s.traceSuspect i b).variant = s.variant := by
  simp only [State.traceSuspect]
  (repeat' split) <;> simp
@[simp] theorem State.traceSuspect_now (i : Nat) (b : Bool) : (s.traceSuspect i b).now = s.now := by
  simp only [State.traceSuspect]
  (repeat' split) <;> simp
@[simp] theorem State.traceSuspect_draws (i : Nat) (b : Bool) : (s.traceSuspect i b).draws = s.draws := by
  simp only [State.traceSuspect]
  (repeat' split) <;> simp
@[simp] theorem State.traceSuspect_step (i : Nat) (b : Bool) : (s.traceSuspect i b).step = s.step := by
  simp only [State.traceSuspect]
  (repeat' split) <;> simp
@[simp] theorem State.traceSuspect_mem (i : Nat) (b : Bool) : (s.traceSuspect i b).mem = s.mem := by
  simp only [State.traceSuspect]
  (repeat' split) <;> simp
@[simp] theorem State.traceSuspect_tiles (i : Nat) (b : Bool) : (s.traceSuspect i b).tiles = s.tiles := by
  simp only [State.traceSuspect]
  (repeat' split) <;> simp
@[simp] theorem State.traceSuspect_sync (i : Nat) (b : Bool) : (s.traceSuspect i b).sync = s.sync := by
  simp only [State.traceSuspect]
  (repeat' split) <;> simp
@[simp] theorem State.traceSuspect_pbs (i : Nat) (b : Bool) : (s.traceSuspect i b).pbs = s.pbs := by
  simp only [State.traceSuspect]
  (repeat' split) <;> simp
@[simp] theorem State.traceSuspect_reduce (i : Nat) (b : Bool) : (s.traceSuspect i b).reduce = s.reduce := by
  simp only [State.traceSuspect]
  (repeat' split) <;> simp
@[simp] theorem State.traceSuspect_links (i : Nat) (b : Bool) : (s.traceSuspect i b).links = s.links := by
  simp only [State.traceSuspect]
  (repeat' split) <;> simp
@[simp] theorem State.traceSuspect_zOut (i : Nat) (b : Bool) : (s.traceSuspect i b).zOut = s.zOut := by
  simp only [State.traceSuspect]
  (repeat' split) <;> simp
@[simp] theorem State.traceSuspect_rillOut (i : Nat) (b : Bool) : (s.traceSuspect i b).rillOut = s.rillOut := by
  simp only [State.traceSuspect]
  (repeat' split) <;> simp
@[simp] theorem State.traceSuspect_mailboxes (i : Nat) (b : Bool) : (s.traceSuspect i b).mailboxes = s.mailboxes := by
  simp only [State.traceSuspect]
  (repeat' split) <;> simp
@[simp] theorem State.traceSuspect_host (i : Nat) (b : Bool) : (s.traceSuspect i b).host = s.host := by
  simp only [State.traceSuspect]
  (repeat' split) <;> simp
@[simp] theorem State.traceSuspect_program (i : Nat) (b : Bool) : (s.traceSuspect i b).program = s.program := by
  simp only [State.traceSuspect]
  (repeat' split) <;> simp
@[simp] theorem State.traceSuspect_power (i : Nat) (b : Bool) : (s.traceSuspect i b).power = s.power := by
  simp only [State.traceSuspect]
  (repeat' split) <;> simp
@[simp] theorem State.traceSuspect_seam (i : Nat) (b : Bool) : (s.traceSuspect i b).seam = s.seam := by
  simp only [State.traceSuspect]
  (repeat' split) <;> simp
@[simp] theorem State.traceSuspect_arbiter (i : Nat) (b : Bool) : (s.traceSuspect i b).arbiter = s.arbiter := by
  simp only [State.traceSuspect]
  (repeat' split) <;> simp
@[simp] theorem State.traceSuspect_repair (i : Nat) (b : Bool) : (s.traceSuspect i b).repair = s.repair := by
  simp only [State.traceSuspect]
  (repeat' split) <;> simp
@[simp] theorem State.traceSuspect_pages (i : Nat) (b : Bool) : (s.traceSuspect i b).pages = s.pages := by
  simp only [State.traceSuspect]
  (repeat' split) <;> simp
@[simp] theorem State.traceSuspect_survival (i : Nat) (b : Bool) : (s.traceSuspect i b).survival = s.survival := by
  simp only [State.traceSuspect]
  (repeat' split) <;> simp
@[simp] theorem State.traceSuspect_boot (i : Nat) (b : Bool) : (s.traceSuspect i b).boot = s.boot := by
  simp only [State.traceSuspect]
  (repeat' split) <;> simp
@[simp] theorem State.traceSuspect_checks (i : Nat) (b : Bool) : (s.traceSuspect i b).checks = s.checks := by
  simp only [State.traceSuspect]
  (repeat' split) <;> simp
@[simp] theorem State.traceSuspect_mesh (i : Nat) (b : Bool) : (s.traceSuspect i b).mesh = s.mesh := by
  simp only [State.traceSuspect]
  (repeat' split) <;> simp
@[simp] theorem State.traceSuspect_rill (i : Nat) (b : Bool) : (s.traceSuspect i b).rill = s.rill := by
  simp only [State.traceSuspect]
  (repeat' split) <;> simp

@[simp] theorem State.openSuspect_pending (i : Nat) : (s.openSuspect i).pending = s.pending := by
  simp only [State.openSuspect]
  (repeat' split) <;> simp <;> exact foldl_keeps State.pending (fun s p => s.updTile p Tile.markSuspect) (fun t p => t.updTile_pending p _) _ s
@[simp] theorem State.openSuspect_variant (i : Nat) : (s.openSuspect i).variant = s.variant := by
  simp only [State.openSuspect]
  (repeat' split) <;> simp <;> exact foldl_keeps State.variant (fun s p => s.updTile p Tile.markSuspect) (fun t p => t.updTile_variant p _) _ s
@[simp] theorem State.openSuspect_now (i : Nat) : (s.openSuspect i).now = s.now := by
  simp only [State.openSuspect]
  (repeat' split) <;> simp <;> exact foldl_keeps State.now (fun s p => s.updTile p Tile.markSuspect) (fun t p => t.updTile_now p _) _ s
@[simp] theorem State.openSuspect_draws (i : Nat) : (s.openSuspect i).draws = s.draws := by
  simp only [State.openSuspect]
  (repeat' split) <;> simp <;> exact foldl_keeps State.draws (fun s p => s.updTile p Tile.markSuspect) (fun t p => t.updTile_draws p _) _ s
@[simp] theorem State.openSuspect_mem (i : Nat) : (s.openSuspect i).mem = s.mem := by
  simp only [State.openSuspect]
  (repeat' split) <;> simp <;> exact foldl_keeps State.mem (fun s p => s.updTile p Tile.markSuspect) (fun t p => t.updTile_mem p _) _ s
@[simp] theorem State.openSuspect_sync (i : Nat) : (s.openSuspect i).sync = s.sync := by
  simp only [State.openSuspect]
  (repeat' split) <;> simp <;> exact foldl_keeps State.sync (fun s p => s.updTile p Tile.markSuspect) (fun t p => t.updTile_sync p _) _ s
@[simp] theorem State.openSuspect_pbs (i : Nat) : (s.openSuspect i).pbs = s.pbs := by
  simp only [State.openSuspect]
  (repeat' split) <;> simp <;> exact foldl_keeps State.pbs (fun s p => s.updTile p Tile.markSuspect) (fun t p => t.updTile_pbs p _) _ s
@[simp] theorem State.openSuspect_reduce (i : Nat) : (s.openSuspect i).reduce = s.reduce := by
  simp only [State.openSuspect]
  (repeat' split) <;> simp <;> exact foldl_keeps State.reduce (fun s p => s.updTile p Tile.markSuspect) (fun t p => t.updTile_reduce p _) _ s
@[simp] theorem State.openSuspect_links (i : Nat) : (s.openSuspect i).links = s.links := by
  simp only [State.openSuspect]
  (repeat' split) <;> simp <;> exact foldl_keeps State.links (fun s p => s.updTile p Tile.markSuspect) (fun t p => t.updTile_links p _) _ s
@[simp] theorem State.openSuspect_zOut (i : Nat) : (s.openSuspect i).zOut = s.zOut := by
  simp only [State.openSuspect]
  (repeat' split) <;> simp <;> exact foldl_keeps State.zOut (fun s p => s.updTile p Tile.markSuspect) (fun t p => t.updTile_zOut p _) _ s
@[simp] theorem State.openSuspect_mailboxes (i : Nat) : (s.openSuspect i).mailboxes = s.mailboxes := by
  simp only [State.openSuspect]
  (repeat' split) <;> simp <;> exact foldl_keeps State.mailboxes (fun s p => s.updTile p Tile.markSuspect) (fun t p => t.updTile_mailboxes p _) _ s
@[simp] theorem State.openSuspect_program (i : Nat) : (s.openSuspect i).program = s.program := by
  simp only [State.openSuspect]
  (repeat' split) <;> simp <;> exact foldl_keeps State.program (fun s p => s.updTile p Tile.markSuspect) (fun t p => t.updTile_program p _) _ s
@[simp] theorem State.openSuspect_seam (i : Nat) : (s.openSuspect i).seam = s.seam := by
  simp only [State.openSuspect]
  (repeat' split) <;> simp <;> exact foldl_keeps State.seam (fun s p => s.updTile p Tile.markSuspect) (fun t p => t.updTile_seam p _) _ s
@[simp] theorem State.openSuspect_repair (i : Nat) : (s.openSuspect i).repair = s.repair := by
  simp only [State.openSuspect]
  (repeat' split) <;> simp <;> exact foldl_keeps State.repair (fun s p => s.updTile p Tile.markSuspect) (fun t p => t.updTile_repair p _) _ s
@[simp] theorem State.openSuspect_pages (i : Nat) : (s.openSuspect i).pages = s.pages := by
  simp only [State.openSuspect]
  (repeat' split) <;> simp <;> exact foldl_keeps State.pages (fun s p => s.updTile p Tile.markSuspect) (fun t p => t.updTile_pages p _) _ s
@[simp] theorem State.openSuspect_survival (i : Nat) : (s.openSuspect i).survival = s.survival := by
  simp only [State.openSuspect]
  (repeat' split) <;> simp <;> exact foldl_keeps State.survival (fun s p => s.updTile p Tile.markSuspect) (fun t p => t.updTile_survival p _) _ s
@[simp] theorem State.openSuspect_boot (i : Nat) : (s.openSuspect i).boot = s.boot := by
  simp only [State.openSuspect]
  (repeat' split) <;> simp <;> exact foldl_keeps State.boot (fun s p => s.updTile p Tile.markSuspect) (fun t p => t.updTile_boot p _) _ s
@[simp] theorem State.openSuspect_checks (i : Nat) : (s.openSuspect i).checks = s.checks := by
  simp only [State.openSuspect]
  (repeat' split) <;> simp <;> exact foldl_keeps State.checks (fun s p => s.updTile p Tile.markSuspect) (fun t p => t.updTile_checks p _) _ s
@[simp] theorem State.openSuspect_mesh (i : Nat) : (s.openSuspect i).mesh = s.mesh := by
  simp only [State.openSuspect]
  (repeat' split) <;> simp <;> exact foldl_keeps State.mesh (fun s p => s.updTile p Tile.markSuspect) (fun t p => t.updTile_mesh p _) _ s
@[simp] theorem State.openSuspect_rill (i : Nat) : (s.openSuspect i).rill = s.rill := by
  simp only [State.openSuspect]
  (repeat' split) <;> simp <;> exact foldl_keeps State.rill (fun s p => s.updTile p Tile.markSuspect) (fun t p => t.updTile_rill p _) _ s

@[simp] theorem State.toStandby_pending : s.toStandby.pending = s.pending := rfl
@[simp] theorem State.toStandby_variant : s.toStandby.variant = s.variant := rfl
@[simp] theorem State.toStandby_now : s.toStandby.now = s.now := rfl
@[simp] theorem State.toStandby_draws : s.toStandby.draws = s.draws := rfl
@[simp] theorem State.toStandby_step : s.toStandby.step = s.step := rfl
@[simp] theorem State.toStandby_mem : s.toStandby.mem = s.mem := rfl
@[simp] theorem State.toStandby_tiles : s.toStandby.tiles = s.tiles := rfl
@[simp] theorem State.toStandby_sync : s.toStandby.sync = s.sync := rfl
@[simp] theorem State.toStandby_pbs : s.toStandby.pbs = s.pbs := rfl
@[simp] theorem State.toStandby_reduce : s.toStandby.reduce = s.reduce := rfl
@[simp] theorem State.toStandby_links : s.toStandby.links = s.links := rfl
@[simp] theorem State.toStandby_zOut : s.toStandby.zOut = s.zOut := rfl
@[simp] theorem State.toStandby_rillOut : s.toStandby.rillOut = s.rillOut := rfl
@[simp] theorem State.toStandby_mailboxes : s.toStandby.mailboxes = s.mailboxes := rfl
@[simp] theorem State.toStandby_host : s.toStandby.host = s.host := rfl
@[simp] theorem State.toStandby_program : s.toStandby.program = s.program := rfl
@[simp] theorem State.toStandby_seam : s.toStandby.seam = s.seam := rfl
@[simp] theorem State.toStandby_arbiter : s.toStandby.arbiter = s.arbiter := rfl
@[simp] theorem State.toStandby_repair : s.toStandby.repair = s.repair := rfl
@[simp] theorem State.toStandby_pages : s.toStandby.pages = s.pages := rfl
@[simp] theorem State.toStandby_survival : s.toStandby.survival = s.survival := rfl
@[simp] theorem State.toStandby_trace : s.toStandby.trace = s.trace := rfl
@[simp] theorem State.toStandby_boot : s.toStandby.boot = s.boot := rfl
@[simp] theorem State.toStandby_checks : s.toStandby.checks = s.checks := rfl
@[simp] theorem State.toStandby_mesh : s.toStandby.mesh = s.mesh := rfl
@[simp] theorem State.toStandby_rill : s.toStandby.rill = s.rill := rfl

@[simp] theorem State.activate_pending : s.activate.pending = s.pending := rfl
@[simp] theorem State.activate_variant : s.activate.variant = s.variant := rfl
@[simp] theorem State.activate_now : s.activate.now = s.now := rfl
@[simp] theorem State.activate_draws : s.activate.draws = s.draws := rfl
@[simp] theorem State.activate_step : s.activate.step = s.step := rfl
@[simp] theorem State.activate_mem : s.activate.mem = s.mem := rfl
@[simp] theorem State.activate_tiles : s.activate.tiles = s.tiles := rfl
@[simp] theorem State.activate_sync : s.activate.sync = s.sync := rfl
@[simp] theorem State.activate_pbs : s.activate.pbs = s.pbs := rfl
@[simp] theorem State.activate_reduce : s.activate.reduce = s.reduce := rfl
@[simp] theorem State.activate_links : s.activate.links = s.links := rfl
@[simp] theorem State.activate_zOut : s.activate.zOut = s.zOut := rfl
@[simp] theorem State.activate_rillOut : s.activate.rillOut = s.rillOut := rfl
@[simp] theorem State.activate_mailboxes : s.activate.mailboxes = s.mailboxes := rfl
@[simp] theorem State.activate_host : s.activate.host = s.host := rfl
@[simp] theorem State.activate_program : s.activate.program = s.program := rfl
@[simp] theorem State.activate_arbiter : s.activate.arbiter = s.arbiter := rfl
@[simp] theorem State.activate_repair : s.activate.repair = s.repair := rfl
@[simp] theorem State.activate_pages : s.activate.pages = s.pages := rfl
@[simp] theorem State.activate_survival : s.activate.survival = s.survival := rfl
@[simp] theorem State.activate_trace : s.activate.trace = s.trace := rfl
@[simp] theorem State.activate_boot : s.activate.boot = s.boot := rfl
@[simp] theorem State.activate_checks : s.activate.checks = s.checks := rfl
@[simp] theorem State.activate_mesh : s.activate.mesh = s.mesh := rfl
@[simp] theorem State.activate_rill : s.activate.rill = s.rill := rfl

@[simp] theorem State.wake_pending : s.wake.pending = s.pending := by
  simp only [State.wake]
  (repeat' split) <;> simp
@[simp] theorem State.wake_variant : s.wake.variant = s.variant := by
  simp only [State.wake]
  (repeat' split) <;> simp
@[simp] theorem State.wake_now : s.wake.now = s.now := by
  simp only [State.wake]
  (repeat' split) <;> simp
@[simp] theorem State.wake_draws : s.wake.draws = s.draws := by
  simp only [State.wake]
  (repeat' split) <;> simp
@[simp] theorem State.wake_step : s.wake.step = s.step := by
  simp only [State.wake]
  (repeat' split) <;> simp
@[simp] theorem State.wake_mem : s.wake.mem = s.mem := by
  simp only [State.wake]
  (repeat' split) <;> simp
@[simp] theorem State.wake_tiles : s.wake.tiles = s.tiles := by
  simp only [State.wake]
  (repeat' split) <;> simp
@[simp] theorem State.wake_sync : s.wake.sync = s.sync := by
  simp only [State.wake]
  (repeat' split) <;> simp
@[simp] theorem State.wake_pbs : s.wake.pbs = s.pbs := by
  simp only [State.wake]
  (repeat' split) <;> simp
@[simp] theorem State.wake_reduce : s.wake.reduce = s.reduce := by
  simp only [State.wake]
  (repeat' split) <;> simp
@[simp] theorem State.wake_links : s.wake.links = s.links := by
  simp only [State.wake]
  (repeat' split) <;> simp
@[simp] theorem State.wake_zOut : s.wake.zOut = s.zOut := by
  simp only [State.wake]
  (repeat' split) <;> simp
@[simp] theorem State.wake_rillOut : s.wake.rillOut = s.rillOut := by
  simp only [State.wake]
  (repeat' split) <;> simp
@[simp] theorem State.wake_mailboxes : s.wake.mailboxes = s.mailboxes := by
  simp only [State.wake]
  (repeat' split) <;> simp
@[simp] theorem State.wake_host : s.wake.host = s.host := by
  simp only [State.wake]
  (repeat' split) <;> simp
@[simp] theorem State.wake_program : s.wake.program = s.program := by
  simp only [State.wake]
  (repeat' split) <;> simp
@[simp] theorem State.wake_arbiter : s.wake.arbiter = s.arbiter := by
  simp only [State.wake]
  (repeat' split) <;> simp
@[simp] theorem State.wake_repair : s.wake.repair = s.repair := by
  simp only [State.wake]
  (repeat' split) <;> simp
@[simp] theorem State.wake_pages : s.wake.pages = s.pages := by
  simp only [State.wake]
  (repeat' split) <;> simp
@[simp] theorem State.wake_survival : s.wake.survival = s.survival := by
  simp only [State.wake]
  (repeat' split) <;> simp
@[simp] theorem State.wake_trace : s.wake.trace = s.trace := by
  simp only [State.wake]
  (repeat' split) <;> simp
@[simp] theorem State.wake_boot : s.wake.boot = s.boot := by
  simp only [State.wake]
  (repeat' split) <;> simp
@[simp] theorem State.wake_checks : s.wake.checks = s.checks := by
  simp only [State.wake]
  (repeat' split) <;> simp
@[simp] theorem State.wake_mesh : s.wake.mesh = s.mesh := by
  simp only [State.wake]
  (repeat' split) <;> simp
@[simp] theorem State.wake_rill : s.wake.rill = s.rill := by
  simp only [State.wake]
  (repeat' split) <;> simp

@[simp] theorem State.queueTest_pending (a b c : Nat) (f r : Bool) (o : List Owed) : (s.queueTest a b c f r o).pending = s.pending := by
  simp only [State.queueTest]
  (repeat' split) <;> simp
@[simp] theorem State.queueTest_variant (a b c : Nat) (f r : Bool) (o : List Owed) : (s.queueTest a b c f r o).variant = s.variant := by
  simp only [State.queueTest]
  (repeat' split) <;> simp
@[simp] theorem State.queueTest_now (a b c : Nat) (f r : Bool) (o : List Owed) : (s.queueTest a b c f r o).now = s.now := by
  simp only [State.queueTest]
  (repeat' split) <;> simp
@[simp] theorem State.queueTest_draws (a b c : Nat) (f r : Bool) (o : List Owed) : (s.queueTest a b c f r o).draws = s.draws := by
  simp only [State.queueTest]
  (repeat' split) <;> simp
@[simp] theorem State.queueTest_step (a b c : Nat) (f r : Bool) (o : List Owed) : (s.queueTest a b c f r o).step = s.step := by
  simp only [State.queueTest]
  (repeat' split) <;> simp
@[simp] theorem State.queueTest_mem (a b c : Nat) (f r : Bool) (o : List Owed) : (s.queueTest a b c f r o).mem = s.mem := by
  simp only [State.queueTest]
  (repeat' split) <;> simp
@[simp] theorem State.queueTest_tiles (a b c : Nat) (f r : Bool) (o : List Owed) : (s.queueTest a b c f r o).tiles = s.tiles := by
  simp only [State.queueTest]
  (repeat' split) <;> simp
@[simp] theorem State.queueTest_sync (a b c : Nat) (f r : Bool) (o : List Owed) : (s.queueTest a b c f r o).sync = s.sync := by
  simp only [State.queueTest]
  (repeat' split) <;> simp
@[simp] theorem State.queueTest_pbs (a b c : Nat) (f r : Bool) (o : List Owed) : (s.queueTest a b c f r o).pbs = s.pbs := by
  simp only [State.queueTest]
  (repeat' split) <;> simp
@[simp] theorem State.queueTest_reduce (a b c : Nat) (f r : Bool) (o : List Owed) : (s.queueTest a b c f r o).reduce = s.reduce := by
  simp only [State.queueTest]
  (repeat' split) <;> simp
@[simp] theorem State.queueTest_links (a b c : Nat) (f r : Bool) (o : List Owed) : (s.queueTest a b c f r o).links = s.links := by
  simp only [State.queueTest]
  (repeat' split) <;> simp
@[simp] theorem State.queueTest_zOut (a b c : Nat) (f r : Bool) (o : List Owed) : (s.queueTest a b c f r o).zOut = s.zOut := by
  simp only [State.queueTest]
  (repeat' split) <;> simp
@[simp] theorem State.queueTest_rillOut (a b c : Nat) (f r : Bool) (o : List Owed) : (s.queueTest a b c f r o).rillOut = s.rillOut := by
  simp only [State.queueTest]
  (repeat' split) <;> simp
@[simp] theorem State.queueTest_mailboxes (a b c : Nat) (f r : Bool) (o : List Owed) : (s.queueTest a b c f r o).mailboxes = s.mailboxes := by
  simp only [State.queueTest]
  (repeat' split) <;> simp
@[simp] theorem State.queueTest_host (a b c : Nat) (f r : Bool) (o : List Owed) : (s.queueTest a b c f r o).host = s.host := by
  simp only [State.queueTest]
  (repeat' split) <;> simp
@[simp] theorem State.queueTest_program (a b c : Nat) (f r : Bool) (o : List Owed) : (s.queueTest a b c f r o).program = s.program := by
  simp only [State.queueTest]
  (repeat' split) <;> simp
@[simp] theorem State.queueTest_power (a b c : Nat) (f r : Bool) (o : List Owed) : (s.queueTest a b c f r o).power = s.power := by
  simp only [State.queueTest]
  (repeat' split) <;> simp
@[simp] theorem State.queueTest_seam (a b c : Nat) (f r : Bool) (o : List Owed) : (s.queueTest a b c f r o).seam = s.seam := by
  simp only [State.queueTest]
  (repeat' split) <;> simp
@[simp] theorem State.queueTest_arbiter (a b c : Nat) (f r : Bool) (o : List Owed) : (s.queueTest a b c f r o).arbiter = s.arbiter := by
  simp only [State.queueTest]
  (repeat' split) <;> simp
@[simp] theorem State.queueTest_pages (a b c : Nat) (f r : Bool) (o : List Owed) : (s.queueTest a b c f r o).pages = s.pages := by
  simp only [State.queueTest]
  (repeat' split) <;> simp
@[simp] theorem State.queueTest_survival (a b c : Nat) (f r : Bool) (o : List Owed) : (s.queueTest a b c f r o).survival = s.survival := by
  simp only [State.queueTest]
  (repeat' split) <;> simp
@[simp] theorem State.queueTest_trace (a b c : Nat) (f r : Bool) (o : List Owed) : (s.queueTest a b c f r o).trace = s.trace := by
  simp only [State.queueTest]
  (repeat' split) <;> simp
@[simp] theorem State.queueTest_boot (a b c : Nat) (f r : Bool) (o : List Owed) : (s.queueTest a b c f r o).boot = s.boot := by
  simp only [State.queueTest]
  (repeat' split) <;> simp
@[simp] theorem State.queueTest_checks (a b c : Nat) (f r : Bool) (o : List Owed) : (s.queueTest a b c f r o).checks = s.checks := by
  simp only [State.queueTest]
  (repeat' split) <;> simp
@[simp] theorem State.queueTest_mesh (a b c : Nat) (f r : Bool) (o : List Owed) : (s.queueTest a b c f r o).mesh = s.mesh := by
  simp only [State.queueTest]
  (repeat' split) <;> simp
@[simp] theorem State.queueTest_rill (a b c : Nat) (f r : Bool) (o : List Owed) : (s.queueTest a b c f r o).rill = s.rill := by
  simp only [State.queueTest]
  (repeat' split) <;> simp

@[simp] theorem State.noteDetection_pending (a b c : Nat) : (s.noteDetection a b c).pending = s.pending := by
  simp only [State.noteDetection]
  (repeat' split) <;> simp
@[simp] theorem State.noteDetection_variant (a b c : Nat) : (s.noteDetection a b c).variant = s.variant := by
  simp only [State.noteDetection]
  (repeat' split) <;> simp
@[simp] theorem State.noteDetection_now (a b c : Nat) : (s.noteDetection a b c).now = s.now := by
  simp only [State.noteDetection]
  (repeat' split) <;> simp
@[simp] theorem State.noteDetection_draws (a b c : Nat) : (s.noteDetection a b c).draws = s.draws := by
  simp only [State.noteDetection]
  (repeat' split) <;> simp
@[simp] theorem State.noteDetection_mem (a b c : Nat) : (s.noteDetection a b c).mem = s.mem := by
  simp only [State.noteDetection]
  (repeat' split) <;> simp
@[simp] theorem State.noteDetection_tiles (a b c : Nat) : (s.noteDetection a b c).tiles = s.tiles := by
  simp only [State.noteDetection]
  (repeat' split) <;> simp
@[simp] theorem State.noteDetection_sync (a b c : Nat) : (s.noteDetection a b c).sync = s.sync := by
  simp only [State.noteDetection]
  (repeat' split) <;> simp
@[simp] theorem State.noteDetection_pbs (a b c : Nat) : (s.noteDetection a b c).pbs = s.pbs := by
  simp only [State.noteDetection]
  (repeat' split) <;> simp
@[simp] theorem State.noteDetection_reduce (a b c : Nat) : (s.noteDetection a b c).reduce = s.reduce := by
  simp only [State.noteDetection]
  (repeat' split) <;> simp
@[simp] theorem State.noteDetection_links (a b c : Nat) : (s.noteDetection a b c).links = s.links := by
  simp only [State.noteDetection]
  (repeat' split) <;> simp
@[simp] theorem State.noteDetection_zOut (a b c : Nat) : (s.noteDetection a b c).zOut = s.zOut := by
  simp only [State.noteDetection]
  (repeat' split) <;> simp
@[simp] theorem State.noteDetection_mailboxes (a b c : Nat) : (s.noteDetection a b c).mailboxes = s.mailboxes := by
  simp only [State.noteDetection]
  (repeat' split) <;> simp
@[simp] theorem State.noteDetection_program (a b c : Nat) : (s.noteDetection a b c).program = s.program := by
  simp only [State.noteDetection]
  (repeat' split) <;> simp
@[simp] theorem State.noteDetection_power (a b c : Nat) : (s.noteDetection a b c).power = s.power := by
  simp only [State.noteDetection]
  (repeat' split) <;> simp
@[simp] theorem State.noteDetection_seam (a b c : Nat) : (s.noteDetection a b c).seam = s.seam := by
  simp only [State.noteDetection]
  (repeat' split) <;> simp
@[simp] theorem State.noteDetection_pages (a b c : Nat) : (s.noteDetection a b c).pages = s.pages := by
  simp only [State.noteDetection]
  (repeat' split) <;> simp
@[simp] theorem State.noteDetection_survival (a b c : Nat) : (s.noteDetection a b c).survival = s.survival := by
  simp only [State.noteDetection]
  (repeat' split) <;> simp
@[simp] theorem State.noteDetection_boot (a b c : Nat) : (s.noteDetection a b c).boot = s.boot := by
  simp only [State.noteDetection]
  (repeat' split) <;> simp
@[simp] theorem State.noteDetection_checks (a b c : Nat) : (s.noteDetection a b c).checks = s.checks := by
  simp only [State.noteDetection]
  (repeat' split) <;> simp
@[simp] theorem State.noteDetection_mesh (a b c : Nat) : (s.noteDetection a b c).mesh = s.mesh := by
  simp only [State.noteDetection]
  (repeat' split) <;> simp
@[simp] theorem State.noteDetection_rill (a b c : Nat) : (s.noteDetection a b c).rill = s.rill := by
  simp only [State.noteDetection]
  (repeat' split) <;> simp

@[simp] theorem State.detect_pending (c : Code) (x b l : Nat) (i : BitVec 64) (d : Nat) : (s.detect c x b l i d).pending = s.pending := by
  simp only [State.detect]
  (repeat' split) <;> simp
@[simp] theorem State.detect_variant (c : Code) (x b l : Nat) (i : BitVec 64) (d : Nat) : (s.detect c x b l i d).variant = s.variant := by
  simp only [State.detect]
  (repeat' split) <;> simp
@[simp] theorem State.detect_now (c : Code) (x b l : Nat) (i : BitVec 64) (d : Nat) : (s.detect c x b l i d).now = s.now := by
  simp only [State.detect]
  (repeat' split) <;> simp
@[simp] theorem State.detect_draws (c : Code) (x b l : Nat) (i : BitVec 64) (d : Nat) : (s.detect c x b l i d).draws = s.draws := by
  simp only [State.detect]
  (repeat' split) <;> simp
@[simp] theorem State.detect_mem (c : Code) (x b l : Nat) (i : BitVec 64) (d : Nat) : (s.detect c x b l i d).mem = s.mem := by
  simp only [State.detect]
  (repeat' split) <;> simp
@[simp] theorem State.detect_tiles (c : Code) (x b l : Nat) (i : BitVec 64) (d : Nat) : (s.detect c x b l i d).tiles = s.tiles := by
  simp only [State.detect]
  (repeat' split) <;> simp
@[simp] theorem State.detect_sync (c : Code) (x b l : Nat) (i : BitVec 64) (d : Nat) : (s.detect c x b l i d).sync = s.sync := by
  simp only [State.detect]
  (repeat' split) <;> simp
@[simp] theorem State.detect_pbs (c : Code) (x b l : Nat) (i : BitVec 64) (d : Nat) : (s.detect c x b l i d).pbs = s.pbs := by
  simp only [State.detect]
  (repeat' split) <;> simp
@[simp] theorem State.detect_reduce (c : Code) (x b l : Nat) (i : BitVec 64) (d : Nat) : (s.detect c x b l i d).reduce = s.reduce := by
  simp only [State.detect]
  (repeat' split) <;> simp
@[simp] theorem State.detect_links (c : Code) (x b l : Nat) (i : BitVec 64) (d : Nat) : (s.detect c x b l i d).links = s.links := by
  simp only [State.detect]
  (repeat' split) <;> simp
@[simp] theorem State.detect_zOut (c : Code) (x b l : Nat) (i : BitVec 64) (d : Nat) : (s.detect c x b l i d).zOut = s.zOut := by
  simp only [State.detect]
  (repeat' split) <;> simp
@[simp] theorem State.detect_mailboxes (c : Code) (x b l : Nat) (i : BitVec 64) (d : Nat) : (s.detect c x b l i d).mailboxes = s.mailboxes := by
  simp only [State.detect]
  (repeat' split) <;> simp
@[simp] theorem State.detect_program (c : Code) (x b l : Nat) (i : BitVec 64) (d : Nat) : (s.detect c x b l i d).program = s.program := by
  simp only [State.detect]
  (repeat' split) <;> simp
@[simp] theorem State.detect_power (c : Code) (x b l : Nat) (i : BitVec 64) (d : Nat) : (s.detect c x b l i d).power = s.power := by
  simp only [State.detect]
  (repeat' split) <;> simp
@[simp] theorem State.detect_seam (c : Code) (x b l : Nat) (i : BitVec 64) (d : Nat) : (s.detect c x b l i d).seam = s.seam := by
  simp only [State.detect]
  (repeat' split) <;> simp
@[simp] theorem State.detect_pages (c : Code) (x b l : Nat) (i : BitVec 64) (d : Nat) : (s.detect c x b l i d).pages = s.pages := by
  simp only [State.detect]
  (repeat' split) <;> simp
@[simp] theorem State.detect_survival (c : Code) (x b l : Nat) (i : BitVec 64) (d : Nat) : (s.detect c x b l i d).survival = s.survival := by
  simp only [State.detect]
  (repeat' split) <;> simp
@[simp] theorem State.detect_boot (c : Code) (x b l : Nat) (i : BitVec 64) (d : Nat) : (s.detect c x b l i d).boot = s.boot := by
  simp only [State.detect]
  (repeat' split) <;> simp
@[simp] theorem State.detect_checks (c : Code) (x b l : Nat) (i : BitVec 64) (d : Nat) : (s.detect c x b l i d).checks = s.checks := by
  simp only [State.detect]
  (repeat' split) <;> simp
@[simp] theorem State.detect_mesh (c : Code) (x b l : Nat) (i : BitVec 64) (d : Nat) : (s.detect c x b l i d).mesh = s.mesh := by
  simp only [State.detect]
  (repeat' split) <;> simp
@[simp] theorem State.detect_rill (c : Code) (x b l : Nat) (i : BitVec 64) (d : Nat) : (s.detect c x b l i d).rill = s.rill := by
  simp only [State.detect]
  (repeat' split) <;> simp

@[simp] theorem State.countRefire_pending (b : Bool) : (s.countRefire b).pending = s.pending := rfl
@[simp] theorem State.countRefire_variant (b : Bool) : (s.countRefire b).variant = s.variant := rfl
@[simp] theorem State.countRefire_now (b : Bool) : (s.countRefire b).now = s.now := rfl
@[simp] theorem State.countRefire_draws (b : Bool) : (s.countRefire b).draws = s.draws := rfl
@[simp] theorem State.countRefire_mem (b : Bool) : (s.countRefire b).mem = s.mem := rfl
@[simp] theorem State.countRefire_tiles (b : Bool) : (s.countRefire b).tiles = s.tiles := rfl
@[simp] theorem State.countRefire_sync (b : Bool) : (s.countRefire b).sync = s.sync := rfl
@[simp] theorem State.countRefire_pbs (b : Bool) : (s.countRefire b).pbs = s.pbs := rfl
@[simp] theorem State.countRefire_reduce (b : Bool) : (s.countRefire b).reduce = s.reduce := rfl
@[simp] theorem State.countRefire_links (b : Bool) : (s.countRefire b).links = s.links := rfl
@[simp] theorem State.countRefire_zOut (b : Bool) : (s.countRefire b).zOut = s.zOut := rfl
@[simp] theorem State.countRefire_rillOut (b : Bool) : (s.countRefire b).rillOut = s.rillOut := rfl
@[simp] theorem State.countRefire_mailboxes (b : Bool) : (s.countRefire b).mailboxes = s.mailboxes := rfl
@[simp] theorem State.countRefire_host (b : Bool) : (s.countRefire b).host = s.host := rfl
@[simp] theorem State.countRefire_program (b : Bool) : (s.countRefire b).program = s.program := rfl
@[simp] theorem State.countRefire_power (b : Bool) : (s.countRefire b).power = s.power := rfl
@[simp] theorem State.countRefire_seam (b : Bool) : (s.countRefire b).seam = s.seam := rfl
@[simp] theorem State.countRefire_arbiter (b : Bool) : (s.countRefire b).arbiter = s.arbiter := rfl
@[simp] theorem State.countRefire_repair (b : Bool) : (s.countRefire b).repair = s.repair := rfl
@[simp] theorem State.countRefire_pages (b : Bool) : (s.countRefire b).pages = s.pages := rfl
@[simp] theorem State.countRefire_survival (b : Bool) : (s.countRefire b).survival = s.survival := rfl
@[simp] theorem State.countRefire_trace (b : Bool) : (s.countRefire b).trace = s.trace := rfl
@[simp] theorem State.countRefire_boot (b : Bool) : (s.countRefire b).boot = s.boot := rfl
@[simp] theorem State.countRefire_checks (b : Bool) : (s.countRefire b).checks = s.checks := rfl
@[simp] theorem State.countRefire_mesh (b : Bool) : (s.countRefire b).mesh = s.mesh := rfl
@[simp] theorem State.countRefire_rill (b : Bool) : (s.countRefire b).rill = s.rill := rfl

@[simp] theorem State.cmdStart_pending (p u o : Nat) (c : BitVec 64) : (s.cmdStart p u o c).pending = s.pending := by
  simp only [State.cmdStart]
  (repeat' split) <;> simp
@[simp] theorem State.cmdStart_variant (p u o : Nat) (c : BitVec 64) : (s.cmdStart p u o c).variant = s.variant := by
  simp only [State.cmdStart]
  (repeat' split) <;> simp
@[simp] theorem State.cmdStart_now (p u o : Nat) (c : BitVec 64) : (s.cmdStart p u o c).now = s.now := by
  simp only [State.cmdStart]
  (repeat' split) <;> simp
@[simp] theorem State.cmdStart_draws (p u o : Nat) (c : BitVec 64) : (s.cmdStart p u o c).draws = s.draws := by
  simp only [State.cmdStart]
  (repeat' split) <;> simp
@[simp] theorem State.cmdStart_step (p u o : Nat) (c : BitVec 64) : (s.cmdStart p u o c).step = s.step := by
  simp only [State.cmdStart]
  (repeat' split) <;> simp
@[simp] theorem State.cmdStart_mem (p u o : Nat) (c : BitVec 64) : (s.cmdStart p u o c).mem = s.mem := by
  simp only [State.cmdStart]
  (repeat' split) <;> simp
@[simp] theorem State.cmdStart_sync (p u o : Nat) (c : BitVec 64) : (s.cmdStart p u o c).sync = s.sync := by
  simp only [State.cmdStart]
  (repeat' split) <;> simp
@[simp] theorem State.cmdStart_pbs (p u o : Nat) (c : BitVec 64) : (s.cmdStart p u o c).pbs = s.pbs := by
  simp only [State.cmdStart]
  (repeat' split) <;> simp
@[simp] theorem State.cmdStart_reduce (p u o : Nat) (c : BitVec 64) : (s.cmdStart p u o c).reduce = s.reduce := by
  simp only [State.cmdStart]
  (repeat' split) <;> simp
@[simp] theorem State.cmdStart_links (p u o : Nat) (c : BitVec 64) : (s.cmdStart p u o c).links = s.links := by
  simp only [State.cmdStart]
  (repeat' split) <;> simp
@[simp] theorem State.cmdStart_zOut (p u o : Nat) (c : BitVec 64) : (s.cmdStart p u o c).zOut = s.zOut := by
  simp only [State.cmdStart]
  (repeat' split) <;> simp
@[simp] theorem State.cmdStart_rillOut (p u o : Nat) (c : BitVec 64) : (s.cmdStart p u o c).rillOut = s.rillOut := by
  simp only [State.cmdStart]
  (repeat' split) <;> simp
@[simp] theorem State.cmdStart_mailboxes (p u o : Nat) (c : BitVec 64) : (s.cmdStart p u o c).mailboxes = s.mailboxes := by
  simp only [State.cmdStart]
  (repeat' split) <;> simp
@[simp] theorem State.cmdStart_host (p u o : Nat) (c : BitVec 64) : (s.cmdStart p u o c).host = s.host := by
  simp only [State.cmdStart]
  (repeat' split) <;> simp
@[simp] theorem State.cmdStart_program (p u o : Nat) (c : BitVec 64) : (s.cmdStart p u o c).program = s.program := by
  simp only [State.cmdStart]
  (repeat' split) <;> simp
@[simp] theorem State.cmdStart_power (p u o : Nat) (c : BitVec 64) : (s.cmdStart p u o c).power = s.power := by
  simp only [State.cmdStart]
  (repeat' split) <;> simp
@[simp] theorem State.cmdStart_seam (p u o : Nat) (c : BitVec 64) : (s.cmdStart p u o c).seam = s.seam := by
  simp only [State.cmdStart]
  (repeat' split) <;> simp
@[simp] theorem State.cmdStart_arbiter (p u o : Nat) (c : BitVec 64) : (s.cmdStart p u o c).arbiter = s.arbiter := by
  simp only [State.cmdStart]
  (repeat' split) <;> simp
@[simp] theorem State.cmdStart_repair (p u o : Nat) (c : BitVec 64) : (s.cmdStart p u o c).repair = s.repair := by
  simp only [State.cmdStart]
  (repeat' split) <;> simp
@[simp] theorem State.cmdStart_pages (p u o : Nat) (c : BitVec 64) : (s.cmdStart p u o c).pages = s.pages := by
  simp only [State.cmdStart]
  (repeat' split) <;> simp
@[simp] theorem State.cmdStart_survival (p u o : Nat) (c : BitVec 64) : (s.cmdStart p u o c).survival = s.survival := by
  simp only [State.cmdStart]
  (repeat' split) <;> simp
@[simp] theorem State.cmdStart_boot (p u o : Nat) (c : BitVec 64) : (s.cmdStart p u o c).boot = s.boot := by
  simp only [State.cmdStart]
  (repeat' split) <;> simp
@[simp] theorem State.cmdStart_checks (p u o : Nat) (c : BitVec 64) : (s.cmdStart p u o c).checks = s.checks := by
  simp only [State.cmdStart]
  (repeat' split) <;> simp
@[simp] theorem State.cmdStart_mesh (p u o : Nat) (c : BitVec 64) : (s.cmdStart p u o c).mesh = s.mesh := by
  simp only [State.cmdStart]
  (repeat' split) <;> simp
@[simp] theorem State.cmdStart_rill (p u o : Nat) (c : BitVec 64) : (s.cmdStart p u o c).rill = s.rill := by
  simp only [State.cmdStart]
  (repeat' split) <;> simp

@[simp] theorem State.cmdEnd_pending (p : Nat) (c : BitVec 64) (x : Code) (f : Nat) : (s.cmdEnd p c x f).pending = s.pending := by
  simp only [State.cmdEnd]
  (repeat' split) <;> simp
@[simp] theorem State.cmdEnd_variant (p : Nat) (c : BitVec 64) (x : Code) (f : Nat) : (s.cmdEnd p c x f).variant = s.variant := by
  simp only [State.cmdEnd]
  (repeat' split) <;> simp
@[simp] theorem State.cmdEnd_now (p : Nat) (c : BitVec 64) (x : Code) (f : Nat) : (s.cmdEnd p c x f).now = s.now := by
  simp only [State.cmdEnd]
  (repeat' split) <;> simp
@[simp] theorem State.cmdEnd_step (p : Nat) (c : BitVec 64) (x : Code) (f : Nat) : (s.cmdEnd p c x f).step = s.step := by
  simp only [State.cmdEnd]
  (repeat' split) <;> simp
@[simp] theorem State.cmdEnd_mem (p : Nat) (c : BitVec 64) (x : Code) (f : Nat) : (s.cmdEnd p c x f).mem = s.mem := by
  simp only [State.cmdEnd]
  (repeat' split) <;> simp
@[simp] theorem State.cmdEnd_sync (p : Nat) (c : BitVec 64) (x : Code) (f : Nat) : (s.cmdEnd p c x f).sync = s.sync := by
  simp only [State.cmdEnd]
  (repeat' split) <;> simp
@[simp] theorem State.cmdEnd_pbs (p : Nat) (c : BitVec 64) (x : Code) (f : Nat) : (s.cmdEnd p c x f).pbs = s.pbs := by
  simp only [State.cmdEnd]
  (repeat' split) <;> simp
@[simp] theorem State.cmdEnd_reduce (p : Nat) (c : BitVec 64) (x : Code) (f : Nat) : (s.cmdEnd p c x f).reduce = s.reduce := by
  simp only [State.cmdEnd]
  (repeat' split) <;> simp
@[simp] theorem State.cmdEnd_links (p : Nat) (c : BitVec 64) (x : Code) (f : Nat) : (s.cmdEnd p c x f).links = s.links := by
  simp only [State.cmdEnd]
  (repeat' split) <;> simp
@[simp] theorem State.cmdEnd_zOut (p : Nat) (c : BitVec 64) (x : Code) (f : Nat) : (s.cmdEnd p c x f).zOut = s.zOut := by
  simp only [State.cmdEnd]
  (repeat' split) <;> simp
@[simp] theorem State.cmdEnd_rillOut (p : Nat) (c : BitVec 64) (x : Code) (f : Nat) : (s.cmdEnd p c x f).rillOut = s.rillOut := by
  simp only [State.cmdEnd]
  (repeat' split) <;> simp
@[simp] theorem State.cmdEnd_mailboxes (p : Nat) (c : BitVec 64) (x : Code) (f : Nat) : (s.cmdEnd p c x f).mailboxes = s.mailboxes := by
  simp only [State.cmdEnd]
  (repeat' split) <;> simp
@[simp] theorem State.cmdEnd_host (p : Nat) (c : BitVec 64) (x : Code) (f : Nat) : (s.cmdEnd p c x f).host = s.host := by
  simp only [State.cmdEnd]
  (repeat' split) <;> simp
@[simp] theorem State.cmdEnd_program (p : Nat) (c : BitVec 64) (x : Code) (f : Nat) : (s.cmdEnd p c x f).program = s.program := by
  simp only [State.cmdEnd]
  (repeat' split) <;> simp
@[simp] theorem State.cmdEnd_power (p : Nat) (c : BitVec 64) (x : Code) (f : Nat) : (s.cmdEnd p c x f).power = s.power := by
  simp only [State.cmdEnd]
  (repeat' split) <;> simp
@[simp] theorem State.cmdEnd_seam (p : Nat) (c : BitVec 64) (x : Code) (f : Nat) : (s.cmdEnd p c x f).seam = s.seam := by
  simp only [State.cmdEnd]
  (repeat' split) <;> simp
@[simp] theorem State.cmdEnd_arbiter (p : Nat) (c : BitVec 64) (x : Code) (f : Nat) : (s.cmdEnd p c x f).arbiter = s.arbiter := by
  simp only [State.cmdEnd]
  (repeat' split) <;> simp
@[simp] theorem State.cmdEnd_repair (p : Nat) (c : BitVec 64) (x : Code) (f : Nat) : (s.cmdEnd p c x f).repair = s.repair := by
  simp only [State.cmdEnd]
  (repeat' split) <;> simp
@[simp] theorem State.cmdEnd_pages (p : Nat) (c : BitVec 64) (x : Code) (f : Nat) : (s.cmdEnd p c x f).pages = s.pages := by
  simp only [State.cmdEnd]
  (repeat' split) <;> simp
@[simp] theorem State.cmdEnd_survival (p : Nat) (c : BitVec 64) (x : Code) (f : Nat) : (s.cmdEnd p c x f).survival = s.survival := by
  simp only [State.cmdEnd]
  (repeat' split) <;> simp
@[simp] theorem State.cmdEnd_boot (p : Nat) (c : BitVec 64) (x : Code) (f : Nat) : (s.cmdEnd p c x f).boot = s.boot := by
  simp only [State.cmdEnd]
  (repeat' split) <;> simp
@[simp] theorem State.cmdEnd_checks (p : Nat) (c : BitVec 64) (x : Code) (f : Nat) : (s.cmdEnd p c x f).checks = s.checks := by
  simp only [State.cmdEnd]
  (repeat' split) <;> simp
@[simp] theorem State.cmdEnd_mesh (p : Nat) (c : BitVec 64) (x : Code) (f : Nat) : (s.cmdEnd p c x f).mesh = s.mesh := by
  simp only [State.cmdEnd]
  (repeat' split) <;> simp
@[simp] theorem State.cmdEnd_rill (p : Nat) (c : BitVec 64) (x : Code) (f : Nat) : (s.cmdEnd p c x f).rill = s.rill := by
  simp only [State.cmdEnd]
  (repeat' split) <;> simp

@[simp] theorem State.tileFault_pending (p b : Nat) (c : BitVec 64) (x : Code) : (s.tileFault p b c x).pending = s.pending := by
  simp only [State.tileFault]
  (repeat' split) <;> simp
@[simp] theorem State.tileFault_variant (p b : Nat) (c : BitVec 64) (x : Code) : (s.tileFault p b c x).variant = s.variant := by
  simp only [State.tileFault]
  (repeat' split) <;> simp
@[simp] theorem State.tileFault_now (p b : Nat) (c : BitVec 64) (x : Code) : (s.tileFault p b c x).now = s.now := by
  simp only [State.tileFault]
  (repeat' split) <;> simp
@[simp] theorem State.tileFault_draws (p b : Nat) (c : BitVec 64) (x : Code) : (s.tileFault p b c x).draws = s.draws := by
  simp only [State.tileFault]
  (repeat' split) <;> simp
@[simp] theorem State.tileFault_mem (p b : Nat) (c : BitVec 64) (x : Code) : (s.tileFault p b c x).mem = s.mem := by
  simp only [State.tileFault]
  (repeat' split) <;> simp
@[simp] theorem State.tileFault_tiles (p b : Nat) (c : BitVec 64) (x : Code) : (s.tileFault p b c x).tiles = s.tiles := by
  simp only [State.tileFault]
  (repeat' split) <;> simp
@[simp] theorem State.tileFault_sync (p b : Nat) (c : BitVec 64) (x : Code) : (s.tileFault p b c x).sync = s.sync := by
  simp only [State.tileFault]
  (repeat' split) <;> simp
@[simp] theorem State.tileFault_pbs (p b : Nat) (c : BitVec 64) (x : Code) : (s.tileFault p b c x).pbs = s.pbs := by
  simp only [State.tileFault]
  (repeat' split) <;> simp
@[simp] theorem State.tileFault_reduce (p b : Nat) (c : BitVec 64) (x : Code) : (s.tileFault p b c x).reduce = s.reduce := by
  simp only [State.tileFault]
  (repeat' split) <;> simp
@[simp] theorem State.tileFault_links (p b : Nat) (c : BitVec 64) (x : Code) : (s.tileFault p b c x).links = s.links := by
  simp only [State.tileFault]
  (repeat' split) <;> simp
@[simp] theorem State.tileFault_zOut (p b : Nat) (c : BitVec 64) (x : Code) : (s.tileFault p b c x).zOut = s.zOut := by
  simp only [State.tileFault]
  (repeat' split) <;> simp
@[simp] theorem State.tileFault_mailboxes (p b : Nat) (c : BitVec 64) (x : Code) : (s.tileFault p b c x).mailboxes = s.mailboxes := by
  simp only [State.tileFault]
  (repeat' split) <;> simp
@[simp] theorem State.tileFault_program (p b : Nat) (c : BitVec 64) (x : Code) : (s.tileFault p b c x).program = s.program := by
  simp only [State.tileFault]
  (repeat' split) <;> simp
@[simp] theorem State.tileFault_power (p b : Nat) (c : BitVec 64) (x : Code) : (s.tileFault p b c x).power = s.power := by
  simp only [State.tileFault]
  (repeat' split) <;> simp
@[simp] theorem State.tileFault_seam (p b : Nat) (c : BitVec 64) (x : Code) : (s.tileFault p b c x).seam = s.seam := by
  simp only [State.tileFault]
  (repeat' split) <;> simp
@[simp] theorem State.tileFault_repair (p b : Nat) (c : BitVec 64) (x : Code) : (s.tileFault p b c x).repair = s.repair := by
  simp only [State.tileFault]
  (repeat' split) <;> simp
@[simp] theorem State.tileFault_pages (p b : Nat) (c : BitVec 64) (x : Code) : (s.tileFault p b c x).pages = s.pages := by
  simp only [State.tileFault]
  (repeat' split) <;> simp
@[simp] theorem State.tileFault_survival (p b : Nat) (c : BitVec 64) (x : Code) : (s.tileFault p b c x).survival = s.survival := by
  simp only [State.tileFault]
  (repeat' split) <;> simp
@[simp] theorem State.tileFault_boot (p b : Nat) (c : BitVec 64) (x : Code) : (s.tileFault p b c x).boot = s.boot := by
  simp only [State.tileFault]
  (repeat' split) <;> simp
@[simp] theorem State.tileFault_checks (p b : Nat) (c : BitVec 64) (x : Code) : (s.tileFault p b c x).checks = s.checks := by
  simp only [State.tileFault]
  (repeat' split) <;> simp
@[simp] theorem State.tileFault_mesh (p b : Nat) (c : BitVec 64) (x : Code) : (s.tileFault p b c x).mesh = s.mesh := by
  simp only [State.tileFault]
  (repeat' split) <;> simp
@[simp] theorem State.tileFault_rill (p b : Nat) (c : BitVec 64) (x : Code) : (s.tileFault p b c x).rill = s.rill := by
  simp only [State.tileFault]
  (repeat' split) <;> simp

@[simp] theorem State.loseLock_pending (k : Nat) : (s.loseLock k).pending = s.pending := by
  simp only [State.loseLock]
  (repeat' split) <;> simp
@[simp] theorem State.loseLock_variant (k : Nat) : (s.loseLock k).variant = s.variant := by
  simp only [State.loseLock]
  (repeat' split) <;> simp
@[simp] theorem State.loseLock_now (k : Nat) : (s.loseLock k).now = s.now := by
  simp only [State.loseLock]
  (repeat' split) <;> simp
@[simp] theorem State.loseLock_draws (k : Nat) : (s.loseLock k).draws = s.draws := by
  simp only [State.loseLock]
  (repeat' split) <;> simp
@[simp] theorem State.loseLock_mem (k : Nat) : (s.loseLock k).mem = s.mem := by
  simp only [State.loseLock]
  (repeat' split) <;> simp
@[simp] theorem State.loseLock_tiles (k : Nat) : (s.loseLock k).tiles = s.tiles := by
  simp only [State.loseLock]
  (repeat' split) <;> simp
@[simp] theorem State.loseLock_sync (k : Nat) : (s.loseLock k).sync = s.sync := by
  simp only [State.loseLock]
  (repeat' split) <;> simp
@[simp] theorem State.loseLock_pbs (k : Nat) : (s.loseLock k).pbs = s.pbs := by
  simp only [State.loseLock]
  (repeat' split) <;> simp
@[simp] theorem State.loseLock_reduce (k : Nat) : (s.loseLock k).reduce = s.reduce := by
  simp only [State.loseLock]
  (repeat' split) <;> simp
@[simp] theorem State.loseLock_links (k : Nat) : (s.loseLock k).links = s.links := by
  simp only [State.loseLock]
  (repeat' split) <;> simp
@[simp] theorem State.loseLock_zOut (k : Nat) : (s.loseLock k).zOut = s.zOut := by
  simp only [State.loseLock]
  (repeat' split) <;> simp
@[simp] theorem State.loseLock_mailboxes (k : Nat) : (s.loseLock k).mailboxes = s.mailboxes := by
  simp only [State.loseLock]
  (repeat' split) <;> simp
@[simp] theorem State.loseLock_program (k : Nat) : (s.loseLock k).program = s.program := by
  simp only [State.loseLock]
  (repeat' split) <;> simp
@[simp] theorem State.loseLock_seam (k : Nat) : (s.loseLock k).seam = s.seam := by
  simp only [State.loseLock]
  (repeat' split) <;> simp
@[simp] theorem State.loseLock_repair (k : Nat) : (s.loseLock k).repair = s.repair := by
  simp only [State.loseLock]
  (repeat' split) <;> simp
@[simp] theorem State.loseLock_pages (k : Nat) : (s.loseLock k).pages = s.pages := by
  simp only [State.loseLock]
  (repeat' split) <;> simp
@[simp] theorem State.loseLock_survival (k : Nat) : (s.loseLock k).survival = s.survival := by
  simp only [State.loseLock]
  (repeat' split) <;> simp
@[simp] theorem State.loseLock_boot (k : Nat) : (s.loseLock k).boot = s.boot := by
  simp only [State.loseLock]
  (repeat' split) <;> simp
@[simp] theorem State.loseLock_checks (k : Nat) : (s.loseLock k).checks = s.checks := by
  simp only [State.loseLock]
  (repeat' split) <;> simp
@[simp] theorem State.loseLock_mesh (k : Nat) : (s.loseLock k).mesh = s.mesh := by
  simp only [State.loseLock]
  (repeat' split) <;> simp
@[simp] theorem State.loseLock_rill (k : Nat) : (s.loseLock k).rill = s.rill := by
  simp only [State.loseLock]
  (repeat' split) <;> simp

@[simp] theorem State.stopField_pending (i : Nat) : (s.stopField i).pending = s.pending := foldl_keeps State.pending _ (fun t k => t.loseLock_pending k) _ _
@[simp] theorem State.stopField_variant (i : Nat) : (s.stopField i).variant = s.variant := foldl_keeps State.variant _ (fun t k => t.loseLock_variant k) _ _
@[simp] theorem State.stopField_now (i : Nat) : (s.stopField i).now = s.now := foldl_keeps State.now _ (fun t k => t.loseLock_now k) _ _
@[simp] theorem State.stopField_draws (i : Nat) : (s.stopField i).draws = s.draws := foldl_keeps State.draws _ (fun t k => t.loseLock_draws k) _ _
@[simp] theorem State.stopField_mem (i : Nat) : (s.stopField i).mem = s.mem := foldl_keeps State.mem _ (fun t k => t.loseLock_mem k) _ _
@[simp] theorem State.stopField_tiles (i : Nat) : (s.stopField i).tiles = s.tiles := foldl_keeps State.tiles _ (fun t k => t.loseLock_tiles k) _ _
@[simp] theorem State.stopField_sync (i : Nat) : (s.stopField i).sync = s.sync := foldl_keeps State.sync _ (fun t k => t.loseLock_sync k) _ _
@[simp] theorem State.stopField_pbs (i : Nat) : (s.stopField i).pbs = s.pbs := foldl_keeps State.pbs _ (fun t k => t.loseLock_pbs k) _ _
@[simp] theorem State.stopField_reduce (i : Nat) : (s.stopField i).reduce = s.reduce := foldl_keeps State.reduce _ (fun t k => t.loseLock_reduce k) _ _
@[simp] theorem State.stopField_links (i : Nat) : (s.stopField i).links = s.links := foldl_keeps State.links _ (fun t k => t.loseLock_links k) _ _
@[simp] theorem State.stopField_zOut (i : Nat) : (s.stopField i).zOut = s.zOut := foldl_keeps State.zOut _ (fun t k => t.loseLock_zOut k) _ _
@[simp] theorem State.stopField_mailboxes (i : Nat) : (s.stopField i).mailboxes = s.mailboxes := foldl_keeps State.mailboxes _ (fun t k => t.loseLock_mailboxes k) _ _
@[simp] theorem State.stopField_program (i : Nat) : (s.stopField i).program = s.program := foldl_keeps State.program _ (fun t k => t.loseLock_program k) _ _
@[simp] theorem State.stopField_seam (i : Nat) : (s.stopField i).seam = s.seam := foldl_keeps State.seam _ (fun t k => t.loseLock_seam k) _ _
@[simp] theorem State.stopField_repair (i : Nat) : (s.stopField i).repair = s.repair := foldl_keeps State.repair _ (fun t k => t.loseLock_repair k) _ _
@[simp] theorem State.stopField_pages (i : Nat) : (s.stopField i).pages = s.pages := foldl_keeps State.pages _ (fun t k => t.loseLock_pages k) _ _
@[simp] theorem State.stopField_survival (i : Nat) : (s.stopField i).survival = s.survival := foldl_keeps State.survival _ (fun t k => t.loseLock_survival k) _ _
@[simp] theorem State.stopField_boot (i : Nat) : (s.stopField i).boot = s.boot := foldl_keeps State.boot _ (fun t k => t.loseLock_boot k) _ _
@[simp] theorem State.stopField_checks (i : Nat) : (s.stopField i).checks = s.checks := foldl_keeps State.checks _ (fun t k => t.loseLock_checks k) _ _
@[simp] theorem State.stopField_mesh (i : Nat) : (s.stopField i).mesh = s.mesh := foldl_keeps State.mesh _ (fun t k => t.loseLock_mesh k) _ _
@[simp] theorem State.stopField_rill (i : Nat) : (s.stopField i).rill = s.rill := foldl_keeps State.rill _ (fun t k => t.loseLock_rill k) _ _

@[simp] theorem State.openBreaker_pending (i : Nat) : (s.openBreaker i).pending = s.pending := by
  simp [State.openBreaker]
@[simp] theorem State.openBreaker_variant (i : Nat) : (s.openBreaker i).variant = s.variant := by
  simp [State.openBreaker]
@[simp] theorem State.openBreaker_now (i : Nat) : (s.openBreaker i).now = s.now := by
  simp [State.openBreaker]
@[simp] theorem State.openBreaker_draws (i : Nat) : (s.openBreaker i).draws = s.draws := by
  simp [State.openBreaker]
@[simp] theorem State.openBreaker_mem (i : Nat) : (s.openBreaker i).mem = s.mem := by
  simp [State.openBreaker]
@[simp] theorem State.openBreaker_tiles (i : Nat) : (s.openBreaker i).tiles = s.tiles := by
  simp [State.openBreaker]
@[simp] theorem State.openBreaker_sync (i : Nat) : (s.openBreaker i).sync = s.sync := by
  simp [State.openBreaker]
@[simp] theorem State.openBreaker_pbs (i : Nat) : (s.openBreaker i).pbs = s.pbs := by
  simp [State.openBreaker]
@[simp] theorem State.openBreaker_reduce (i : Nat) : (s.openBreaker i).reduce = s.reduce := by
  simp [State.openBreaker]
@[simp] theorem State.openBreaker_links (i : Nat) : (s.openBreaker i).links = s.links := by
  simp [State.openBreaker]
@[simp] theorem State.openBreaker_zOut (i : Nat) : (s.openBreaker i).zOut = s.zOut := by
  simp [State.openBreaker]
@[simp] theorem State.openBreaker_mailboxes (i : Nat) : (s.openBreaker i).mailboxes = s.mailboxes := by
  simp [State.openBreaker]
@[simp] theorem State.openBreaker_program (i : Nat) : (s.openBreaker i).program = s.program := by
  simp [State.openBreaker]
@[simp] theorem State.openBreaker_seam (i : Nat) : (s.openBreaker i).seam = s.seam := by
  simp [State.openBreaker]
@[simp] theorem State.openBreaker_repair (i : Nat) : (s.openBreaker i).repair = s.repair := by
  simp [State.openBreaker]
@[simp] theorem State.openBreaker_pages (i : Nat) : (s.openBreaker i).pages = s.pages := by
  simp [State.openBreaker]
@[simp] theorem State.openBreaker_survival (i : Nat) : (s.openBreaker i).survival = s.survival := by
  simp [State.openBreaker]
@[simp] theorem State.openBreaker_boot (i : Nat) : (s.openBreaker i).boot = s.boot := by
  simp [State.openBreaker]
@[simp] theorem State.openBreaker_checks (i : Nat) : (s.openBreaker i).checks = s.checks := by
  simp [State.openBreaker]
@[simp] theorem State.openBreaker_mesh (i : Nat) : (s.openBreaker i).mesh = s.mesh := by
  simp [State.openBreaker]
@[simp] theorem State.openBreaker_rill (i : Nat) : (s.openBreaker i).rill = s.rill := by
  simp [State.openBreaker]

@[simp] theorem State.clearVolatile_pending (p : Nat) : (s.clearVolatile p).pending = s.pending := rfl
@[simp] theorem State.clearVolatile_variant (p : Nat) : (s.clearVolatile p).variant = s.variant := rfl
@[simp] theorem State.clearVolatile_now (p : Nat) : (s.clearVolatile p).now = s.now := rfl
@[simp] theorem State.clearVolatile_draws (p : Nat) : (s.clearVolatile p).draws = s.draws := rfl
@[simp] theorem State.clearVolatile_step (p : Nat) : (s.clearVolatile p).step = s.step := rfl
@[simp] theorem State.clearVolatile_sync (p : Nat) : (s.clearVolatile p).sync = s.sync := rfl
@[simp] theorem State.clearVolatile_pbs (p : Nat) : (s.clearVolatile p).pbs = s.pbs := rfl
@[simp] theorem State.clearVolatile_reduce (p : Nat) : (s.clearVolatile p).reduce = s.reduce := rfl
@[simp] theorem State.clearVolatile_links (p : Nat) : (s.clearVolatile p).links = s.links := rfl
@[simp] theorem State.clearVolatile_zOut (p : Nat) : (s.clearVolatile p).zOut = s.zOut := rfl
@[simp] theorem State.clearVolatile_rillOut (p : Nat) : (s.clearVolatile p).rillOut = s.rillOut := rfl
@[simp] theorem State.clearVolatile_mailboxes (p : Nat) : (s.clearVolatile p).mailboxes = s.mailboxes := rfl
@[simp] theorem State.clearVolatile_host (p : Nat) : (s.clearVolatile p).host = s.host := rfl
@[simp] theorem State.clearVolatile_program (p : Nat) : (s.clearVolatile p).program = s.program := rfl
@[simp] theorem State.clearVolatile_power (p : Nat) : (s.clearVolatile p).power = s.power := rfl
@[simp] theorem State.clearVolatile_seam (p : Nat) : (s.clearVolatile p).seam = s.seam := rfl
@[simp] theorem State.clearVolatile_arbiter (p : Nat) : (s.clearVolatile p).arbiter = s.arbiter := rfl
@[simp] theorem State.clearVolatile_repair (p : Nat) : (s.clearVolatile p).repair = s.repair := rfl
@[simp] theorem State.clearVolatile_pages (p : Nat) : (s.clearVolatile p).pages = s.pages := rfl
@[simp] theorem State.clearVolatile_survival (p : Nat) : (s.clearVolatile p).survival = s.survival := rfl
@[simp] theorem State.clearVolatile_trace (p : Nat) : (s.clearVolatile p).trace = s.trace := rfl
@[simp] theorem State.clearVolatile_boot (p : Nat) : (s.clearVolatile p).boot = s.boot := rfl
@[simp] theorem State.clearVolatile_mesh (p : Nat) : (s.clearVolatile p).mesh = s.mesh := rfl
@[simp] theorem State.clearVolatile_rill (p : Nat) : (s.clearVolatile p).rill = s.rill := rfl

@[simp] theorem State.dropRecords_pending (l : List Nat) : (s.dropRecords l).pending = s.pending := rfl
@[simp] theorem State.dropRecords_variant (l : List Nat) : (s.dropRecords l).variant = s.variant := rfl
@[simp] theorem State.dropRecords_now (l : List Nat) : (s.dropRecords l).now = s.now := rfl
@[simp] theorem State.dropRecords_draws (l : List Nat) : (s.dropRecords l).draws = s.draws := rfl
@[simp] theorem State.dropRecords_mem (l : List Nat) : (s.dropRecords l).mem = s.mem := rfl
@[simp] theorem State.dropRecords_tiles (l : List Nat) : (s.dropRecords l).tiles = s.tiles := rfl
@[simp] theorem State.dropRecords_pbs (l : List Nat) : (s.dropRecords l).pbs = s.pbs := rfl
@[simp] theorem State.dropRecords_reduce (l : List Nat) : (s.dropRecords l).reduce = s.reduce := rfl
@[simp] theorem State.dropRecords_links (l : List Nat) : (s.dropRecords l).links = s.links := rfl
@[simp] theorem State.dropRecords_zOut (l : List Nat) : (s.dropRecords l).zOut = s.zOut := rfl
@[simp] theorem State.dropRecords_rillOut (l : List Nat) : (s.dropRecords l).rillOut = s.rillOut := rfl
@[simp] theorem State.dropRecords_mailboxes (l : List Nat) : (s.dropRecords l).mailboxes = s.mailboxes := rfl
@[simp] theorem State.dropRecords_program (l : List Nat) : (s.dropRecords l).program = s.program := rfl
@[simp] theorem State.dropRecords_power (l : List Nat) : (s.dropRecords l).power = s.power := rfl
@[simp] theorem State.dropRecords_seam (l : List Nat) : (s.dropRecords l).seam = s.seam := rfl
@[simp] theorem State.dropRecords_arbiter (l : List Nat) : (s.dropRecords l).arbiter = s.arbiter := rfl
@[simp] theorem State.dropRecords_repair (l : List Nat) : (s.dropRecords l).repair = s.repair := rfl
@[simp] theorem State.dropRecords_survival (l : List Nat) : (s.dropRecords l).survival = s.survival := rfl
@[simp] theorem State.dropRecords_boot (l : List Nat) : (s.dropRecords l).boot = s.boot := rfl
@[simp] theorem State.dropRecords_checks (l : List Nat) : (s.dropRecords l).checks = s.checks := rfl
@[simp] theorem State.dropRecords_mesh (l : List Nat) : (s.dropRecords l).mesh = s.mesh := rfl
@[simp] theorem State.dropRecords_rill (l : List Nat) : (s.dropRecords l).rill = s.rill := rfl

@[simp] theorem State.writeSlot_pending (p k : Nat) (b : Bytes) : (s.writeSlot p k b).pending = s.pending := rfl
@[simp] theorem State.writeSlot_variant (p k : Nat) (b : Bytes) : (s.writeSlot p k b).variant = s.variant := rfl
@[simp] theorem State.writeSlot_now (p k : Nat) (b : Bytes) : (s.writeSlot p k b).now = s.now := rfl
@[simp] theorem State.writeSlot_draws (p k : Nat) (b : Bytes) : (s.writeSlot p k b).draws = s.draws := rfl
@[simp] theorem State.writeSlot_step (p k : Nat) (b : Bytes) : (s.writeSlot p k b).step = s.step := rfl
@[simp] theorem State.writeSlot_tiles (p k : Nat) (b : Bytes) : (s.writeSlot p k b).tiles = s.tiles := rfl
@[simp] theorem State.writeSlot_sync (p k : Nat) (b : Bytes) : (s.writeSlot p k b).sync = s.sync := rfl
@[simp] theorem State.writeSlot_pbs (p k : Nat) (b : Bytes) : (s.writeSlot p k b).pbs = s.pbs := rfl
@[simp] theorem State.writeSlot_reduce (p k : Nat) (b : Bytes) : (s.writeSlot p k b).reduce = s.reduce := rfl
@[simp] theorem State.writeSlot_links (p k : Nat) (b : Bytes) : (s.writeSlot p k b).links = s.links := rfl
@[simp] theorem State.writeSlot_zOut (p k : Nat) (b : Bytes) : (s.writeSlot p k b).zOut = s.zOut := rfl
@[simp] theorem State.writeSlot_rillOut (p k : Nat) (b : Bytes) : (s.writeSlot p k b).rillOut = s.rillOut := rfl
@[simp] theorem State.writeSlot_mailboxes (p k : Nat) (b : Bytes) : (s.writeSlot p k b).mailboxes = s.mailboxes := rfl
@[simp] theorem State.writeSlot_host (p k : Nat) (b : Bytes) : (s.writeSlot p k b).host = s.host := rfl
@[simp] theorem State.writeSlot_program (p k : Nat) (b : Bytes) : (s.writeSlot p k b).program = s.program := rfl
@[simp] theorem State.writeSlot_power (p k : Nat) (b : Bytes) : (s.writeSlot p k b).power = s.power := rfl
@[simp] theorem State.writeSlot_seam (p k : Nat) (b : Bytes) : (s.writeSlot p k b).seam = s.seam := rfl
@[simp] theorem State.writeSlot_arbiter (p k : Nat) (b : Bytes) : (s.writeSlot p k b).arbiter = s.arbiter := rfl
@[simp] theorem State.writeSlot_repair (p k : Nat) (b : Bytes) : (s.writeSlot p k b).repair = s.repair := rfl
@[simp] theorem State.writeSlot_pages (p k : Nat) (b : Bytes) : (s.writeSlot p k b).pages = s.pages := rfl
@[simp] theorem State.writeSlot_survival (p k : Nat) (b : Bytes) : (s.writeSlot p k b).survival = s.survival := rfl
@[simp] theorem State.writeSlot_trace (p k : Nat) (b : Bytes) : (s.writeSlot p k b).trace = s.trace := rfl
@[simp] theorem State.writeSlot_boot (p k : Nat) (b : Bytes) : (s.writeSlot p k b).boot = s.boot := rfl
@[simp] theorem State.writeSlot_mesh (p k : Nat) (b : Bytes) : (s.writeSlot p k b).mesh = s.mesh := rfl
@[simp] theorem State.writeSlot_rill (p k : Nat) (b : Bytes) : (s.writeSlot p k b).rill = s.rill := rfl

@[simp] theorem State.startFetch_pending (o : Owed) (b : Bytes) (c : Code) : (s.startFetch o b c).pending = s.pending := by
  simp only [State.startFetch]
  (repeat' split) <;> simp
@[simp] theorem State.startFetch_variant (o : Owed) (b : Bytes) (c : Code) : (s.startFetch o b c).variant = s.variant := by
  simp only [State.startFetch]
  (repeat' split) <;> simp
@[simp] theorem State.startFetch_now (o : Owed) (b : Bytes) (c : Code) : (s.startFetch o b c).now = s.now := by
  simp only [State.startFetch]
  (repeat' split) <;> simp
@[simp] theorem State.startFetch_draws (o : Owed) (b : Bytes) (c : Code) : (s.startFetch o b c).draws = s.draws := by
  simp only [State.startFetch]
  (repeat' split) <;> simp
@[simp] theorem State.startFetch_step (o : Owed) (b : Bytes) (c : Code) : (s.startFetch o b c).step = s.step := by
  simp only [State.startFetch]
  (repeat' split) <;> simp
@[simp] theorem State.startFetch_mem (o : Owed) (b : Bytes) (c : Code) : (s.startFetch o b c).mem = s.mem := by
  simp only [State.startFetch]
  (repeat' split) <;> simp
@[simp] theorem State.startFetch_tiles (o : Owed) (b : Bytes) (c : Code) : (s.startFetch o b c).tiles = s.tiles := by
  simp only [State.startFetch]
  (repeat' split) <;> simp
@[simp] theorem State.startFetch_sync (o : Owed) (b : Bytes) (c : Code) : (s.startFetch o b c).sync = s.sync := by
  simp only [State.startFetch]
  (repeat' split) <;> simp
@[simp] theorem State.startFetch_pbs (o : Owed) (b : Bytes) (c : Code) : (s.startFetch o b c).pbs = s.pbs := by
  simp only [State.startFetch]
  (repeat' split) <;> simp
@[simp] theorem State.startFetch_reduce (o : Owed) (b : Bytes) (c : Code) : (s.startFetch o b c).reduce = s.reduce := by
  simp only [State.startFetch]
  (repeat' split) <;> simp
@[simp] theorem State.startFetch_links (o : Owed) (b : Bytes) (c : Code) : (s.startFetch o b c).links = s.links := by
  simp only [State.startFetch]
  (repeat' split) <;> simp
@[simp] theorem State.startFetch_zOut (o : Owed) (b : Bytes) (c : Code) : (s.startFetch o b c).zOut = s.zOut := by
  simp only [State.startFetch]
  (repeat' split) <;> simp
@[simp] theorem State.startFetch_rillOut (o : Owed) (b : Bytes) (c : Code) : (s.startFetch o b c).rillOut = s.rillOut := by
  simp only [State.startFetch]
  (repeat' split) <;> simp
@[simp] theorem State.startFetch_mailboxes (o : Owed) (b : Bytes) (c : Code) : (s.startFetch o b c).mailboxes = s.mailboxes := by
  simp only [State.startFetch]
  (repeat' split) <;> simp
@[simp] theorem State.startFetch_program (o : Owed) (b : Bytes) (c : Code) : (s.startFetch o b c).program = s.program := by
  simp only [State.startFetch]
  (repeat' split) <;> simp
@[simp] theorem State.startFetch_arbiter (o : Owed) (b : Bytes) (c : Code) : (s.startFetch o b c).arbiter = s.arbiter := by
  simp only [State.startFetch]
  (repeat' split) <;> simp
@[simp] theorem State.startFetch_repair (o : Owed) (b : Bytes) (c : Code) : (s.startFetch o b c).repair = s.repair := by
  simp only [State.startFetch]
  (repeat' split) <;> simp
@[simp] theorem State.startFetch_pages (o : Owed) (b : Bytes) (c : Code) : (s.startFetch o b c).pages = s.pages := by
  simp only [State.startFetch]
  (repeat' split) <;> simp
@[simp] theorem State.startFetch_survival (o : Owed) (b : Bytes) (c : Code) : (s.startFetch o b c).survival = s.survival := by
  simp only [State.startFetch]
  (repeat' split) <;> simp
@[simp] theorem State.startFetch_trace (o : Owed) (b : Bytes) (c : Code) : (s.startFetch o b c).trace = s.trace := by
  simp only [State.startFetch]
  (repeat' split) <;> simp
@[simp] theorem State.startFetch_boot (o : Owed) (b : Bytes) (c : Code) : (s.startFetch o b c).boot = s.boot := by
  simp only [State.startFetch]
  (repeat' split) <;> simp
@[simp] theorem State.startFetch_checks (o : Owed) (b : Bytes) (c : Code) : (s.startFetch o b c).checks = s.checks := by
  simp only [State.startFetch]
  (repeat' split) <;> simp
@[simp] theorem State.startFetch_mesh (o : Owed) (b : Bytes) (c : Code) : (s.startFetch o b c).mesh = s.mesh := by
  simp only [State.startFetch]
  (repeat' split) <;> simp
@[simp] theorem State.startFetch_rill (o : Owed) (b : Bytes) (c : Code) : (s.startFetch o b c).rill = s.rill := by
  simp only [State.startFetch]
  (repeat' split) <;> simp

/-- Filling a slot of the transposing buffer leaves what lies below the buffer. -/
theorem State.writeSlot_below {k n : Nat} (p slot : Nat) (b : Bytes) (w : Memory.wf s.mem = true)
    (h : k + n ≤ memKey p bufferBase) : rdBytes (s.writeSlot p slot b).mem k n = rdBytes s.mem k n := by
  have base : memKey p bufferBase ≤ memKey p (if slot = 1 then bufferBase + 0x8000 else bufferBase) := by
    unfold memKey; split <;> omega
  exact (Sys2Proof.Laws.rdBytes_wrBytes_other _ (Sys2Proof.Laws.clearRange_wf _ _ w) n (.inl (by omega))).trans
    (Sys2Proof.Laws.rdBytes_clearRange _ _ w n (by omega))

end Sys2Proof.Machine
end

