-- ==== Sys2Proof/Tests/Slice0.lean ====
section
/-! SUPPORT. Sys2Proof/Tests/Slice0.lean: tests of the model on small states: what well-formedness refuses, values that the manual's
worked examples give, and for each statement a state that meets its hypotheses, clause by clause. -/

namespace Sys2Proof.Tests

open Sys2Proof Sys2Proof.Machine Sys2Proof.Safety

set_option Elab.async false

/-! ### Small states -/

/-- The controlling session, an observer, and a header of its first command. -/
def sess : Session := { id := 1, control := true, keyId := 7, established := true }
def viewer : Session := { id := 2, control := false, keyId := 8, established := true }
def hdr : Hdr := ⟨1, 1, 5, .eth0, false, { kind := 5 }⟩
def hdr2 : Hdr := ⟨2, 1, 5, .eth1, false, { kind := 5 }⟩

/-- STEP_OPEN payload of step 41 with one slot of 128 tokens. -/
def open41 : StepOpen := ⟨41, 0, 0, 0, 128 :: List.replicate 15 0⟩

/-- The module in STANDBY with its firmware running and the controlling session attached. -/
def up : State :=
  { State.reset with
    now := 1000
    host := { sessions := [sess], nextSession := 3 }
    power := { state := .standby, wardenOn := true, inputMv := 54000, inputReady := true,
               regions := [(56, { state := .active, vcore := 800 })] }
    boot := { firmwareRuns := true, positionId := 3 } }

/-- A loaded program whose region 0 is ACTIVE. -/
def ready : State :=
  { up with
    program := some { maxTokens := 131072, idleUs := 5 }
    power := { up.power with
      state := .active
      meshRun := true
      regions := [(0, { state := .active, vcore := 800, vloam := 1100 }), (55, { state := .ramp }),
        (56, { state := .active, vcore := 800 })] } }

/-- Step 41 in FILL. -/
def filling : State := { ready with step := { phase := .fill, current := open41, expected := 41, slotsActive := 1 } }

/-- The same state with another phase. -/
def inPhase (ph : Phase) : State := { filling with step := { filling.step with phase := ph } }

/-- Logical tile 0, whose hardware detects nothing. -/
def here : Site := ⟨0, [], []⟩

/-! ### Well-formedness -/

theorem test_wf_session : wellFormed (.ping { hdr with session := 0 }) = false := by decide +kernel
theorem test_wf_tile : wellFormed (.strataRefill 2352) = false := by decide +kernel
theorem test_wf_phys : wellFormed (.halt 4096) = false := by decide +kernel
theorem test_wf_site : wellFormed (.syncWait ⟨0, [[0x3010]], []⟩ ⟨0, 3, 0, 0xFFFF, 0, 0, 0⟩) = false := by decide +kernel
theorem test_wf_digests : wellFormed (.lossReport ⟨0, [], [1, 2, 3]⟩ ⟨0, 0, 0⟩) = false := by decide +kernel
theorem test_wf_slots : wellFormed (.stepOpen hdr { open41 with slots := [] }) = false := by decide +kernel
theorem test_wf_members : wellFormed (.parityConfig hdr ⟨0, 0, 0, 0, 0, 0, 0, []⟩) = false := by decide +kernel
theorem test_wf_bindings : wellFormed (.programLoad hdr 0 { multicasts := [⟨24, 0, 0, 0⟩] }) = false := by decide +kernel
theorem test_wf_frame : wellFormed (.weightFrame 0 ⟨0, 0, 0, 0, 0, 0, 1, 0, 0, [], false⟩) = false := by decide +kernel
theorem test_wf_block : wellFormed (.xs96Block 0 0 ⟨0, 0, 0, 0, 0, 0, 0, 0, 0, 0, [], false⟩) = false := by decide +kernel
theorem test_wf_flit : wellFormed (.zlinkFlit 0 ⟨1, 0, true, true, 0, 0, 0, 0, 0, zeros 241, 0, false⟩) = false := by decide +kernel
theorem test_wf_dgram : wellFormed (.ping { hdr with dg := { hdr.dg with length := 65536 } }) = false := by decide +kernel
theorem test_wf_attempt : wellFormed (.recvAdd here ⟨⟨0, 0, 0, 0, 0⟩, [(1, [[]])]⟩) = false := by decide +kernel
theorem test_wf_total : wellFormed (.columnTotal 0 [[(49, 0x2301)]]) = false := by decide +kernel
theorem test_wf_rill : wellFormed (.mailbox ⟨0xF00, 0, false, 0x40, 0, List.replicate 8 0⟩) = false := by decide +kernel
theorem test_wf_unit : wellFormed (.parityUnit ⟨0, 0, 0, 0, 0, 0, [], false⟩) = false := by decide +kernel
theorem test_wf_port_block : wellFormed (.columnTotal 24 []) = false := by decide +kernel
theorem test_wf_lane : wellFormed (.laneLost 23 5) = false := by decide +kernel
theorem test_wf_region : wellFormed (.coreReset 57) = false := by decide +kernel
theorem test_wf_ring : wellFormed (.traceFreeze 2689) = false := by decide +kernel
theorem test_wf_point : wellFormed (.injectionLockLoss 16) = false := by decide +kernel
theorem test_wf_half : wellFormed (.thermalThrottle 2) = false := by decide +kernel
theorem test_wf_temps : wellFormed (.temperatureSample []) = false := by decide +kernel
theorem test_wf_failed : wellFormed (.programLoadComplete [56]) = false := by decide +kernel
theorem test_wf_good : wellFormed (.stepOpen hdr open41) = true := by decide +kernel

/-! ### States that meet the hypotheses of the statements -/

theorem up_between : ReadyBetween hdr sess up := by
  refine ⟨⟨⟨⟨⟨?_, ?_, ?_, ?_, ?_, ?_⟩, ?_, ?_, ?_, ?_, ?_⟩, ?_⟩, ?_⟩, ?_⟩ <;> decide +kernel

theorem up_canonical : Canonical up := by
  refine ⟨?_, ?_, ?_, ?_, ?_, ?_⟩ <;> decide +kernel

theorem filling_control : ReadyControl hdr sess filling := by
  refine ⟨⟨⟨⟨?_, ?_, ?_, ?_, ?_, ?_⟩, ?_, ?_, ?_, ?_, ?_⟩, ?_⟩, ?_⟩ <;> decide +kernel

theorem filling_discards : CanDiscard filling := by
  refine ⟨?_, ?_, ?_⟩ <;> decide +kernel

theorem filling_canonical : Canonical filling := by
  refine ⟨?_, ?_, ?_, ?_, ?_, ?_⟩ <;> decide +kernel

theorem here_runs : Runs here filling := by
  refine ⟨?_, ?_, ?_, ?_, ?_, ?_⟩ <;> decide +kernel

theorem witness_stepRunsFront : { filling with pending := [.status] }.pending = .status :: [] := rfl

theorem witness_stepKeepsMemory : MemoryWf filling ∧ step filling = .next { filling with now := 1001 } :=
  ⟨by unfold MemoryWf; decide, by rfl⟩

theorem witness_settingsAndTables : lsValid 0x000007D001200010 = true ∧ optInvalid (2 ^ 96) = false ∧
    (2 ^ 96 : BitVec 256).toNat < 2 ^ 193 ∧ -64 ≤ windowExp 0xC0 ∧ windowExp 0x6F ≤ 111 ∧ up.program = none ∧
    (0xEFFF : BitVec 16).toNat < 0xF000 ∧ (linkOf up 23).state = .off ∧ 2 ^ 19 ≤ (0x80000 : BitVec 32).toNat ∧ bitsOf (0x2FFFF : BitVec 32).toNat 17 16 ≠ 3 := by
  decide +kernel

/-- Field 55 in state 0b01, tested since, and field 54 not. -/
def fenced : State := { up with repair := { up.repair with
  fieldMap := [(54, 1), (55, 1)]
  fullPassed := [55] } }

theorem fenced_between : ReadyBetween hdr sess fenced := by
  refine ⟨⟨⟨⟨⟨?_, ?_, ?_, ?_, ?_, ?_⟩, ?_, ?_, ?_, ?_, ?_⟩, ?_⟩, ?_⟩, ?_⟩ <;> decide +kernel

theorem witness_fieldsFenced : smWf 0 0 fenced.repair.fieldMap = true ∧ fieldState fenced.repair 0 ≠ 2 ∧
    fieldState fenced.repair 55 = 1 ∧ 55 ∈ fenced.repair.fullPassed ∧ fieldState fenced.repair 54 = 1 ∧
    54 ∉ fenced.repair.fullPassed := by decide +kernel

/-- A queue pair of the controlling session. -/
def pair : QueuePair := { qpn := 9, session := 1, port := .eth0, psn := 0, keys := [71, 72, 73, 74] }
def withPair : State := { up with host := { up.host with
  queuePairs := [pair]
  programOpen := true
  sessions := [{ sess with result := [1, 2, 3] }] } }

theorem pair_ready : Ready hdr { sess with result := [1, 2, 3] } withPair := by
  refine ⟨⟨⟨?_, ?_, ?_, ?_, ?_, ?_⟩, ?_, ?_, ?_, ?_, ?_⟩, ?_⟩ <;> decide +kernel

theorem witness_sessionCommands : hdr.port ≠ .service ∧
    (withPair.host.queuePairs.filter (fun q => q.port = hdr.port)).length < 16 ∧
    withPair.host.queuePairs.any (fun q => q.qpn == 9 && q.session == hdr.session) = true ∧
    withPair.survival.exporting = none ∧ sess.control = true ∧ withPair.mesh.parts = [] ∧
    (4 : BitVec 8).toNat ≤ 4 ∧ (2 : BitVec 8).toNat ≤ 2 := by decide +kernel

theorem witness_rdmaVerbs : withPair.queuePair 9 = some pair ∧
    withPair.sessionOf pair.session = some { sess with result := [1, 2, 3] } ∧ withPair.host.programOpen = true ∧
    withPair.step.inProgress = false ∧ (0xFFFFFFFF : BitVec 56).toNat + 1 ≤ 2 ^ 32 ∧ 2 + 1 ≤ [1, 2, 3].length ∧
    withPair.keyFits pair 1 71 = true ∧ withPair.keyFits pair 2 72 = true ∧ withPair.keyFits pair 3 73 = true ∧
    withPair.keyFits pair 1 72 = false ∧ netOk { bytes := 9216, tags := 1 } = true ∧ netOk { bytes := 9217 } = false ∧
    sess.control = true ∧ viewer.control = false := by decide +kernel

/-- A provisioning record in force whose policy byte is `v`. -/
def withPolicy (v : Byte) (s : State) : State := { s with boot := { s.boot with record := zeros 40 ++ [v] ++ zeros 7 } }

theorem witness_fetches : (withPolicy 6 up).policy 2 = true ∧ (withPolicy 6 up).policy 1 = true ∧ up.policy 2 = false ∧
    up.policy 1 = false ∧ (up.traceData 0 0 true).isSome = true ∧
    ({ up with trace := { up.trace with captures := [⟨41, 1, 1, 0, 0, []⟩] } }.captureOf 41 1).isSome = true := by decide +kernel

theorem witness_longCommands : selftestInvalid up 2687 15 0 false false = false ∧ selftestInvalid up 0xB17 16 4 false true = false ∧
    selftestInvalid up 0 0 0 true false = false ∧ ready.program.isSome = true ∧ storeInvalid true 0xF000 4096 = false ∧
    storeInvalid false 0 0 = false := by decide +kernel

theorem witness_suspect : (regionOf filling.power 0).powered = true ∧
    (regionOf { filling.power with regions := [(56, { suspect := true })] } 56).suspect = true := by decide +kernel

theorem witness_breaks : (regionOf filling.power 54).state ≠ .broken ∧ (regionOf filling.power 55).state = .ramp ∧
    (∀ n, n < 16 → injectionField n ≠ 54 ∧ injectionField n ≠ 55) := by decide +kernel

/-- Seven of the eight injection points of the west half are lost, all but that of field 8. -/
def unlocked : State := { filling with power := { filling.power with lostLocks := [1, 2, 3, 4, 5, 6, 7] } }

theorem witness_breaks_mesh : injectionField 0 = 8 ∧ 0 ∉ unlocked.power.lostLocks ∧ unlocked.arbiter.fatal = none ∧
    { unlocked.power with lostLocks := unlocked.power.lostLocks ++ [0] }.halfUnlocked unlocked.repair 0 = true ∧
    (regionOf unlocked.power 8).state ≠ .broken ∧ CanDiscard unlocked := by
  refine ⟨?_, ?_, ?_, ?_, ?_, ?_, ?_, ?_⟩ <;> decide +kernel

theorem witness_dormant : up.power.wardenOn = true ∧ (regionOf up.power 56).state ≠ .broken := by decide +kernel

/-- A hot west half with both limiters at 1:1, and the seam in the awaited mode. -/
def hot : State := { filling with
  power := { filling.power with regions := [(0, { state := .active, temp := 100 }), (56, { state := .active })] }
  seam := { awaited := true, realigning := true } }

theorem witness_clocks : hot.power.limitWest < 2 ∧ hot.power.halfAt 0 100 = true ∧ hot.power.therm 0 < 2 ∧
    filling.power.halfAt 1 95 = false ∧ filling.power.coolingLoss = false ∧ hot.seam.realigning = true ∧
    { filling.power with hostWest := 1 }.effWest ≠ { filling.power with hostWest := 1 }.effEast ∧
    (id filling.power).effWest = (id filling.power).effEast ∧ filling.seam.awaited = false ∧ hot.seam.awaited = true ∧
    hot.power.state ≠ .idle ∧ hot.mesh.parts = [] ∧ hot.mesh.west = hot.mesh.east ∧
    { hot.mesh with west := 9 }.west ≠ { hot.mesh with west := 9 }.east ∧ { hot.power with state := .idle }.state = .idle := by
  decide +kernel

theorem witness_powerEvents : (regionOf filling.power 56).state = .active ∧
    { filling.power with stretching := true }.stretching = true ∧
    { filling.power with lostLocks := [0] }.halfUnlocked filling.repair 0 = false ∧
    { filling.power with lostLocks := [0, 1, 2, 3, 4, 5, 6, 7] }.halfUnlocked filling.repair 0 = true ∧
    (List.replicate 57 (104 : BitVec 8)).length = 57 ∧ (∀ x ∈ List.replicate 57 (104 : BitVec 8), x.toNat < 105) ∧
    filling.arbiter.fatal = none ∧ { filling.power with coolingLoss := true }.coolingLoss = true := by decide +kernel

theorem witness_fatal : filling.boot.firmwareRuns = true ∧
    { filling with arbiter := { fatal := some 0x700C } }.arbiter.fatal = some 0x700C ∧ ready.power.state = .active ∧
    ready.prog.idleUs ≠ 0 ∧ ready.busy = false := by decide +kernel

theorem witness_warden : State.reset.power.wardenOn = false ∧ { State.reset with power := { wardenOn := true } }.power.state = .dormant ∧
    netOk {} = true ∧ up.portUp .eth1 = true ∧ up.portUp .service = true ∧ State.reset.portUp .eth0 = false ∧ smWf 0 0 up.host.leases = true ∧
    ({ up with host := { up.host with leases := [(0, 5)] } }.lease .eth0 = 5) ∧ ({ fragment := true } : Net).fragment = true ∧
    ({ tcp := true } : Net).tcp = true := by decide +kernel

/-- The warden has power and stage `n` of a boot attempt runs; the edge region ramps. -/
def booting (n : Nat) (p : Port) : State := { State.reset with
  power := { wardenOn := true, inputReady := true, regions := [(56, { state := .ramp })] }
  boot := { stage := n, port := p } }

theorem witness_boot : (booting 0 .service).power.wardenOn = true ∧ (booting 0 .service).power.state = .dormant ∧
    (booting 0 .service).boot.waiting = none ∧ (booting 1 .service).boot.stage = 1 ∧
    (regionOf (booting 2 .service).power 56).state = .ramp ∧ (booting 0 .service).power.inputReady = true ∧
    ({ (booting 0 .service).boot with waiting := some 1 }).waiting ≠ none ∧
    (regionOf { (booting 2 .service).power with regions := [] } 56).state = .off ∧ (booting 3 .eth0).boot.port = .eth0 ∧
    (booting 3 .eth1).boot.port = .eth1 ∧ (booting 5 .eth0).boot.stage = 5 ∧
    ((booting 5 .eth0).boot.judge none).versionRefused = none := by decide +kernel

/-- A session that has executed ten commands, and one response it keeps. -/
def busySess : Session := { sess with executed := 10, cache := [.response 1 10 5 0 []] }
def withBusy : State := { up with host := { up.host with sessions := [busySess] } }

theorem arrives_busy : Arrives { kind := 5 } 5 1 75 withBusy := by
  refine ⟨?_, ?_, ?_, ?_, ?_, ?_⟩ <;> decide +kernel

theorem witness_commands : (∀ y ∈ up.host.sessions, y.id ≠ 9) ∧ netOk { bytes := 9217 } = false ∧
    dgramSound { kind := 5, version := 2 } 5 = false ∧ dgramSound { kind := 5 } 5 = true ∧
    1 ∉ up.fragmentsOf 1 1 { kind := 5, fragCount := 2 } ∧ withBusy.sessionOf 1 = some busySess ∧ withBusy.arbiter.fatal = none ∧
    10 ≤ busySess.executed ∧ busySess.cache = [.response 1 10 5 0 []] ∧ busySess.executed + 64 < 75 ∧
    74 ≤ busySess.executed + 64 ∧ (∀ c ∈ busySess.held, c.1.seq ≠ 74 ∧ c.1.seq ≠ 11) := by decide +kernel

theorem witness_before_work : needsControl (.fieldFence 0) = true ∧ viewer.control = false ∧
    betweenSteps (.fieldFence 0) = true ∧ filling.step.inProgress = true ∧ ownReserved .ping = false := by decide +kernel

theorem observer_in_order : InOrder hdr2 viewer { up with host := { up.host with sessions := [viewer] } } := by
  refine ⟨⟨?_, ?_, ?_, ?_, ?_, ?_⟩, ?_, ?_, ?_, ?_, ?_⟩ <;> decide +kernel

/-- A handshake that waits for its FINISH: the controlling one and an observer's. -/
def shaken (x : Session) : State := { up with host := { up.host with
  sessions := [{ sess with id := 5 }]
  handshakes := [x] } }

theorem arrives_hello : Arrives { kind := 1 } 1 0 0 up ∧ Arrives { kind := 4 } 4 sess.id 0 (shaken sess) ∧
    Arrives { kind := 4 } 4 viewer.id 0 (shaken viewer) := by
  refine ⟨⟨?_, ?_, ?_, ?_, ?_, ?_⟩, ⟨?_, ?_, ?_, ?_, ?_, ?_⟩, ?_, ?_, ?_, ?_, ?_, ?_⟩ <;> decide +kernel

theorem witness_handshakes : up.sessionOf 0 = none ∧ up.boot.firmwareRuns = true ∧ up.arbiter.fatal = none ∧
    (∀ y ∈ (shaken viewer).host.sessions, y.id ≠ viewer.id) ∧ dgramSound { kind := 4, tagOk := false } 4 = true ∧ up.portUp .eth0 = true ∧
    helloRejects up ⟨1, false, 0, [], .eth0, false, { kind := 1 }⟩ = some 0x100A ∧ helloRejects up ⟨2, false, 0, [], .eth0, false, { kind := 1 }⟩ = none ∧
    (shaken viewer).host.handshakes.find? (fun y => y.id == viewer.id) = some viewer ∧
    (shaken viewer).host.sessions.length < 8 ∧
    { shaken sess with host := { (shaken sess).host with sessions := [viewer] } }.controller = none ∧
    (shaken { sess with takeover := true }).controller = some { sess with id := 5 } ∧ 5 ≠ sess.id := by decide +kernel

/-- A session with one event to acknowledge and three that were lost. -/
def eventSess : Session :=
  { sess with
    eventSeq := 1
    lostEvents := 3
    unacked := [(1, ⟨1, 0x7001, 1, 0, 0xFFF, 0, 0, 0, 0, 0, 0, []⟩)] }
def withEvents : State :=
  { up with
    now := 11000000000
    host := { up.host with sessions := [eventSess] } }

theorem arrives_ack : Arrives { kind := 8 } 8 1 1 withEvents := by
  refine ⟨?_, ?_, ?_, ?_, ?_, ?_⟩ <;> decide +kernel

theorem witness_timers : withEvents.sessionOf 1 = some eventSess ∧ withEvents.survival.exporting = none ∧
    eventSess.lastHeard.toNat + 11000000000 ≤ withEvents.now.toNat ∧ up.now.toNat < sess.lastHeard.toNat + 11000000000 ∧
    sess.lostEvents = 0 ∧ eventSess.lostEvents ≠ 0 ∧
    (eventSess.unacked.filter (fun e => decide (1 < e.1))).length < 4096 := by decide +kernel


/-! ### The same: programs, sync objects, codes, phases and blocks -/

/-- PROGRAM open for writing, and the program being installed once it was loaded. -/
def written : State := { up with host := { up.host with programOpen := true } }
def owner1 : Owed := ⟨1, 5⟩
def installed : State := { up with host := { up.host with installing := some (owner1, { maxTokens := 131072 }) } }

theorem written_between : ReadyBetween hdr sess written := by
  refine ⟨⟨⟨⟨⟨?_, ?_, ?_, ?_, ?_, ?_⟩, ?_, ?_, ?_, ?_, ?_⟩, ?_⟩, ?_⟩, ?_⟩ <;> decide +kernel

theorem written_canonical : Canonical written := by
  refine ⟨?_, ?_, ?_, ?_, ?_, ?_⟩ <;> decide +kernel

theorem witness_programLoads : written.host.programOpen = true ∧ written.power.tooHot = none ∧ written.step.inProgress = false ∧
    (0xFFFFFFFF : BitVec 56).toNat + 1 ≤ 2 ^ 32 ∧ (0x3FFC00 : BitVec 56).toNat + 1024 ≤ 0x400000 ∧
    installed.host.installing = some (owner1, { maxTokens := 131072 }) ∧ installed.boundary = installed ∧
    (0 : BitVec 128).toNat = fieldMapValue installed.repair := by decide +kernel

/-- Page 3 of tile 0, whose field is fenced in state 0b01, and page 4 of tile 6, where the new program places it. -/
def moving : State :=
  { installed with
    repair := { installed.repair with fieldMap := [(0, 1)] }
    pages := { installed.pages with table := [(3, 1027), (1024 * 6 + 4, 1028)] } }

theorem witness_placePage : fieldState moving.repair (fieldOfLogical 0) = 1 ∧ fieldState moving.repair (fieldOfLogical 6) = 0 ∧
    (moving.pageOf false 0 3).isSome = true ∧ (moving.pageOf false 6 4).isSome = true ∧ Memory.wf moving.mem = true := by
  decide +kernel

/-- A module between steps with a program, a state in which its next step opens. -/
def opens : State :=
  { ready with
    program := some { maxTokens := 131072, groups := [⟨1, 0, 0, true, 0, 0, 0, 0, [(3, 0)]⟩] }
    links := (List.range 24).map (fun n => (n, { state := .up })) }

/-- The same with every field dark, which makes the evaluation of OPEN short. -/
def dimmed : State :=
  { opens with
    program := some { opens.prog with fieldMap := BitVec.ofNat 128 (2 * (4 ^ 56 - 1) / 3) }
    repair := { opens.repair with fieldMap := (List.range 56).map (fun i => (i, 2)) } }

theorem opens_between : ReadyBetween hdr sess opens ∧ ReadyBetween hdr sess dimmed := by
  refine ⟨⟨⟨⟨⟨⟨?_, ?_, ?_, ?_, ?_, ?_⟩, ?_, ?_, ?_, ?_, ?_⟩, ?_⟩, ?_⟩, ?_⟩, ⟨⟨⟨⟨?_, ?_, ?_, ?_, ?_, ?_⟩, ?_, ?_, ?_, ?_, ?_⟩, ?_⟩, ?_⟩,
    ?_⟩ <;> decide +kernel

theorem opens_well : ((heard hdr dimmed).openStep open41).2.1 = 0 := by decide +kernel

theorem opens_accepted : openRejects dimmed false open41 = none ∧ dimmed.openWaits = false := by decide +kernel

theorem witness_stepOpens : openRejects opens false open41 = none ∧ opens.openWaits = false ∧
    openRejects up false open41 = some 0x1008 ∧ { opens with pages := { opens.pages with lost := [5] } }.pages.lost ≠ [] ∧
    openRejects { opens with pages := { opens.pages with lost := [5] } } false open41 = none ∧
    filling.step.phase ≠ .sealing ∧ { filling.step with committed := true }.committed = true ∧ up.step.phase = .idle := by
  decide +kernel

/-- Objects 0 to 3: a counter at 7, a barrier of two with one arrival, a flag, and a gate for two whose round is of step 41. -/
def objects : SMap SyncObj :=
  [(0, { config := 1, state := 7 }), (1, { config := 0x102, state := 0x10000 }), (2, { config := 3 }),
    (3, { config := 0x10A, gateStep := 41, gateSet := true }), (4, { config := 0x112 })]

/-- Step 41 with these objects, and a waiter for each of the first two. -/
def synced : State := withPolicy 1 { filling with sync := { objs := objects, waiters :=
  [⟨9, 3, 0, 9⟩, ⟨10, 4, 1, 1⟩] } }

theorem synced_control : ReadyControl hdr sess synced := by
  refine ⟨⟨⟨⟨?_, ?_, ?_, ?_, ?_, ?_⟩, ?_, ?_, ?_, ?_, ?_⟩, ?_⟩, ?_⟩ <;> decide +kernel

theorem synced_canonical : Canonical synced := by
  refine ⟨?_, ?_, ?_, ?_, ?_, ?_⟩ <;> decide +kernel

theorem witness_handSets : synced.policy 0 = true ∧ filling.policy 0 = false ∧ (synced.obj 0).kind = 1 ∧
    (synced.obj 2).kind = 3 ∧ (synced.obj 1).kind = 2 ∧ (synced.obj 1).realigns = false ∧
    (0xFFFFFFFFFFFF : BitVec 64).toNat < 2 ^ 48 ∧ 2 ^ 48 ≤ (0x1000000000000 : BitVec 64).toNat := by decide +kernel

theorem witness_traces : smWf ({} : Ring) 0 up.trace.rings = true ∧ traceCfgInvalid ⟨0x7FF, 100, 1, 0, 0, 0, 0, 0, 41⟩ = false ∧
    0 < ringCapacity up 2688 ∧ (ringAt { up with trace := { up.trace with rings := [(5, { state := 0 }), (6, { state := 1 })] } } 5).state = 0 ∧
    (ringAt { up with trace := { up.trace with rings := [(5, { state := 0 }), (6, { state := 1 })] } } 6).state = 1 ∧
    (ringAt up 7).state = 2 ∧ (ringAt up 7).reserve.length + 1 < 16384 / 16 := by decide +kernel

/-- The trigger of an armed module ring has fired. -/
def fired : State :=
  { up with
    trace := { armed := true, config := some ⟨0x7FF, 100, 1, 0, 0, 0, 0, 0, 41⟩, fired := some (900, 0xF00),
               rings := [(2688, { state := 0 })] } }

theorem witness_trace_trigger : fired.trace.fired = some (900, 0xF00) ∧ fired.trace.armed = true ∧
    (ringAt fired 2688).state = 0 := by decide +kernel

/-- A parity group of four whose member 0 is this module. -/
def four : ParityCfg := ⟨4, 0, 8, 0, 0, 0, 0, [3, 4, 5, 6] ++ List.replicate 12 0xFFFF⟩

theorem witness_exports : ready.survival.exporting = none ∧ ready.program.isSome = true ∧
    (four.members.drop four.size.toNat).all (· == 0xFFFF) = true ∧ four.rebuildAddress.toNat % 4096 = 0 ∧
    ({ owed := owner1, mask := 1, tiles := [7], time := 1000 } : Sampling).time.toNat ≤ up.now.toNat := by decide +kernel

theorem witness_fetchEnds : { up.host with fetches := [⟨owner1, [1], 0⟩] }.fetches = ⟨owner1, [1], 0⟩ :: [] := rfl

theorem witness_exportRead : coverFrom 2 0 [(0, 5), (5, 3)] = 8 := by decide +kernel

theorem witness_parityConfig : parityInvalid up four = false := by decide +kernel

theorem witness_parityOff : parityInvalid up ⟨0, 0, 0, 0, 0, 0, 0, []⟩ = false := by decide +kernel

/-- One self-test owed to the session runs. -/
def testing (site : BitVec 16) (b : BitVec 8) : State := { filling with repair := { filling.repair with
  tests := [⟨site, b, 0, false, false, true, [owner1]⟩] } }

theorem testing_canonical : Canonical (testing 4 6) := by
  refine ⟨?_, ?_, ?_, ?_, ?_, ?_⟩ <;> decide +kernel

theorem witness_selftestEnds : (testing 4 6).arbiter.deadTiles = [] ∧ (testing 4 6).host.waitingOpen = none ∧
    (testing 4 6).repair.lasting = [] ∧ (smGet {} (testing 4 6).repair.history (siteKey 4 6 0)).failures = [] ∧
    smWf ({} : SiteHistory) 0 (testing 4 6).repair.history = true ∧ (testing 4 6).step.inProgress = true ∧
    (smGet {} [(siteKey 4 6 0, ({ failures := [500] } : SiteHistory))] (siteKey 4 6 0)).failures = [500] ∧
    (testing 4 6).now.toNat < (500 : BitVec 64).toNat + dayCycles := by decide +kernel

/-- Sync operations of tile 12 on object `i`, with their code. -/
def onObj (i : BitVec 16) (operand : BitVec 64) (code : BitVec 8 := 1) : SyncMsg := ⟨0, 12, i, 0x80 + code, operand, 41⟩

theorem witness_syncCounters : syncInvalid synced (onObj 0 3) 1 = false ∧ (synced.obj 0).value + 3 < 2 ^ 48 ∧
    2 ^ 48 ≤ (synced.obj 0).value + (0xFFFFFFFFFFFF : BitVec 64).toNat ∧
    syncInvalid synced (onObj 0 0xFFFFFFFFFFFF) 1 = false ∧ syncInvalid synced (onObj 0 7 3) 3 = false ∧
    ((synced.obj 0).kind = 3 → 128 ≤ (onObj 0 3).op.toNat) ∧ syncInvalid synced (onObj 0 3 6) 1 = true ∧
    synced.alreadyWaits (onObj 0 7) = false ∧ (synced.obj 0).target 7 ≤ (synced.obj 0).value ∧
    (synced.obj 0).value < (synced.obj 0).target 8 := by decide +kernel

theorem witness_syncBarriers : syncInvalid synced (onObj 1 0 2) 2 = false ∧ syncInvalid synced (onObj 1 0 4) 4 = false ∧
    synced.alreadyWaits (onObj 1 0 4) = false ∧ (synced.obj 1).arrived + 1 = (synced.obj 1).participants ∧
    (synced.obj 4).arrived + 1 < (synced.obj 4).participants ∧ (synced.obj 4).realigns = true ∧ synced.realignStep = false ∧
    (synced.obj 3).isGate = true ∧ (synced.obj 3).gateSet = true ∧ (onObj 3 0 2).stepLow = (synced.obj 3).gateStep ∧
    { onObj 3 0 2 with stepLow := 42 }.stepLow = (synced.obj 3).gateStep + 1 ∧ syncInvalid synced (onObj 3 0 2) 2 = false ∧
    ({ config := 0x102, state := 0x200010000 } : SyncObj).participants <
      ({ config := 0x102, state := 0x200010000 } : SyncObj).arrived + 1 + ({ config := 0x102, state := 0x200010000 } : SyncObj).leaving ∧
    syncInvalid synced (onObj 1 0 5) 5 = false ∧ (onObj 1 0 5).srcKind = 0 ∧ ({ config := 0x102, state := 0x100000000 } : SyncObj).leaving ≠ 0 := by
  decide +kernel

theorem witness_wakes : (tileOf { synced with tiles := [(9, { waiting := some 0 })] } 9).waiting = some 0 ∧
    (tileOf synced 9).waiting ≠ some 0 ∧ synced.sync.armed = true ∧ synced.somethingWaits = true ∧ up.somethingWaits = false ∧
    fieldState synced.repair (fieldOfPhys 9) ≠ 2 ∧ fieldState { synced.repair with fieldMap := [(1, 2)] } (fieldOfPhys 9) = 2 ∧ { synced.sync with armed := false }.armed = false := by
  decide +kernel

theorem witness_rillMessages : fieldState filling.repair (fieldOfPhys 2687) = 0 ∧ (tileOf filling 2687).dead = false ∧
    inMap .a 0 8 = true ∧ inMap .a 0xFFFFFFFF 56 = false ∧ fieldState { filling.repair with fieldMap := [(55, 2)] } 55 = 2 ∧
    (0xF00 ≤ (0xF03 : BitVec 12).toNat ∧ (0xF03 : BitVec 12).toNat < 0xF04) ∧ (0xA7F : BitVec 12).toNat < 0xA80 ∧
    rillTypes.contains 0x40 = true ∧ rillDest 0xFF0 = false ∧ rillTypes.contains 0x7E = false ∧ 0xA80 ≤ (0xF00 : BitVec 12).toNat ∧
    (0xEFFFFF : BitVec 40).toNat < loamBase ∧ (56 : Nat) ≤ 56 ∧
    smWf ({} : Ring) 0 filling.trace.rings = true ∧ ((5, 6) : BitVec 12 × BitVec 8) ∉ filling.repair.failedHops := by
  decide +kernel

/-- A status code `c` of block `b` of tile 5. -/
def codeAt (c : Code) (b : BitVec 8) : StatusMsg := ⟨c, ⟨5, b⟩, 0, 3, 0⟩

theorem witness_statusCodes : State.reset.boot.firmwareRuns = false ∧
    severityOf true ⟨5, 0⟩ 3 0x210A = 3 ∧ (inPhase .discarding).step.phase = .discarding ∧
    detectionCodes.contains (codeAt 0x2101 3).code.toNat = true ∧ (codeAt 0x4001 12).place.block.toNat ≤ 14 ∧
    meshSiteOf filling.repair 5 = some 5 ∧ smWf 0 0 filling.rill.failures = true ∧
    16 ≤ smGet 0 [(256 * 5 + 3, 15)] (256 * 5 + 3) + 1 ∧ (5 : Nat) < 2688 ∧ logicalOf filling.repair 5 = some 5 := by decide +kernel

theorem witness_cause : ([⟨0x210A, ⟨5, 0⟩, 3⟩] : List Latched) ≠ [] ∧
    { (inPhase .discarding).arbiter with windowOpen := true }.windowOpen = true ∧ filling.arbiter.windowOpen = false := by
  decide +kernel

/-- A discard whose cause has been chosen. -/
def caused : State := { inPhase .discarding with arbiter := { cause := some ⟨0x6003, ⟨0xFFF, 0⟩, 900⟩ } }

theorem witness_discardEnds : caused.step.phase = .discarding ∧ caused.arbiter.windowOpen = false ∧
    caused.arbiter.released = false ∧ caused.arbiter.copying = [] ∧ caused.arbiter.fatal = none ∧ caused.arbiter.failedPages = [] ∧
    caused.arbiter.deadTiles = [] ∧ caused.arbiter.darkFields = [] ∧ caused.host.sessions = [sess] ∧ sess.filter ≤ 3 ∧
    sess.reserved.length < 256 ∧ ({ caused with arbiter := { caused.arbiter with copying := [(0, 0)], released := true } }).arbiter.copying ≠ [] ∧
    filling.power.state = .active ∧ filling.step.inProgress = true ∧ up.power.state ≠ .active := by decide +kernel

/-- A module of a group of two that sums one block and owes one, both at port block 0. -/
def groupOf2 : Group := ⟨2, 0, 1, true, 0, 0, 0, 0, [(3, 0), (4, 0)]⟩
def sumE : SumEntry := ⟨0x100, 5, false, 0, 1, 0, 0, 0, 0⟩
def kilnE : KilnEntry := ⟨0x200, 256, 0, 5, 0, 1, 0⟩
def grouped : State := { filling with
  program := some { maxTokens := 131072, groups := [groupOf2], pbs := [(0, { kilnMap := [kilnE], sumMap := [sumE] })] }
  step := { filling.step with phase := .reduce } }

theorem grouped_canonical : Canonical grouped := by
  refine ⟨?_, ?_, ?_, ?_, ?_, ?_⟩ <;> decide +kernel

/-- The canvas of one tile waits for the column total. -/
def held : State := { grouped with tiles := [(0, { heldCanvases := [⟨7, 0, List.replicate 4 0, false, false⟩] })] }

theorem witness_phases : filling.step.earlyAborted = false ∧ (inPhase .drain).step.drainDone = false ∧
    (inPhase .drain).residue = none ∧ grouped.allSent = false ∧ (inPhase .reduce).allSent = true ∧
    (inPhase .reduce).allReleased = true ∧ (inPhase .reduce).sync.stepHandSet = false ∧
    { inPhase .drain with tiles := [(0, { strata := { main := [⟨1, 0, 0, none, 0⟩] } })] }.residue = some 0 ∧
    (inPhase .commit).step.committed = false ∧ { (inPhase .commit).reduce with verdict := some true }.verdict = some true ∧
    (inPhase .commit).arbiter.fatal = none ∧ (inPhase .commit).slotless true = none ∧ (inPhase .commit).sync.stepHandSet = false ∧
    { (inPhase .commit).sync with stepHandSet := true }.stepHandSet = true ∧ (inPhase .sealing).step.phase = .sealing ∧ (inPhase .sealing).host.sessions = [sess] := by decide +kernel

theorem witness_totals : (grouped.pbProg 0).kilnMap[(pbOf held 0).kilnPos]? = some kilnE ∧
    (columnTiles held 0).filterMap (fun t => heldFor held t 0) ≠ [] ∧ totalReady held (columnTiles held 0) 0 = true ∧
    poisonedParts held 0 0 = [] ∧ held.arbiter.fatal = none ∧ held.step.phase = .reduce ∧ held.reduce.records = held.reduce.planned ∧
    (tileOf { held with tiles := [(0, { heldCanvases := [⟨7, 0, [], true, false⟩] })] } 0).heldCanvases =
      [] ++ ⟨7, 0, [], true, false⟩ :: [] ∧
    (accOf { (pbOf grouped 0) with accs := [(0, { started := true })] } 0).started = true ∧ (grouped.group 0).late ≠ 0 ∧
    grouped.directed 0 = false ∧ seqBase (grouped.pbProg 0) 0 + sumE.perMember < 2 ^ 32 := by decide +kernel

/-- The block that member 1 owes, signed. -/
def blockOf1 : Block := Block.sign ⟨0x100, 0, 41, 0, 5, 0, 0, 1, 0, 0, List.replicate 256 0, false⟩

theorem sign_signs (b : Block) : blockCrc b.sign = b.sign.crc := rfl

theorem block_signed : blockCrc blockOf1 = blockOf1.crc := sign_signs _

theorem witness_blocks : grouped.step.inProgress = true ∧ grouped.reduce.voteSent = false ∧
    (expected (grouped.pbProg 0) 0)[0]? = some 0 ∧ blockOf1.isLate = false ∧ (grouped.group 0).members = 2 ∧
    ((grouped.pbProg 0).sumAt 0).key = blockOf1.key ∧ (grouped.window 5).setWidth 8 = blockOf1.w ∧
    blockOf1.seq.toNat = smGet 0 grouped.reduce.nextIn (reduceKey 0 1) ∧
    recState (recordOf grouped.reduce.planned (reduceKey 0 1)) = 0 ∧ blockOf1.resv = false ∧ grouped.reduce.early = [] ∧
    (linkFor { grouped with links := [(0, { state := .up })] } 0).isSome = true ∧
    grouped.reduce.nextIn = [] ∧ accOf (pbOf grouped 0) 0 = {} := by decide +kernel

/-- Entry 1 of the sum map takes two blocks of each member, so a stream has a second seq ahead of the first and one behind. -/
def grouped2 : State := { grouped with
  program := some { maxTokens := 131072, groups := [groupOf2], pbs := [(0, { sumMap := [{ sumE with perMember := 2 }] })] } }

theorem witness_blocks_ahead : (expected (grouped2.pbProg 0) 0)[1]? = some 0 ∧
    smGet 0 grouped2.reduce.nextIn (reduceKey 0 1) < 1 ∧
    0 < smGet 0 ({ grouped2.reduce with nextIn := [(reduceKey 0 1, 1)] } : Reduce).nextIn (reduceKey 0 1) := by decide +kernel

theorem witness_votes : (inPhase .vote).reduce.voteSent = false ∧ (inPhase .vote).parityGate = true ∧ (inPhase .vote).sync.stepHandSet = false ∧ (inPhase .vote).arbiter.fatal = none ∧
    (inPhase .vote).voters = [(inPhase .vote).boot.positionId.toNat] ∧ 4 ∈ grouped.voters ∧
    grouped.voters.contains (4 : BitVec 16).toNat = true ∧ grouped.step.number = 41 ∧ (42 : BitVec 64) ≠ grouped.step.number ∧
    { inPhase .vote with survival := { config := some { four with interval := 8 }, formed := true, refresh := some 40 } }.parityGate = false := by
  decide +kernel

/-! ### The same: links, frames, time, parity and restores -/

/-- Link 0 in a state, with a message for this module half assembled, credits granted and flit 3 kept for replay. -/
def flit3 : Flit := ⟨1, 0, true, true, 3, 0, 0, 16, 0, zeros 240, 0, false⟩
def linked (l : Link) : State := { filling with links := [(0, l)] }
def upLink : Link := { state := .up, lanes := 0xF, granted := [(0, 8), (1, 8), (2, 8), (3, 8)], replay := [flit3] }

theorem linked_canonical : Canonical (linked upLink) := by
  refine ⟨?_, ?_, ?_, ?_, ?_, ?_⟩ <;> decide +kernel

theorem witness_linkStates : (linkOf (linked { state := .train }) 0).state = .train ∧
    bitsOf (linkOf (linked { state := .train }) 0).peerTable.toNat 17 16 = 0 ∧
    bitsOf ({ peerTable := 0x20004 } : Link).peerTable.toNat 17 16 = (2 : BitVec 8).toNat ∧
    bitsOf ({ peerTable := 0x20004 } : Link).peerTable.toNat 15 0 = (4 : BitVec 16).toNat ∧
    (linkOf (linked { state := .down }) 0).state = .down ∧ upLink.lanes.getLsbD 3 = true ∧ upLink.spareFree = true ∧
    3 ≤ laneCount (upLink.lanes &&& ~~~((1 : BitVec 5) <<< 3)) ∧ upLink.carries = true ∧
    laneCount ((7 : BitVec 5) &&& ~~~((1 : BitVec 5) <<< 2)) < 3 ∧
    (linkOf filling (partnerOf 0)).state ≠ .absent ∧ filling.step.inProgress = true ∧
    (linkOf { linked upLink with links := [(0, upLink), (1, upLink)] } (partnerOf 0)).carries = true ∧
    ((1 : BitVec 8) = 1 ∨ (1 : BitVec 8) = 2) ∧ ¬ ((3 : BitVec 8) = 1 ∨ (3 : BitVec 8) = 2) ∧
    (linkOf (linked { state := .upSwap, lanes := 7, retiring := some 3, lost := 1 }) 0).state = .upSwap ∧
    ((4 : BitVec 8).toNat < 5) ∧ 3 ≤ laneCount ((0x17 : BitVec 8).setWidth 5) := by decide +kernel

/-- A flit that opens a message on a channel; a whole VOTE for this module has the header `voteHead`. -/
def flitOn (c : BitVec 2) (eom : Bool) (len : BitVec 16) (p : Bytes) : Flit :=
  let f : Flit := ⟨1, c, true, eom, 0, 0, 0, len, 0, p, 0, false⟩
  { f with crc := crc32 (flitBody f) }
def voteHead : Bytes := [3, 0, 4, 0, 0x30, 0, 0, 0, 0, 0, 0, 0, 0, 0, 0, 0]

theorem flit_passes (c : BitVec 2) (eom : Bool) (len : BitVec 16) (p : Bytes) : flitFailed (flitOn c eom len p) = false := by
  have h (f : Flit) (n : BitVec 32) : flitBody { f with crc := n } = flitBody f := rfl
  simp only [flitFailed, flitOn, Bool.false_or, bne_eq_false_iff_eq]
  exact congrArg crc32 (h ⟨1, c, true, eom, 0, 0, 0, len, 0, p, 0, false⟩ _)

/-- A waiting LINK flit and a waiting CONTROL flit with a credit. -/
def waiting : Link := { upLink with blocked := [{ flit3 with kind := 2 }, flit3], credits := [(0, 1)] }

theorem witness_linkTurns : waiting.replay.length < 8192 ∧ waiting.blocked.find? (fun x => x.kind == 2) = some { flit3 with kind := 2 } ∧
    ({ waiting with blocked := [flit3] } : Link).blocked.find? (fun x => x.kind == 2) = none ∧
    ({ waiting with blocked := [flit3] } : Link).ready 0 = some flit3 ∧
    8192 ≤ ({ upLink with replay := List.replicate 8192 flit3 } : Link).replay.length := by
  refine ⟨?_, ?_, ?_, ?_, ?_⟩ <;> decide +kernel

theorem witness_linkTraffic : (linkOf (linked upLink) 0).switchAt = none ∧ smWf (0 : Nat) 0 upLink.nakCounts = true ∧
    (∀ c eom, flitIllegal (flitOn c eom 240 (voteHead ++ zeros 224)) = false) ∧
    [0x01, 0x02, 0x10, 0x11, 0x12, 0x20, 0x21, 0x30, 0x40, 0x41].contains (fieldAt (voteHead ++ zeros 224) 4 1) = true ∧
    smWf (0 : Nat) 0 ({ streams := [(streamKey 4 1, 7)] } : PbState).streams = true ∧ upLink.carries = true ∧ smWf (0 : BitVec 16) 0 upLink.rxChseq = true ∧
    smWf ([] : Bytes) 0 upLink.assembling = true ∧ smWf (0 : Nat) 0 upLink.credits = true ∧ upLink.rxSeen = [] ∧
    upLink.rxNext = 0 ∧ upLink.reorder = [] ∧ smGet 0 upLink.rxChseq 3 = 0 ∧ 0 < smGet 0 upLink.granted 3 ∧
    channelOf (fieldAt voteHead 4 1) = 0 ∧ fieldAt voteHead 0 2 = (linked upLink).boot.positionId.toNat ∧
    fieldAt voteHead 6 2 = 0 ∧ fieldAt voteHead 12 4 = 0 ∧ (pbOf (linked upLink) 0).pendingSignals = [] ∧
    ({ streams := [(streamKey 4 1, 0)] } : PbState).streams.any (fun x => x.1 == streamKey (BitVec.ofNat 16 (fieldAt voteHead 2 2)) 1) = true ∧
    smGet 0 upLink.nakCounts 65536 < 15 ∧ upLink.replay.any (fun x => x.seq == 3) = true ∧
    15 ≤ smGet 0 ({ upLink with nakCounts := [(3, 15)] } : Link).nakCounts 3 ∧ upLink.blocked = [] := by decide +kernel

/-- Member 4 asks again for the block that this module keeps for it. -/
def kept : Retained := ⟨41, 4, 0, 0, ⟨0x200, 0, 41, 0, 5, 2, 0, 0, 0, 0, [], false⟩⟩
def retaining : State := { grouped with
  links := [(0, upLink)]
  reduce := { retention := [kept], nextOut := [(outKey 4 0, 1)] } }

theorem witness_resend : (4 : BitVec 16) ≠ retaining.boot.positionId ∧ retaining.boot.positionId ≠ 0xFFFF ∧
    linkFor retaining kept.pb = some 0 ∧ low32 kept.step = low32 retaining.step.current.stepNumber ∧
    retaining.reduce.retention.filter (fun y => y.destId == 4 && y.block.group == 0 &&
      low32 y.step == low32 retaining.step.current.stepNumber && y.block.seq == kept.block.seq) = [kept] ∧
    kept.block.seq.toNat < smGet 0 retaining.reduce.nextOut (outKey 4 0) ∧
    (39 : BitVec 32) ≠ low32 retaining.step.current.stepNumber ∧ (39 : BitVec 32) ≠ low32 (retaining.step.current.stepNumber - 1) := by
  decide +kernel

/-- A weight frame of the intake entry below, sealed with its CRC and hash. -/
def sealFrame (f : Frame) : Frame := { f with crc := crc32c (frameHead f ++ f.payload), sha := sha256 (frameHead f ++ f.payload) }
def frame0 : Frame := sealFrame ⟨0x300, 0, 41, 0, 0, 0, 4, 0, 0, [1, 2, 3, 4], false⟩
def intake0 : IntakeEntry := ⟨0x300, 4, 0, 0, 0, false, 0, 2⟩
def awaits : State := { synced with pbs := [(0, { expected := [(0, intake0)], streams := [(streamKey 4 1, 100)] })] }

theorem frame_sealed (f : Frame) : crc32c (frameHead (sealFrame f) ++ (sealFrame f).payload) = (sealFrame f).crc ∧
    sha256 (frameHead (sealFrame f) ++ (sealFrame f).payload) = (sealFrame f).sha := by
  have h (c : BitVec 32) (d : Digest) : frameHead { f with crc := c, sha := d } = frameHead f := rfl
  simp only [sealFrame]
  exact ⟨congrArg (fun b => crc32c (b ++ f.payload)) (h _ _), congrArg (fun b => sha256 (b ++ f.payload)) (h _ _)⟩

theorem witness_frames : awaits.step.inProgress = true ∧ awaits.step.phase ≠ .discarding ∧
    frame0.stepLow = low32 awaits.step.current.stepNumber ∧ (pbOf awaits 0).done = [] ∧ (pbOf awaits 0).verified = [] ∧
    (pbOf awaits 0).expected = (0, intake0) :: [] ∧ frame0.key = intake0.key ∧ frame0.format.toNat = intake0.format ∧
    frame0.length.toNat = intake0.length ∧ smGet 0 (pbOf awaits 0).requests 0 < { awaits with program := some { refireBudget := 2 } }.budget ∧
    frame0.form.toNat = intake0.form ∧ frame0.resv = false ∧ frame0.targetPb.toNat = 0 ∧ (∀ x ∈ (pbOf awaits 0).ready, x.1 ≠ 0) ∧
    flowLeft awaits (pbSiteOf 0) (.frame 0) = true ∧
    (pbOf awaits 0).expected.find? (fun x => x.1 == 1) = none := by decide +kernel

/-- A remote ADD of module 4 that its stream's `n`-th byte releases. -/
def remoteAdd (n : BitVec 64) : SignalMsg := ⟨4, 41, 0, 1, 1, n, 1⟩

theorem witness_signals : (remoteAdd 100).stepLow = low32 awaits.currentStep ∧ (remoteAdd 100).count.toNat < 2 ^ 48 ∧
    (pbOf awaits 0).streams.any (fun x => x.1 == streamKey 4 1) = true ∧
    (remoteAdd 100).count.toNat ≤ smGet 0 (pbOf awaits 0).streams (streamKey 4 1) ∧
    (pbOf awaits 0).pendingSignals.any (sameStream (remoteAdd 100)) = false ∧
    smGet 0 (pbOf awaits 0).streams (streamKey 4 1) < (remoteAdd 101).count.toNat ∧ (pbOf awaits 0).pendingSignals.length < 256 ∧
    (remoteAdd 100).syncId.toNat < 0x8000 ∧ (remoteAdd 100).channel = 1 ∧ 256 ≤ (List.replicate 256 (remoteAdd 101)).length ∧
    { remoteAdd 100 with stepLow := 40 }.stepLow ≠ low32 awaits.currentStep ∧ (awaits.obj 0).isGate = false := by decide +kernel

/-- One peer whose exchange 0 is under way. -/
def measured : State := { linked upLink with trace := { offsets := [{ peer := 4, sentIndex := 7, probes := [(99, 0)] }] } }

theorem witness_time : (linkOf measured 0).carries = true ∧ (linkOf measured 0).switchAt = none ∧ netOk {} = true ∧ measured.boot.firmwareRuns = true ∧ measured.boot.positionId ≠ 0xFFFF ∧
    measured.trace.offsets = [{ peer := 4, sentIndex := 7, probes := [(99, 0)] }] ∧
    (List.range 24).find? (fun n => (linkOf measured n).state == .up) = some 0 ∧ State.reset.boot.firmwareRuns = false := by
  decide +kernel

/-- A module of the parity group `four` whose tile 0 holds a slice, refreshing step 40. -/
def parity : State :=
  { filling with
    program := some { maxTokens := 131072, tiles := [(0, { shard := ⟨256, 0, 0, 64⟩ })] }
    boot := { filling.boot with record := zeros 48 ++ [7, 0] }
    survival := { config := some four, refresh := some 40 } }

theorem witness_parityGroup : parity.survival.config = some four ∧ (9 : BitVec 16) ≠ parity.feedId ∧ parity.feedId ≠ 0xFFFF ∧
    covering 0 4 0 1 0 = [(0, false)] ∧ smWf (zeros 1) 0 ([] : SMap Bytes) = true ∧
    parity.survival.units.contains (pageKey 0 0, 1, 0) = false ∧ 3 ∉ parity.survival.doneBy ∧
    ((3 : Nat), (40 : BitVec 32)) ∉ parity.survival.ready ∧ ((3 : Nat), (41 : BitVec 32)) ∉ parity.survival.doneEarly ∧ parity.survival.readyStep ≠ 41 ∧ parity.survival.refresh ≠ some 41 ∧
    covering 0 4 1 0 0 ≠ [] ∧ 0 ∈ parity.sliceTiles := by decide +kernel

theorem steady : Steady filling ∧ Steady parity := ⟨fun _ => rfl, fun _ => rfl⟩

theorem witness_parityAgain : linkFor { parity with links := [(0, upLink)] } 0 = some 0 ∧ parity.boot.positionId ≠ 0xFFFF ∧
    (1 : BitVec 8).toNat < four.size.toNat ∧ crc32c [1] ≠ 0 := by decide +kernel

theorem inactive_wf : smWf (zeros pageBytes) 0 parity.survival.inactive = true := rfl

/-- A unit message whose CRC is right. -/
def unitOf (role sender : BitVec 8) (step : BitVec 32) (address : BitVec 64) (b : Bytes) : UnitMsg :=
  ⟨role, 0, step, address, sender, crc32c b, b, false⟩

theorem unit_crc (role sender : BitVec 8) (step : BitVec 32) (address : BitVec 64) (b : Bytes) :
    crc32c (unitOf role sender step address b).payload = (unitOf role sender step address b).crc := rfl

/-- The same module rebuilding page 0 of tile 0 from generation 40, with what members 1 and 3 have sent. -/
def rebuilding : State :=
  { parity with
    survival := { config := some four, readyStep := 40, parityStep := 40, wanted := [⟨0, some 5, 40⟩],
                  gathered := [⟨0, 40, 0, 3, 1, [7]⟩, ⟨0, 40, 1, 1, 0, [1]⟩] } }

theorem witness_rebuilds : rebuilding.survival.parityStep ≠ 0xFFFFFFFF ∧ 0 < rebuilding.slicePages 0 ∧
    rebuilding.survival.restoring = none ∧ rebuilding.survival.wanted = [⟨0, some 5, 40⟩] ∧
    (2, 1) ∈ stripeUnits 0 4 (stripeOf 0 4 0 0) ∧
    (({ rebuilding.wake with survival := { rebuilding.survival with
        gathered := rebuilding.survival.gathered ++ [⟨0, 40, 0, 2, 1, [9]⟩] } } : State).solve 0 40).isSome = true ∧
    (({ rebuilding.wake with survival := { rebuilding.survival with gathered := [⟨0, 40, 0, 2, 1, [9]⟩] } } : State).solve 0 40) = none ∧
    rebuilding.pages.lost.any (fun x => fieldState rebuilding.repair (fieldOfLogical (x / 1024)) == 2) = false := by
  decide +kernel

theorem witness_restores : ({ source := 0, req := ⟨0xF000, 40, 0, 0⟩, owed := owner1 } : Restore).image.length = 0 ∧
    ([1] : Bytes) ≠ [] ∧ ([1] : Bytes).length < 4096 := by decide +kernel

/-! ### The same: tile commands -/

theorem filling_runs_at (t : Nat) (h : filling.issues t = true) (h1 : t < 2352) : Runs ⟨t, [], []⟩ filling :=
  ⟨h1, h, rfl, rfl, rfl, rfl⟩

/-- A vector command on FP32 elements at 0, 0x1000 and 0x2000, and one on a single element for the trees. -/
def vec (n : BitVec 32) : VecDesc := ⟨7, 0x2222, 0, n, 0, 0x1000, 0, 0x3000⟩
def vec3 : VecDesc := { vec 16 with src2 := 0x2000 }

theorem witness_vectors : vecRows.all (fun r => vecCheck r.1 (if vecArity r.1 = 3 then vec3 else vec 16) == none) = true ∧
    writeFault filling 0 0x3000 64 = none ∧ filling.issues 0 = true ∧ filling.budget = 2 ∧
    [[(0x2101 : Code)], [0x2101, 0x2103], [0x2102]].length > filling.budget ∧ filling.checks = [] ∧ filling.mesh.poisoned = [] ∧ recoverableCodes.contains 0x2101 = true := by decide +kernel

/-- One cell of K of FP8 operands: into canvas A from the beginning, onward, and drained with its record at 0x6000. -/
def dense (control : BitVec 16) : DenseDesc :=
  ⟨7, 2, 3, 3, 0, 0, control, 1, 0, 128, 0x1000, 128, 0, 0, 0, 0, 0, 0, 0⟩
def drained : DenseDesc := { dense 6 with dBase := 0x5000, dStride := 32, cmplAddr := 0x6000 }
def maskedDense : DenseDesc := { dense 2 with mMinus1 := 127, nMinus1 := 127, auxBase := 0x2000 }

/-- The same state with a run of such commands open in canvas A. -/
def running : State := { filling with tiles := [(0, { canvasA := { run := openRun (dense 2) } })] }

theorem witness_engine : denseCheck (dense 2) false = none ∧ denseCheck (dense 0) false = none ∧ denseCheck drained false = none ∧
    denseCheck maskedDense true = none ∧ continues (dense 0) (canvasOf (tileOf running 0) false).run = true ∧
    continues (dense 0) (canvasOf (tileOf filling 0) false).run = false ∧ (dense 2).control.getLsbD 1 = true ∧
    drained.control.getLsbD 2 = true := by decide +kernel

theorem witness_engine_drains :
    let u := filling.cmdStart 0 0 0x10 7
    let c := (({ run := openRun drained } : Canvas)).fill u 0 drained (denseLanes drained) (denseSpans drained false)
    tallyCodes (c.compareAll (denseLanes drained)).1 (c.compareAll (denseLanes drained)).2 = [] ∧
    firstCode ((denseDrained (u.count 0 2 (macsOf drained (denseLanes drained))) 0 drained c (denseLanes drained)).rows.map
      (fun x => writeFault u 0 x.1 x.2.length)) = none := by decide +kernel

/-- A canvas whose margins do not hold what its cells sum to. -/
theorem witness_engine_fails :
    let c : Canvas := { run := openRun drained, marginRow := [(0, (1, 0))] }
    tallyCodes (c.compareAll (denseLanes drained)).1 (c.compareAll (denseLanes drained)).2 ≠ [] := by decide +kernel

/-- The margins and the corner of an integer canvas agree exactly (R93, R234). -/
theorem test_int_corner :
    let c : Canvas := { run := { openRun drained with mode := 3 } }
    (c.compareAll (denseLanes drained)).2 = false ∧
    ({ c with corner := [(0, (1, 0))] } : Canvas).cornerFailedInt (denseLanes drained) = true := by decide +kernel

/-- Saving canvas A to 0x10000 and restoring it from there. -/
def saved : DenseDesc := ⟨7, 0, 0, 0, 0, 0, 0, 0, 0, 0, 0, 0, 0, 0, 0x10000, 0, 0, 0, 0⟩
def restored : DenseDesc := { saved with dBase := 0, aBase := 0x10000 }

theorem witness_images : denseImageCheck saved true = none ∧ denseImageCheck restored false = none ∧
    (readRun filling 0 (0x10000 + 0x22020)).isSome = true ∧
    (readRun { filling with mem := [(0x10000 + 0x22020 + 8, 0xFF), (0x10000 + 0x22020 + 9, 0xFF), (0x10000 + 0x22020 + 10, 0xFF),
      (0x10000 + 0x22020 + 11, 0xFF)] } 0 (0x10000 + 0x22020)) = none := by decide +kernel

/-- A program of tile 0 with a slice of 256 parameters and one mask plate, Strata windows, and a layer command. -/
def layer1 : LayerDesc := ⟨21, 1, 0, 32, 0x4000, 0, 0⟩
def drain1 : LayerDesc := ⟨31, 1, 0, 32, 0x4000, 0, 0⟩
def tileProg0 : TileProg :=
  { cmds := [.layer false layer1], backward := ⟨0, 2, 0x8000, 4096, 64, 16⟩, shard := ⟨256, 1, 0, 64⟩ }

/-- The state in which it runs: pages 0 to 4 committed, object 0 a counter, one flit bound to the RECV_ADD of command 7. -/
def sliced (x : Tile) : State :=
  { filling with
    program := some { maxTokens := 131072, tiles := [(0, tileProg0)], syncTable := [(0, 1)], bindings := { recvFlits := [(0, 7, 1)] } }
    tiles := [(0, x)]
    pages := { filling.pages with table := (List.range 5).map (fun i => (i, BitVec.ofNat 64 (1024 + i))) } }

theorem sliced_issues : (sliced {}).issues 0 = true ∧ (sliced {}).tileProg 0 = tileProg0 := by decide +kernel

/-- The same state in REDUCE, where its optimizer commands issue; LOSS_REPORT issues in FILL, and sync commands in VOTE as well. -/
def slicedReduce : State := { sliced {} with step := { (sliced {}).step with phase := .reduce } }

theorem runs_phases : Runs here slicedReduce [.reduce, .commit] ∧ Runs here (sliced {}) [.fill] ∧
    Runs here (inPhase .vote) (.vote :: workPhases) := by
  refine ⟨⟨?_, ?_, ?_, ?_, ?_, ?_⟩, ⟨?_, ?_, ?_, ?_, ?_, ?_⟩, ?_, ?_, ?_, ?_, ?_, ?_⟩ <;> decide +kernel

/-- A step that aborts early and has met a value that is not finite. -/
theorem witness_abort : abortsNow { sliced {} with step := { (sliced {}).step with
    current := { open41 with flags := 1 }
    nfLocal := true } } = true := by decide +kernel

/-- A transpose of one element into slot 0, and one into memory. -/
def trans (dest : BitVec 8) (a stride : BitVec 32) : TransDesc := ⟨7, 3, 0, 0, dest, 0, 32, a, stride⟩
def push32 : PushDesc := ⟨7, 0, 0, 0, 32, 0x1000, 0⟩

/-- The Strata of a tile with one entry in each part, and the last layer checkpointed. -/
def strata1 : Strata := { main := [⟨7, 0, 32, none, 0⟩], reserve := [⟨21, 1, 32, none, 0⟩], inWindow := 1, tokenUnits := 1, switchLayer := 1 }

theorem witness_transpose : transCheck (trans 0 0 0) = none ∧ transCheck (trans 4 0x1000 32) = none ∧
    (trans 4 0x1000 32).dest.getLsbD 2 = true ∧ writeFault filling 0 0x1000 1 = none := by decide +kernel

theorem witness_strata : pushCheck push32 = none ∧ (sliced { strata := { skipPushes := true } }).step.phase = .fill ∧
    occupancy ({} : Strata).main + 32 + 32 ≤ mainBytes tileProg0.backward ∧ inTmem push32.srcAddr.toNat 32 = true ∧
    mainBytes ({} : Backward) < occupancy ({} : Strata).main + 32 + 32 ∧ windowBytes strata1 + 32 + 32 ≤ tileProg0.backward.topBytes ∧ popCheck ⟨8, 7, 0x2000⟩ = none ∧
    strata1.main = ⟨7, 0, 32, none, 0⟩ :: [] ∧ writeFault filling 0 0x2000 32 = none ∧ layerCheck false layer1 = none ∧
    layerCheck true drain1 = none ∧ abortsNow (sliced {}) = false ∧ ({ layer1 with layer := 0 } : LayerDesc).layer.toNat < strata1.switchLayer ∧
    strata1.switchLayer ≤ layer1.layer.toNat ∧
    occupancy ([] : List Entry) + 32 + ckBytes layer1 strata1.tokenUnits ≤ reserveBytes tileProg0.backward ∧
    some (21 : BitVec 64) = fillLayerId tileProg0 1 ∧ writeFault filling 0 0x4000 32 = none := by decide +kernel

/-- Windows of 127 bytes over one entry of 64 bytes, and of 129 over an entry that the body holds. -/
theorem witness_strataEngine : 127 < 2 * windowBytes strata1 ∧ strata1.main[strata1.inWindow - 1]? = some ⟨7, 0, 32, none, 0⟩ ∧
    2 * windowBytes { strata1 with inWindow := 0 } < 129 ∧
    { strata1 with inWindow := 0 }.main[0]? = some ⟨7, 0, 32, none, 0⟩ ∧ entryBytes ⟨7, 0, 32, none, 0⟩ ≤ 129 ∧
    2 * windowBytes strata1 ≤ 128 ∧ strata1.main.length ≤ strata1.inWindow := by decide +kernel

/-- Mask commands on the plate of the slice: by count, by threshold, and the commit. -/
def mask (policy : BitVec 8) (count : BitVec 32) : MaskDesc := ⟨7, 0, policy, count, 0, 0x100000, 0x800000, 0x20000, 0, 0⟩
def commitMask : MaskDesc := ⟨7, 0, 0, 0, 0, 0, 0x800000, 0x20000, 0x200000, 0x400000⟩

theorem witness_masks : maskCheck 0 (mask 0 100) = none ∧ maskCheck 1 (mask 1 0) = none ∧ maskCheck 2 (mask 0 100) = none ∧
    maskCheck 3 commitMask = none ∧ (sliced {}).shardRead false 0 0x800000 2048 = some (zeros 2048) ∧
    readFault (sliced {}) 0x100000 (maskValueBytes (mask 0 100)) = none ∧ writeFault (sliced {}) 0 0x20000 2048 = none := by
  decide +kernel

theorem witness_maskCommit : slicedReduce.touchWaits 0 [0, 1, 2, 4] = false ∧
    ({ slicedReduce with program := some { tiles := [(0, { tileProg0 with shard := ⟨256, 1, 0, 5⟩ })] } } : State).touchWaits 0 [0, 1, 2, 4] = true ∧
    (slicedReduce.shardRead true 0 0 (16384 * maskElem commitMask)).isSome = true ∧
    (slicedReduce.shardRead true 0 0x200000 16384).isSome = true := by decide +kernel

/-- An optimizer step over the slice, and a RECV_ADD of 16 elements. -/
def opt256 : OptDesc := ⟨7, 0, 0, 256, 0, 0x1000⟩
def recv16 : RecvDesc := ⟨7, 0, 0, 16, 0x2000⟩

theorem witness_optimizer : optCheck opt256 = none ∧ slicedReduce.touchWaits 0 (optPages tileProg0.shard opt256) = false ∧
    (optPages tileProg0.shard opt256).any (fun lp => (slicedReduce.pageOf true 0 lp).isNone) = false ∧
    (optPages tileProg0.shard opt256).any (fun lp => (({ slicedReduce with pages := {} } : State).pageOf true 0 lp).isNone) = true ∧
    ({ slicedReduce with pages := {} } : State).touchWaits 0 (optPages tileProg0.shard opt256) = false := by decide +kernel

theorem witness_receive : recvCheck recv16 = none ∧ recvFlits (sliced {}) 0 recv16 = 1 ∧
    (tileOf (sliced {}) 0).inbox.length < 128 ∧ (tileOf (sliced { inbox := zeros 128 }) 0).inbox.length = 128 ∧
    writeFault (sliced {}) 0 0x2000 64 = none := by decide +kernel

theorem witness_paletteLossSync : paletteCheck ⟨7, 7, 0, 0xEFE000⟩ = none ∧ lossCheck ⟨7, 15, 0xEFFFFC⟩ = none ∧
    filling.step.current.slots.getD 15 0 = 0 ∧ filling.step.current.slots.getD 0 0 ≠ 0 ∧
    syncCheck true (smGet 0 (sliced {}).prog.syncTable 0) ⟨7, 1, 0, 0xFFFF, 0, 0, 5⟩ = none ∧
    syncCheck true (smGet 0 (sliced {}).prog.syncTable 0) ⟨7, 1, 0, 4, 23, 3, 5⟩ = none ∧
    syncCheck false (smGet 0 (sliced {}).prog.syncTable 0) ⟨7, 3, 0, 0xFFFF, 0, 0, 5⟩ = none ∧
    linkFor { sliced {} with links := [(0, upLink)] } 0 = some 0 := by decide +kernel

theorem witness_maps : (2351 : Nat) < 2352 ∧ (2687 : Nat) < 2688 ∧ logicalOf up.repair 2687 = none ∧
    (repairEntry up.repair (fieldColOfPhys 2687)).toNat > 6 ∧
    (repairEntry { up.repair with repairMap := [(0, 3)] } 0).toNat = 3 ∧ lsValid 0x000007D001200010 = true := by decide +kernel

/-! ### The same: plates and the Sieve -/

/-- Tile 0 with an array of one FP8 plate, empty: descriptor at 0x1000, table at 0x2000, slot of 16 KiB at 0x8000; and the same with no
slot to speak of and no spill units, and element (0, 0) of its dense side 1. -/
def arrayBytes (budget : List Host.Cell) : List Host.Cell :=
  [(0x1001, 0x20), (0x1009, 0x80)] ++ budget ++ [(0x1028, 1), (0x102A, 1), (0x102C, 3), (0x102D, 64)]
def plated : State := { filling with mem := arrayBytes [(0x1021, 0x40)] }
def cramped : State := { filling with mem := arrayBytes [] ++ [(0x40000, 0x38)] }

/-- A plate command between that plate and a dense side at 0x40000. -/
def plate (dest : BitVec 64) : PlateDesc := ⟨7, 0, 0, 0, 0x1000, 0x40000, 128, dest, 0, 0⟩
def plateT : PlateDesc := ⟨7, 0, 0, 0, 0x1000, 0, 0, 0x1000, 0, 0⟩

theorem plated_canonical : Memory.wf plated.mem = true ∧ Memory.wf cramped.mem = true := by decide +kernel

theorem plated_array : readArray plated 0 0x1000 = ⟨0x1000, 0x2000, 0x8000, 0, 0, 0x4000, 0, 1, 1, 3, 64, 0, 0⟩ ∧
    readArray cramped 0 0x1000 = ⟨0x1000, 0x2000, 0x8000, 0, 0, 0, 0, 1, 1, 3, 64, 0, 0⟩ := by decide +kernel

theorem witness_plate_load : plateCheck 0 (plate 0) = none ∧ plateCheck 1 (plate 0) = none ∧ plateCheck 3 (plate 0) = none ∧
    plateCheck 2 plateT = none ∧ readFault plated 0x1000 64 = none ∧
    arrayChecks plated (readArray plated 0 0x1000) 0 0 128 true = none ∧
    arrayChecks cramped (readArray cramped 0 0x1000) 0 0 128 true = none ∧
    headValid plated 0 (readArray plated 0 0x1000) 0 (readHead plated 0 (readArray plated 0 0x1000) 0) = true ∧
    writeFault plated 0 0x40000 (127 * 128 + 128) = none ∧
    plateDetection plated 0 0x8000 3 (readHead plated 0 (readArray plated 0 0x1000) 0) = [] ∧
    openSlots (tileOf plated 0) = 0 := by decide +kernel

theorem witness_plate_adopt : imageValid plated 0 0x40008 3 (decodeHead (tileNum plated 0 0x40000 8)) = true ∧
    (match storeForm (plated.cmdStart 0 2 0x23 7) 0 (readArray plated 0 0x1000) 0 (decodeHead (tileNum plated 0 0x40000 8))
      (tileRead plated 0 0x40008 0) with | .ok _ => true | .error _ => false) = true := by decide +kernel

/-- An empty plate compresses to nothing. -/
theorem compress_empty (fmt threshold : Nat) (h : isZeroElem fmt 0 = true) (pl : List Nat) (z : ∀ v ∈ pl, v = 0) :
    compress fmt threshold pl = (⟨0, false, 0, 0, 0⟩, []) := by
  have n : ∀ k, pl.foldl (fun n v => n + b2n (!isZeroElem fmt v)) k = k := by
    induction pl with
    | nil => intro k; rfl
    | cons a l ih =>
      intro k
      have ha : a = 0 := z a (by simp)
      subst ha
      simp only [List.foldl_cons, h, Bool.not_true]
      exact ih (fun v hv => z v (by simp [hv])) k
  simp [compress, nnzOf, n]

/-- A plate with an element that is not zero compresses to a form with bytes. -/
theorem compress_some (fmt threshold : Nat) (pl : List Nat) (n : nnzOf fmt pl ≠ 0)
    (h : 0 < (pl.flatMap (leBytes (plateElemBytes fmt))).length) :
    (compress fmt threshold pl).1.form ≠ 0 ∧ 0 < (compress fmt threshold pl).2.length := by
  have b (m : Nat) : 0 < (leBytes 2048 m).length := by show 0 < (leBytes 2047 (m / 256)).length + 1; omega
  have c (strip : List Nat) : 0 < (compressWith fmt pl strip).length := by
    unfold compressWith
    simp only [List.length_append, Nat.add_assoc]
    exact Nat.add_pos_left (b _) _
  unfold compress
  simp only [n, if_false]
  split
  · split <;> exact ⟨by simp, by first | exact c _ | exact h⟩
  · split <;> exact ⟨by simp, by first | exact c _ | exact h⟩

/-- An array without slot bytes and without spill units takes no plate that has bytes. -/
theorem store_full (s : State) (p i : Nat) (a : PlateArray) (h : PlateHead) (b : Bytes) (h0 : (readHead s p a i).spilled = false)
    (h1 : h.form ≠ 0) (h2 : 0 < b.length) (h3 : a.slotBudget = 0) (h4 : a.spillUnits = 0) :
    storeForm s p a i h b = .error 0x9002 := by
  have u : 0 + 1 - unitsOf b.length = 0 := by unfold unitsOf roundUp; omega
  have z : 0 < roundUp b.length 32 := by unfold roundUp; omega
  simp [storeForm, h0, h1, h3, h4, z, firstFit, u]

/-- Nothing is written above the array. -/
theorem plated_high (k : Nat) (h : 0x1100 ≤ k) : rdByte plated.mem k = 0 := by
  have n (j : Nat) (hj : j < 0x1100) : k ≠ j ∧ ¬ k < j := by omega
  simp [plated, arrayBytes, rdByte, smGet, n]

theorem empty_dense : ∀ v ∈ readDense plated 0 false 0x40000 128 3, v = 0 := by
  intro v hv
  simp only [readDense, List.mem_map] at hv
  obtain ⟨k, -, rfl⟩ := hv
  have z : rdByte plated.mem (memKey 0 (denseSide false 0x40000 128 (plateElemBytes 3) (k % 128) (k / 128))) = 0 :=
    plated_high _ (by simp only [memKey, denseSide]; simp; omega)
  show ofLE [rdByte plated.mem _] = 0
  rw [z]
  rfl

theorem nnz_grows (fmt : Nat) (l : List Nat) : ∀ n, n ≤ l.foldl (fun n v => n + b2n (!isZeroElem fmt v)) n := by
  induction l with
  | nil => intro n; exact Nat.le_refl _
  | cons a l ih => intro n; exact Nat.le_trans (Nat.le_add_right _ _) (ih _)

theorem cramped_dense : nnzOf 3 (readDense cramped 0 false 0x40000 128 3) ≠ 0 := by
  have r : List.range 16384 = 0 :: (List.range 16383).map Nat.succ := List.range_succ_eq_map
  have one : b2n (!isZeroElem 3 (tileNum cramped 0 (denseSide false 0x40000 128 (plateElemBytes 3) (0 % 128) (0 / 128))
      (plateElemBytes 3))) = 1 := by decide +kernel
  unfold nnzOf readDense
  rw [r, List.map_cons, List.foldl_cons, one]
  exact Nat.ne_of_gt (nnz_grows 3 _ _)

theorem witness_plate_store : (match storeForm (plated.cmdStart 0 2 0x20 7) 0 (readArray plated 0 0x1000) 0 ⟨0, false, 0, 0, 0⟩ []
    with | .ok _ => true | .error _ => false) = true := by decide +kernel

theorem witness_plate_full : (readHead (cramped.cmdStart 0 2 0x20 7) 0 (readArray cramped 0 0x1000) 0).spilled = false := by
  decide +kernel

/-- An empty form is stored in an array without spill units wherever its table may be written. -/
theorem store_empty (s : State) (p i : Nat) (a : PlateArray) (h0 : (readHead s p a i).spilled = false) (h1 : a.spillUnits = 0)
    (h2 : writeFault s p (a.descTable + 8 * i) 8 = none) : ∃ v, storeForm s p a i ⟨0, false, 0, 0, 0⟩ [] = .ok v := by
  simp [storeForm, h0, h1, h2, firstCode]

/-- The slot a transpose of the empty plate leaves behind it. -/
def before : State :=
  (plated.cmdStart 0 2 0x22 7).updTile 0 (fun x => { x with lastSlot := some (chooseSlot (tileOf plated 0)) })
def transposed : State := before.writeSlot 0 (chooseSlot (tileOf plated 0)) ((List.replicate 16384 0).flatMap (leBytes 1))

theorem transposed_head : (readHead transposed 0 (readArray plated 0 0x1000) 0).spilled = false := by
  have a : (readArray plated 0 0x1000).descTable + 8 * 0 = 0x2000 := by decide +kernel
  have c : Memory.wf before.mem = true := by decide +kernel
  have z : ofLE (rdBytes before.mem (memKey 0 0x2000) 8) = 0 := by decide +kernel
  have e : tileNum transposed 0 0x2000 8 = 0 := by
    unfold tileNum rdLE transposed
    rw [State.writeSlot_below before 0 _ _ c (by decide +kernel), z]
  unfold readHead
  rw [a, e]
  rfl

theorem witness_plate_transpose : ∃ v, storeForm transposed 0 (readArray plated 0 0x1000) 0 ⟨0, false, 0, 0, 0⟩ [] = .ok v :=
  store_empty _ _ _ _ transposed_head (by decide +kernel) (by decide +kernel)

/-- SPARSE_MM over the empty plate: one command from the beginning, one onward, one that drains. -/
def sparse (control : BitVec 16) : SparseDesc := ⟨7, 1, 3, 0, control, 1, 0x1000, 0, 0, 1, 0x10000, 32, 0, 0, 0, 0, 0, 0⟩
def sparseOut : SparseDesc := { sparse 6 with dBase := 0x60000, dStride := 32, cmplAddr := 0x70000 }

theorem witness_sparse : sparseCheck (sparse 2) = none ∧ sparseCheck (sparse 0) = none ∧ sparseCheck sparseOut = none ∧
    sieveContinues (sparse 0) (sieveOf (tileOf plated 0) false) = false ∧ halvesConflict (tileOf plated 0) (sparse 2) = false ∧
    sparseArrayFault (plated.cmdStart 0 0 0x11 7) 0 (readArray plated 0 0x1000) (sparse 2) = none := by decide +kernel

/-- The strip scratch of the second lies in the array's slots. -/
theorem witness_sparse_scratch : let u := plated.cmdStart 0 0 0x11 7
    let d : SparseDesc := { sparse 2 with stripScratch := 0x8000 }
    sparseCheck d = none ∧ halvesConflict (tileOf u 0) d = false ∧
    sparseArrayFault u 0 (readArray u 0 0x1000) d = none ∧
    (scratchWrites u 0 (readArray u 0 0x1000) d).any (fun x =>
      hitsOpenArray u 0 x.1 x.2 || (readArray u 0 0x1000).parts.any (fun y => overlaps x.1 x.2 y.1 y.2)) = true ∧
    scratchWrites u 0 (readArray u 0 0x1000) (sparse 2) = [] := by decide +kernel

theorem witness_sparse_plates :
    sparseDetections ((plated.cmdStart 0 0 0x11 7).clearSieve 0 (sparse 2)) 0 (readArray plated 0 0x1000) (sparse 2) = [] := by
  decide +kernel

/-- A k-step over an empty plate takes no element. -/
theorem kStep_empty (x : SieveAcc) (p base fmt c : Nat) (b : List Fp) (h : isZeroElem fmt 0 = true) (n : b.any Fp.isNan = false) :
    (x.kStep p base fmt c [⟨0, List.replicate 16384 0, []⟩] b).mem = x.mem ∧
    (x.kStep p base fmt c [⟨0, List.replicate 16384 0, []⟩] b).check = x.check ∧
    (x.kStep p base fmt c [⟨0, List.replicate 16384 0, []⟩] b).run = x.run := by
  have z (r : Nat) : plateElem (List.replicate 16384 0) r c = 0 := by
    unfold plateElem
    rw [List.getD_eq_getElem?_getD, List.getElem?_replicate]
    split <;> rfl
  have m (y : SieveAcc) (sb ab : Fp) : y.marginUpdate [] [] b sb ab = y := rfl
  have f (l : List (List Nat)) (sb ab : Fp) : ∀ (y : SieveAcc) (first : Bool),
      (l.foldl (fun (acc : SieveAcc × List (Nat × Nat) × Bool) t =>
        (acc.1.marginUpdate ((acc.2.1.take t.length).map (fun e => elemVal fmt e.2)) (if acc.2.2 = true then [] else []) b sb ab,
          acc.2.1.drop t.length, false)) (y, [], first)).1 = y := by
    induction l with
    | nil => intro y first; rfl
    | cons t l ih => intro y first; simp only [List.foldl_cons]; cases first <;> simpa [m] using ih y false
  simp only [SieveAcc.kStep, z, h, List.flatMap_cons, List.flatMap_nil, List.filter_nil, Bool.not_true, Bool.false_and,
    List.filter_false, List.map_nil, List.append_nil, List.foldl_nil]
  simp only [f, n, Bool.or_false]
  exact ⟨trivial, trivial, trivial⟩

theorem expand_empty (s : State) (p addr fmt : Nat) (h : PlateHead) (f : h.form = 0) :
    expandForm s p addr fmt h = List.replicate 16384 0 := by
  unfold expandForm
  simp only [-List.reduceReplicate, f]

/-- The run that draining command makes of the empty plate. -/
def emptyRun : SieveRun :=
  { openSieve sparseOut with
    kDone := 128
    arrays := [0x1000]
    reads := sparseSpans sparseOut }

theorem steps_empty (p base fmt : Nat) (h : isZeroElem fmt 0 = true) (b : Nat → List Fp) : ∀ (l : List Nat) (x : SieveAcc),
    (∀ c ∈ l, (b c).any Fp.isNan = false) →
    let y := l.foldl (fun x c => x.kStep p base fmt c [⟨0, List.replicate 16384 0, []⟩] (b c)) x
    y.mem = x.mem ∧ y.check = x.check ∧ y.run = x.run
  | [], _, _ => ⟨rfl, rfl, rfl⟩
  | c :: l, x, n => by
    have k := kStep_empty x p base fmt c (b c) h (n c (by simp))
    have r := steps_empty p base fmt h b l (x.kStep p base fmt c [⟨0, List.replicate 16384 0, []⟩] (b c)) (fun d hd => n d (by simp [hd]))
    exact ⟨r.1.trans k.1, r.2.1.trans k.2.1, r.2.2.trans k.2.2⟩

/-- The row operand of k-step `c` of a command's first plate column. -/
def rowOperand (s : State) (p : Nat) (d : SparseDesc) (c : Nat) : List Fp :=
  (readElems s p (d.bBase.toNat + (128 * 0 + c) * d.bStride.toNat) d.bFormat.toNat (d.nMinus1.toNat + 1)).map (elemVal d.bFormat.toNat)

/-- One empty plate, without the strip path, leaves the memory, the check column and the run but for what it counts. -/
theorem fill_empty (s : State) (p : Nat) (a : PlateArray) (d : SparseDesc) (run : SieveRun) (k : d.kPlates.toNat = 1)
    (sc : d.stripScratch = 0) (z : isZeroElem a.elem 0 = true) (n : ∀ c ∈ List.range 128, (rowOperand s p d c).any Fp.isNan = false)
    (bp : blockPlates s p a d (d.plateCol0.toNat + 0) = [⟨0, List.replicate 16384 0, []⟩]) :
    (sparseFill s p a d run).mem = s.mem ∧ (sparseFill s p a d run).check = (tileOf s p).sieveCheck ∧
    (sparseFill s p a d run).run = { run with
      kDone := run.kDone + 128 * 1
      arrays := run.arrays ++ [d.arrayDesc.toNat]
      reads := run.reads ++ sparseSpans d
      slots := run.slots ||| slotsTouched d.bBase.toNat d.bStride.toNat (rowBytes d.bFormat.toNat 128) (128 * 1) } := by
  let start : SieveAcc := ⟨s.mem, (tileOf s p).sieveCheck, run, List.replicate 32 0⟩
  obtain ⟨y, hy, f⟩ : ∃ y : SieveAcc, y = (List.range 128).foldl (fun (x : SieveAcc) c => x.kStep p (partBase d) a.elem c
      [⟨0, List.replicate 16384 0, []⟩] (rowOperand s p d c)) start ∧ sparseFill s p a d run = { y with
        run := { y.run with
          kDone := y.run.kDone + 128 * 1
          arrays := y.run.arrays ++ [d.arrayDesc.toNat]
          reads := y.run.reads ++ sparseSpans d
          slots := y.run.slots ||| slotsTouched d.bBase.toNat d.bStride.toNat (rowBytes d.bFormat.toNat 128) (128 * 1) } } := by
    refine ⟨_, rfl, ?_⟩
    unfold sparseFill
    rw [k]
    simp only [-List.reduceReplicate, sc, if_true, List.range_one, List.foldl_cons, List.foldl_nil]
    rw [bp]
    rfl
  have e := steps_empty p (partBase d) a.elem z (rowOperand s p d) (List.range 128) start n
  simp only at e
  rw [← hy] at e
  rw [f]
  exact ⟨e.1, e.2.1, by rw [e.2.2]⟩

/-- The state in which it fills its part. -/
def sieving : State := (plated.cmdStart 0 0 0x11 7).clearSieve 0 sparseOut

theorem sieve_filled : (sparseFill sieving 0 (readArray plated 0 0x1000) sparseOut (openSieve sparseOut)).mem = sieving.mem ∧
    (sparseFill sieving 0 (readArray plated 0 0x1000) sparseOut (openSieve sparseOut)).check = (tileOf sieving 0).sieveCheck ∧
    (sparseFill sieving 0 (readArray plated 0 0x1000) sparseOut (openSieve sparseOut)).run = emptyRun := by
  have h : (readHead sieving 0 (readArray plated 0 0x1000) (plateIndex (readArray plated 0 0x1000) 0 0)).form = 0 := by decide +kernel
  have l : List.range sparseOut.plateRowsUsed.toNat = [0] := by decide
  have sc : sparseOut.stripScratch = 0 := by decide
  have bp : blockPlates sieving 0 (readArray plated 0 0x1000) sparseOut 0 = [⟨0, List.replicate 16384 0, []⟩] := by
    have g : sparseOut.plateRow0.toNat + 0 = 0 := by decide
    simp only [-List.reduceReplicate, blockPlates, l, List.map_cons, List.map_nil, g, expand_empty _ _ _ _ _ h, sc, decide_true,
      Bool.true_or, if_true]
  have f := fill_empty sieving 0 (readArray plated 0 0x1000) sparseOut (openSieve sparseOut) (by decide) sc (by decide +kernel)
    (by decide +kernel) bp
  exact ⟨f.1, f.2.1, f.2.2.trans (by decide +kernel)⟩

theorem witness_sparse_drain :
    let v := { plated.cmdStart 0 0 0x11 7 with mem := sieving.mem }.updTile 0 (fun q => { q with sieveCheck := (tileOf sieving 0).sieveCheck })
    tallyCodes (sieveCompare v 0 sparseOut emptyRun).1 (sieveCompare v 0 sparseOut emptyRun).2 = [] ∧
    firstCode ((sieveDrainRows v 0 sparseOut emptyRun).1.map
      (fun y => writeFault (v.updTile 0 (fun q => q.setSieve false emptyRun)) 0 y.1 y.2.length)) = none := by decide +kernel

/-! ### The same: the remaining statements -/

theorem witness_queue : up.pending = [] ∧ { up.power with stretching := true, stretchMv := 719, meshRun := true }.stretchMv < 720 := by
  decide +kernel

theorem witness_sums : accOf (pbOf grouped 0) 0 = {} ∧ [(1, blockOf1)] ≠ [] ∧ wellFormed (.status) = true := by
  refine ⟨by decide +kernel, by simp, by decide +kernel⟩

/-! ### Values that the manual's worked examples give -/

/-- Worked example of chapter 1: the status register of M2 after SEAL. -/
def m2 : Step :=
  { lastOutcome := 2, nfLocal := true, nfLoss := true, voteSkip := true, earlyAborted := true, nfReceived := true
    slotsActive := 16 }

theorem test_status_register : m2.status = 0x00102760 := by decide +kernel

/-- Table 2-3: column 14 of F(2,3) after tile P(14,27) is spared. -/
theorem test_column_shift : [21, 22, 23, 24, 25, 26, 27].map (fun y => physOf { repairMap := [(158, 3)] } (48 * y + 14)) =
    [24, 25, 26, 28, 29, 30, 31].map (fun y => 48 * y + 14) := by decide +kernel

/-- The same example: the entry's place in the repair map. -/
theorem test_repair_entry : repairMapValue { repairMap := [(158, 3)] } / 2 ^ 632 % 16 = 3 ∧ fieldColOfPhys (48 * 27 + 14) = 158 := by
  decide +kernel

/-- Table 4-6: the drains of cell 0x3_F808_0001. -/
theorem test_drains : (drainElem 0 (cellVal 0x3F8080001)).1 = leBytes 4 0x3F808000 ∧
    (drainElem 1 (cellVal 0x3F8080001)).1 = leBytes 2 0x3F81 ∧
    (drainElem 0 (fpMulExact (cellVal 0x3F8080001) (fp32.decode 0x40400000))).1 = leBytes 4 0x4040C000 ∧
    (drainElem 1 (fpMulExact (cellVal 0x3F8080001) (fp32.decode 0x40400000))).1 = leBytes 2 0x4041 := by decide +kernel

/-- Worked example of chapter 5: a dropped bit that IEEE addition would keep. -/
theorem test_dropped_bit : cellBits (canvasAdd (cellVal 0x3F8000000)
    (arrayProduct (fp32.decode 0x38800080) (fp32.decode 0x38800080)).1).1 = 0x3F8000000 := by decide +kernel

/-- Table 5-5 and Table 5-6: the operands of the dot product with an overflow and a NaN, in BF16. -/
def dotMem : List Host.Cell :=
  [(0x0, 0xC0), (0x1, 0x3F), (0x21, 0x7F), (0x41, 0xBF), (0x60, 0x40), (0x61, 0x40),
    (0x1001, 0x40), (0x1002, 0x80), (0x1003, 0x3F), (0x1021, 0x41), (0x1022, 0x80), (0x1023, 0x3E),
    (0x1040, 0xA5), (0x1041, 0xFF), (0x1042, 0x80), (0x1043, 0x40), (0x1060, 0x40), (0x1061, 0x3F), (0x1062, 0x80), (0x1063, 0xBF)]
def dotDesc : DenseDesc := ⟨0x0007000300000021, 0, 0, 0, 0, 1, 6, 4, 0, 32, 0x1000, 32, 0, 0, 0x5000, 32, 0, 0x6000, 0⟩

/-- The row that its drain writes. -/
theorem test_dot_product : (match exec (.denseMm here dotDesc) { filling with mem := dotMem } with
    | .next t => tileRead t 0 0x5000 8 | _ => []) = [0x00, 0x00, 0xC0, 0x7F, 0x00, 0x00, 0x00, 0x7E] := by decide +kernel

/-- Table 6-9: the takes of a column with a crowded bank, and the queues of banks 3 and 4 after it. -/
theorem test_crowded_bank : (issueColumn 205 ((List.range 20).map (fun m => 3 + 32 * m) ++ (List.range 20).map (· + 1604))
      (List.replicate 32 0)).1.map List.length = [16, 0, 24] ∧
    ((issueColumn 205 ((List.range 20).map (fun m => 3 + 32 * m) ++ (List.range 20).map (· + 1604)) (List.replicate 32 0)).2.drop 3).take 2 =
      [12, 1] := by decide +kernel

/-- Table 7-8: six layers of 48 pushes, each recomputed by its own forward commands, with 144 body pages and 21 units. -/
def sixLayers : TileProg :=
  { cmds := (List.range 6).flatMap (fun l => TileOp.layer false ⟨BitVec.ofNat 64 l, BitVec.ofNat 16 l, 0x40000, 0, 0, 0, 0⟩ ::
        List.replicate 48 (.push ⟨0, 0, 0, 0x10000, 0, 0, 0⟩)) ++
      (List.range 6).map (fun i => .layer true ⟨0, BitVec.ofNat 16 (5 - i), 0x40000, 0, 0, BitVec.ofNat 32 (64 * (49 * (5 - i) + 1)), 48⟩)
    drainFirst := 294, reduceFirst := 300, backward := ⟨0, 6, 0, 0x400000, 0, 144⟩ }

/-- Worked example of chapter 7: the switch layer is 3 for tiles of 21 and of 20 units. -/
theorem test_switch_layer : largestFeasible sixLayers 21 = some 3 ∧ largestFeasible sixLayers 20 = some 3 := by decide +kernel

/-- Worked example of chapter 8: a first-moment block. -/
theorem test_moment_block : let b := momentBlock ([0x3B400000, 0xB5800000, 0x39080000, 0x33A80000].map fp32.decode ++
      List.replicate 28 Fp.zero)
    b.1.take 4 = [0x7C, 0xA0, 0x58, 0x05] ∧ b.2.1 = 0x6E := by decide +kernel

/-- R206: with GROW_STEPS 2,000 and 1,998 good steps two commits grow LS_EXP from 0x10; a skip backs it off by BACKOFF. -/
theorem test_loss_scale : lsUpdate (lsUpdate 0x07CE07D001200010 false) false = 0x000007D001200011 ∧
    lsUpdate 0x000007D001200011 true = 0x000007D001200010 := by decide +kernel

/-- Table 9-8: three contributions under W = −10, the value two of them truncate to, and the FP32 sum. -/
theorem test_xs96 : toXs96 (-10) (cellVal 0x39C000000) = .ok (3 * 2 ^ 76) ∧
    toXs96 (-10) (cellVal 0xBA0000001) = .ok (-(2 ^ 78 + 2 ^ 51)) ∧ toXs96 (-10) (cellVal 0x93A000000) = .ok (-2) ∧
    toXs96 (-10) (cellVal 0x0E4000000) = .truncated ∧
    (fp32.encode (xs96Value (-10) (-(2 ^ 76 + 2 ^ 51 + 2)))).1 = 0xB9000000 := by decide +kernel

/-- Table 10-2: what the column comparison with B = 40 and K = 256 says of single-bit changes of the cell 1.25. -/
theorem test_bit_flips : [0x3FA004000, 0x3FA400000, 0x1FA000000, 0xBFA000000].map (fun c =>
    (compareFloat 384 21 (cellVal c) (cellVal 0x3FA000000) (.fin false 40 0)).failed) = [0, 1, 1, 1] := by decide +kernel

/-- Barrier 0x0120 of Table 12-5 with a state word. -/
def barrier (word : BitVec 64) (waits : Nat) (l : List Waiter) : State :=
  { filling with
    sync := { objs := [(0x120, { config := 0x202, state := word, waitArrivals := waits })], waiters := l } }

/-- Order 7: the arrival that overruns the barrier, and its state word. -/
theorem test_overrun : (match exec (.arrive ⟨0, 0xA84, 0x120, 0x82, 0, 41⟩) (barrier 0x0000000100020042 0 []) with
    | .next t => ((t.obj 0x120).state, (t.obj 0x120).overrun, t.step.phase, t.arbiter.latched.map (·.code)) | _ => (0, false, .idle, [])) =
    (0x0000000100020042, true, .discarding, [0x6004]) := by decide +kernel

/-- Order 3: the second ARRIVE_WAIT completes the round, and LEAVING counts the two that wait. -/
theorem test_round_completes : (match exec (.arriveWait ⟨0, 9, 0x120, 0x84, 0, 41⟩) (barrier 0x20041 1 [⟨8, 4, 0x120, 0x42⟩]) with
    | .next t => ((t.obj 0x120).state, t.sync.waiters.length, t.rillOut.length) | _ => (0, 9, 9)) = (0x0000000200000042, 0, 2) := by
  decide +kernel

end Sys2Proof.Tests
end

section
/-! The repair map as a bijection of tiles (R36, R37) and the verdict's rule for the loss-scale register (R205, R206). -/

namespace Sys2Proof.Laws

open Sys2Proof.Machine

/-! ### Column shift within one field column (R37) -/

/-- Physical row of logical row `j` in a field column whose repair-map entry is `d`: the row expression of `physOf`. -/
def shiftRow (d j : Nat) : Nat := if d ≤ 6 ∧ d ≤ j then j + 1 else j

/-- Logical row on physical row `row` of such a field column: the row expression of `logicalOf`. -/
def unshiftRow (d row : Nat) : Option Nat :=
  if d ≤ 6 then (if row = d then none else if row < d then some row else some (row - 1))
  else (if row = 7 then none else some row)

theorem shiftRow_lt (d : Nat) {j : Nat} (h : j < 7) : shiftRow d j < 8 := by
  unfold shiftRow; split <;> omega

theorem unshiftRow_shiftRow (d : Nat) {j : Nat} (h : j < 7) : unshiftRow d (shiftRow d j) = some j := by
  unfold unshiftRow shiftRow
  by_cases hd : d ≤ 6
  · by_cases hj : d ≤ j
    · simp [hd, hj, show j + 1 ≠ d by omega, show ¬ j + 1 < d by omega]
    · simp [hd, hj, show j ≠ d by omega, show j < d by omega]
  · simp [hd, show j ≠ 7 by omega]

theorem shiftRow_of_unshiftRow {d row j : Nat} (hr : row < 8) (h : unshiftRow d row = some j) :
    j < 7 ∧ shiftRow d j = row := by
  unfold unshiftRow at h
  unfold shiftRow
  split_ifs at h <;> obtain rfl := Option.some.inj h <;> split_ifs <;> omega

theorem unshiftRow_dead (d : Nat) (h : d < 8) : unshiftRow d d = none := by
  unfold unshiftRow
  by_cases hd : d ≤ 6
  · simp [hd]
  · simp [show d = 7 by omega]

theorem unshiftRow_spare {d : Nat} (h : 6 < d) : unshiftRow d 7 = none := by
  simp [unshiftRow, Nat.not_le.mpr h]

/-! ### The two maps in coordinates -/

theorem physOf_eq (r : Repair) (t : Nat) :
    physOf r t =
      48 * (8 * (rowOf t / 7) + shiftRow (repairEntry r (fieldColOfLogical t)).toNat (rowOf t % 7)) + colOf t := rfl

theorem logicalOf_eq (r : Repair) (p : Nat) :
    logicalOf r p = (unshiftRow (repairEntry r (fieldColOfPhys p)).toNat (rowOf p % 8)).map
      (fun j => 48 * (7 * (rowOf p / 8) + j) + colOf p) := rfl

theorem rowOf_add {x : Nat} (y : Nat) (h : x < 48) : rowOf (48 * y + x) = y := by
  unfold rowOf; omega

theorem colOf_add {x : Nat} (y : Nat) (h : x < 48) : colOf (48 * y + x) = x := by
  unfold colOf; omega

theorem colOf_lt (i : Nat) : colOf i < 48 := Nat.mod_lt _ (by decide)

theorem rowOf_colOf (i : Nat) : 48 * rowOf i + colOf i = i := Nat.div_add_mod i 48

theorem rowOf_physOf (r : Repair) (t : Nat) :
    rowOf (physOf r t) =
      8 * (rowOf t / 7) + shiftRow (repairEntry r (fieldColOfLogical t)).toNat (rowOf t % 7) := by
  rw [physOf_eq, rowOf_add _ (colOf_lt t)]

/-- R36: a logical tile never leaves its physical column. -/
theorem colOf_physOf (r : Repair) (t : Nat) : colOf (physOf r t) = colOf t := by
  rw [physOf_eq, colOf_add _ (colOf_lt t)]

theorem fieldRow_physOf (r : Repair) (t : Nat) : rowOf (physOf r t) / 8 = rowOf t / 7 := by
  have := shiftRow_lt (repairEntry r (fieldColOfLogical t)).toNat (Nat.mod_lt (rowOf t) (by decide : 7 > 0))
  rw [rowOf_physOf]; omega

theorem rowInField_physOf (r : Repair) (t : Nat) :
    rowOf (physOf r t) % 8 = shiftRow (repairEntry r (fieldColOfLogical t)).toNat (rowOf t % 7) := by
  have := shiftRow_lt (repairEntry r (fieldColOfLogical t)).toNat (Nat.mod_lt (rowOf t) (by decide : 7 > 0))
  rw [rowOf_physOf]; omega

/-- R36: a logical tile never leaves its field. -/
theorem fieldOfPhys_physOf (r : Repair) (t : Nat) : fieldOfPhys (physOf r t) = fieldOfLogical t := by
  rw [fieldOfPhys, fieldOfLogical, fieldRow_physOf, colOf_physOf]

theorem fieldColOfPhys_physOf (r : Repair) (t : Nat) : fieldColOfPhys (physOf r t) = fieldColOfLogical t := by
  rw [fieldColOfPhys, fieldColOfLogical, fieldOfPhys_physOf, colOf_physOf]

/-- The module holds 7 rows of fields, so both indices are in range together. -/
theorem physOf_lt_iff (r : Repair) (t : Nat) : physOf r t < 2688 ↔ t < 2352 := by
  have h := fieldRow_physOf r t
  unfold rowOf at h
  omega

theorem logicalOf_physOf (r : Repair) (t : Nat) : logicalOf r (physOf r t) = some t := by
  have hrow : 7 * (rowOf t / 7) + rowOf t % 7 = rowOf t := Nat.div_add_mod _ 7
  rw [logicalOf_eq, fieldColOfPhys_physOf, rowInField_physOf, unshiftRow_shiftRow _ (Nat.mod_lt _ (by decide)),
    fieldRow_physOf, colOf_physOf, Option.map_some, hrow, rowOf_colOf]

theorem physOf_of_logicalOf {r : Repair} {p t : Nat} (h : logicalOf r p = some t) : physOf r t = p := by
  rw [logicalOf_eq, Option.map_eq_some_iff] at h
  obtain ⟨j, hj, rfl⟩ := h
  obtain ⟨hj7, hshift⟩ := shiftRow_of_unshiftRow (Nat.mod_lt _ (by decide)) hj
  have hfield : (7 * (rowOf p / 8) + j) / 7 = rowOf p / 8 := by omega
  have hrow : (7 * (rowOf p / 8) + j) % 7 = j := by omega
  have hcol : fieldColOfLogical (48 * (7 * (rowOf p / 8) + j) + colOf p) = fieldColOfPhys p := by
    rw [fieldColOfLogical, fieldOfLogical, rowOf_add _ (colOf_lt p), colOf_add _ (colOf_lt p), hfield]; rfl
  rw [physOf_eq, hcol, rowOf_add _ (colOf_lt p), colOf_add _ (colOf_lt p), hfield, hrow, hshift, Nat.div_add_mod,
    rowOf_colOf]

/-- R37: the dead tile of a field column holds no logical tile. -/
theorem logicalOf_dead {r : Repair} {p : Nat} (h : (repairEntry r (fieldColOfPhys p)).toNat = rowOf p % 8) :
    logicalOf r p = none := by
  rw [logicalOf_eq, h, unshiftRow_dead _ (Nat.mod_lt _ (by decide)), Option.map_none]

/-- R36: without a column shift the spare holds no logical tile. -/
theorem logicalOf_spare {r : Repair} {p : Nat} (h : 6 < (repairEntry r (fieldColOfPhys p)).toNat)
    (hp : rowOf p % 8 = 7) : logicalOf r p = none := by
  rw [logicalOf_eq, hp, unshiftRow_spare h, Option.map_none]

/-! ### The loss-scale register (R205, R206) -/

theorem lsPack_toNat (v : BitVec 64) (e g : Nat) :
    (lsPack v e g).toNat = e % 256 + (v.toNat % 2 ^ 48 / 256) * 256 + g % 65536 * 2 ^ 48 := by
  rw [lsPack, BitVec.toNat_ofNat]
  exact Nat.mod_eq_of_lt (by omega)

theorem lsExp_lsPack (v : BitVec 64) {e : Nat} (g : Nat) (h : e < 256) : lsField (lsPack v e g) 7 0 = e := by
  rw [lsField, bitsOf, lsPack_toNat, Nat.shiftRight_eq_div_pow]; omega

theorem goodSteps_lsPack (v : BitVec 64) (e : Nat) {g : Nat} (h : g < 65536) : lsField (lsPack v e g) 63 48 = g := by
  rw [lsField, bitsOf, lsPack_toNat, Nat.shiftRight_eq_div_pow]; omega

/-- MIN_EXP, MAX_EXP, BACKOFF and GROWTH_INTERVAL lie in bits 47 to 8 (Table 8-9). -/
theorem hostBits_lsPack (v : BitVec 64) (e g : Nat) : bitsOf (lsPack v e g).toNat 47 8 = bitsOf v.toNat 47 8 := by
  rw [bitsOf, bitsOf, lsPack_toNat, Nat.shiftRight_eq_div_pow, Nat.shiftRight_eq_div_pow]; omega

theorem bitsOf_bitsOf (v lo b a : Nat) {hi : Nat} (h : lo + b ≤ hi) :
    bitsOf (bitsOf v hi lo) b a = bitsOf v (lo + b) (lo + a) := by
  refine Nat.eq_of_testBit_eq fun i => ?_
  simp only [bitsOf, Nat.testBit_mod_two_pow, Nat.testBit_shiftRight, Nat.add_assoc]
  by_cases hin : i < b + 1 - a
  · have hmid : a + i < hi + 1 - lo := by omega
    have hout : i < lo + (b + 1) - (lo + a) := by omega
    simp only [hin, hmid, hout, decide_true, Bool.true_and]
  · have hout : ¬ i < lo + (b + 1) - (lo + a) := by omega
    simp only [hin, hout, decide_false, Bool.false_and]

/-- Bits 47 to 8 are the host's: a field that lies in them reads the same after the exponent and GOOD_STEPS are set. -/
theorem hostField_lsPack (v : BitVec 64) (e g b a : Nat) (h : b ≤ 39) :
    lsField (lsPack v e g) (8 + b) (8 + a) = lsField v (8 + b) (8 + a) := by
  rw [lsField, lsField, ← bitsOf_bitsOf (hi := 47) _ 8 b a (by omega), hostBits_lsPack, bitsOf_bitsOf _ _ _ _ (by omega)]

theorem lsValid_iff (v : BitVec 64) : lsValid v = true ↔
    lsField v 15 8 ≤ lsField v 7 0 ∧ lsField v 7 0 ≤ lsField v 23 16 ∧ lsField v 23 16 ≤ 0x28 ∧
      1 ≤ lsField v 31 24 ∧ lsField v 31 24 ≤ 8 := by
  simp only [lsValid, Bool.and_eq_true, decide_eq_true_eq, and_assoc]

theorem lsValid_lsPack {v : BitVec 64} {e : Nat} (g : Nat) (hv : lsValid v = true)
    (hlo : lsField v 15 8 ≤ e) (hhi : e ≤ lsField v 23 16) : lsValid (lsPack v e g) = true := by
  obtain ⟨-, -, hmax, hback⟩ := (lsValid_iff v).mp hv
  have hmin := hostField_lsPack v e g 7 0 (by decide)
  have hceil := hostField_lsPack v e g 15 8 (by decide)
  have hoff := hostField_lsPack v e g 23 16 (by decide)
  have hexp := lsExp_lsPack v g (show e < 256 by omega)
  rw [lsValid_iff, hmin, hceil, hoff, hexp]
  exact ⟨hlo, hhi, hmax, hback⟩

/-- What the register reads as once an exponent within the host's bounds and a new GOOD_STEPS are set. -/
theorem lsPack_reads {v : BitVec 64} {e g : Nat} (hv : lsValid v = true) (hlo : lsField v 15 8 ≤ e)
    (hhi : e ≤ lsField v 23 16) (hg : g < 65536) :
    lsValid (lsPack v e g) = true ∧ bitsOf (lsPack v e g).toNat 47 8 = bitsOf v.toNat 47 8 ∧
      lsField (lsPack v e g) 7 0 = e ∧ lsField (lsPack v e g) 63 48 = g := by
  obtain ⟨-, -, hmax, -⟩ := (lsValid_iff v).mp hv
  exact ⟨lsValid_lsPack g hv hlo hhi, hostBits_lsPack v e g, lsExp_lsPack v g (by omega), goodSteps_lsPack v e hg⟩

theorem lsUpdate_skip (v : BitVec 64) :
    lsUpdate v true = lsPack v (max (lsField v 15 8) (lsField v 7 0 - lsField v 31 24)) 0 := rfl

theorem lsUpdate_grow {v : BitVec 64} (hg : lsField v 47 32 ≠ 0 ∧ lsField v 47 32 ≤ min (lsField v 63 48 + 1) 0xFFFF) :
    lsUpdate v false = lsPack v (min (lsField v 23 16) (lsField v 7 0 + 1)) 0 := by
  simp only [lsUpdate, Bool.false_eq_true, if_false, if_pos hg]

theorem lsUpdate_hold {v : BitVec 64} (hg : ¬ (lsField v 47 32 ≠ 0 ∧ lsField v 47 32 ≤ min (lsField v 63 48 + 1) 0xFFFF)) :
    lsUpdate v false = lsPack v (lsField v 7 0) (min (lsField v 63 48 + 1) 0xFFFF) := by
  simp only [lsUpdate, Bool.false_eq_true, if_false, if_neg hg]

/-! ### The obligation -/

/-- Settles O60: `logicalOf` inverts `physOf` on both sides by the row maps of one field column, and each verdict sets an exponent
within the host's bounds. -/
theorem mapsAndScales : Obligations.MapsAndScales := by
  unfold Obligations.MapsAndScales
  refine ⟨fun r t ht => ?_, fun r p t hp h => ?_, fun r p _ => ⟨logicalOf_dead, logicalOf_spare⟩, fun v hv skip => ?_⟩
  · exact ⟨physOf_eq r t, (physOf_lt_iff r t).mpr ht, fieldOfPhys_physOf r t, logicalOf_physOf r t⟩
  · have hphys := physOf_of_logicalOf h
    exact ⟨(physOf_lt_iff r t).mp (hphys ▸ hp), hphys⟩
  · obtain ⟨hmin, hmax, -⟩ := (lsValid_iff v).mp hv
    cases skip with
    | true =>
      obtain ⟨hvalid, hhost, hexp, hgood⟩ := lsPack_reads hv (Nat.le_max_left _ _)
        (by omega : max (lsField v 15 8) (lsField v 7 0 - lsField v 31 24) ≤ lsField v 23 16) (g := 0) (by decide)
      rw [lsUpdate_skip]
      exact ⟨hvalid, hhost, fun _ => ⟨hexp, hgood⟩, nofun⟩
    | false =>
      by_cases hg : lsField v 47 32 ≠ 0 ∧ lsField v 47 32 ≤ min (lsField v 63 48 + 1) 0xFFFF
      · obtain ⟨hvalid, hhost, hexp, hgood⟩ := lsPack_reads hv
          (by omega : lsField v 15 8 ≤ min (lsField v 23 16) (lsField v 7 0 + 1)) (Nat.min_le_left _ _) (g := 0) (by decide)
        rw [lsUpdate_grow hg]
        exact ⟨hvalid, hhost, nofun, fun _ => ⟨hexp.trans (if_pos hg).symm, hgood.trans (if_pos hg).symm⟩⟩
      · obtain ⟨hvalid, hhost, hexp, hgood⟩ := lsPack_reads hv hmin hmax
          (by omega : min (lsField v 63 48 + 1) 0xFFFF < 65536)
        rw [lsUpdate_hold hg]
        exact ⟨hvalid, hhost, nofun, fun _ => ⟨hexp.trans (if_neg hg).symm, hgood.trans (if_neg hg).symm⟩⟩

end Sys2Proof.Laws
end

section
/-! What a tile command does when its sequencer issues it and nothing is detected: which records and bytes move. -/

namespace Sys2Proof.Laws

open Sys2Proof.Machine Sys2Proof.Safety

/-! ### Bytes of a number -/

@[simp] theorem length_leBytes : ∀ n v : Nat, (leBytes n v).length = n
  | 0, _ => rfl
  | n + 1, v => by simp [leBytes, length_leBytes n]

theorem ofLE_leBytes : ∀ n v : Nat, ofLE (leBytes n v) = v % 256 ^ n
  | 0, v => by simp [leBytes, ofLE, Nat.mod_one]
  | n + 1, v => by
    rw [leBytes, ofLE, ofLE_leBytes n, Nat.pow_succ', Nat.mod_mul]
    simp

/-- A number written little-endian reads back. -/
theorem rdLE_wrBytes_leBytes {m : List Host.Cell} (w : Memory.wf m = true) (a : Nat) {n v : Nat} (h : v < 256 ^ n) :
    rdLE (wrBytes m a (leBytes n v)) a n = v := by
  have hread := rdBytes_wrBytes_same (a := a) (leBytes n v) w
  rw [length_leBytes] at hread
  rw [rdLE, hread, ofLE_leBytes, Nat.mod_eq_of_lt h]

/-! ### The record of a tile after each update -/

section
variable {s u : State} {p q : Nat}

theorem tileOf_congr (h : u.tiles = s.tiles) : tileOf u q = tileOf s q := by rw [tileOf, tileOf, h]

theorem tilesWf_updTile (f : Tile → Tile) (w : smWf {} 0 s.tiles = true) : smWf {} 0 (s.updTile p f).tiles = true :=
  smPut_wf (Nat.zero_le p) w

theorem tileOf_updTile_same (f : Tile → Tile) (w : smWf {} 0 s.tiles = true) :
    tileOf (s.updTile p f) p = f (tileOf s p) := smGet_smPut_same w

theorem tileOf_updTile_other (f : Tile → Tile) (w : smWf {} 0 s.tiles = true) (h : q ≠ p) :
    tileOf (s.updTile p f) q = tileOf s q := smGet_smPut_other h w

theorem cmdStart_tiles (s : State) (p unit opcode : Nat) (cid : BitVec 64) : (s.cmdStart p unit opcode cid).tiles =
    ((s.updTile p (fun x => { x with issued := x.issued + 1 })).startUnit p unit cid).tiles := by
  rw [State.cmdStart, State.traceAt_tiles]

theorem tilesWf_cmdStart (unit opcode : Nat) (cid : BitVec 64) (w : smWf {} 0 s.tiles = true) :
    smWf {} 0 (s.cmdStart p unit opcode cid).tiles = true := by
  rw [cmdStart_tiles]
  exact tilesWf_updTile _ (tilesWf_updTile _ w)

theorem tileOf_cmdStart_same (unit opcode : Nat) (cid : BitVec 64) (w : smWf {} 0 s.tiles = true) :
    ∃ n cs, tileOf (s.cmdStart p unit opcode cid) p = { tileOf s p with
      issued := n
      counters := cs } := by
  rw [tileOf_congr (cmdStart_tiles s p unit opcode cid), State.startUnit, tileOf_updTile_same _ (tilesWf_updTile _ w),
    tileOf_updTile_same _ w]
  exact ⟨_, _, rfl⟩

theorem tileOf_cmdStart_other (unit opcode : Nat) (cid : BitVec 64) (w : smWf {} 0 s.tiles = true) (h : q ≠ p) :
    tileOf (s.cmdStart p unit opcode cid) q = tileOf s q := by
  rw [tileOf_congr (cmdStart_tiles s p unit opcode cid), State.startUnit, tileOf_updTile_other _ (tilesWf_updTile _ w) h,
    tileOf_updTile_other _ w h]

theorem tileOf_cmdEnd_other (cid : BitVec 64) (status : Code) (flags : Nat) (w : smWf {} 0 s.tiles = true) (h : q ≠ p) :
    tileOf (s.cmdEnd p cid status flags) q = tileOf s q := by
  rw [State.cmdEnd, tileOf_congr (State.traceAt_tiles ..), tileOf_updTile_other (s := s.draw.2) _ w h,
    tileOf_congr s.draw_tiles]

@[simp] theorem cmdEnd_draws (s : State) (p : Nat) (cid : BitVec 64) (status : Code) (flags : Nat) :
    (s.cmdEnd p cid status flags).draws = s.draws + 1 := by
  rw [State.cmdEnd, State.traceAt_draws, State.updTile_draws, State.draw]

/-! ### Reads and faults that see only part of the state -/

theorem readArray_congr (h : u.mem = s.mem) (a : Nat) : readArray u p a = readArray s p a := by
  simp only [readArray, tileNum, h]

theorem hitsOpenArray_cmdStart (unit opcode : Nat) (cid : BitVec 64) (w : smWf {} 0 s.tiles = true) (a n : Nat) :
    hitsOpenArray (s.cmdStart p unit opcode cid) p a n = hitsOpenArray s p a n := by
  obtain ⟨k, cs, ht⟩ := tileOf_cmdStart_same (p := p) unit opcode cid w
  have harr (x : Nat) := readArray_congr (p := p) (s.cmdStart_mem p unit opcode cid) x
  simp only [hitsOpenArray, ht, harr]

theorem writeFault_cmdStart (unit opcode : Nat) (cid : BitVec 64) (w : smWf {} 0 s.tiles = true) (a n : Nat) :
    writeFault (s.cmdStart p unit opcode cid) p a n = writeFault s p a n := by
  simp only [writeFault, hitsOpenArray_cmdStart unit opcode cid w, State.cmdStart_variant]

theorem shardRead_congr (hm : u.mem = s.mem) (hp : u.pages = s.pages) (hr : u.repair = s.repair) (next : Bool) (t off n : Nat) :
    u.shardRead next t off n = s.shardRead next t off n := by
  simp only [State.shardRead, State.pageOf, State.entry, State.gen, tileRead, hm, hp, hr]

/-! ### A unit without a detection -/

/-- A refire unit that nothing detects anything in and no window has marked is settled at once. -/
theorem settleShard_clean {t : Site} {lps : List Nat} {x : RefireUnit} (hd : t.det = []) (hs : t.suspect = [])
    (hm : x.marked = false) (hc : x.computed = []) : s.settleShard t p lps x = (s, x.done, 0) := by
  have hset : s.settle t p x = (s, x.done, 0) := by
    simp [State.settle, attempts, hd, hs, hm, hc, State.refireAll]
  simp [State.settleShard, hset]

theorem readDetections_clean (h : s.checks = []) (reads : List Span) : readDetections s p reads = [] := by
  simp [readDetections, h]

/-- A tile command that runs and whose body ends without a status: it is started, its body's work stands, and it is ended. -/
theorem tileCmd_ends {t : Site} {during : List Phase} (hr : Runs t s during) (hp : physOf s.repair t.tile = p) {cid : BitVec 64}
    {opcode unit flags : Nat} {body : Site → Nat → State → Done}
    (hb : body t p (s.cmdStart p unit opcode cid) = { state := u, flags := flags }) :
    tileCmd t cid opcode unit none body s during = .next ((u.cmdEnd p cid 0 flags).sendBound t.tile cid) := by
  obtain ⟨htile, hissues, -, -, -, hpoison⟩ := hr
  have hclean : (s.cmdStart p unit opcode cid).consumePoison t cid = (s.cmdStart p unit opcode cid, t) := by
    simp [State.consumePoison, poisonedFor, hpoison]
  simp [tileCmd, show ¬ logicalTiles ≤ t.tile from Nat.not_le.mpr htile, hissues, hp, hclean, hb]

end

/-! ### Masks as numbers (R149) -/

/-- The mask of a predicate below position `n` has its bits there, and no others. -/
theorem foldl_pow_testBit (f : Nat → Bool) (n : Nat) :
    let m := (List.range n).foldl (fun m k => if f k then m + 2 ^ k else m) 0
    m < 2 ^ n ∧ ∀ k, k < n → m.testBit k = f k := by
  induction n with
  | zero => exact ⟨Nat.one_pos, fun k hk => absurd hk (Nat.not_lt_zero k)⟩
  | succ n ih =>
    obtain ⟨hlt, hbits⟩ := ih
    simp only [List.range_succ, List.foldl_append, List.foldl_cons, List.foldl_nil]
    generalize (List.range n).foldl (fun m k => if f k then m + 2 ^ k else m) 0 = m at hlt hbits
    have hold : m.testBit n = false := Nat.testBit_lt_two_pow hlt
    by_cases hf : f n = true
    · simp only [hf, if_true]
      refine ⟨by rw [Nat.pow_succ]; omega, fun k hk => ?_⟩
      rw [Nat.add_comm]
      obtain hk | rfl := Nat.lt_succ_iff_lt_or_eq.mp hk
      · rw [Nat.testBit_two_pow_add_gt hk, hbits k hk]
      · rw [Nat.testBit_two_pow_add_eq, hold, hf, Bool.not_false]
    · simp only [hf, Bool.false_eq_true, if_false]
      refine ⟨by rw [Nat.pow_succ]; omega, fun k hk => ?_⟩
      obtain hk | rfl := Nat.lt_succ_iff_lt_or_eq.mp hk
      · exact hbits k hk
      · rw [hold, Bool.eq_false_iff.mpr hf]

theorem maskOf_lt (f : Nat → Bool) : maskOf f < 2 ^ 16384 := (foldl_pow_testBit f 16384).1

theorem testBit_maskOf (f : Nat → Bool) {k : Nat} (h : k < 16384) : (maskOf f).testBit k = f k :=
  (foldl_pow_testBit f 16384).2 k h

end Sys2Proof.Laws
end

section
/-! Writes to the logical shard: they move memories and page tables only, and look at neither tile records nor the trace (R197). -/

namespace Sys2Proof.Laws

open Sys2Proof.Machine Sys2Proof.Safety

/-! ### The parts of a write -/

/-- A page of the tile's slab filled with a copy of the committed page of `lp`, where there is one: the first half of a first touch. -/
def copyCommitted (t lp page : Nat) (s : State) : State :=
  match committedSlot s.gen (s.entry t lp) with
  | some i => s.tileWrite (physOf s.repair t) (pageAddr page 0)
      (tileRead s (physOf s.repair t) (pageAddr (slotOf (s.entry t lp) i).page 0) pageBytes)
  | none => s

/-- A page's entry replaced, and the page given a staging place when it is owed: the second half of a first touch. -/
def placeEntry (t lp : Nat) (x : BitVec 64) (owed : Bool) (s : State) : State :=
  if owed then { s.setEntry t lp x with pages := { (s.setEntry t lp x).pages with
    placed := (s.setEntry t lp x).pages.placed ++ [pageKey t lp] } } else s.setEntry t lp x

/-- The entry of a page after its first touch. -/
def touchedEntry (s : State) (t lp : Nat) : BitVec 64 :=
  putSlot (s.entry t lp) (if (slotOf (s.entry t lp) 0).valid then 1 else 0)
    ⟨(s.freePages t).headD 0, true, tagOf (s.gen + 1)⟩

theorem firstTouch_eq (s : State) (t lp : Nat) : s.firstTouch t lp =
    placeEntry t lp (touchedEntry s t lp) (s.pages.owed.contains (pageKey t lp))
      (copyCommitted t lp ((s.freePages t).headD 0) s) := rfl

/-- One piece of a write to the logical shard. -/
def storePiece (t off : Nat) (b : Bytes) (s : State) (x : Nat × Nat × Nat) : State :=
  let s1 := if s.untouched t x.1 then s.firstTouch t x.1 else s
  match s1.pageOf true t x.1 with
  | some page => s1.tileWrite (physOf s.repair t) (pageAddr page x.2.1) ((b.drop (x.1 * pageBytes + x.2.1 - off)).take x.2.2)
  | none => s1

theorem shardWrite_eq_foldl (s : State) (t off : Nat) (b : Bytes) :
    s.shardWrite t off b = (pieces off b.length).foldl (storePiece t off b) s := rfl

/-- Several writes to the logical shard, in order. -/
def shardWrites (t : Nat) (l : List (Nat × Bytes)) (s : State) : State := l.foldl (fun s x => s.shardWrite t x.1 x.2) s

/-! ### What a write does not look at -/

/-- The state with other tile records and another trace. -/
def retile (ts : SMap Tile) (tr : Trace) (s : State) : State := { s with
  tiles := ts
  trace := tr }

section
variable (ts : SMap Tile) (tr : Trace) (t : Nat) (s : State)

theorem tileWrite_retile (p a : Nat) (b : Bytes) : (retile ts tr s).tileWrite p a b = retile ts tr (s.tileWrite p a b) := rfl

theorem copyCommitted_retile (lp page : Nat) :
    copyCommitted t lp page (retile ts tr s) = retile ts tr (copyCommitted t lp page s) := by
  have hslot : committedSlot (retile ts tr s).gen ((retile ts tr s).entry t lp) = committedSlot s.gen (s.entry t lp) := rfl
  have hread (p a n : Nat) : tileRead (retile ts tr s) p a n = tileRead s p a n := rfl
  rw [copyCommitted, copyCommitted, hslot]
  cases committedSlot s.gen (s.entry t lp) with
  | none => rfl
  | some i =>
    dsimp only
    rw [hread, tileWrite_retile]
    rfl

theorem placeEntry_retile (lp : Nat) (x : BitVec 64) (owed : Bool) :
    placeEntry t lp x owed (retile ts tr s) = retile ts tr (placeEntry t lp x owed s) := by
  cases owed <;> rfl

theorem firstTouch_retile (lp : Nat) : (retile ts tr s).firstTouch t lp = retile ts tr (s.firstTouch t lp) := by
  have hentry : touchedEntry (retile ts tr s) t lp = touchedEntry s t lp := rfl
  have howed : (retile ts tr s).pages.owed = s.pages.owed := rfl
  have hfree : (retile ts tr s).freePages t = s.freePages t := rfl
  rw [firstTouch_eq, firstTouch_eq, hentry, howed, hfree, copyCommitted_retile, placeEntry_retile]

theorem storePiece_retile (off : Nat) (b : Bytes) (x : Nat × Nat × Nat) :
    storePiece t off b (retile ts tr s) x = retile ts tr (storePiece t off b s x) := by
  have hfirst : (if (retile ts tr s).untouched t x.1 then (retile ts tr s).firstTouch t x.1 else retile ts tr s) =
      retile ts tr (if s.untouched t x.1 then s.firstTouch t x.1 else s) := by
    rw [firstTouch_retile]
    exact (apply_ite (retile ts tr) ..).symm
  rw [storePiece, storePiece, hfirst]
  generalize (if s.untouched t x.1 then s.firstTouch t x.1 else s) = s1
  have hpage : (retile ts tr s1).pageOf true t x.1 = s1.pageOf true t x.1 := rfl
  rw [hpage]
  cases s1.pageOf true t x.1 <;> rfl

theorem shardWrites_retile (l : List (Nat × Bytes)) :
    shardWrites t l (retile ts tr s) = retile ts tr (shardWrites t l s) :=
  List.foldl_hom (retile ts tr) (fun _ x => List.foldl_hom (retile ts tr) (fun s y => storePiece_retile ts tr t s x.1 x.2 y))

end

/-! ### What a write moves -/

/-- From `s` to `e` only memories and page tables have moved. -/
def StoredOnly (s e : State) : Prop := e = { s with
  mem := e.mem
  pages := e.pages }

section
variable {s e f : State} (t : Nat)

theorem StoredOnly.refl (s : State) : StoredOnly s s := rfl

theorem StoredOnly.trans (h : StoredOnly s e) (k : StoredOnly e f) : StoredOnly s f := by
  rw [StoredOnly] at h k ⊢
  rw [k, h]

theorem StoredOnly.checks (h : StoredOnly s e) : e.checks = s.checks := by
  rw [StoredOnly] at h
  rw [h]

/-- A write to a tile's stores whose lines all pass their checks changes the memory alone. -/
theorem tileWrite_clean (h : s.checks = []) (p a : Nat) (b : Bytes) :
    s.tileWrite p a b = { s with mem := wrBytes s.mem (memKey p a) b } := by
  have hcure : cureLines s.checks (memKey p a) (memKey p a + b.length) = s.checks := by rw [h]; rfl
  rw [State.tileWrite, hcure]

theorem storedOnly_tileWrite (h : s.checks = []) (p a : Nat) (b : Bytes) : StoredOnly s (s.tileWrite p a b) := by
  rw [tileWrite_clean h]
  rfl

theorem storedOnly_copyCommitted (h : s.checks = []) (lp page : Nat) : StoredOnly s (copyCommitted t lp page s) := by
  rw [copyCommitted]
  split
  · exact storedOnly_tileWrite h ..
  · exact .refl s

theorem storedOnly_placeEntry (s : State) (lp : Nat) (x : BitVec 64) (owed : Bool) :
    StoredOnly s (placeEntry t lp x owed s) := by
  cases owed <;> rfl

theorem storedOnly_firstTouch (h : s.checks = []) (lp : Nat) : StoredOnly s (s.firstTouch t lp) := by
  rw [firstTouch_eq]
  exact (storedOnly_copyCommitted t h ..).trans (storedOnly_placeEntry ..)

theorem storedOnly_storePiece (off : Nat) (b : Bytes) (x : Nat × Nat × Nat) (h : s.checks = []) :
    StoredOnly s (storePiece t off b s x) := by
  have hfirst : StoredOnly s (if s.untouched t x.1 then s.firstTouch t x.1 else s) := by
    split
    · exact storedOnly_firstTouch t h x.1
    · exact .refl s
  rw [storePiece]
  generalize (if s.untouched t x.1 then s.firstTouch t x.1 else s) = s1 at hfirst
  split
  · exact hfirst.trans (storedOnly_tileWrite (hfirst.checks.trans h) ..)
  · exact hfirst

theorem storedOnly_foldl {α : Type} {g : State → α → State} (hg : ∀ x {s}, s.checks = [] → StoredOnly s (g s x)) :
    ∀ (l : List α) {s : State}, s.checks = [] → StoredOnly s (l.foldl g s)
  | [], _, _ => .refl _
  | x :: r, _, h => (hg x h).trans (storedOnly_foldl hg r ((hg x h).checks.trans h))

theorem storedOnly_shardWrite (off : Nat) (b : Bytes) (h : s.checks = []) : StoredOnly s (s.shardWrite t off b) :=
  storedOnly_foldl (fun x _ => storedOnly_storePiece t off b x) _ h

theorem storedOnly_shardWrites (l : List (Nat × Bytes)) (h : s.checks = []) : StoredOnly s (shardWrites t l s) :=
  storedOnly_foldl (α := Nat × Bytes) (fun x _ => storedOnly_shardWrite t x.1 x.2) l h

/-- A command that does nothing but write to its tile's stores. -/
theorem ranOn_tileWrite (hw : smWf {} 0 s.tiles = true) (h : s.checks = []) (p unit opcode : Nat) (cid : BitVec 64) (a : Nat)
    (b : Bytes) (status : Code) (flags : Nat) :
    RanOn p s (((s.cmdStart p unit opcode cid).tileWrite p a b).cmdEnd p cid status flags) := by
  have hclean := tileWrite_clean ((State.cmdStart_checks s p unit opcode cid).trans h) p a b
  have hwf : smWf {} 0 ((s.cmdStart p unit opcode cid).tileWrite p a b).tiles = true := tilesWf_cmdStart _ _ _ hw
  refine ⟨State.eq_of_fields (by simp [hclean]), fun q hq => ?_⟩
  rw [tileOf_cmdEnd_other _ _ _ hwf hq, tileOf_congr (State.tileWrite_tiles ..),
    tileOf_cmdStart_other _ _ _ hw hq]

/-! ### A first touch that waits -/

/-- A wait for a free page is a Notice that is counted only: the tile marks it, and a STATUS record is traced. -/
theorem touchWait_eq (s : State) (t : Nat) (cid : BitVec 64) : s.touchWait t cid =
    (s.updTile (physOf s.repair t) (fun x => { x with touching := true })).traceAt 4 false
      (BitVec.ofNat 12 (physOf s.repair t)) cid (0x3201 + 65536) := by
  simp [State.touchWait, State.raise, severityOf, moduleFatalCodes, stepFatalCodes, recoverableCodes, noticeCodes,
    countedOnlyCodes, State.noteDeath]

theorem touchWait_tiles {p : Nat} (hp : physOf s.repair t = p) (hw : smWf {} 0 s.tiles = true) (cid : BitVec 64) :
    tileOf (s.touchWait t cid) p = { tileOf s p with touching := true } ∧
      ∀ q, q ≠ p → tileOf (s.touchWait t cid) q = tileOf s q := by
  rw [touchWait_eq, hp]
  refine ⟨?_, fun q hq => ?_⟩
  · rw [tileOf_congr (State.traceAt_tiles ..), tileOf_updTile_same _ hw]
  · rw [tileOf_congr (State.traceAt_tiles ..), tileOf_updTile_other _ hw hq]

theorem touchWait_frame (s : State) (t : Nat) (cid : BitVec 64) : s.touchWait t cid = { s with
    tiles := (s.touchWait t cid).tiles
    trace := (s.touchWait t cid).trace } := by
  rw [touchWait_eq]
  exact State.eq_of_fields (by simp)

/-! ### A command that has waited for its first touches -/

/-- The state in which the body of a command that touches pages does its work: the command is started, and its wait is over. -/
def startTouched (p unit opcode : Nat) (cid : BitVec 64) (s : State) : State :=
  (s.cmdStart p unit opcode cid).updTile p (fun x => { x with touching := false })

theorem startTouched_eq (s : State) (p unit opcode : Nat) (cid : BitVec 64) :
    ∃ tr, startTouched p unit opcode cid s = retile (startTouched p unit opcode cid s).tiles tr s :=
  ⟨(startTouched p unit opcode cid s).trace, State.eq_of_fields (by simp [startTouched, retile])⟩

theorem tilesWf_startTouched {p : Nat} (unit opcode : Nat) (cid : BitVec 64) (hw : smWf {} 0 s.tiles = true) :
    smWf {} 0 (startTouched p unit opcode cid s).tiles = true := tilesWf_updTile _ (tilesWf_cmdStart _ _ _ hw)

theorem tileOf_startTouched_other {p q : Nat} (unit opcode : Nat) (cid : BitVec 64) (hw : smWf {} 0 s.tiles = true) (hq : q ≠ p) :
    tileOf (startTouched p unit opcode cid s) q = tileOf s q :=
  (tileOf_updTile_other _ (tilesWf_cmdStart _ _ _ hw) hq).trans (tileOf_cmdStart_other _ _ _ hw hq)

end
end Sys2Proof.Laws
end

section
/-! PRUNE, REGROW and MASK_COMMIT (R149 to R152, R197). -/

namespace Sys2Proof.Laws

open Sys2Proof.Machine Sys2Proof.Safety

/-! ### Pending masks (R150, R151) -/

/-- No magnitude lies below +0. -/
theorem fpLt_abs_zero (x : Fp) (e : Int) : fpLt x.abs (.fin false 0 e) = false := by
  cases x with
  | nan => rfl
  | inf n => rfl
  | fin n m f => simp [Fp.abs, fpLt, truncUnits, signedUnits]

/-- A threshold of +0 keeps the whole mask (R150). -/
theorem thresholdKeeps_zero (x : Fp) : (x.isNan || (!(fp32.decode 0).isNan && !fpLt x.abs (fp32.decode 0))) = true := by
  have hzero : fp32.decode 0 = .fin false 0 (-149) := by decide
  rw [hzero, fpLt_abs_zero]
  simp [Fp.isNan]

section
variable {t : Site} {s : State} {p : Nat} {d : MaskDesc} {now : Bytes}

/-- A mask command whose unit is clean and whose addresses hold writes its pending mask, and no other byte. -/
theorem maskPending_runs {opcode op : Nat} {make : State → Nat → Nat → Nat} {f : Nat → Bool} (hc : Canonical s) (hr : Runs t s)
    (hp : physOf s.repair t.tile = p) (hcheck : maskCheck op d = none) (hnow : s.shardRead false t.tile d.maskBase.toNat 2048 = some now)
    (hread : readFault s d.valuesBase.toNat (maskValueBytes d) = none)
    (hwrite : writeFault s p d.pendingBase.toNat 2048 = none)
    (hmake : ∀ u : State, u.mem = s.mem → make u p (ofLE now) = maskOf f) :
    ∃ e : State, maskPending t d opcode op make s = .next (e.sendBound t.tile d.cid) ∧ RanOn p s e ∧
      (∀ k, k < 16384 → (tileNum e p d.pendingBase.toNat 2048).testBit k = f k) ∧
      ∀ a, a < memKey p d.pendingBase.toNat ∨ memKey p d.pendingBase.toNat + 2048 ≤ a → rdByte e.mem a = rdByte s.mem a := by
  obtain ⟨hmem, htiles, -⟩ := hc
  have ⟨_, _, hdet, hsus, hchecks, _⟩ := hr
  have hfits : maskOf f < 256 ^ 2048 := lt_of_lt_of_eq (maskOf_lt f) (by rw [show 256 = 2 ^ 8 from rfl, ← pow_mul])
  refine ⟨((s.cmdStart p 2 opcode d.cid).tileWrite p d.pendingBase.toNat (leBytes 2048 (maskOf f))).cmdEnd p d.cid 0 0,
    ?_, ranOn_tileWrite htiles hchecks .., fun k hk => ?_, fun a ha => ?_⟩
  · rw [maskPending, hcheck]
    refine tileCmd_ends hr hp ?_
    have hnow' : (s.cmdStart p 2 opcode d.cid).shardRead false t.tile d.maskBase.toNat 2048 = some now :=
      (shardRead_congr (State.cmdStart_mem ..) (State.cmdStart_pages ..) (State.cmdStart_repair ..) ..).trans hnow
    have hread' : readFault (s.cmdStart p 2 opcode d.cid) d.valuesBase.toNat (maskValueBytes d) = none := by
      rw [readFault, State.cmdStart_variant]
      exact hread
    have hwrite' : writeFault (s.cmdStart p 2 opcode d.cid) p d.pendingBase.toNat 2048 = none :=
      (writeFault_cmdStart 2 opcode d.cid htiles ..).trans hwrite
    have hclean (reads : List Span) :=
      readDetections_clean (p := p) ((State.cmdStart_checks s p 2 opcode d.cid).trans hchecks) reads
    have hset (lps : List Nat) (out : Bytes) := settleShard_clean (s := s.cmdStart p 2 opcode d.cid) (p := p) (lps := lps)
      (x := { block := 7, cid := d.cid, result := out }) hdet hsus rfl rfl
    simp only [hnow', hread', hwrite', firstCode, hclean, hset, hmake _ (State.cmdStart_mem ..), ne_eq, not_true_eq_false, if_false]
  · rw [tileNum, State.cmdEnd_mem, State.tileWrite_mem, State.cmdStart_mem, rdLE_wrBytes_leBytes hmem _ hfits,
      testBit_maskOf f hk]
  · rw [State.cmdEnd_mem, State.tileWrite_mem, State.cmdStart_mem, rdByte_wrBytes_other _ hmem (by rwa [length_leBytes])]

/-! ### MASK_COMMIT (R152, R197) -/

/-- The writes of a MASK_COMMIT: the values, both moments and the mask, in order. -/
def commitWrites (d : MaskDesc) (cur pend : Nat) (ov o1 o2 : Bytes) : List (Nat × Bytes) :=
  [(d.valuesBase.toNat, maskZeroed (maskElem d) cur pend ov), (d.m1Base.toNat, maskZeroed 1 cur pend o1),
    (d.m2Base.toNat, maskZeroed 1 cur pend o2), (d.maskBase.toNat, leBytes 2048 pend)]

/-- The pages that a MASK_COMMIT touches. -/
def commitPages (d : MaskDesc) : List Nat :=
  (lpsOf d.valuesBase.toNat (16384 * maskElem d) ++ lpsOf d.m1Base.toNat 16384 ++ lpsOf d.m2Base.toNat 16384 ++
    lpsOf d.maskBase.toNat 2048).dedup

/-- A state with the population of a new mask recorded. -/
def countMask (key pend : Nat) (s : State) : State :=
  { s with pages := { s.pages with nextCounts := smPut 0 key (maskCount pend) s.pages.nextCounts } }

theorem execMaskCommit_waits (hr : Runs t s [.reduce, .commit]) (hwait : s.touchWaits t.tile (commitPages d) = true) :
    execMaskCommit t d s = .next (s.touchWait t.tile d.cid) := by
  obtain ⟨-, hissues, -⟩ := hr
  exact if_pos ⟨hissues, hwait⟩

theorem execMaskCommit_runs {pend : Nat} {ov o1 o2 om : Bytes} (hr : Runs t s [.reduce, .commit]) (hp : physOf s.repair t.tile = p)
    (hfree : s.touchWaits t.tile (commitPages d) = false) (hcheck : maskCheck 3 d = none)
    (hnow : s.shardRead false t.tile d.maskBase.toNat 2048 = some now)
    (hov : s.shardRead true t.tile d.valuesBase.toNat (16384 * maskElem d) = some ov)
    (ho1 : s.shardRead true t.tile d.m1Base.toNat 16384 = some o1)
    (ho2 : s.shardRead true t.tile d.m2Base.toNat 16384 = some o2)
    (hom : s.shardRead true t.tile d.maskBase.toNat 2048 = some om)
    (hread : readFault s d.pendingBase.toNat 2048 = none) (hpend : tileNum s p d.pendingBase.toNat 2048 = pend) :
    ∃ tr, execMaskCommit t d s = .next (((countMask (2 ^ 32 * t.tile + d.maskBase.toNat) pend
      (retile (startTouched p 2 0x32 d.cid s).tiles tr
        (shardWrites t.tile (commitWrites d (ofLE now) pend ov o1 o2) s))).cmdEnd p d.cid 0 0).sendBound t.tile d.cid) := by
  have ⟨_, _, hdet, hsus, hchecks, _⟩ := hr
  obtain ⟨tr, hstart⟩ := startTouched_eq s p 2 0x32 d.cid
  refine ⟨tr, ?_⟩
  generalize (startTouched p 2 0x32 d.cid s).tiles = ts at hstart ⊢
  rw [startTouched] at hstart
  have hread' (next : Bool) (off n : Nat) : (retile ts tr s).shardRead next t.tile off n = s.shardRead next t.tile off n :=
    shardRead_congr rfl rfl rfl ..
  have hfault : readFault (retile ts tr s) d.pendingBase.toNat 2048 = none := hread
  have hpend' : tileNum (retile ts tr s) p d.pendingBase.toNat 2048 = pend := hpend
  have hclean (reads : List Span) : readDetections (retile ts tr s) p reads = [] := readDetections_clean hchecks reads
  have hset (lps : List Nat) (out : Bytes) := settleShard_clean (s := retile ts tr s) (p := p) (lps := lps)
    (x := { block := 7, cid := d.cid, result := out }) hdet hsus rfl rfl
  have hskip : ¬ (s.issues t.tile [.reduce, .commit] = true ∧ s.touchWaits t.tile (commitPages d) = true) := by simp [hfree]
  refine (if_neg hskip).trans ?_
  rw [hcheck]
  refine tileCmd_ends hr hp ?_
  simp only [hstart, hread', hnow, hov, ho1, ho2, hom, hfault, hpend', hclean, hset, ne_eq, not_true_eq_false, if_false]
  rw [← shardWrites_retile]
  rfl

/-- What a MASK_COMMIT that runs leaves: its writes to generation C + 1, the population of the new mask, and beside them only its
tile's record, the trace and one free value. -/
theorem commitEnd_frame {m : List Host.Cell} {pg : Pages} {v : State} (hw : smWf {} 0 s.tiles = true)
    (hv : v = { s with
      mem := m
      pages := pg }) (key pend : Nat) (tr : Trace) :
    let e := (countMask key pend (retile (startTouched p 2 0x32 d.cid s).tiles tr v)).cmdEnd p d.cid 0 0
    e.mem = v.mem ∧ e.pages = { v.pages with nextCounts := smPut 0 key (maskCount pend) v.pages.nextCounts } ∧
      (∀ q, q ≠ p → tileOf e q = tileOf s q) ∧ e = { s with
        mem := e.mem
        pages := e.pages
        tiles := e.tiles
        trace := e.trace
        draws := s.draws + 1 } := by
  intro e
  have hwf : smWf {} 0 (countMask key pend (retile (startTouched p 2 0x32 d.cid s).tiles tr v)).tiles = true :=
    tilesWf_startTouched 2 0x32 d.cid hw
  refine ⟨State.cmdEnd_mem .., State.cmdEnd_pages .., fun q hq => ?_, State.eq_of_fields ?_⟩
  · exact (tileOf_cmdEnd_other _ _ _ hwf hq).trans (tileOf_startTouched_other 2 0x32 d.cid hw hq)
  · simp [e, countMask, retile, hv]

end

/-! ### The obligation -/

/-- Settles O57: the bits of the mask that each PRUNE and REGROW stores are those of its predicate, and MASK_COMMIT is a first touch that
waits or four writes to generation C + 1 that look at nothing the command's start has changed. -/
theorem maskCommands : Obligations.MaskCommands := by
  unfold Obligations.MaskCommands
  intro t d s now hc p cur rank value limit kept
  have ⟨_, htiles, _⟩ := hc
  refine ⟨fun r hr hruns hcheck hnow hread hwrite => ?_, fun hruns => ?_⟩
  · simp only [List.mem_cons, List.not_mem_nil, or_false] at hr
    obtain rfl | rfl | rfl := hr
    · obtain ⟨e, hexec, hran, hbits, hother⟩ := maskPending_runs (opcode := 0x30) (f := kept 0)
        (make := fun s p cur => topkMask cur d.count.toNat (maskBlock d) (fun k => maskRank (maskFmt d) (maskValue s p d k)))
        hc hruns rfl hcheck hnow hread hwrite (fun u hu => by simp only [maskValue, tileNum, hu]; rfl)
      exact ⟨e, hexec, hran, hbits, nofun, hother⟩
    · obtain ⟨e, hexec, hran, hbits, hother⟩ := maskPending_runs (opcode := 0x30) (f := kept 1)
        (make := fun s p cur => thresholdMask cur limit (fun k => (maskFmt d).decode (maskValue s p d k)))
        hc hruns rfl hcheck hnow hread hwrite (fun u hu => by simp only [maskValue, tileNum, hu]; rfl)
      refine ⟨e, hexec, hran, hbits, fun _ hzero k hk => ?_, hother⟩
      have hlimit : limit = fp32.decode 0 := congrArg (fun x : BitVec 32 => fp32.decode x.toNat) hzero
      rw [hbits k hk]
      simp only [kept, hlimit, thresholdKeeps_zero, Bool.and_true]
    · obtain ⟨e, hexec, hran, hbits, hother⟩ := maskPending_runs (opcode := 0x31) (f := kept 2)
        (make := fun s p cur => regrowMask cur (tileNum s p d.pendingBase.toNat 2048) d.count.toNat (maskBlock d)
          (fun k => maskRank (maskFmt d) (maskValue s p d k)))
        hc hruns rfl hcheck hnow hread hwrite (fun u hu => by simp only [maskValue, tileNum, hu]; rfl)
      exact ⟨e, hexec, hran, hbits, nofun, hother⟩
  · intro w lps pend
    refine ⟨fun hwait => ?_, ?_⟩
    · obtain ⟨hself, hothers⟩ := touchWait_tiles t.tile rfl htiles d.cid
      exact ⟨_, execMaskCommit_waits hruns hwait, hself, hothers, touchWait_frame s t.tile d.cid⟩
    · intro ov o1 o2 om hfree hcheck hnow hov ho1 ho2 hom hread v
      obtain ⟨tr, hexec⟩ := execMaskCommit_runs hruns rfl hfree hcheck hnow hov ho1 ho2 hom hread rfl
      have ⟨_, _, _, _, hchecks, _⟩ := hruns
      have hstored := storedOnly_shardWrites t.tile (commitWrites d cur pend ov o1 o2) hchecks
      have hv : shardWrites t.tile (commitWrites d cur pend ov o1 o2) s = v := by
        simp only [shardWrites, commitWrites, List.foldl_cons, List.foldl_nil, v, w]
      rw [hv] at hstored hexec
      clear_value v
      exact ⟨_, hexec, commitEnd_frame htiles hstored _ pend tr⟩

end Sys2Proof.Laws
end

section
/-! What shared operations of the sync engine move: objects, wakes, realignment and a barrier's completed round (R280, R283, R285,
R288). -/

namespace Sys2Proof.Laws

open Sys2Proof.Machine Sys2Proof.Safety

section
variable {s u : State} {i j : Nat} {o : SyncObj}

/-! ### Objects -/

theorem obj_congr (h : u.sync.objs = s.sync.objs) : u.obj j = s.obj j := by rw [State.obj, objOf, h, State.obj, objOf]

theorem obj_setObj_same (w : smWf {} 0 s.sync.objs = true) : (s.setObj i o).obj i = o := smGet_smPut_same w

theorem obj_setObj_other (w : smWf {} 0 s.sync.objs = true) (h : j ≠ i) : (s.setObj i o).obj j = s.obj j :=
  smGet_smPut_other h w

theorem objsWf_setObj (w : smWf {} 0 s.sync.objs = true) : smWf {} 0 (s.setObj i o).sync.objs = true :=
  smPut_wf (Nat.zero_le i) w

theorem syncObj_setValue (o : SyncObj) {v : BitVec 64} (h : v.toNat < 2 ^ 48) : o.setValue v.toNat = { o with state := v } := by
  rw [SyncObj.setValue, Nat.mod_eq_of_lt h, BitVec.ofNat_toNat, BitVec.setWidth_eq]

theorem syncObj_value (h : o.state.toNat < 2 ^ 48) : o.value = o.state.toNat := by
  rw [SyncObj.value, bitsOf, Nat.shiftRight_zero, Nat.mod_eq_of_lt h]

/-! ### Wakes (R280) -/

theorem foldl_sendRill (f : Waiter → RillMsg) (l : List Waiter) (s : State) :
    l.foldl (fun s w => s.sendRill (f w)) s = { s with rillOut := (l.map f).reverse ++ s.rillOut } := by
  induction l generalizing s with
  | nil => rfl
  | cons w l ih =>
    rw [List.foldl_cons, ih, List.map_cons, List.reverse_cons, List.append_assoc]
    rfl

/-- Waking some of the waiters of one object takes them out of the table and sends each its wake. -/
theorem wakeWhere_eq {p : Waiter → Bool} (hp : ∀ w, p w = true → w.obj = i) (s : State) (value : Nat) :
    s.wakeWhere p value = { s with
      sync := { s.sync with waiters := s.sync.waiters.filter (fun w => !p w) }
      rillOut := ((s.sync.waiters.filter p).map (fun w => wakeMsg w.site i value false)).reverse ++ s.rillOut } := by
  have hmsgs : (s.sync.waiters.filter p).map (fun w => wakeMsg w.site w.obj value false) =
      (s.sync.waiters.filter p).map (fun w => wakeMsg w.site i value false) :=
    List.map_congr_left fun w hw => by rw [hp w (List.mem_filter.mp hw).2]
  rw [State.wakeWhere, foldl_sendRill (fun w => wakeMsg w.site w.obj value false), hmsgs]

/-- The waiters that a counter's or fenced object's new value satisfies. -/
def satisfiedBy (i value : Nat) (w : Waiter) : Bool := w.obj == i && w.op == 3 && decide (w.target ≤ value)

/-- The waiters for a barrier's round. -/
def waitsRound (i : Nat) (w : Waiter) : Bool := w.obj == i && w.op == 4

theorem obj_of_satisfiedBy {value : Nat} (w : Waiter) (h : satisfiedBy i value w = true) : w.obj = i := by
  simp only [satisfiedBy, Bool.and_eq_true, beq_iff_eq, and_assoc] at h
  obtain ⟨hobj, -⟩ := h
  exact hobj

theorem obj_of_waitsRound (w : Waiter) (h : waitsRound i w = true) : w.obj = i := by
  simp only [waitsRound, Bool.and_eq_true, beq_iff_eq] at h
  obtain ⟨hobj, -⟩ := h
  exact hobj

/-! ### The realignment of RUN counters (R288) -/

theorem severityOf_drift (inStep : Bool) (p : Place) (d : Nat) : severityOf inStep p d 0x6006 = 1 := rfl

/-- The report of a drift is a Notice: it leaves trace records and events only. -/
theorem raise_drift (s : State) (p : Place) (c : BitVec 64) (d : Nat) (e : BitVec 64) : s.raise 0x6006 p c d e = { s with
    trace := (s.raise 0x6006 p c d e).trace
    host := (s.raise 0x6006 p c d e).host } :=
  State.raise_minor (by rw [severityOf_drift]; decide) (by decide) (by decide)

/-- Realigning one counter sets that object, of kind 1, or changes nothing; beside it, only trace records and events are left. -/
theorem realignOne_eq (s : State) (k : Nat) : ∃ tr ho, s.realignOne k = { s with
      trace := tr
      host := ho } ∨ (s.obj k).kind = 1 ∧ ∃ o, s.realignOne k = { s.setObj k o with
      trace := tr
      host := ho } := by
  by_cases hrun : ((s.obj k).isRunCounter && (s.obj k).realigns) = true
  · have hkind : (s.obj k).kind = 1 := by
      simp only [SyncObj.isRunCounter, Bool.and_eq_true, beq_iff_eq, and_assoc] at hrun
      obtain ⟨hkind, -⟩ := hrun
      exact hkind
    simp only [State.realignOne, hrun, if_true]
    split
    · exact ⟨_, _, .inr ⟨hkind, _, rfl⟩⟩
    · exact ⟨_, _, .inr ⟨hkind, _, raise_drift ..⟩⟩
  · exact ⟨_, _, .inl (if_neg hrun)⟩

/-- What a realignment leaves of a state: all but RUN counters, trace records and events. -/
structure Realigned (s u : State) : Prop where
  objsWf : smWf {} 0 u.sync.objs = true
  obj : ∀ i, (s.obj i).kind ≠ 1 → u.obj i = s.obj i
  rest : u = { s with
    sync := { s.sync with objs := u.sync.objs }
    trace := u.trace
    host := u.host }

theorem Realigned.trans {t : State} (h : Realigned s t) (g : Realigned t u) : Realigned s u where
  objsWf := g.objsWf
  obj i hk := (g.obj i (by rwa [h.obj i hk])).trans (h.obj i hk)
  rest := by rw [g.rest, h.rest]

theorem realigned_realignOne (w : smWf {} 0 s.sync.objs = true) (k : Nat) : Realigned s (s.realignOne k) := by
  obtain ⟨tr, ho, h | ⟨hkind, o, h⟩⟩ := realignOne_eq s k
  · exact h ▸ ⟨w, fun _ _ => rfl, rfl⟩
  · refine h ▸ ⟨objsWf_setObj w, fun i hi => ?_, rfl⟩
    exact obj_setObj_other w fun e => hi (e ▸ hkind)

theorem realigned_foldl (l : List Nat) (w : smWf {} 0 s.sync.objs = true) : Realigned s (l.foldl State.realignOne s) := by
  induction l generalizing s with
  | nil => exact ⟨w, fun _ _ => rfl, rfl⟩
  | cons k l ih =>
    have hone := realigned_realignOne w k
    exact hone.trans (ih hone.objsWf)

theorem realigned_realign (w : smWf {} 0 s.sync.objs = true) : Realigned s s.realign := realigned_foldl _ w

/-! ### A barrier's completed round (R283, R285, R288) -/

/-- A barrier after its round, in the module's current step `now`. -/
def roundDone (o : SyncObj) (now : BitVec 32) : SyncObj := { o with
  state := barrierWord ((o.round + 1) % 65536) 0 o.waitArrivals 0
  waitArrivals := 0
  gateStep := if o.isGate then (if o.gateSet then o.gateStep + 1 else now) else o.gateStep
  gateSet := o.gateSet || o.isGate }

/-- A completed round before any realignment: the barrier's next round, with those that waited for it woken. -/
def roundWoken (s : State) (i : Nat) : State :=
  let t := s.setObj i (roundDone (s.obj i) (low32 s.currentStep))
  { t with
    sync := { t.sync with waiters := s.sync.waiters.filter (fun w => !waitsRound i w) }
    rillOut := ((s.sync.waiters.filter (waitsRound i)).map
      (fun w => wakeMsg w.site i (((s.obj i).round + 1) % 65536) false)).reverse ++ s.rillOut }

theorem completeRound_eq (s : State) (i : Nat) :
    s.completeRound i = if (s.obj i).realigns then (roundWoken s i).realign else roundWoken s i := by
  have hwoken := wakeWhere_eq (obj_of_waitsRound (i := i)) (s.setObj i (roundDone (s.obj i) (low32 s.currentStep)))
    (((s.obj i).round + 1) % 65536)
  exact congrArg (fun t : State => if (s.obj i).realigns then t.realign else t) hwoken

theorem obj_roundWoken_same (w : smWf {} 0 s.sync.objs = true) :
    (roundWoken s i).obj i = roundDone (s.obj i) (low32 s.currentStep) := obj_setObj_same w

theorem obj_roundWoken_other (w : smWf {} 0 s.sync.objs = true) (h : j ≠ i) : (roundWoken s i).obj j = s.obj j :=
  obj_setObj_other w h

/-- Completing a barrier's round leaves the barrier in its next round whether or not it realigns counters. -/
theorem completeRound_realigned (w : smWf {} 0 s.sync.objs = true) : Realigned (roundWoken s i) (s.completeRound i) := by
  have hwf : smWf {} 0 (roundWoken s i).sync.objs = true := objsWf_setObj w
  rw [completeRound_eq]
  split
  · exact realigned_realign hwf
  · exact ⟨hwf, fun _ _ => rfl, rfl⟩

end

end Sys2Proof.Laws
end

section
/-! Hand-setting a sync object: SET_VALUE and RELEASE of the Delit command SYNC_SET (R290, R291, R309, R311, R415). -/

namespace Sys2Proof.Laws

open Sys2Proof.Machine Sys2Proof.Safety

section
variable {s : State} {i j : Nat}

/-! ### The record of a hand-set (R290, R291) -/

/-- An object that the host has hand-set in step `step`. -/
def handMarked (o : SyncObj) (step : BitVec 64) : SyncObj := { o with
  last := signaller 2 0 0 (low32 step)
  handSet := true }

theorem obj_noteHandSet_same (a : Nat) (v : BitVec 64) (w : smWf {} 0 s.sync.objs = true) :
    (s.noteHandSet i a v).obj i = handMarked (s.obj i) s.step.number := obj_setObj_same w

theorem obj_noteHandSet_other (a : Nat) (v : BitVec 64) (w : smWf {} 0 s.sync.objs = true) (h : j ≠ i) :
    (s.noteHandSet i a v).obj j = s.obj j := obj_setObj_other w h

theorem noteHandSet_frame (s : State) (i a : Nat) (v : BitVec 64) : s.noteHandSet i a v = { s with
    sync := { s.sync with
      objs := (s.noteHandSet i a v).sync.objs
      stepHandSet := s.sync.stepHandSet || s.step.inProgress
      handSets := s.sync.handSets ++ [⟨i, a, v⟩] } } := rfl

/-! ### SET_VALUE (R290) -/

/-- The work of a SET_VALUE that is allowed, before its report. -/
def handValued (s : State) (i : Nat) (v : BitVec 64) : State :=
  ((s.setObj i ((s.obj i).setValue v.toNat)).noteHandSet i 0 v).wakeSatisfied i

theorem performOp_setValue (h : Hdr) {v : BitVec 64} (hpol : s.policy 0 = true) (hi : i < 32768)
    (hk : (s.obj i).kind = 1 ∨ (s.obj i).kind = 3) (hv : v.toNat < 2 ^ 48) :
    performOp h (.setValue i v) s = ((handValued s i v).raise 0x6007 moduleWide noCmd i, 0, []) := by
  have hvalid : ¬ (32768 ≤ i ∨ ((s.obj i).kind ≠ 1 ∧ (s.obj i).kind ≠ 3) ∨ 2 ^ 48 ≤ v.toNat) := by omega
  simp only [performOp, doSetValue, hpol, Bool.not_true, Bool.false_eq_true, if_false, if_neg hvalid]
  rfl

theorem performOp_setValue_denied (h : Hdr) (i : Nat) (v : BitVec 64) (hpol : s.policy 0 = false) :
    performOp h (.setValue i v) s = (s, 0x6008, []) := by
  rw [performOp, doSetValue, hpol]
  rfl

theorem performOp_setValue_tooLarge (h : Hdr) (i : Nat) {v : BitVec 64} (hpol : s.policy 0 = true) (hv : 2 ^ 48 ≤ v.toNat) :
    performOp h (.setValue i v) s = (s, 0x1004, []) := by
  simp only [performOp, doSetValue, hpol, hv, or_true, Bool.not_true, Bool.false_eq_true, if_false, if_true]
  rfl

/-- An object given its value and marked, before any waiter is woken. -/
def valueNoted (s : State) (i : Nat) (v : BitVec 64) : State := (s.setObj i { s.obj i with state := v }).noteHandSet i 0 v

theorem obj_valueNoted_same (v : BitVec 64) (w : smWf {} 0 s.sync.objs = true) :
    (valueNoted s i v).obj i = handMarked { s.obj i with state := v } s.step.number := by
  rw [valueNoted, obj_noteHandSet_same _ _ (objsWf_setObj w), obj_setObj_same w]
  rfl

theorem obj_valueNoted_other (v : BitVec 64) (w : smWf {} 0 s.sync.objs = true) (h : j ≠ i) :
    (valueNoted s i v).obj j = s.obj j := by
  rw [valueNoted, obj_noteHandSet_other _ _ (objsWf_setObj w) h, obj_setObj_other w h]

/-- The object's new value decides which waiters are woken; the mark of the hand-set does not enter it. -/
theorem handValued_eq {v : BitVec 64} (w : smWf {} 0 s.sync.objs = true) (hv : v.toNat < 2 ^ 48) :
    handValued s i v = { valueNoted s i v with
      sync := { (valueNoted s i v).sync with waiters := s.sync.waiters.filter (fun x => !satisfiedBy i v.toNat x) }
      rillOut := ((s.sync.waiters.filter (satisfiedBy i v.toNat)).map (fun x => wakeMsg x.site i v.toNat false)).reverse ++
        s.rillOut } := by
  have hvalue : ((valueNoted s i v).obj i).value = v.toNat := by
    rw [obj_valueNoted_same v w]
    exact syncObj_value hv
  rw [handValued, syncObj_setValue _ hv, ← valueNoted, State.wakeSatisfied, hvalue]
  exact wakeWhere_eq obj_of_satisfiedBy (valueNoted s i v) v.toNat

theorem obj_handValued {v : BitVec 64} (w : smWf {} 0 s.sync.objs = true) (hv : v.toNat < 2 ^ 48) (j : Nat) :
    (handValued s i v).obj j = (valueNoted s i v).obj j :=
  obj_congr (by rw [handValued_eq w hv])

/-! ### RELEASE (R290) -/

/-- The work of a RELEASE that is allowed, before its report. -/
def handReleased (s : State) (i : Nat) : State := (s.completeRound i).noteHandSet i 1 0

theorem performOp_release (h : Hdr) (hpol : s.policy 0 = true) (hi : i < 32768) (hk : (s.obj i).kind = 2) :
    performOp h (.release i) s = ((handReleased s i).raise 0x6007 moduleWide noCmd i, 0, []) := by
  have hvalid : ¬ (32768 ≤ i ∨ (s.obj i).kind ≠ 2) := by omega
  simp only [performOp, doRelease, hpol, Bool.not_true, Bool.false_eq_true, if_false, if_neg hvalid]
  rfl

theorem performOp_release_denied (h : Hdr) (i : Nat) (hpol : s.policy 0 = false) :
    performOp h (.release i) s = (s, 0x6008, []) := by
  rw [performOp, doRelease, hpol]
  rfl

theorem obj_handReleased_same (w : smWf {} 0 s.sync.objs = true) (hk : (s.obj i).kind = 2) :
    (handReleased s i).obj i = handMarked (roundDone (s.obj i) (low32 s.currentStep)) s.step.number := by
  have hround := completeRound_realigned (i := i) w
  have hkind : ((roundWoken s i).obj i).kind ≠ 1 := by
    rw [obj_roundWoken_same w]
    exact fun h => absurd (hk.symm.trans h) (by decide)
  have hstep : (s.completeRound i).step = s.step := by rw [hround.rest]; rfl
  rw [handReleased, obj_noteHandSet_same _ _ hround.objsWf, hround.obj i hkind, obj_roundWoken_same w, hstep]

/-- A realignment that the round sets off changes objects only: the waiter table and the record are those of any RELEASE. -/
theorem handReleased_sync (w : smWf {} 0 s.sync.objs = true) : (handReleased s i).sync = { s.sync with
    objs := (handReleased s i).sync.objs
    waiters := s.sync.waiters.filter (fun x => !waitsRound i x)
    stepHandSet := s.sync.stepHandSet || s.step.inProgress
    handSets := s.sync.handSets ++ [⟨i, 1, 0⟩] } := by
  have hround := completeRound_realigned (i := i) w
  rw [handReleased, noteHandSet_frame, hround.rest]
  rfl

theorem handReleased_rillOut (w : smWf {} 0 s.sync.objs = true) :
    (handReleased s i).rillOut = ((s.sync.waiters.filter (waitsRound i)).map
      (fun x => wakeMsg x.site i (((s.obj i).round + 1) % 65536) false)).reverse ++ s.rillOut := by
  have hround := completeRound_realigned (i := i) w
  rw [handReleased, noteHandSet_frame, hround.rest]
  rfl

theorem handReleased_plain (hr : (s.obj i).realigns = false) : handReleased s i = (roundWoken s i).noteHandSet i 1 0 := by
  rw [handReleased, completeRound_eq, hr]
  rfl

theorem obj_handReleased_other (w : smWf {} 0 s.sync.objs = true) (hr : (s.obj i).realigns = false) (h : j ≠ i) :
    (handReleased s i).obj j = s.obj j := by
  rw [handReleased_plain hr]
  exact (obj_noteHandSet_other 1 0 (objsWf_setObj w) h).trans (obj_roundWoken_other w h)

end

/-! ### Commands that report what they did, and commands of observers (R309, R311) -/

section
variable {h : Hdr} {x : Session} {s t : State} {op : DelitOp}

/-- A command that answers OK: its response leaves after its work, whatever the work has sent to the sessions. -/
theorem delit_answered {b : Bytes} (r : Ready h x s) (no : ∀ p, op ≠ .stepOpen p)
    (c : needsControl op = false ∨ x.control = true) (w : betweenSteps op = false ∨ s.step.inProgress = false)
    (f : ∀ u, followOp h op u = u) (a : performOp h op (heard h s) = (t, 0, b)) : s.delit h op = answered h t 0 b := by
  obtain ⟨hord, hresv⟩ := r
  rw [State.delit_inOrder hord]
  simp [State.execute, mustWait_other no, answerOp_perform (s := heard h s) c w hresv, a, f]

/-- A command for the controlling session, from an observer. -/
theorem delit_observer (r : InOrder h x s) (no : ∀ p, op ≠ .stepOpen p) (c : needsControl op = true) (hx : x.control = false) :
    s.delit h op = replied h 0x1006 [] s := by
  rw [State.delit_inOrder r]
  simp [State.execute, mustWait_other no, answerOp, c, hx, State.refuse, State.respond_heard]

end

/-! ### The obligation -/

/-- Settles O28: the object's mark, the waiters and the messages are read off `handValued` and `handReleased`; a realignment that the
released barrier sets off touches RUN counters only, so it moves neither the barrier nor what the hand-set records. -/
theorem handSets : Obligations.HandSets := by
  unfold Obligations.HandSets
  refine ⟨fun h x s i ⟨hready, hctl⟩ hc hi => ?_, fun h x s i v hord hx => ?_⟩
  · obtain ⟨-, -, -, -, hobjs, -⟩ := hc
    have hwf : smWf {} 0 (heard h s).sync.objs = true := hobjs
    refine ⟨fun v hpol hk hv => ?_, fun hpol hk => ?_, fun v hpol hv => ?_, fun v hpol => ⟨?_, ?_⟩⟩
    · refine ⟨handValued (heard h s) i v, ?_, (obj_handValued hwf hv i).trans (obj_valueNoted_same v hwf),
        fun j hj => (obj_handValued hwf hv j).trans (obj_valueNoted_other v hwf hj), ?_⟩
      · exact congrArg _ (delit_answered hready (by nofun) (.inr hctl) (.inl rfl) (fun _ => rfl)
          (performOp_setValue h hpol hi hk hv))
      · rw [handValued_eq hwf hv]
        rfl
    · have hsync := handReleased_sync (i := i) hwf
      refine ⟨handReleased (heard h s) i, ?_, obj_handReleased_same hwf hk, congrArg Sync.waiters hsync,
        (congrArg Sync.stepHandSet hsync).trans rfl, (congrArg Sync.handSets hsync).trans rfl, handReleased_rillOut hwf,
        fun hr => ⟨fun j hj => obj_handReleased_other hwf hr hj, ?_⟩⟩
      · exact congrArg _ (delit_answered hready (by nofun) (.inr hctl) (.inl rfl) (fun _ => rfl)
          (performOp_release h hpol hi hk))
      · rw [handReleased_plain (s := heard h s) hr]
        rfl
    · exact congrArg _ (State.delit_refused hready (by nofun) (.inr hctl) (.inl rfl) (by decide)
        (performOp_setValue_tooLarge h i hpol hv))
    · exact congrArg _ (State.delit_refused hready (by nofun) (.inr hctl) (.inl rfl) (by decide)
        (performOp_setValue_denied h i v hpol))
    · exact congrArg _ (State.delit_refused hready (by nofun) (.inr hctl) (.inl rfl) (by decide)
        (performOp_release_denied h i hpol))
  · exact ⟨congrArg _ (delit_observer hord (by nofun) rfl hx), congrArg _ (delit_observer hord (by nofun) rfl hx)⟩

end Sys2Proof.Laws
end

section
/-! STEP_OPEN while the edge region has a suspect window open: the OPEN ends with 0x2106 before it looks at lost pages (R247, R348,
R349). -/

namespace Sys2Proof.Laws

open Sys2Proof.Machine Sys2Proof.Safety

section
variable {h : Hdr} {x : Session} {s : State} {p : StepOpen}

/-! ### Links and intakes do not touch the supply -/

theorem flushLink_power (s : State) (n : Nat) : (s.flushLink n).power = s.power := by
  rw [State.flushLink, State.trySwitch]
  split
  · rw [State.raise_power, State.updLink_power, State.updLink_power]
  · exact State.updLink_power ..

theorem linkRecord_power (s : State) (n : Nat) (r : LinkRecord) : (s.linkRecord n r).power = s.power :=
  flushLink_power _ n

theorem freeIntake_power (s : State) (pb n : Nat) : (s.freeIntake pb n).power = s.power := by
  rw [State.freeIntake, State.giveCredit]
  split
  · rfl
  · exact linkRecord_power ..

theorem emptyIntake_power (s : State) (pb : Nat) : (s.emptyIntake pb).power = s.power :=
  foldl_keeps State.power _ (fun t n => freeIntake_power t pb n) _ _

theorem setTakeover_power (s : State) (a b : Nat) : (s.setTakeover a b).power = s.power := by
  simp only [State.setTakeover]
  split
  · exact linkRecord_power ..
  · split
    · exact (linkRecord_power ..).trans (linkRecord_power ..)
    · rfl

theorem setTakeovers_power (s : State) : s.setTakeovers.power = s.power := by
  rw [State.setTakeovers]
  split
  · rfl
  · exact foldl_keeps State.power _ (fun t n => setTakeover_power t n (partnerOf n)) _ _

/-! ### OPEN under a suspect window of the edge region (R247) -/

/-- Among the conditions that end OPEN, the window comes first. -/
theorem openFails_edgeSuspect (hw : (regionOf s.power edgeRegion).suspect = true) (units switch : Nat) :
    s.openFails units switch = some (0x2106, moduleWide) := by
  rw [State.openFails, if_pos hw]

/-- The work of OPEN on links, tiles and port blocks, which comes before it judges its conditions. -/
def openPrepared (s : State) (p : StepOpen) : State :=
  let units := slotTokens p / 128
  let switch := s.wake.chooseSwitch units
  let s1 := (s.wake.latchStep p switch).beginPhase .opening
  let s2 := ((List.range logicalTiles).filter (fun t => fieldState s1.repair (fieldOfLogical t) != 2)).foldl (fun s t =>
    s.updTile (physOf s.repair t) (fun x => x.atOpen (s.tokenUnits units (Machine.rowOf t)) switch)) s1.setTakeovers
  (List.range 24).foldl (fun s n => (s.emptyIntake n).setPb n (s.pbAtOpen p switch n)) s2

theorem openPrepared_power (s : State) (p : StepOpen) : (openPrepared s p).power = s.wake.power := by
  refine (foldl_keeps State.power (fun s n => (s.emptyIntake n).setPb n (s.pbAtOpen p _ n))
    (fun t n => emptyIntake_power t n) _ _).trans ?_
  refine (foldl_keeps State.power (fun s t => s.updTile (physOf s.repair t) (fun x => x.atOpen (s.tokenUnits _ _) _))
    (fun _ _ => rfl) _ _).trans ?_
  exact (setTakeovers_power _).trans (State.beginPhase_power ..)

/-- Nothing that OPEN does before it judges its conditions closes the window, so the window decides its status. -/
theorem openStep_edgeSuspect (hw : (regionOf s.wake.power edgeRegion).suspect = true) (p : StepOpen) :
    (s.openStep p).2.1 = 0x2106 := by
  unfold State.openStep
  dsimp only
  rw [openFails_edgeSuspect]
  have hregions := congrArg Power.regions (openPrepared_power s p)
  simp only [openPrepared] at hregions
  simp only [regionOf, hregions]
  exact hw

/-! ### The response of an accepted STEP_OPEN (R311, R312) -/

theorem exec_stepOpen (h : Hdr) (p : StepOpen) (s : State) : exec (.stepOpen h p) s = .next (s.delit h (.stepOpen p)) := rfl

/-- A STEP_OPEN that passes its checks and need not wait answers what OPEN answers. -/
theorem exec_stepOpen_accepted (r : ReadyBetween h x s) (ha : openRejects s false p = none) (hw : s.openWaits = false) :
    exec (.stepOpen h p) s =
      .next (answered h ((heard h s).openStep p).1 ((heard h s).openStep p).2.1 ((heard h s).openStep p).2.2) := by
  obtain ⟨⟨⟨hord, hresv⟩, hctl⟩, hbetween⟩ := r
  have hchecks : openRejects (heard h s) h.resv p = none := by rw [hresv]; exact ha
  have hgoes : (heard h s).openWaits = false := hw
  have hanswer : answerOp h (.stepOpen p) x.control (heard h s) = (heard h s).openStep p := by
    rw [answerOp_perform (s := heard h s) (.inr hctl) (.inr hbetween) hresv, performOp, hchecks]
  have hdelit : s.delit h (.stepOpen p) =
      answered h ((heard h s).openStep p).1 ((heard h s).openStep p).2.1 ((heard h s).openStep p).2.2 := by
    rw [State.delit_inOrder hord]
    simp [State.execute, mustWait, hgoes, hanswer, followOp]
  rw [exec_stepOpen, hdelit]

/-- The response is the last datagram that the command sends. -/
theorem answered_sent (h : Hdr) (t : State) (status : Code) (payload : Bytes) :
    (answered h t status payload).host.sent.head? = some (.response h.session h.seq h.cid status payload) := rfl

end

/-! ### A lost page and a suspect window at once -/

/-- A controlling session. -/
def opener : Session := { id := 1, control := true, keyId := 7, established := true }

/-- The header of its first command. -/
def openerHdr : Hdr := ⟨1, 1, 5, .eth0, false, { kind := 5 }⟩

/-- STEP_OPEN of step 1 with one slot of 128 tokens. -/
def openOne : StepOpen := ⟨1, 0, 0, 0, 128 :: List.replicate 15 0⟩

/-- A module between steps with a program and all links UP, whose page 5 is marked lost. -/
def pageLost : State := { State.reset with
  host := { sessions := [opener] }
  power := { state := .active, meshRun := true, regions := [(edgeRegion, { state := .active, vcore := 750 })] }
  program := some { maxTokens := 128 }
  links := (List.range 24).map (fun n => (n, { state := .up }))
  pages := { lost := [5] } }

/-- The same module once the edge region's own rail has opened a suspect window there, which RAIL_WARNING does between steps too (R245,
R323). -/
def pageLostWindow : State := pageLost.openSuspect edgeRegion

theorem pageLostWindow_suspect : (regionOf (heard openerHdr pageLostWindow).wake.power edgeRegion).suspect = true := by
  decide +kernel

theorem pageLostWindow_accepts : openRejects pageLostWindow false openOne = none ∧ pageLostWindow.openWaits = false ∧
    pageLostWindow.pages.lost ≠ [] := by
  decide +kernel

theorem pageLostWindow_ready : ReadyBetween openerHdr opener pageLostWindow := by
  refine ⟨⟨⟨⟨⟨?_, ?_, ?_, ?_, ?_, ?_⟩, ?_, ?_, ?_, ?_, ?_⟩, ?_⟩, ?_⟩, ?_⟩ <;> decide +kernel

/-- Refutes O27: with a suspect window open in the edge region, a STEP_OPEN of a module that has lost a page answers 0x2106, not
0x3004 (R247, R348). -/
theorem not_stepOpensAndDiscards : ¬ Obligations.StepOpensAndDiscards := by
  unfold Obligations.StepOpensAndDiscards
  intro hall
  obtain ⟨-, hlost, -⟩ := hall openerHdr opener pageLostWindow openOne
  obtain ⟨haccepted, hgoes, hpages⟩ := pageLostWindow_accepts
  obtain ⟨t, hexec, -, -, -, hsent⟩ := hlost pageLostWindow_ready haccepted hgoes hpages
  rw [exec_stepOpen_accepted pageLostWindow_ready haccepted hgoes, openStep_edgeSuspect pageLostWindow_suspect] at hexec
  obtain rfl := Host.Outcome.next.inj hexec
  rw [answered_sent, Option.some.injEq, HostMsg.response.injEq] at hsent
  obtain ⟨-, -, -, hstatus, -⟩ := hsent
  exact absurd hstatus (by decide)

end Sys2Proof.Laws
end

section
/-! DISCARD_RELEASE while an intake buffer holds a frame: freeing the buffer is progress of its queue, so the discard re-arms the
deadlock detector (R271, R293, R294, R345). -/

namespace Sys2Proof.Laws

open Sys2Proof.Machine Sys2Proof.Safety

section
variable (s : State)

/-! ### Updates of several fields -/

theorem withPages_sync (p : Pages) (v : Survival) : ({ s with
    pages := p
    survival := v } : State).sync = s.sync := rfl

theorem withArbiter_sync (a : Arbiter) : ({ s with arbiter := a } : State).sync = s.sync := rfl

/-! ### Links, ports and lost pages do not touch the sync engine -/

@[simp] theorem flushLink_sync (n : Nat) : (s.flushLink n).sync = s.sync := by
  rw [State.flushLink, State.trySwitch]
  split <;> simp

@[simp] theorem linkRecord_sync (n : Nat) (r : LinkRecord) : (s.linkRecord n r).sync = s.sync :=
  flushLink_sync _ n

@[simp] theorem setTakeover_sync (a b : Nat) : (s.setTakeover a b).sync = s.sync := by
  simp only [State.setTakeover]
  (repeat' split) <;> simp

@[simp] theorem setTakeovers_sync : s.setTakeovers.sync = s.sync := by
  rw [State.setTakeovers]
  split
  · rfl
  · exact foldl_keeps State.sync _ (fun t n => setTakeover_sync t n (partnerOf n)) _ _

@[simp] theorem linkStop_sync (n : Nat) (st : LinkState) : (s.linkStop n st).sync = s.sync := by
  simp only [State.linkStop]
  (repeat' split) <;> simp

@[simp] theorem zSend_sync (pb : Nat) (m : ZMsg) : (s.zSend pb m).sync = s.sync := by
  simp only [State.zSend]
  (repeat' split) <;> simp

@[simp] theorem sendBulk_sync (pb : Nat) (dest : BitVec 16) (destPb : Nat) (b : Bytes) :
    (s.sendBulk pb dest destPb b).sync = s.sync := by
  simp [State.sendBulk, State.zSendCounted]

@[simp] theorem sendImage_sync (store : BitVec 16) (a : Nat) (step : BitVec 64) (image : Bytes) :
    (s.sendImage store a step image).sync = s.sync :=
  foldl_keeps State.sync _ (fun t _ => sendBulk_sync t ..) _ _

@[simp] theorem endExport_sync (status : Code) : (s.endExport status).sync = s.sync := by
  rw [State.endExport]
  split <;> simp

@[simp] theorem requestPage_sync (t i : Nat) (lostFrom : Option Nat) (step : BitVec 32) :
    (s.requestPage t i lostFrom step).sync = s.sync := by
  simp only [State.requestPage]
  (repeat' split)
  · rfl
  · simp
  · exact foldl_keeps State.sync _ (fun u _ => sendBulk_sync u ..) _ _

@[simp] theorem handleLost_sync (t page : Nat) (dark : Bool) : (s.handleLost t page dark).sync = s.sync := by
  simp only [State.handleLost]
  (repeat' split) <;> simp

@[simp] theorem losePages_sync (t : Nat) (pages : List Nat) (dark : Bool) : (s.losePages t pages dark).sync = s.sync :=
  foldl_keeps State.sync _ (fun u p => handleLost_sync u t p dark) _ _

@[simp] theorem loseSlab_sync (t : Nat) (dark : Bool) : (s.loseSlab t dark).sync = s.sync := by
  simp [State.loseSlab]

@[simp] theorem rescueDark_sync : s.rescueDark.sync = s.sync := by
  rw [State.rescueDark]
  split
  · split
    · exact (withPages_sync ..).trans (sendImage_sync ..)
    · rfl
  · rfl

@[simp] theorem writeRecord_sync (c : CommitRec) : (s.writeRecord c).sync = s.sync := rfl

@[simp] theorem moveRecord_sync : s.moveRecord.sync = s.sync := by
  simp only [State.moveRecord]
  split <;> simp

@[simp] theorem setField_sync (i : Nat) (v : BitVec 2) : (s.setField i v).sync = s.sync := rfl

/-! ### Column shifts do not touch it -/

@[simp] theorem moveTile_sync (t src dst : Nat) : (s.moveTile t src dst).sync = s.sync := by
  simp [State.moveTile, foldl_keeps State.sync _ (fun (u : State) page => u.copyTile_sync src dst (pageAddr page 0) pageBytes)]

@[simp] theorem reloadTile_sync (t src dst : Nat) : (s.reloadTile t src dst).sync = s.sync := by
  rw [State.reloadTile]
  split
  · rw [State.updTile_sync, State.tileWrite_sync, State.copyTile_sync]
  · rw [State.tileClear_sync, State.copyTile_sync]

@[simp] theorem setEntryOf_sync (k : Nat) (d : BitVec 4) : (s.setEntryOf k d).sync = s.sync := rfl

/-! ### The work of a step boundary leaves the deadlock detector armed or not, as it is -/

@[simp] theorem dropRecords_armed (l : List Nat) : (s.dropRecords l).sync.armed = s.sync.armed := rfl

@[simp] theorem darken_armed (i : Nat) : (s.darken i).sync.armed = s.sync.armed := by
  have hslabs (u : State) : ((fieldLogical i).foldl (fun s t => s.loseSlab t true) u).sync = u.sync :=
    foldl_keeps State.sync _ (fun v t => loseSlab_sync v t true) _ _
  have htiles (u : State) : ((fieldTiles i).foldl State.clearVolatile u).sync = u.sync :=
    foldl_keeps State.sync _ (fun v p => v.clearVolatile_sync p) _ _
  simp [State.darken, htiles, hslabs]

@[simp] theorem fenceField_armed (i : Nat) (ok : Bool) : (s.fenceField i ok).sync.armed = s.sync.armed := by
  rw [State.fenceField]
  (repeat' split) <;> simp

@[simp] theorem shiftColumn_armed (k d : Nat) (ok : Bool) : (s.shiftColumn k d ok).sync.armed = s.sync.armed := by
  have hmoves (tile : Nat → Nat) (js : List Nat) : (js.foldl (fun s j =>
      if j = d ∧ ¬ ok then s.reloadTile (tile j) (columnTile k j) (columnTile k (j + 1))
      else s.moveTile (tile j) (columnTile k j) (columnTile k (j + 1))) s).sync = s.sync :=
    foldl_keeps State.sync _ (fun u j => by split <;> simp) _ _
  simp only [State.shiftColumn]
  split <;> simp only [losePages_sync, dropRecords_armed, State.updRepair_sync, setEntryOf_sync, hmoves]

@[simp] theorem spareDead_armed (p : Nat) (ok : Nat → Bool) : (s.spareDead p ok).sync.armed = s.sync.armed := by
  simp only [State.spareDead]
  (repeat' split) <;> simp

@[simp] theorem repairTile_armed (p : Nat) (ok : Bool) (bad others : List Nat) :
    (s.repairTile p ok bad others).sync.armed = s.sync.armed := by
  simp only [State.repairTile]
  (repeat' split) <;> simp

@[simp] theorem spareSite_armed (key : Nat) : (s.spareSite key).sync.armed = s.sync.armed := by
  simp only [State.spareSite]
  (repeat' split) <;> simp

@[simp] theorem spareLasting_armed : s.spareLasting.sync.armed = s.sync.armed :=
  foldl_keeps (·.sync.armed) _ (fun t k => spareSite_armed t k) _ _

@[simp] theorem darkRepairs_armed : s.darkRepairs.sync.armed = s.sync.armed :=
  foldl_keeps (·.sync.armed) _ (fun t i => by split <;> simp) _ _

@[simp] theorem unloadProgram_armed : s.unloadProgram.sync.armed = s.sync.armed := by
  rw [State.unloadProgram]

/-- The program that a core reset took goes at the boundary (R324). -/
theorem endUnload_armed : (if s.arbiter.unload then
      { s.unloadProgram.toStandby with arbiter := { s.arbiter with unload := false } }
    else s).sync.armed = s.sync.armed := by
  split
  · exact (congrArg Sync.armed (withArbiter_sync ..)).trans (by simp)
  · rfl

@[simp] theorem openBreakers_sync (l : List Nat) (c : Code) (p : Place) (i : BitVec 64) (e : BitVec 64) :
    (l.foldl (fun s n => (s.openBreaker n).raise c p i n e) s).sync = s.sync :=
  foldl_keeps State.sync _ (fun t n => by simp) _ _

@[simp] theorem queueTests_sync (l : List Nat) (block lane : Nat) (full recal : Bool) (owed : List Owed) :
    (l.foldl (fun s p => s.queueTest p block lane full recal owed) s).sync = s.sync :=
  foldl_keeps State.sync _ (fun t p => by simp) _ _

@[simp] theorem wakeUnless_sync (c : Prop) [Decidable c] : (if c then s else s.wake).sync = s.sync := by
  split <;> simp

@[simp] theorem boundary_armed : s.boundary.sync.armed = s.sync.armed := by
  rw [State.boundary]
  split
  · rfl
  · exact (endUnload_armed _).trans (by simp)

/-! ### After row 6, a discard leaves the detector as it is (R345) -/

@[simp] theorem rescueFailed_sync : s.rescueFailed.sync = s.sync :=
  foldl_keeps State.sync _ (fun t (x : Nat × Nat) => handleLost_sync t x.1 x.2 false) _ _

@[simp] theorem repairTiles_armed (l : List Nat) (ok : Nat → Bool) (bad others : List Nat) :
    (l.foldl (fun s p => s.repairTile p (ok p) bad others) s).sync.armed = s.sync.armed :=
  foldl_keeps (·.sync.armed) _ (fun t p => repairTile_armed t p (ok p) bad others) _ _

@[simp] theorem discardRepairs_armed (tests : List DeadTest) : (s.discardRepairs tests).sync.armed = s.sync.armed := by
  simp [State.discardRepairs]

@[simp] theorem capture_sync (outcome : Nat) (cause : Code) : (s.capture outcome cause).sync = s.sync := by
  simp only [State.capture]
  (repeat' split) <;> rfl

@[simp] theorem finishDiscard_armed : s.finishDiscard.sync.armed = s.sync.armed := by
  rw [State.finishDiscard]
  split <;> simp

/-- The detector after DISCARD_RELEASE is as the release of row 6 left it. -/
theorem discardRelease_armed {tests : List DeadTest} (hphase : s.step.phase = .discarding) (hwindow : s.arbiter.windowOpen = false)
    (hreleased : s.arbiter.released = false) (hfatal : s.arbiter.fatal = none) :
    ∃ t, exec (.discardRelease tests) s = .next t ∧ t.sync.armed = s.releaseStep.sync.armed := by
  refine ⟨_, if_neg (by simp [hphase, hwindow, hreleased, hfatal]), ?_⟩
  split <;> simp

end

/-! ### A frame in the intake buffer as its step is discarded -/

/-- A discard whose cause has been chosen, in a module whose deadlock detector has fired and which holds a frame for its column's
multicast at port block 0. -/
def heldFrame : State := { State.reset with
  step := { phase := .discarding, current := ⟨1, 0, 0, 0, [128]⟩, expected := 1 }
  arbiter := { latched := [⟨0x6003, ⟨0xFFF, 0⟩, 900⟩], cause := some ⟨0x6003, ⟨0xFFF, 0⟩, 900⟩ }
  power := { state := .active, meshRun := true }
  pbs := [(0, { ready := [(5, [1, 2, 3])] })]
  sync := { armed := false } }

/-- Its release frees the frame's space, which is progress of the weight intake (Table 12-9), and progress arms the detector. -/
theorem heldFrame_releaseStep_armed : heldFrame.releaseStep.sync.armed = true := by decide +kernel

/-- Refutes O38: a discard that frees an intake buffer arms a deadlock detector that had fired (R293, R294, R345), so the sync engine
is not left as the discard of its objects and waiters alone leaves it (R287). -/
theorem not_discardEnds : ¬ Obligations.DiscardEnds := by
  unfold Obligations.DiscardEnds
  intro hall
  obtain ⟨hrelease, -⟩ := hall heldFrame
  obtain ⟨t, u, hexec, hboundary, -, -, -, -, hsync, -⟩ := hrelease [] _ rfl rfl rfl rfl rfl rfl rfl rfl rfl
  obtain ⟨t', hexec', harmed⟩ := discardRelease_armed heldFrame (tests := []) rfl rfl rfl rfl
  obtain rfl : t' = t := Host.Outcome.next.inj (hexec'.symm.trans hexec)
  have hdisarmed : t'.sync.armed = false := by rw [hboundary, boundary_armed, hsync]; rfl
  rw [harmed, heldFrame_releaseStep_armed] at hdisarmed
  exact absurd hdisarmed (by decide)

end Sys2Proof.Laws
end

section
/-! What every command keeps, whatever the state it comes to: the commands that wait behind it, and the canonical form of the
tile-local memories (log entry 1). One lemma for each operation of the model, in the order of its files, each citing those of the
operations it calls. -/

namespace Sys2Proof.Laws

open Sys2Proof.Machine Sys2Proof.Safety

/-- What every operation of a command keeps: the commands that wait, and the canonical form of the memories. -/
structure Keeps (s t : State) : Prop where
  pending : t.pending = s.pending
  memory : Memory.wf s.mem = true → Memory.wf t.mem = true

/-- What every command does: it leaves a state that keeps them, or is refused by the load's check of its descriptor. -/
def Settles (s : State) : Host.Outcome State Fault Refusal → Prop
  | .next t => Keeps s t
  | .fault _ => False
  | .refused r => ∃ code, r = .notLoadable code

variable {s₀ s t u : State}

theorem Keeps.refl (s : State) : Keeps s s := ⟨rfl, id⟩

theorem Keeps.of_eq (h : Keeps s t) (hp : u.pending = t.pending) (hm : u.mem = t.mem) : Keeps s u :=
  ⟨hp.trans h.pending, fun w => hm ▸ h.memory w⟩

theorem Keeps.of_mem (h : Keeps s t) (hp : u.pending = t.pending) (hm : Memory.wf t.mem = true → Memory.wf u.mem = true) :
    Keeps s u :=
  ⟨hp.trans h.pending, fun w => hm (h.memory w)⟩

theorem keeps_with (h : Keeps s t) {v n d st ch ti sy pb re li zo ri ma ho pr po se me rl ar rp pa su tr bo} :
    Keeps s (State.mk t.pending v n d st t.mem ch ti sy pb re li zo ri ma ho pr po se me rl ar rp pa su tr bo) := h.of_eq rfl rfl

theorem keeps_ite {c : Prop} [Decidable c] {a b : State} (ha : Keeps s a) (hb : Keeps s b) : Keeps s (if c then a else b) := by
  split <;> assumption

theorem keeps_ite_fst {α : Type} {c : Prop} [Decidable c] {a b : State × α} (ha : Keeps s a.1) (hb : Keeps s b.1) :
    Keeps s (if c then a else b).1 := by
  split <;> assumption

theorem keeps_ite_state {c : Prop} [Decidable c] {a b : Done} (ha : Keeps s a.state) (hb : Keeps s b.state) :
    Keeps s (if c then a else b).state := by
  split <;> assumption

theorem keeps_pair {α : Type} {x : α} (h : Keeps s t) : Keeps s (t, x).1 := h

theorem keeps_done {c : Code} {f : Nat} (h : Keeps s t) : Keeps s (Done.mk t c f).state := h

theorem keeps_foldl {α : Type} {g : State → α → State} (hg : ∀ u x, Keeps s u → Keeps s (g u x)) :
    ∀ (l : List α) {t : State}, Keeps s t → Keeps s (l.foldl g t)
  | [], _, h => h
  | x :: r, _, h => keeps_foldl hg r (hg _ x h)

theorem settles_next (h : Keeps s t) : Settles s (.next t) := h

theorem settles_ite {c : Prop} [Decidable c] {a b : Host.Outcome State Fault Refusal} (ha : Settles s a) (hb : Settles s b) :
    Settles s (if c then a else b) := by
  split <;> assumption

theorem keeps_foldl_fst {α β : Type} {g : State × β → α → State × β}
    (hg : ∀ a x, Keeps s a.1 → Keeps s (g a x).1) :
    ∀ (l : List α) {a : State × β}, Keeps s a.1 → Keeps s (l.foldl g a).1
  | [], _, h => h
  | x :: r, _, h => keeps_foldl_fst hg r (hg _ x h)

theorem copyRange_wf {m : List Host.Cell} (src dst n : Nat) (w : Memory.wf m = true) :
    Memory.wf (copyRange m src dst n) = true :=
  List.foldlRecOn (motive := fun m => Memory.wf m = true) _ _ (clearRange_wf _ _ w) fun _ k _ _ => wrByte_wf _ _ k

/-! ### Plain updates -/

theorem keeps_setTile (h : Keeps s₀ s) (p : Nat) (t : Tile) : Keeps s₀ (s.setTile p t) := keeps_with h

theorem keeps_updTile (h : Keeps s₀ s) (p : Nat) (f : Tile → Tile) : Keeps s₀ (s.updTile p f) := keeps_setTile h ..

theorem keeps_tileWrite (h : Keeps s₀ s) (p a : Nat) (b : Bytes) : Keeps s₀ (s.tileWrite p a b) :=
  h.of_mem rfl (wrBytes_wf _ b)

theorem keeps_tileClear (h : Keeps s₀ s) (p a n : Nat) : Keeps s₀ (s.tileClear p a n) :=
  h.of_mem rfl (clearRange_wf _ _)

theorem keeps_setPb (h : Keeps s₀ s) (n : Nat) (p : PbState) : Keeps s₀ (s.setPb n p) := keeps_with h

theorem keeps_updPb (h : Keeps s₀ s) (n : Nat) (f : PbState → PbState) : Keeps s₀ (s.updPb n f) := keeps_setPb h ..

theorem keeps_setLink (h : Keeps s₀ s) (n : Nat) (l : Link) : Keeps s₀ (s.setLink n l) := keeps_with h

theorem keeps_updLink (h : Keeps s₀ s) (n : Nat) (f : Link → Link) : Keeps s₀ (s.updLink n f) := keeps_setLink h ..

theorem keeps_activate (h : Keeps s₀ s) : Keeps s₀ s.activate := keeps_with h

theorem keeps_wake (h : Keeps s₀ s) : Keeps s₀ s.wake := keeps_ite (keeps_activate h) h

theorem keeps_draw (h : Keeps s₀ s) : Keeps s₀ (s.draw).2 := keeps_with h

theorem keeps_sendHost (h : Keeps s₀ s) (m : HostMsg) : Keeps s₀ (s.sendHost m) := keeps_with h

theorem keeps_sendRill (h : Keeps s₀ s) (m : RillMsg) : Keeps s₀ (s.sendRill m) := keeps_with h

theorem keeps_updSession (h : Keeps s₀ s) (id : Nat) (f : Session → Session) : Keeps s₀ (s.updSession id f) :=
  keeps_with h

/-! ### Reports (R315 to R317, R342, R389) -/

theorem keeps_updTrace (h : Keeps s₀ s) (f : Trace → Trace) : Keeps s₀ (s.updTrace f) := keeps_with h

theorem keeps_setRing (h : Keeps s₀ s) (k : Nat) (r : Ring) : Keeps s₀ (s.setRing k r) := keeps_with h

theorem keeps_traceTo (h : Keeps s₀ s) (k : Nat) (x : TraceRec) : Keeps s₀ (s.traceTo k x) := by
  unfold State.traceTo
  refine keeps_ite h ?_
  split
  · exact keeps_ite (keeps_with (keeps_setRing h ..)) (keeps_setRing h ..)
  · exact keeps_setRing h ..

theorem keeps_trace1 (h : Keeps s₀ s) (x : TraceRec) : Keeps s₀ (s.trace1 x) := keeps_traceTo h ..

theorem keeps_traceAt (h : Keeps s₀ s) (kind : Nat) (keep : Bool) (site : BitVec 12) (cid : BitVec 64) (data : Nat) :
    Keeps s₀ (s.traceAt kind keep site cid data) :=
  keeps_trace1 h ..

theorem keeps_closeSession (h : Keeps s₀ s) (id : Nat) (status : Code) : Keeps s₀ (s.closeSession id status) :=
  keeps_with h

theorem keeps_eventTo (h : Keeps s₀ s) (id : Nat) (e : Event) : Keeps s₀ (s.eventTo id e) := by
  unfold State.eventTo
  split
  · exact h
  · exact keeps_ite (keeps_ite (keeps_closeSession h ..) (keeps_sendHost (keeps_updSession h ..) ..)) (keeps_ite
      (keeps_updSession h ..) (keeps_sendHost (keeps_updSession h ..) ..))

theorem keeps_sendEvent (h : Keeps s₀ s) (e : Event) : Keeps s₀ (s.sendEvent e) :=
  keeps_foldl (fun _ _ k0 => keeps_eventTo k0 ..) _ h

theorem keeps_count (h : Keeps s₀ s) (p idx n : Nat) : Keeps s₀ (s.count p idx n) := keeps_updTile h ..

theorem keeps_startUnit (h : Keeps s₀ s) (p unit : Nat) (cid : BitVec 64) : Keeps s₀ (s.startUnit p unit cid) :=
  keeps_updTile h ..

theorem keeps_beginPhase (h : Keeps s₀ s) (ph : Phase) : Keeps s₀ (s.beginPhase ph) := keeps_traceAt (keeps_with h) ..

theorem keeps_endPhase (h : Keeps s₀ s) (ph : Phase) : Keeps s₀ (s.endPhase ph) := keeps_with h

theorem keeps_voidPhase (h : Keeps s₀ s) (ph : Phase) : Keeps s₀ (s.voidPhase ph) := keeps_with h

theorem keeps_latch (h : Keeps s₀ s) (code : Code) (p : Place) : Keeps s₀ (s.latch code p) :=
  keeps_ite (keeps_with h) (keeps_ite (keeps_traceAt (keeps_sendRill (keeps_with h) ..) ..) h)

theorem keeps_freezeRings (h : Keeps s₀ s) : Keeps s₀ s.freezeRings := keeps_updTrace h ..

theorem keeps_startFatal (h : Keeps s₀ s) (code : Code) : Keeps s₀ (s.startFatal code) := by
  unfold State.startFatal
  split
  · exact keeps_with h
  · exact keeps_sendRill (keeps_freezeRings (keeps_with h)) ..

theorem keeps_noteDeath (h : Keeps s₀ s) (code : Code) (p : Place) : Keeps s₀ (s.noteDeath code p) :=
  keeps_ite (keeps_with h) h

theorem keeps_raise (h : Keeps s₀ s) (code : Code) (p : Place) (cid : BitVec 64) (detail : Nat) (detail2 : BitVec 64)
    :
    Keeps s₀ (s.raise code p cid detail detail2) :=
  keeps_ite h (keeps_ite (keeps_latch (keeps_noteDeath (keeps_ite (keeps_traceAt h ..) (keeps_sendEvent (keeps_traceAt
    h ..) ..)) ..) ..) (keeps_ite (keeps_startFatal (keeps_noteDeath (keeps_ite (keeps_traceAt h ..) (keeps_sendEvent
    (keeps_traceAt h ..) ..)) ..) ..) (keeps_noteDeath (keeps_ite (keeps_traceAt h ..) (keeps_sendEvent (keeps_traceAt
    h ..) ..)) ..)))

theorem keeps_commandDone (h : Keeps s₀ s) (o : Owed) (status : Code) : Keeps s₀ (s.commandDone o status) :=
  keeps_sendEvent h ..

/-! ### The Rill (R68 to R70) -/

theorem keeps_bounce (h : Keeps s₀ s) (m : RillMsg) : Keeps s₀ (s.bounce m) := keeps_sendRill h ..

theorem keeps_rillAt (h : Keeps s₀ s) (m : RillMsg) {f : State → State} (hf : ∀ u, Keeps s₀ u → Keeps s₀ (f u)) :
    Keeps s₀ (s.rillAt m f) :=
  keeps_ite (hf _ h) (keeps_bounce h ..)

theorem keeps_loadRill (h : Keeps s₀ s) : Keeps s₀ s.loadRill := keeps_with h

/-! ### Datagrams (R304) -/

theorem keeps_dropOne (h : Keeps s₀ s) : Keeps s₀ (dropOne s) := keeps_with h

theorem keeps_tagFailed (h : Keeps s₀ s) (session : Nat) : Keeps s₀ (s.tagFailed session) :=
  keeps_dropOne (keeps_with h)

theorem keeps_heard (h : Keeps s₀ s) (id : Nat) : Keeps s₀ (s.heard id) := keeps_updSession h ..

theorem keeps_gather (h : Keeps s₀ s) (session seq : Nat) (d : Dgram) : Keeps s₀ (s.gather session seq d).1 :=
  keeps_pair (keeps_with h)

theorem keeps_takeDgram (h : Keeps s₀ s) (session seq : Nat) (kind : BitVec 8) (d : Dgram) {act : State → State} (hf :
    ∀ u, Keeps s₀ u → Keeps s₀ (act u)) :
    Keeps s₀ (s.takeDgram session seq kind d act) :=
  keeps_ite h (keeps_ite (keeps_dropOne h) (keeps_ite (keeps_tagFailed h ..) (keeps_ite (hf _ (keeps_gather
    (keeps_heard h ..) ..)) (keeps_gather (keeps_heard h ..) ..))))

/-! ### The record slabs (R24, R51, R397) -/

theorem keeps_cureRecord (h : Keeps s₀ s) : Keeps s₀ s.cureRecord := keeps_foldl (fun _ _ k0 => keeps_with k0) _ h

theorem keeps_writeRecord (h : Keeps s₀ s) (c : CommitRec) : Keeps s₀ (s.writeRecord c) :=
  keeps_cureRecord (keeps_with h)

theorem keeps_moveRecord (h : Keeps s₀ s) : Keeps s₀ s.moveRecord := by
  unfold State.moveRecord
  refine keeps_writeRecord ?_ ..
  split
  · exact h
  · exact keeps_with h

theorem keeps_putRecordByte (h : Keeps s₀ s) (r : RecordKind) (o : Nat) (v : Byte) :
    Keeps s₀ (s.putRecordByte r o v) := by
  unfold State.putRecordByte
  split
  · exact keeps_with h
  · exact keeps_with h
  · exact keeps_with h
  · exact keeps_ite (keeps_with h) h
  · exact keeps_ite (keeps_ite (keeps_with h) h) (keeps_ite (keeps_with h) h)
  · exact h
  · exact keeps_with h

theorem keeps_putSlabByte (h : Keeps s₀ s) (p o : Nat) (v : Byte) : Keeps s₀ (s.putSlabByte p o v) := by
  unfold State.putSlabByte
  refine keeps_ite (keeps_tileWrite h ..) ?_
  split
  · exact keeps_tileWrite h ..
  · refine keeps_ite (keeps_with (keeps_tileWrite h ..)) ?_
    refine keeps_ite (keeps_with (keeps_tileWrite h ..)) ?_
    refine keeps_ite ?_ (keeps_tileWrite h ..)
    split
    · exact keeps_putRecordByte (keeps_tileWrite h ..) ..
    · exact keeps_tileWrite h ..

theorem keeps_maintStore (h : Keeps s₀ s) (p a : Nat) (b : Bytes) : Keeps s₀ (s.maintStore p a b) :=
  keeps_ite (keeps_tileWrite (keeps_foldl (fun _ _ k0 => keeps_putSlabByte k0 ..) _ h) ..) (keeps_tileWrite h ..)

/-! ### Check words of run-time accesses (R237, R238) -/

theorem keeps_poisonWrite (h : Keeps s₀ s) (p a : Nat) (b : Bytes) : Keeps s₀ (s.poisonWrite p a b) :=
  keeps_with (keeps_tileWrite h ..)

theorem keeps_writeSlot (h : Keeps s₀ s) (p slot : Nat) (b : Bytes) : Keeps s₀ (s.writeSlot p slot b) :=
  keeps_tileWrite (keeps_tileClear h ..) ..

/-! ### Sending on Zlinks (R257 to R264) -/

theorem keeps_progress (h : Keeps s₀ s) (q : Nat) : Keeps s₀ (s.progress q) := keeps_with h

theorem keeps_trySwitch (h : Keeps s₀ s) (n : Nat) : Keeps s₀ (s.trySwitch n) := by
  unfold State.trySwitch
  split
  · exact keeps_raise (keeps_updLink h ..) ..
  · exact h

theorem keeps_flushLink (h : Keeps s₀ s) (n : Nat) : Keeps s₀ (s.flushLink n) :=
  keeps_trySwitch (keeps_updLink h ..) ..

theorem keeps_linkRecord (h : Keeps s₀ s) (n : Nat) (r : LinkRecord) : Keeps s₀ (s.linkRecord n r) :=
  keeps_flushLink (keeps_updLink h ..) ..

theorem keeps_giveCredit (h : Keeps s₀ s) (n c flits : Nat) : Keeps s₀ (s.giveCredit n c flits) :=
  keeps_ite h (keeps_linkRecord (keeps_updLink h ..) ..)

theorem keeps_zSend (h : Keeps s₀ s) (pb : Nat) (m : ZMsg) : Keeps s₀ (s.zSend pb m) := by
  unfold State.zSend
  refine keeps_ite h ?_
  split
  · exact keeps_flushLink (keeps_with (keeps_updLink h ..)) ..
  · exact h

theorem keeps_zSendCounted (h : Keeps s₀ s) (pb channel : Nat) (m : ZMsg) : Keeps s₀ (s.zSendCounted pb channel m) :=
  keeps_updPb (keeps_zSend h ..) ..

theorem keeps_freeIntake (h : Keeps s₀ s) (pb n : Nat) : Keeps s₀ (s.freeIntake pb n) :=
  keeps_progress (keeps_giveCredit h ..) ..

theorem keeps_freeFrame (h : Keeps s₀ s) (pb q : Nat) : Keeps s₀ (s.freeFrame pb q) := by
  unfold State.freeFrame
  split
  · exact keeps_freeIntake (keeps_updPb h ..) ..
  · exact h

theorem keeps_emptyIntake (h : Keeps s₀ s) (pb : Nat) : Keeps s₀ (s.emptyIntake pb) :=
  keeps_foldl (fun _ _ k0 => keeps_freeIntake k0 ..) _ (keeps_setPb h ..)

/-! ### The scheduled mesh (R56 to R67) -/

theorem keeps_updMesh (h : Keeps s₀ s) (f : Mesh → Mesh) : Keeps s₀ (s.updMesh f) := keeps_with h

theorem keeps_deliverFlit (h : Keeps s₀ s) (site : Nat) (f : MeshFlit) : Keeps s₀ (s.deliverFlit site f) := by
  unfold State.deliverFlit
  refine keeps_ite h ?_
  split
  · split
    · split
      · exact keeps_ite (keeps_updMesh (keeps_count h ..) ..) (keeps_count h ..)
      · exact keeps_count h ..
    · exact keeps_count h ..
  · refine keeps_ite ?_ ?_
    · refine keeps_updTile ?_ ..
      split
      · exact keeps_updMesh (keeps_count h ..) ..
      · exact keeps_count h ..
    · split
      · refine keeps_raise ?_ ..
        split
        · exact keeps_updMesh (keeps_count h ..) ..
        · exact keeps_count h ..
      · refine keeps_ite ?_ ?_
        · refine keeps_poisonWrite ?_ ..
          split
          · exact keeps_updMesh (keeps_count h ..) ..
          · exact keeps_count h ..
        · refine keeps_tileWrite ?_ ..
          split
          · exact keeps_updMesh (keeps_count h ..) ..
          · exact keeps_count h ..

theorem keeps_receiveFlit (h : Keeps s₀ s) (site port : Nat) (f : MeshFlit) :
    Keeps s₀ (s.receiveFlit site port f).1 :=
  keeps_ite_fst (keeps_pair (keeps_updMesh h ..)) (keeps_ite_fst (keeps_pair (keeps_raise h ..)) h)

theorem keeps_emitFlit (h : Keeps s₀ s) (n site out : Nat) (f : MeshFlit) : Keeps s₀ (s.emitFlit n site out f) := by
  unfold State.emitFlit
  refine keeps_ite (keeps_deliverFlit h ..) ?_
  split
  · exact h
  · refine keeps_ite h ?_
    split
    · exact keeps_updMesh h ..
    · exact keeps_updMesh h ..

theorem keeps_meshFault (h : Keeps s₀ s) (site port : Nat) (code : Code) : Keeps s₀ (s.meshFault site port code) :=
  keeps_raise h ..

theorem keeps_resolveInput (h : Keeps s₀ s) (n site : Nat) (e : BitVec 64) (port : Nat) :
    Keeps s₀ (s.resolveInput n site e port).1 := by
  dsimp only [State.resolveInput]
  split
  · exact keeps_ite_fst (keeps_pair (keeps_meshFault (keeps_ite (keeps_ite (keeps_meshFault (keeps_updMesh h ..) ..)
      (keeps_updMesh (keeps_updMesh h ..) ..)) (keeps_updMesh h ..)) ..)) (keeps_pair (keeps_ite (keeps_ite
      (keeps_meshFault (keeps_updMesh h ..) ..) (keeps_updMesh (keeps_updMesh h ..) ..)) (keeps_updMesh h ..)))
  · exact keeps_ite_fst (keeps_ite_fst (keeps_pair (keeps_meshFault (keeps_receiveFlit (keeps_ite (keeps_ite
      (keeps_meshFault (keeps_updMesh h ..) ..) (keeps_updMesh (keeps_updMesh h ..) ..)) (keeps_updMesh h ..)) ..)
      ..)) (keeps_pair (keeps_receiveFlit (keeps_ite (keeps_ite (keeps_meshFault (keeps_updMesh h ..) ..)
      (keeps_updMesh (keeps_updMesh h ..) ..)) (keeps_updMesh h ..)) ..))) (keeps_ite_fst (keeps_pair (keeps_ite
      (keeps_ite (keeps_ite (keeps_meshFault (keeps_updMesh h ..) ..) (keeps_updMesh (keeps_updMesh h ..) ..))
      (keeps_updMesh h ..)) (keeps_meshFault (keeps_ite (keeps_ite (keeps_meshFault (keeps_updMesh h ..) ..)
      (keeps_updMesh (keeps_updMesh h ..) ..)) (keeps_updMesh h ..)) ..))) (keeps_ite_fst (keeps_pair (keeps_meshFault
      (keeps_ite (keeps_ite (keeps_meshFault (keeps_updMesh h ..) ..) (keeps_updMesh (keeps_updMesh h ..) ..))
      (keeps_updMesh h ..)) ..)) (keeps_pair (keeps_meshFault (keeps_ite (keeps_ite (keeps_meshFault (keeps_updMesh h
      ..) ..) (keeps_updMesh (keeps_updMesh h ..) ..)) (keeps_updMesh h ..)) ..))))

theorem keeps_ownOutgoing (h : Keeps s₀ s) (n site : Nat) (e : BitVec 64) : Keeps s₀ (s.ownOutgoing n site e).1 := by
  unfold State.ownOutgoing
  refine keeps_ite_fst h ?_
  split
  · exact h
  · split
    · exact keeps_pair (keeps_meshFault h ..)
    · refine keeps_pair ?_
      refine keeps_ite ?_ ?_
      · refine keeps_count ?_ ..
        split
        · exact keeps_ite (keeps_freeFrame (keeps_updMesh h ..) ..) (keeps_updMesh h ..)
        · exact keeps_updMesh h ..
      · split
        · exact keeps_ite (keeps_freeFrame (keeps_updMesh h ..) ..) (keeps_updMesh h ..)
        · exact keeps_updMesh h ..

theorem keeps_routerCycle (h : Keeps s₀ s) (n site : Nat) : Keeps s₀ (State.routerCycle n s site) := by
  unfold State.routerCycle
  refine keeps_foldl (fun _ _ k => ?_) _ (keeps_ownOutgoing
    (keeps_foldl_fst (fun _ _ k => keeps_pair (keeps_resolveInput k ..)) _ h) ..)
  split
  · exact keeps_emitFlit k ..
  · exact k

theorem keeps_halfCycle (h : Keeps s₀ s) (west : Bool) : Keeps s₀ (s.halfCycle west) :=
  keeps_updMesh (keeps_foldl (fun _ _ k0 => keeps_routerCycle k0 ..) _ h) ..

theorem keeps_tryHalf (h : Keeps s₀ s) (west : Bool) : Keeps s₀ (s.tryHalf west).1 :=
  keeps_ite_fst (keeps_pair (keeps_halfCycle h ..)) h

theorem keeps_meshCycle (h : Keeps s₀ s) : Keeps s₀ (s.meshCycle).1 :=
  keeps_ite_fst (keeps_pair (keeps_tryHalf (keeps_tryHalf h ..) ..)) (keeps_ite_fst (keeps_pair (keeps_ite
    (keeps_halfCycle (keeps_halfCycle h ..) ..) (keeps_halfCycle h ..))) h)

theorem keeps_noteHold (h : Keeps s₀ s) : Keeps s₀ s.noteHold :=
  keeps_ite (keeps_updMesh h ..) (keeps_ite h (keeps_updMesh (keeps_foldl (fun _ _ k0 => keeps_traceAt (keeps_draw k0)
    ..) _ h) ..))

theorem keeps_runMesh : ∀ (fuel : Nat) {s : State}, Keeps s₀ s → Keeps s₀ (State.runMesh fuel s)
  | 0, _, h => h
  | n + 1, _, h => keeps_ite (keeps_runMesh n (keeps_meshCycle h)) (keeps_noteHold (keeps_meshCycle h))

theorem keeps_pumpMesh (h : Keeps s₀ s) : Keeps s₀ s.pumpMesh := keeps_ite h (keeps_runMesh _ h)

theorem keeps_sendBound (h : Keeps s₀ s) (t : Nat) (cid : BitVec 64) : Keeps s₀ (s.sendBound t cid) :=
  keeps_ite h (keeps_pumpMesh (keeps_updMesh h ..))

theorem keeps_repeatTransfer (h : Keeps s₀ s) (i : Nat) : Keeps s₀ (s.repeatTransfer i) := by
  unfold State.repeatTransfer
  split
  · exact keeps_ite (keeps_updMesh h ..) (keeps_tileWrite (keeps_updMesh h ..) ..)
  · exact keeps_updMesh h ..

/-! ### Tile commands and refires (R239 to R250) -/

theorem keeps_queueTest (h : Keeps s₀ s) (site block lane : Nat) (full recal : Bool) (owed : List Owed) :
    Keeps s₀ (s.queueTest site block lane full recal owed) :=
  keeps_ite (keeps_with h) (keeps_with h)

theorem keeps_noteDetection (h : Keeps s₀ s) (site block lane : Nat) : Keeps s₀ (s.noteDetection site block lane) :=
  keeps_ite (keeps_raise (keeps_with (keeps_with h)) ..) (keeps_with h)

theorem keeps_detect (h : Keeps s₀ s) (code : Code) (site block lane : Nat) (cid : BitVec 64) (detail : Nat) :
    Keeps s₀ (s.detect code site block lane cid detail) :=
  keeps_queueTest (keeps_noteDetection (keeps_raise h ..) ..) ..

theorem keeps_countRefire (h : Keeps s₀ s) (suspect : Bool) : Keeps s₀ (s.countRefire suspect) := keeps_with h

theorem keeps_refireAll (p unitBlock : Nat) (cid : BitVec 64) : ∀ (l : List (List Code)) (done : Nat) {s : State},
    Keeps s₀ s → Keeps s₀ (s.refireAll p unitBlock cid done l).1
  | [], _, _, h => h
  | cs :: r, done, s, h => by
    have hs := keeps_foldl (g := fun s c => (s.detect c p (blockOfCode unitBlock c) 0 cid 0).count p 13 1)
      (fun _ _ k => keeps_count (keeps_detect k ..) ..) cs h
    exact keeps_ite_fst (keeps_refireAll p unitBlock cid r _ (keeps_traceAt (keeps_count (keeps_countRefire hs ..) ..) ..))
      (keeps_pair (keeps_raise hs ..))

theorem keeps_suspectRefire (h : Keeps s₀ s) (p unitBlock : Nat) (cid : BitVec 64) (done : Nat) (seen : List (BitVec
    64)) (second : BitVec 64) :
    Keeps s₀ (s.suspectRefire p unitBlock cid done seen second).1 :=
  keeps_ite_fst (keeps_pair (keeps_traceAt (keeps_count (keeps_countRefire h ..) ..) ..)) (keeps_ite_fst (keeps_pair
    (keeps_raise (keeps_raise (keeps_traceAt (keeps_count (keeps_countRefire h ..) ..) ..) ..) ..)) (keeps_ite_fst
    (keeps_pair (keeps_with (keeps_count (keeps_countRefire (keeps_raise (keeps_traceAt (keeps_count
    (keeps_countRefire h ..) ..) ..) ..) ..) ..))) (keeps_pair (keeps_raise (keeps_count (keeps_countRefire
    (keeps_raise (keeps_traceAt (keeps_count (keeps_countRefire h ..) ..) ..) ..) ..) ..) ..))))

theorem keeps_settle (h : Keeps s₀ s) (t : Site) (p : Nat) (u : RefireUnit) : Keeps s₀ (s.settle t p u).1 :=
  keeps_ite_fst (keeps_refireAll _ _ _ _ _ h) (keeps_suspectRefire (keeps_refireAll _ _ _ _ _ h) ..)

theorem keeps_tileFault (h : Keeps s₀ s) (p unitBlock : Nat) (cid : BitVec 64) (code : Code) :
    Keeps s₀ (s.tileFault p unitBlock cid code) :=
  keeps_raise h ..

theorem keeps_cmdStart (h : Keeps s₀ s) (p unit opcode : Nat) (cid : BitVec 64) :
    Keeps s₀ (s.cmdStart p unit opcode cid) :=
  keeps_traceAt (keeps_startUnit (keeps_updTile h ..) ..) ..

theorem keeps_cmdEnd (h : Keeps s₀ s) (p : Nat) (cid : BitVec 64) (status : Code) (flags : Nat) :
    Keeps s₀ (s.cmdEnd p cid status flags) :=
  keeps_traceAt (keeps_updTile (keeps_draw h) ..) ..

theorem keeps_consumePoison (h : Keeps s₀ s) (t : Site) (cid : BitVec 64) : Keeps s₀ (s.consumePoison t cid).1 := by
  unfold State.consumePoison
  split
  · exact h
  · exact keeps_pair (keeps_foldl (fun _ _ k0 => keeps_repeatTransfer k0 ..) _ h)

theorem settles_tileCmd (s : State) (t : Site) (cid : BitVec 64) (opcode unit : Nat) (check : Option Code)
    (during : List Phase) {body : Site → Nat → State → Done} (hb : ∀ x p u, Keeps s u → Keeps s (body x p u).state) :
    Settles s (tileCmd t cid opcode unit check body s during) := by
  unfold tileCmd
  refine settles_ite (.refl s) ?_
  split
  · exact ⟨_, rfl⟩
  · have hr {x p} := hb x p _ (keeps_consumePoison (keeps_cmdStart (.refl s) (physOf s.repair t.tile) unit opcode cid) t cid)
    exact settles_ite (keeps_ite (keeps_sendBound (keeps_cmdEnd hr ..) ..) (keeps_cmdEnd hr ..)) (.refl s)

/-! ### The vector engine (R180 to R191, R210) -/

theorem keeps_vecFlag (h : Keeps s₀ s) (p : Nat) (f : Flags) : Keeps s₀ (s.vecFlag p f) := keeps_updTile h ..

theorem keeps_vecRefired (h : Keeps s₀ s) (p refires : Nat) : Keeps s₀ (s.vecRefired p refires) :=
  keeps_ite h (keeps_updTile h ..)

theorem keeps_keepFailing (h : Keeps s₀ s) (t : Site) (p op : Nat) (d : VecDesc) (status : Code) :
    Keeps s₀ (s.keepFailing t p op d status) :=
  keeps_ite (keeps_with h) h

theorem keeps_vecCommit (h : Keeps s₀ s) (t : Site) (cid : BitVec 64) (p dst : Nat) (reads : List Span) (out : Bytes ×
    Flags) :
    Keeps s₀ (vecCommit t cid p dst reads out s).state := by
  unfold vecCommit
  split
  · exact keeps_done (keeps_tileFault h ..)
  · exact keeps_ite_state (keeps_done (keeps_vecRefired (keeps_settle h ..) ..)) (keeps_done (keeps_vecFlag
      (keeps_tileWrite (keeps_vecRefired (keeps_settle h ..) ..) ..) ..))

theorem settles_vecOp (s : State) (op : Nat) (t : Site) (d : VecDesc) : Settles s (vecOp op t d s) :=
  settles_tileCmd _ _ _ _ _ _ _ (fun _ _ _ k0 => keeps_done (keeps_keepFailing (keeps_vecCommit k0 ..) ..))

theorem settles_execPaletteLoad (s : State) (t : Site) (d : PaletteDesc) : Settles s (execPaletteLoad t d s) :=
  settles_tileCmd _ _ _ _ _ _ _ (fun _ _ _ k0 => keeps_ite_state (keeps_done (keeps_vecRefired (keeps_settle k0 ..)
    ..)) (keeps_done (keeps_updTile (keeps_tileWrite (keeps_vecRefired (keeps_settle k0 ..) ..) ..) ..)))

theorem settles_execLossReport (s : State) (t : Site) (d : LossDesc) : Settles s (execLossReport t d s) :=
  settles_tileCmd _ _ _ _ _ _ _ (fun _ _ _ k0 => keeps_ite_state k0 (keeps_ite_state (keeps_done (keeps_vecRefired
    (keeps_settle k0 ..) ..)) (keeps_done (keeps_with (keeps_vecFlag (keeps_vecRefired (keeps_settle k0 ..) ..)
    ..)))))

theorem keeps_recvPass (h : Keeps s₀ s) (t : Site) (p : Nat) (d : RecvDesc) (data : Bytes) (pass : Nat) :
    Keeps s₀ (s.recvPass t p d data pass).2.state :=
  keeps_ite_state (keeps_settle h ..) (keeps_vecFlag (keeps_tileWrite (keeps_settle h ..) ..) ..)

theorem keeps_recvPasses (site : Nat → Site) (p : Nat) (d : RecvDesc) (data : Bytes) : ∀ (l : List Nat) {s : State},
    Keeps s₀ s → Keeps s₀ (s.recvPasses site p d data l).2.state
  | [], _, h => h
  | k :: r, s, h => by
    have hx := keeps_recvPass h (site k) p d data k
    dsimp only [State.recvPasses]
    split
    · exact hx
    · exact keeps_recvPasses site p d data r hx

theorem settles_execRecvAdd (s : State) (t : Site) (c : RecvCmd) : Settles s (execRecvAdd t c s) := by
  unfold execRecvAdd
  refine settles_ite (.refl s) (settles_tileCmd _ _ _ _ _ _ _ fun _ _ _ k => ?_)
  split
  · exact keeps_tileFault k ..
  · exact keeps_done (keeps_vecRefired (keeps_recvPasses _ _ _ _ _ (keeps_updTile k ..)) ..)

/-! ### Shard slices (R192 to R198) -/

theorem keeps_setEntry (h : Keeps s₀ s) (t lp : Nat) (e : BitVec 64) : Keeps s₀ (s.setEntry t lp e) := keeps_with h

theorem keeps_failPage (h : Keeps s₀ s) (t p page : Nat) (cid : BitVec 64) : Keeps s₀ (s.failPage t p page cid) :=
  keeps_with (keeps_raise h ..)

theorem keeps_settleShard (h : Keeps s₀ s) (t : Site) (p : Nat) (lps : List Nat) (u : RefireUnit) :
    Keeps s₀ (s.settleShard t p lps u).1 := by
  unfold State.settleShard
  refine keeps_ite_fst ?_ (keeps_settle h ..)
  split
  · exact keeps_pair (keeps_failPage (keeps_settle h ..) ..)
  · exact keeps_settle h ..

theorem keeps_firstTouch (h : Keeps s₀ s) (t lp : Nat) : Keeps s₀ (s.firstTouch t lp) := by
  unfold State.firstTouch
  refine keeps_ite ?_ ?_
  · refine keeps_with ?_
    refine keeps_setEntry ?_ ..
    split
    · exact keeps_tileWrite h ..
    · exact h
  · refine keeps_setEntry ?_ ..
    split
    · exact keeps_tileWrite h ..
    · exact h

theorem keeps_shardWrite (h : Keeps s₀ s) (t off : Nat) (b : Bytes) : Keeps s₀ (s.shardWrite t off b) := by
  dsimp only [State.shardWrite]
  refine keeps_foldl (fun _ _ k0 => ?_) _ h
  split
  · exact keeps_tileWrite (keeps_ite (keeps_firstTouch k0 ..) k0) ..
  · exact keeps_ite (keeps_firstTouch k0 ..) k0

theorem keeps_mapEntries (h : Keeps s₀ s) (f : Nat → BitVec 64 → BitVec 64) : Keeps s₀ (s.mapEntries f) :=
  keeps_with h

theorem keeps_releaseNext (h : Keeps s₀ s) : Keeps s₀ s.releaseNext := keeps_with (keeps_mapEntries h ..)

theorem keeps_releaseOld (h : Keeps s₀ s) (keep : Bool) : Keeps s₀ (s.releaseOld keep) :=
  keeps_with (keeps_mapEntries h ..)

theorem keeps_retag (h : Keeps s₀ s) : Keeps s₀ s.retag := by
  dsimp only [State.retag]
  exact keeps_mapEntries h ..

/-! ### Masks (R149 to R152) -/

theorem settles_maskPending (s : State) (t : Site) (d : MaskDesc) (opcode op : Nat) (make : State → Nat → Nat → Nat) :
    Settles s (maskPending t d opcode op make s) := by
  unfold maskPending
  refine settles_tileCmd _ _ _ _ _ _ _ (fun _ _ _ k0 => ?_)
  split
  · exact keeps_done (keeps_tileFault k0 ..)
  · split
    · exact keeps_done (keeps_tileFault k0 ..)
    · exact keeps_ite_state (keeps_done (keeps_settleShard k0 ..)) (keeps_done (keeps_tileWrite (keeps_settleShard k0
        ..) ..))

theorem settles_execPruneTopk (s : State) (t : Site) (d : MaskDesc) : Settles s (execPruneTopk t d s) :=
  settles_maskPending ..

theorem settles_execPruneThreshold (s : State) (t : Site) (d : MaskDesc) : Settles s (execPruneThreshold t d s) :=
  settles_maskPending ..

theorem settles_execRegrow (s : State) (t : Site) (d : MaskDesc) : Settles s (execRegrow t d s) :=
  settles_maskPending ..

theorem keeps_touchWait (h : Keeps s₀ s) (t : Nat) (cid : BitVec 64) : Keeps s₀ (s.touchWait t cid) := by
  dsimp only [State.touchWait]
  exact keeps_raise (keeps_updTile h ..) ..

theorem settles_execMaskCommit (s : State) (t : Site) (d : MaskDesc) : Settles s (execMaskCommit t d s) := by
  dsimp only [execMaskCommit]
  refine settles_ite (keeps_touchWait (.refl _) ..) ?_
  refine settles_tileCmd _ _ _ _ _ _ _ (fun _ _ _ k0 => ?_)
  split
  · split
    · exact keeps_done (keeps_tileFault (keeps_updTile k0 ..) ..)
    · exact keeps_ite_state (keeps_done (keeps_settleShard (keeps_updTile k0 ..) ..)) (keeps_done (keeps_with
        (keeps_foldl (fun _ _ k1 => keeps_shardWrite k1 ..) _ (keeps_settleShard (keeps_updTile k0 ..) ..))))
  · exact keeps_done (keeps_tileFault (keeps_updTile k0 ..) ..)

/-! ### The optimizer (R201 to R203) -/

theorem settles_execOptStep (s : State) (t : Site) (d : OptDesc) : Settles s (execOptStep t d s) :=
  settles_ite (keeps_touchWait (.refl _) ..) (settles_tileCmd _ _ _ _ _ _ _ (fun _ _ _ k0 => keeps_ite_state
    (keeps_done (keeps_tileFault (keeps_updTile k0 ..) ..)) (keeps_ite_state (keeps_done (keeps_vecRefired
    (keeps_settleShard (keeps_updTile k0 ..) ..) ..)) (keeps_done (keeps_vecFlag (keeps_foldl (fun _ _ k1 =>
    keeps_shardWrite k1 ..) _ (keeps_vecRefired (keeps_settleShard (keeps_updTile k0 ..) ..) ..)) ..)))))

/-! ### Dense products (R72 to R102) -/

theorem keeps_countChecks (h : Keeps s₀ s) (p : Nat) (cid : BitVec 64) (t : Tally) :
    Keeps s₀ (s.countChecks p cid t) :=
  keeps_traceAt (keeps_with h) ..

theorem keeps_writeRows (h : Keeps s₀ s) (p : Nat) (rows : List (Nat × Bytes)) : Keeps s₀ (s.writeRows p rows) :=
  keeps_foldl (fun _ _ k0 => keeps_tileWrite k0 ..) _ h

theorem keeps_holdCanvas (h : Keeps s₀ s) (tile p : Nat) (cid : BitVec 64) (cells : List (BitVec 36)) :
    Keeps s₀ (s.holdCanvas tile p cid cells) :=
  keeps_updTile h ..

theorem keeps_putRecord (h : Keeps s₀ s) (p : Nat) (cid : BitVec 64) (addr : Nat) (status : Code) (flags : Nat) (t :
    Tally) :
    Keeps s₀ (s.putRecord p cid addr status flags t) := by
  unfold State.putRecord
  refine keeps_countChecks ?_ ..
  split
  · exact keeps_tileFault h ..
  · exact keeps_tileWrite h ..

theorem keeps_engineCmd (h : Keeps s₀ s) (t : Site) (d : DenseDesc) (l : Lanes) (masked : Bool) (drained : State →
    Canvas → Drained) (p : Nat) :
    Keeps s₀ (engineCmd t d l masked drained p s).state := by
  dsimp only [engineCmd]
  refine keeps_ite_state (keeps_done (keeps_ite (keeps_putRecord (keeps_tileFault h ..) ..) (keeps_tileFault h ..)))
    ?_
  refine keeps_ite_state ?_ (keeps_done (keeps_updTile (keeps_refireAll _ _ _ _ _ (keeps_count h ..)) ..))
  refine keeps_ite_state (keeps_done (keeps_ite (keeps_putRecord (keeps_updTile (keeps_settle (keeps_count h ..) ..)
    ..) ..) (keeps_updTile (keeps_settle (keeps_count h ..) ..) ..))) ?_
  split
  · exact keeps_done (keeps_ite (keeps_putRecord (keeps_updTile (keeps_tileFault (keeps_settle (keeps_count h ..) ..)
      ..) ..) ..) (keeps_updTile (keeps_tileFault (keeps_settle (keeps_count h ..) ..) ..) ..))
  · refine keeps_done ?_
    refine keeps_ite ?_ ?_
    · refine keeps_putRecord ?_ ..
      refine keeps_writeRows ?_ ..
      split
      · exact keeps_holdCanvas (keeps_updTile (keeps_settle (keeps_count h ..) ..) ..) ..
      · exact keeps_updTile (keeps_settle (keeps_count h ..) ..) ..
    · refine keeps_writeRows ?_ ..
      split
      · exact keeps_holdCanvas (keeps_updTile (keeps_settle (keeps_count h ..) ..) ..) ..
      · exact keeps_updTile (keeps_settle (keeps_count h ..) ..) ..

theorem settles_execDenseMm (s : State) (t : Site) (d : DenseDesc) : Settles s (execDenseMm t d s) :=
  settles_tileCmd _ _ _ _ _ _ _ (fun _ _ _ k0 => keeps_engineCmd k0 ..)

theorem settles_execCanvasSave (s : State) (t : Site) (d : DenseDesc) : Settles s (execCanvasSave t d s) := by
  unfold execCanvasSave
  refine settles_tileCmd _ _ _ _ _ _ _ fun t p v k => ?_
  extract_lets which c r src s1
  have h1 : Keeps s s1 := keeps_updTile (keeps_settle k ..) ..
  split
  · exact keeps_done (keeps_tileFault k ..)
  · exact keeps_ite_state (keeps_done h1) (keeps_done (keeps_tileWrite h1 ..))

theorem settles_execCanvasRestore (s : State) (t : Site) (d : DenseDesc) : Settles s (execCanvasRestore t d s) := by
  unfold execCanvasRestore
  refine settles_tileCmd _ _ _ _ _ _ _ (fun _ _ _ k0 => ?_)
  split
  · exact keeps_done (keeps_tileFault k0 ..)
  · exact keeps_done (keeps_updTile (keeps_refireAll _ _ _ _ _ k0) ..)

/-! ### Sync objects (R278 to R292) -/

theorem keeps_setObj (h : Keeps s₀ s) (i : Nat) (o : SyncObj) : Keeps s₀ (s.setObj i o) := keeps_with h

theorem keeps_wakeWhere (h : Keeps s₀ s) (p : Waiter → Bool) (value : Nat) : Keeps s₀ (s.wakeWhere p value) :=
  keeps_foldl (fun _ _ k0 => keeps_sendRill k0 ..) _ (keeps_with h)

theorem keeps_wakeSatisfied (h : Keeps s₀ s) (i : Nat) : Keeps s₀ (s.wakeSatisfied i) := keeps_wakeWhere h ..

theorem keeps_realignOne (h : Keeps s₀ s) (i : Nat) : Keeps s₀ (s.realignOne i) :=
  keeps_ite (keeps_ite (keeps_setObj h ..) (keeps_raise (keeps_setObj h ..) ..)) h

theorem keeps_realign (h : Keeps s₀ s) : Keeps s₀ s.realign := keeps_foldl (fun _ _ k0 => keeps_realignOne k0 ..) _ h

theorem keeps_completeRound (h : Keeps s₀ s) (i : Nat) : Keeps s₀ (s.completeRound i) :=
  keeps_ite (keeps_realign (keeps_wakeWhere (keeps_setObj h ..) ..)) (keeps_wakeWhere (keeps_setObj h ..) ..)

theorem keeps_syncFault (h : Keeps s₀ s) (m : SyncMsg) (code : Code) : Keeps s₀ (s.syncFault m code) :=
  keeps_raise h ..

theorem keeps_syncAdd (h : Keeps s₀ s) (m : SyncMsg) : Keeps s₀ (s.syncAdd m) :=
  keeps_ite (keeps_syncFault h ..) (keeps_ite (keeps_syncFault h ..) (keeps_ite (keeps_syncFault h ..)
    (keeps_wakeSatisfied (keeps_setObj h ..) ..)))

theorem keeps_syncWaitOp (h : Keeps s₀ s) (m : SyncMsg) : Keeps s₀ (s.syncWaitOp m) :=
  keeps_ite (keeps_syncFault h ..) (keeps_ite (keeps_sendRill h ..) (keeps_with h))

theorem keeps_uncounted (h : Keeps s₀ s) (m : SyncMsg) (waits : Bool) : Keeps s₀ (s.uncounted m waits) :=
  keeps_ite (keeps_sendRill h ..) h

theorem keeps_countArrival (h : Keeps s₀ s) (m : SyncMsg) (waits : Bool) : Keeps s₀ (s.countArrival m waits) :=
  keeps_ite (keeps_syncFault (keeps_setObj h ..) ..) (keeps_ite (keeps_completeRound (keeps_ite (keeps_with
    (keeps_setObj h ..)) (keeps_setObj h ..)) ..) (keeps_ite (keeps_with (keeps_setObj h ..)) (keeps_setObj h ..)))

theorem keeps_syncArrive (h : Keeps s₀ s) (m : SyncMsg) (waits : Bool) : Keeps s₀ (s.syncArrive m waits) :=
  keeps_ite (keeps_syncFault h ..) (keeps_ite (keeps_uncounted h ..) (keeps_ite (keeps_ite (keeps_countArrival
    (keeps_ite h (keeps_setObj h ..)) ..) (keeps_ite (keeps_uncounted (keeps_ite h (keeps_setObj h ..)) ..)
    (keeps_syncFault (keeps_setObj (keeps_ite h (keeps_setObj h ..)) ..) ..))) (keeps_countArrival h ..)))

theorem keeps_syncLeave (h : Keeps s₀ s) (m : SyncMsg) : Keeps s₀ (s.syncLeave m) :=
  keeps_ite (keeps_syncFault h ..) (keeps_setObj h ..)

theorem keeps_syncOp (h : Keeps s₀ s) (m : SyncMsg) : Keeps s₀ (s.syncOp m) := by
  unfold State.syncOp
  split
  · exact keeps_syncAdd h ..
  · exact keeps_syncArrive h ..
  · exact keeps_syncWaitOp h ..
  · exact keeps_syncArrive h ..
  · exact keeps_syncLeave h ..
  · exact keeps_syncFault h ..

theorem keeps_atHeadEnd (h : Keeps s₀ s) (m : SyncMsg) (code : Nat) {f : State → State} (hf : ∀ u, Keeps s₀ u → Keeps
    s₀ (f u)) :
    Keeps s₀ (s.atHeadEnd m code f) :=
  hf _ (keeps_ite h (keeps_progress h ..))

theorem keeps_wakeTile (h : Keeps s₀ s) (tile obj : Nat) (uncounted : Bool) :
    Keeps s₀ (s.wakeTile tile obj uncounted) :=
  keeps_ite (keeps_ite (keeps_sendRill (keeps_traceAt (keeps_updTile h ..) ..) ..) (keeps_traceAt (keeps_updTile h ..)
    ..)) h

theorem settles_execSyncWake (s : State) (tile obj : Nat) (value : BitVec 64) (uncounted : Bool) :
    Settles s (execSyncWake tile obj value uncounted s) :=
  settles_ite (.refl _) (keeps_rillAt (.refl _) _ (fun _ k0 => keeps_wakeTile k0 ..))

theorem settles_execSyncSignal (s : State) (t : Site) (d : SyncDesc) : Settles s (execSyncSignal t d s) :=
  settles_tileCmd _ _ _ _ _ _ _ (fun _ _ _ k0 => keeps_ite_state (keeps_done (keeps_sendRill (keeps_traceAt k0 ..)
    ..)) (keeps_done (keeps_progress (keeps_zSend (keeps_traceAt k0 ..) ..) ..)))

theorem settles_execSyncWait (s : State) (t : Site) (d : SyncDesc) : Settles s (execSyncWait t d s) :=
  settles_tileCmd _ _ _ _ _ _ _ (fun _ _ _ k0 => keeps_done (keeps_sendRill (keeps_updTile (keeps_traceAt k0 ..) ..)
    ..))

theorem keeps_writeSyncDump (h : Keeps s₀ s) (reason : Nat) (queues : BitVec 101) :
    Keeps s₀ (s.writeSyncDump reason queues) :=
  keeps_with h

theorem settles_execDeadlock (s : State) (queues : BitVec 101) : Settles s (execDeadlock queues s) :=
  settles_ite (keeps_with (keeps_writeSyncDump (keeps_raise (.refl _) ..) ..)) (.refl _)

/-! ### Reductions (R208 to R230) -/

theorem keeps_updReduce (h : Keeps s₀ s) (f : Reduce → Reduce) : Keeps s₀ (s.updReduce f) := keeps_with h

theorem keeps_writeRecords (h : Keeps s₀ s) : Keeps s₀ s.writeRecords := keeps_ite (keeps_updReduce h ..) h

theorem keeps_beginReduce (h : Keeps s₀ s) : Keeps s₀ s.beginReduce := keeps_writeRecords (keeps_beginPhase h ..)

theorem keeps_kilnSend (h : Keeps s₀ s) (pb : Nat) (m : ZMsg) : Keeps s₀ (s.kilnSend pb m) :=
  keeps_ite (keeps_progress (keeps_ite (keeps_with h) (keeps_zSendCounted h ..)) ..) (keeps_ite (keeps_with h)
    (keeps_zSendCounted h ..))

theorem keeps_sendBlock (h : Keeps s₀ s) (x : Retained) : Keeps s₀ (s.sendBlock x) := keeps_kilnSend h ..

theorem keeps_handOver : ∀ (fuel : Nat) {s : State}, Keeps s₀ s → Keeps s₀ (s.handOver fuel)
  | 0, _, h => h
  | n + 1, s, h => by
    dsimp only [State.handOver]
    split
    · exact h
    · exact keeps_handOver n (keeps_sendBlock (keeps_ite (keeps_beginReduce (keeps_updReduce h ..)) (keeps_updReduce h ..)) ..)

theorem keeps_emitBlocks (h : Keeps s₀ s) (pb : Nat) (e : KilnEntry) (bs : List Block) :
    Keeps s₀ (s.emitBlocks pb e bs) :=
  keeps_handOver _ (keeps_updReduce (keeps_updPb h ..) ..)

theorem keeps_tryVote (h : Keeps s₀ s) : Keeps s₀ s.tryVote :=
  keeps_ite (keeps_ite (keeps_raise h ..) (keeps_beginPhase (keeps_endPhase h ..) ..)) h

theorem keeps_askCanvas (h : Keeps s₀ s) (pb k : Nat) (tiles : List Nat) : Keeps s₀ (s.askCanvas pb k tiles) :=
  keeps_foldl (fun _ _ k0 => keeps_sendRill k0 ..) _ h

theorem keeps_refireChain (pb k : Nat) (tiles : List Nat) : ∀ (l : List (List (Nat × Code))) (n : Nat) {s : State},
    Keeps s₀ s → Keeps s₀ (s.refireChain pb k n tiles l).1
  | [], _, _, h => h
  | cs :: r, n, s, h => by
    have hs := keeps_foldl (g := fun s (c : Nat × Code) => s.detect c.2 (physOf s.repair c.1) 8 0 noCmd k)
      (fun _ _ k => keeps_detect k ..) cs h
    exact keeps_ite_fst (keeps_refireChain pb k tiles r _ (keeps_askCanvas (keeps_countRefire hs ..) ..))
      (keeps_pair (keeps_raise hs ..))

theorem keeps_acknowledge (h : Keeps s₀ s) (pb k : Nat) (tiles : List Nat) : Keeps s₀ (s.acknowledge pb k tiles) :=
  keeps_foldl (fun _ _ k0 => keeps_sendRill (keeps_updTile k0 ..) ..) _ h

theorem keeps_convertEntry (h : Keeps s₀ s) (pb : Nat) (e : KilnEntry) (total : List (BitVec 36)) :
    Keeps s₀ (s.convertEntry pb e total).1 :=
  keeps_pair (keeps_ite (keeps_with (keeps_updPb h ..)) (keeps_updPb h ..))

theorem settles_execColumnTotal (s : State) (pb : Nat) (det : List (List (Nat × Code))) :
    Settles s (execColumnTotal pb det s) := by
  unfold execColumnTotal
  refine settles_ite (.refl _) ?_
  split
  · exact .refl _
  · exact settles_ite (.refl _) (settles_ite (keeps_refireChain _ _ _ _ _ (.refl _)) (keeps_tryVote (keeps_emitBlocks
      (keeps_acknowledge (keeps_convertEntry (keeps_ite (keeps_countRefire (keeps_refireChain _ _ _ _ _ (.refl _)) ..)
      (keeps_refireChain _ _ _ _ _ (.refl _))) ..) ..) ..)))

theorem keeps_headerOnly (h : Keeps s₀ s) (pb : Nat) : Keeps s₀ (s.headerOnly pb) := by
  dsimp only [State.headerOnly]
  exact keeps_updPb (keeps_foldl (fun _ _ k0 => keeps_emitBlocks k0 ..) _ h) ..

theorem keeps_settleEntry (h : Keeps s₀ s) (pb e : Nat) : Keeps s₀ (s.settleEntry pb e) :=
  keeps_ite (keeps_with (keeps_updPb h ..)) h

theorem keeps_deliverBatch (h : Keeps s₀ s) (pb : Nat) : Keeps s₀ (s.deliverBatch pb) := by
  dsimp only [State.deliverBatch]
  exact keeps_updPb (keeps_foldl (fun _ _ k0 => keeps_sendRill k0 ..) _ h) ..

theorem keeps_release (pb : Nat) : ∀ (fuel : Nat) {s : State}, Keeps s₀ s → Keeps s₀ (s.release pb fuel)
  | 0, _, h => h
  | n + 1, s, h => by
    unfold State.release
    have hs {f : PbState → PbState} {g : Reduce → Reduce} :=
      keeps_progress (keeps_updReduce (keeps_updPb h pb f) g) (kilnAdderQueue pb)
    exact keeps_ite h (keeps_release pb n (keeps_ite (keeps_deliverBatch hs ..) hs))

theorem keeps_advance (h : Keeps s₀ s) (pb : Nat) : Keeps s₀ (s.advance pb) :=
  keeps_pumpMesh (keeps_release _ _ (keeps_foldl (fun _ _ k0 => keeps_settleEntry k0 ..) _ h))

theorem keeps_foldDuplicate (h : Keeps s₀ s) (pb k : Nat) (b : Block) : Keeps s₀ (s.foldDuplicate pb k b) :=
  keeps_ite (keeps_raise (keeps_updReduce h ..) ..) (keeps_updReduce h ..)

theorem keeps_addBlock (h : Keeps s₀ s) (pb e k : Nat) (b : Block) : Keeps s₀ (s.addBlock pb e k b) :=
  keeps_progress (keeps_updReduce (keeps_updPb h ..) ..) ..

theorem keeps_askResend (h : Keeps s₀ s) (pb group member : Nat) (fromSeq toSeq : Nat) (stepLow : BitVec 32) (late :
    Bool) :
    Keeps s₀ (s.askResend pb group member fromSeq toSeq stepLow late) :=
  keeps_ite (keeps_with h) (keeps_zSendCounted h ..)

theorem keeps_traceBlock (h : Keeps s₀ s) (pb : Nat) (b : Block) (dup : Bool) : Keeps s₀ (s.traceBlock pb b dup) :=
  keeps_traceAt h ..

theorem keeps_noteLast (h : Keeps s₀ s) (pb e : Nat) (sender : BitVec 16) : Keeps s₀ (s.noteLast pb e sender) :=
  keeps_ite (keeps_with h) h

theorem keeps_takeBlock (h : Keeps s₀ s) (pb : Nat) (sender : BitVec 16) (b : Block) :
    Keeps s₀ (s.takeBlock pb sender b).1 := by
  dsimp only [State.takeBlock]
  split
  · exact keeps_pair (keeps_raise h ..)
  · exact keeps_ite_fst (keeps_pair (keeps_raise h ..)) (keeps_ite_fst (keeps_pair (keeps_raise h ..)) (keeps_ite_fst
      (keeps_ite_fst (keeps_pair (keeps_foldDuplicate (keeps_traceBlock h ..) ..)) (keeps_ite_fst h (keeps_pair
      (keeps_noteLast (keeps_advance (keeps_addBlock (keeps_traceBlock h ..) ..) ..) ..)))) (keeps_ite_fst (keeps_pair
      (keeps_foldDuplicate (keeps_traceBlock h ..) ..)) (keeps_ite_fst h (keeps_ite_fst (keeps_pair (keeps_updReduce h
      ..)) (keeps_pair (keeps_noteLast (keeps_advance (keeps_addBlock (keeps_traceBlock (keeps_updReduce h ..) ..) ..)
      ..) ..)))))))

theorem keeps_drainEarly : ∀ (fuel : Nat) {s : State}, Keeps s₀ s → Keeps s₀ (s.drainEarly fuel)
  | 0, _, h => h
  | n + 1, s, h => by
    dsimp only [State.drainEarly]
    split
    · exact h
    · exact keeps_drainEarly n (keeps_takeBlock (keeps_updReduce h ..) ..)

theorem settles_execXs96Block (s0 : State) (pb : Nat) (sender : BitVec 16) (b : Block) :
    Settles s0 (execXs96Block pb sender b s0) :=
  settles_ite (keeps_wake (.refl _)) (settles_ite (keeps_wake (.refl _)) (settles_ite (keeps_askResend (keeps_detect
    (keeps_wake (.refl _)) ..) ..) (settles_ite (keeps_updReduce (keeps_wake (.refl _)) ..) (keeps_tryVote (keeps_ite
    (keeps_drainEarly _ (keeps_takeBlock (keeps_wake (.refl _)) ..)) (keeps_takeBlock (keeps_wake (.refl _)) ..))))))

theorem settles_execResendRequest (s0 : State) (requester : BitVec 16) (pb : Nat) (group : BitVec 8) (fromSeq toSeq :
    BitVec 32) (mark : StepMark) :
    Settles s0 (execResendRequest requester pb group fromSeq toSeq mark s0) := by
  unfold execResendRequest
  refine settles_ite (keeps_wake (.refl _)) ?_
  refine settles_ite (keeps_raise (keeps_wake (.refl _)) ..) ?_
  refine keeps_foldl (fun _ _ k0 => ?_) _ (keeps_wake (.refl _))
  split
  · exact keeps_sendBlock k0 ..
  · exact k0

theorem keeps_markLate (h : Keeps s₀ s) (pb g m fromSeq : Nat) : Keeps s₀ (s.markLate pb g m fromSeq) :=
  keeps_ite (keeps_raise (keeps_raise (keeps_writeRecords (keeps_updReduce h ..)) ..) ..) (keeps_raise
    (keeps_writeRecords (keeps_updReduce h ..)) ..)

theorem keeps_dropLate (h : Keeps s₀ s) (pb g m : Nat) : Keeps s₀ (s.dropLate pb g m) :=
  keeps_raise (keeps_writeRecords (keeps_updReduce h ..)) ..

theorem settles_execStragglerDeadline (s : State) (pb entry : Nat) : Settles s (execStragglerDeadline pb entry s) :=
  settles_ite (.refl _) (settles_ite (.refl _) (keeps_tryVote (keeps_advance (keeps_updPb (keeps_foldl (fun _ _ k0 =>
    keeps_ite (keeps_dropLate k0 ..) k0) _ (keeps_foldl (fun _ _ k0 => keeps_ite (keeps_markLate k0 ..) k0) _ (.refl
    _))) ..) ..)))

theorem keeps_judge (h : Keeps s₀ s) : Keeps s₀ s.judge :=
  keeps_ite (keeps_with (keeps_updReduce (keeps_beginPhase (keeps_endPhase h ..) ..) ..)) h

theorem settles_execVoteSend (s : State) : Settles s (execVoteSend s) :=
  settles_ite (settles_ite (keeps_raise (.refl _) ..) (keeps_judge (keeps_updReduce (keeps_foldl (fun _ _ k0 =>
    keeps_kilnSend k0 ..) _ (.refl _)) ..))) (.refl _)

theorem settles_execVote (s0 : State) (v : VoteMsg) : Settles s0 (execVote v s0) :=
  settles_ite (keeps_wake (.refl _)) (settles_ite (keeps_raise (keeps_wake (.refl _)) ..) (keeps_judge (keeps_with
    (keeps_updReduce (keeps_wake (.refl _)) ..))))

/-! ### Zlinks (R258 to R274) -/

theorem keeps_setTakeover (h : Keeps s₀ s) (a b : Nat) : Keeps s₀ (s.setTakeover a b) :=
  keeps_ite (keeps_linkRecord (keeps_updLink (keeps_updLink h ..) ..) ..) (keeps_ite (keeps_linkRecord
    (keeps_linkRecord (keeps_updLink (keeps_updLink h ..) ..) ..) ..) h)

theorem keeps_setTakeovers (h : Keeps s₀ s) : Keeps s₀ s.setTakeovers :=
  keeps_ite h (keeps_foldl (fun _ _ k0 => keeps_setTakeover k0 ..) _ h)

theorem keeps_linkStop (h : Keeps s₀ s) (n : Nat) (st : LinkState) : Keeps s₀ (s.linkStop n st) :=
  keeps_ite (keeps_ite (keeps_raise (keeps_ite (keeps_raise (keeps_ite (keeps_updLink (keeps_updLink h ..) ..)
    (keeps_updLink h ..)) ..) (keeps_ite (keeps_updLink (keeps_updLink h ..) ..) (keeps_updLink h ..))) ..) (keeps_ite
    (keeps_raise (keeps_ite (keeps_updLink (keeps_updLink h ..) ..) (keeps_updLink h ..)) ..) (keeps_ite
    (keeps_updLink (keeps_updLink h ..) ..) (keeps_updLink h ..)))) (keeps_setTakeovers (keeps_ite (keeps_raise
    (keeps_ite (keeps_raise (keeps_ite (keeps_updLink (keeps_updLink h ..) ..) (keeps_updLink h ..)) ..) (keeps_ite
    (keeps_updLink (keeps_updLink h ..) ..) (keeps_updLink h ..))) ..) (keeps_ite (keeps_raise (keeps_ite
    (keeps_updLink (keeps_updLink h ..) ..) (keeps_updLink h ..)) ..) (keeps_ite (keeps_updLink (keeps_updLink h ..)
    ..) (keeps_updLink h ..)))))

theorem keeps_linkFault (h : Keeps s₀ s) (n : Nat) (code : Code) : Keeps s₀ (s.linkFault n code) :=
  keeps_linkStop (keeps_raise h ..) ..

theorem keeps_linkUp (h : Keeps s₀ s) (n : Nat) : Keeps s₀ (s.linkUp n) := keeps_linkRecord (keeps_updLink h ..) ..

theorem keeps_startTraining (h : Keeps s₀ s) (n : Nat) : Keeps s₀ (s.startTraining n) := keeps_updLink h ..

theorem keeps_setPeer (h : Keeps s₀ s) (n : Nat) (e : BitVec 32) : Keeps s₀ (s.setPeer n e) :=
  keeps_ite (keeps_updLink h ..) (keeps_ite (keeps_ite (keeps_updLink h ..) (keeps_linkStop (keeps_updLink h ..) ..))
    (keeps_ite (keeps_startTraining (keeps_updLink h ..) ..) (keeps_updLink h ..)))

theorem settles_onLink (s : State) (n : Nat) {f : Link → State} (hf : ∀ l, Keeps s (f l)) :
    Settles s (onLink n s f) :=
  settles_ite (.refl _) (settles_ite (.refl _) (hf ..))

theorem settles_execIdent (s : State) (link : Nat) (kind : BitVec 8) (positionId : BitVec 16) (_pb : BitVec 8) (_fw :
    BitVec 64) :
    Settles s (execIdent link kind positionId _pb _fw s) :=
  settles_onLink _ _ (fun _ => keeps_ite (.refl _) (keeps_ite (keeps_linkUp (keeps_updLink (keeps_linkRecord (.refl _)
    ..) ..) ..) (keeps_linkStop (keeps_raise (keeps_updLink (keeps_updLink (keeps_linkRecord (.refl _) ..) ..) ..) ..)
    ..)))

theorem settles_execTrainTimeout (s : State) (link : Nat) : Settles s (execTrainTimeout link s) :=
  settles_onLink _ _ (fun _ => keeps_ite (keeps_linkStop (.refl _) ..) (.refl _))

theorem settles_execDownRetry (s : State) (link : Nat) : Settles s (execDownRetry link s) :=
  settles_onLink _ _ (fun _ => keeps_ite (keeps_startTraining (.refl _) ..) (.refl _))

theorem settles_execLaneDegrading (s : State) (link lane : Nat) : Settles s (execLaneDegrading link lane s) :=
  settles_onLink _ _ (fun _ => keeps_ite (keeps_updLink (.refl _) ..) (.refl _))

theorem settles_execLaneLost (s : State) (link lane : Nat) : Settles s (execLaneLost link lane s) :=
  settles_onLink _ _ (fun _ => keeps_ite (.refl _) (keeps_ite (keeps_ite (keeps_updLink (.refl _) ..) (.refl _))
    (keeps_ite (keeps_linkStop (.refl _) ..) (keeps_ite (keeps_updLink (keeps_linkRecord (keeps_updLink (.refl _) ..)
    ..) ..) (keeps_ite (keeps_updLink (keeps_linkRecord (keeps_updLink (.refl _) ..) ..) ..) (keeps_raise
    (keeps_updLink (keeps_linkRecord (keeps_updLink (.refl _) ..) ..) ..) ..))))))

theorem settles_execSpareTrained (s : State) (link : Nat) (ok : Bool) (switchSeq : BitVec 16) :
    Settles s (execSpareTrained link ok switchSeq s) :=
  settles_onLink _ _ (fun _ => keeps_ite (.refl _) (keeps_ite (keeps_linkRecord (keeps_updLink (.refl _) ..) ..)
    (keeps_ite (keeps_updLink (.refl _) ..) (keeps_raise (keeps_updLink (.refl _) ..) ..))))

theorem settles_execLaneSwap (s : State) (link : Nat) (retiring : BitVec 8) (switchSeq : BitVec 16) :
    Settles s (execLaneSwap link retiring switchSeq s) :=
  settles_onLink _ _ (fun _ => keeps_ite (.refl _) (keeps_trySwitch (keeps_updLink (.refl _) ..) ..))

theorem settles_execRestripe (s : State) (link : Nat) (lanes : BitVec 8) : Settles s (execRestripe link lanes s) :=
  settles_onLink _ _ (fun _ => keeps_ite (.refl _) (keeps_ite (keeps_linkStop (.refl _) ..) (keeps_ite (keeps_ite
    (keeps_updLink (keeps_updLink (.refl _) ..) ..) (keeps_raise (keeps_updLink (keeps_updLink (.refl _) ..) ..) ..))
    (keeps_updLink (.refl _) ..))))

theorem settles_execRoute (s : State) (link : Nat) (pbs : BitVec 24) : Settles s (execRoute link pbs s) :=
  settles_onLink _ _ (fun _ => keeps_ite (.refl _) (keeps_updLink (keeps_updLink (.refl _) ..) ..))

theorem keeps_takeAck (h : Keeps s₀ s) (n : Nat) (ack : BitVec 16) : Keeps s₀ (s.takeAck n ack) :=
  keeps_flushLink (keeps_updLink h ..) ..

theorem settles_execNak (s : State) (link : Nat) (missing : List (BitVec 16)) : Settles s (execNak link missing s) :=
  settles_onLink _ _ (fun _ => keeps_ite (.refl _) (keeps_ite (keeps_linkStop (keeps_foldl (fun _ _ k1 => keeps_raise
    k1 ..) _ (keeps_updLink (.refl _) ..)) ..) (keeps_foldl (fun _ _ k1 => keeps_raise k1 ..) _ (keeps_updLink (.refl
    _) ..))))

theorem settles_execCredit (s : State) (link : Nat) (grants : List (BitVec 16)) :
    Settles s (execCredit link grants s) :=
  settles_onLink _ _ (fun _ => keeps_ite (.refl _) (keeps_flushLink (keeps_updLink (.refl _) ..) ..))

theorem keeps_releaseSignal (h : Keeps s₀ s) (n : Nat) (m : SignalMsg) : Keeps s₀ (s.releaseSignal n m) :=
  keeps_progress (keeps_sendRill h ..) ..

theorem keeps_releasePending (n : Nat) : ∀ (fuel : Nat) {s : State}, Keeps s₀ s → Keeps s₀ (s.releasePending n fuel)
  | 0, _, h => h
  | k + 1, s, h => by
    dsimp only [State.releasePending]
    split
    · exact h
    · exact keeps_releasePending n k (keeps_releaseSignal (keeps_updPb h ..) ..)

theorem settles_execSignal (s0 : State) (link : Nat) (m : SignalMsg) : Settles s0 (execSignal link m s0) :=
  settles_ite (keeps_wake (.refl _)) (settles_ite (keeps_raise (keeps_wake (.refl _)) ..) (settles_ite
    (keeps_linkFault (keeps_wake (.refl _)) ..) (settles_ite (keeps_releaseSignal (keeps_wake (.refl _)) ..)
    (keeps_updPb (keeps_wake (.refl _)) ..))))

theorem keeps_deliverMessage (h : Keeps s₀ s) (n c : Nat) (msg : Bytes) : Keeps s₀ (s.deliverMessage n c msg) :=
  keeps_ite (keeps_linkFault h ..) (keeps_ite (keeps_updLink (keeps_ite (keeps_giveCredit h ..) h) ..) (keeps_raise
    (keeps_ite (keeps_giveCredit h ..) h) ..))

theorem keeps_leaveLink (h : Keeps s₀ s) (n : Nat) (f : Flit) : Keeps s₀ (s.leaveLink n f) :=
  keeps_ite (keeps_raise (keeps_ite (keeps_giveCredit h ..) h) ..) (keeps_ite (keeps_deliverMessage (keeps_ite
    (keeps_releasePending _ _ (keeps_updLink (keeps_ite (keeps_updPb (keeps_ite (keeps_giveCredit h ..) h) ..)
    (keeps_ite (keeps_giveCredit h ..) h)) ..)) (keeps_updLink (keeps_ite (keeps_updPb (keeps_ite (keeps_giveCredit h
    ..) h) ..) (keeps_ite (keeps_giveCredit h ..) h)) ..)) ..) (keeps_ite (keeps_releasePending _ _ (keeps_updLink
    (keeps_ite (keeps_updPb (keeps_ite (keeps_giveCredit h ..) h) ..) (keeps_ite (keeps_giveCredit h ..) h)) ..))
    (keeps_updLink (keeps_ite (keeps_updPb (keeps_ite (keeps_giveCredit h ..) h) ..) (keeps_ite (keeps_giveCredit h
    ..) h)) ..)))

theorem keeps_deliverChannel (n c : Nat) : ∀ (fuel : Nat) {s : State}, Keeps s₀ s → Keeps s₀ (s.deliverChannel n c fuel)
  | 0, _, h => h
  | k + 1, s, h => by
    dsimp only [State.deliverChannel]
    split
    · exact h
    · exact keeps_deliverChannel n c k (keeps_leaveLink (keeps_updLink h ..) ..)

theorem keeps_nameMissing (h : Keeps s₀ s) (n : Nat) (qs : List (BitVec 16)) : Keeps s₀ (s.nameMissing n qs) :=
  keeps_ite (keeps_linkStop (keeps_foldl (fun _ _ k0 => keeps_linkRecord k0 ..) _ (keeps_updLink h ..)) ..)
    (keeps_foldl (fun _ _ k0 => keeps_linkRecord k0 ..) _ (keeps_updLink h ..))

theorem keeps_acceptFlit (h : Keeps s₀ s) (link : Nat) (f : Flit) : Keeps s₀ (s.acceptFlit link f) :=
  keeps_ite (keeps_trySwitch (keeps_nameMissing (keeps_updLink h ..) ..) ..) (keeps_trySwitch (keeps_deliverChannel _
    _ _ (keeps_ite (keeps_giveCredit (keeps_updLink (keeps_nameMissing (keeps_updLink h ..) ..) ..) ..) (keeps_updLink
    (keeps_nameMissing (keeps_updLink h ..) ..) ..))) ..)

theorem settles_execZlinkFlit (s : State) (link : Nat) (f : Flit) : Settles s (execZlinkFlit link f s) :=
  settles_onLink _ _ (fun _ => keeps_ite (.refl _) (keeps_ite (keeps_nameMissing (.refl _) ..) (keeps_ite
    (keeps_linkFault (.refl _) ..) (keeps_ite (keeps_ite (keeps_wake (keeps_takeAck (.refl _) ..)) (keeps_takeAck
    (.refl _) ..)) (keeps_ite (keeps_linkFault (keeps_ite (keeps_wake (keeps_takeAck (.refl _) ..)) (keeps_takeAck
    (.refl _) ..)) ..) (keeps_acceptFlit (keeps_ite (keeps_wake (keeps_takeAck (.refl _) ..)) (keeps_takeAck (.refl _)
    ..)) ..))))))

theorem keeps_requestFrame (h : Keeps s₀ s) (n : Nat) (f : Frame) : Keeps s₀ (s.requestFrame n f) :=
  keeps_ite (keeps_zSend (keeps_updPb h ..) ..) (keeps_raise h ..)

theorem keeps_takeFrame (h : Keeps s₀ s) (n : Nat) (e : IntakeEntry) (f : Frame) : Keeps s₀ (s.takeFrame n e f) :=
  keeps_ite (keeps_freeFrame (keeps_traceAt (keeps_sendRill (keeps_updPb h ..) ..) ..) ..) (keeps_traceAt
    (keeps_sendRill (keeps_updPb h ..) ..) ..)

theorem keeps_takeFrames (n : Nat) : ∀ (fuel : Nat) {s : State}, Keeps s₀ s → Keeps s₀ (s.takeFrames n fuel)
  | 0, _, h => h
  | k + 1, s, h => by
    dsimp only [State.takeFrames]
    split
    · exact h
    · split
      · exact h
      · exact keeps_takeFrames n k (keeps_takeFrame (keeps_updPb h ..) ..)

theorem keeps_intake (h : Keeps s₀ s) (n : Nat) (f : Frame) : Keeps s₀ (s.intake n f) := by
  dsimp only [State.intake]
  refine keeps_ite (keeps_freeIntake h ..) ?_
  split
  · exact keeps_raise (keeps_freeIntake h ..) ..
  · exact keeps_ite (keeps_raise (keeps_freeIntake h ..) ..) (keeps_ite (keeps_requestFrame (keeps_raise
      (keeps_freeIntake h ..) ..) ..) (keeps_ite (keeps_requestFrame (keeps_raise (keeps_freeIntake h ..) ..) ..)
      (keeps_pumpMesh (keeps_progress (keeps_takeFrames _ _ (keeps_updPb h ..)) ..))))

theorem settles_execWeightFrame (s0 : State) (pb : Nat) (f : Frame) : Settles s0 (execWeightFrame pb f s0) :=
  settles_ite (keeps_wake (.refl _)) (settles_ite (keeps_freeIntake (keeps_wake (.refl _)) ..) (settles_ite
    (keeps_intake (keeps_wake (.refl _)) ..) (settles_ite (keeps_intake (keeps_wake (.refl _)) ..) (keeps_raise
    (keeps_freeIntake (keeps_wake (.refl _)) ..) ..))))

/-! ### Standby and contents of tiles (R336) -/

theorem keeps_toStandby (h : Keeps s₀ s) : Keeps s₀ s.toStandby := keeps_with h

theorem keeps_unloadProgram (h : Keeps s₀ s) : Keeps s₀ s.unloadProgram :=
  keeps_with (keeps_foldl (fun _ _ k0 => keeps_tileClear k0 ..) _ h)

theorem keeps_copyTile (h : Keeps s₀ s) (src dst addr n : Nat) : Keeps s₀ (s.copyTile src dst addr n) :=
  h.of_mem rfl (copyRange_wf _ _ _)

theorem keeps_clearVolatile (h : Keeps s₀ s) (p : Nat) : Keeps s₀ (s.clearVolatile p) :=
  keeps_setTile (keeps_tileClear h ..) ..

/-! ### Survival (R363 to R382) -/

theorem keeps_sendBulk (h : Keeps s₀ s) (pb : Nat) (dest : BitVec 16) (destPb : Nat) (body : Bytes) :
    Keeps s₀ (s.sendBulk pb dest destPb body) :=
  keeps_zSendCounted h ..

theorem keeps_sendGroup (h : Keeps s₀ s) (kind : Nat) (stepLow : BitVec 32) (payload : Bytes) :
    Keeps s₀ (s.sendGroup kind stepLow payload) :=
  keeps_foldl (fun _ _ k0 => keeps_sendBulk k0 ..) _ h

theorem keeps_sendImage (h : Keeps s₀ s) (store : BitVec 16) (address : Nat) (step : BitVec 64) (image : Bytes) :
    Keeps s₀ (s.sendImage store address step image) :=
  keeps_foldl (fun _ _ k0 => keeps_sendBulk k0 ..) _ h

theorem keeps_endExport (h : Keeps s₀ s) (status : Code) : Keeps s₀ (s.endExport status) := by
  unfold State.endExport
  split
  · exact h
  · exact keeps_commandDone (keeps_with h) ..

theorem keeps_startExport (h : Keeps s₀ s) (r : ExportReq) (o : Owed) : Keeps s₀ (s.startExport r o) :=
  keeps_ite (keeps_sendImage (keeps_with (keeps_wake h)) ..) (keeps_with (keeps_wake h))

theorem settles_execExportComplete (s : State) : Settles s (execExportComplete s) := by
  unfold execExportComplete
  split
  · exact .refl _
  · exact settles_ite (.refl _) (keeps_endExport (.refl _) ..)

theorem keeps_updSurvival (h : Keeps s₀ s) (f : Survival → Survival) : Keeps s₀ (s.updSurvival f) := keeps_with h

theorem keeps_checkRefresh (h : Keeps s₀ s) : Keeps s₀ s.checkRefresh := by
  unfold State.checkRefresh
  split
  · exact keeps_ite (keeps_updSurvival h ..) h
  · exact h

theorem keeps_checkOwnParity (h : Keeps s₀ s) : Keeps s₀ s.checkOwnParity := by
  unfold State.checkOwnParity
  split
  · exact keeps_ite (keeps_checkRefresh (keeps_updSurvival (keeps_sendGroup h ..) ..)) h
  · exact h

theorem keeps_sendUnits (k : Keeps s₀ s) (h : Nat) (st : BitVec 32) : Keeps s₀ (s.sendUnits h st) := by
  unfold State.sendUnits
  split
  · exact k
  · exact keeps_foldl (fun _ _ k0 => keeps_foldl (fun _ _ k1 => keeps_ite k1 (keeps_sendBulk k1 ..)) _ k0) _ k

theorem keeps_beginRefresh (h : Keeps s₀ s) (step : BitVec 64) : Keeps s₀ (s.beginRefresh step) := by
  unfold State.beginRefresh
  split
  · exact h
  · exact keeps_ite (keeps_checkOwnParity (keeps_foldl (fun _ _ k0 => keeps_sendUnits k0 ..) _ (keeps_updSurvival
      (keeps_sendGroup (keeps_wake h) ..) ..))) h

theorem keeps_advanceParity (h : Keeps s₀ s) (step : BitVec 64) : Keeps s₀ (s.advanceParity step) :=
  keeps_ite (keeps_with (keeps_updSurvival h ..)) h

theorem settles_execParityReady (s : State) (sender : BitVec 8) (stepLow : BitVec 32) :
    Settles s (execParityReady sender stepLow s) :=
  keeps_ite (keeps_sendUnits (keeps_updSurvival (keeps_wake (.refl _)) ..) ..) (keeps_updSurvival (keeps_wake (.refl
    _)) ..)

theorem settles_execParityUnit (s : State) (m : UnitMsg) : Settles s (execParityUnit m s) := by
  unfold execParityUnit
  split
  · exact .refl _
  · exact settles_ite (.refl _) (settles_ite (keeps_sendBulk (keeps_wake (.refl _)) ..) (keeps_checkOwnParity
      (keeps_foldl (fun _ _ k0 => keeps_ite k0 (keeps_updSurvival k0 ..)) _ (keeps_wake (.refl _)))))

theorem settles_execParityDone (s : State) (sender : BitVec 8) (stepLow : BitVec 32) :
    Settles s (execParityDone sender stepLow s) :=
  settles_ite (settles_ite (.refl _) (keeps_checkRefresh (keeps_updSurvival (.refl _) ..))) (settles_ite (.refl _)
    (keeps_updSurvival (.refl _) ..))

theorem keeps_judgeJoin (h : Keeps s₀ s) (c : ParityCfg) (m : JoinMsg) : Keeps s₀ (s.judgeJoin c m) :=
  keeps_ite (keeps_raise (keeps_updSurvival (keeps_ite h (keeps_raise h ..)) ..) ..) (keeps_ite h (keeps_raise h ..))

theorem keeps_formGroup (h : Keeps s₀ s) (c : ParityCfg) : Keeps s₀ (s.formGroup c) := by
  dsimp only [State.formGroup]
  exact keeps_updSurvival h ..

theorem keeps_configureParity (h : Keeps s₀ s) (c : ParityCfg) : Keeps s₀ (s.configureParity c) :=
  keeps_ite (keeps_with h) (keeps_formGroup (keeps_foldl (fun _ _ k0 => keeps_judgeJoin k0 ..) _ (keeps_sendGroup
    (keeps_wake (keeps_with h)) ..)) ..)

theorem settles_execParityJoin (s : State) (m : JoinMsg) : Settles s (execParityJoin m s) := by
  unfold execParityJoin
  split
  · exact keeps_updSurvival (keeps_wake (.refl _)) ..
  · exact keeps_formGroup (keeps_judgeJoin (keeps_updSurvival (keeps_wake (.refl _)) ..) ..) ..

theorem keeps_requestPage (h : Keeps s₀ s) (t index : Nat) (lostFrom : Option Nat) (step : BitVec 32) :
    Keeps s₀ (s.requestPage t index lostFrom step) := by
  unfold State.requestPage
  split
  · exact h
  · exact keeps_ite (keeps_raise (keeps_updSurvival h ..) ..) (keeps_foldl (fun _ _ k0 => keeps_sendBulk k0 ..) _
      (keeps_updSurvival h ..))

theorem keeps_handleLost (h : Keeps s₀ s) (t page : Nat) (dark : Bool) : Keeps s₀ (s.handleLost t page dark) := by
  dsimp only [State.handleLost]
  split
  · exact keeps_requestPage (keeps_ite (keeps_endExport h ..) h) ..
  · exact keeps_requestPage (keeps_ite (keeps_endExport h ..) h) ..
  · split
    · exact keeps_ite (keeps_endExport h ..) h
    · exact keeps_ite (keeps_requestPage (keeps_ite (keeps_endExport h ..) h) ..) (keeps_ite (keeps_requestPage
        (keeps_ite (keeps_endExport h ..) h) ..) (keeps_raise (keeps_updSurvival (keeps_ite (keeps_endExport h ..) h)
        ..) ..))

theorem keeps_losePages (h : Keeps s₀ s) (t : Nat) (pages : List Nat) (dark : Bool) :
    Keeps s₀ (s.losePages t pages dark) :=
  keeps_foldl (fun _ _ k0 => keeps_handleLost k0 ..) _ (keeps_with h)

theorem keeps_dropRecords (h : Keeps s₀ s) (tiles : List Nat) : Keeps s₀ (s.dropRecords tiles) := keeps_with h

theorem keeps_loseSlab (h : Keeps s₀ s) (t : Nat) (dark : Bool) : Keeps s₀ (s.loseSlab t dark) :=
  keeps_losePages (keeps_updTrace (keeps_updSurvival (keeps_tileClear h ..) ..) ..) ..

theorem keeps_placeRebuilt (h : Keeps s₀ s) (t lp page : Nat) (b : Bytes) : Keeps s₀ (s.placeRebuilt t lp page b) :=
  keeps_with (keeps_setEntry (keeps_tileWrite h ..) ..)

theorem keeps_rescueDark (h : Keeps s₀ s) : Keeps s₀ s.rescueDark := by
  unfold State.rescueDark
  refine keeps_ite ?_ h
  split
  · exact keeps_with (keeps_sendImage h ..)
  · exact h

theorem keeps_lastMark (h : Keeps s₀ s) (before : Nat) : Keeps s₀ (s.lastMark before) :=
  keeps_ite (keeps_raise h ..) h

theorem keeps_applyBundle (h : Keeps s₀ s) (b : Bundle) : Keeps s₀ (s.applyBundle b) :=
  keeps_with (keeps_foldl (fun _ _ k0 => keeps_setPeer k0 ..) _ h)

theorem keeps_reinstate (h : Keeps s₀ s) (b : Bundle) (gen : Digest) (table : List (Nat × Nat)) (active : SMap Bytes)
    :
    Keeps s₀ (s.reinstate b gen table active) :=
  keeps_with (keeps_writeRecord (keeps_applyBundle h ..) ..)

theorem keeps_installPages (h : Keeps s₀ s) (page : Nat → Nat → Bytes) : Keeps s₀ (s.installPages page).1 :=
  keeps_foldl_fst (fun _ _ k => keeps_foldl_fst (fun _ _ k => keeps_tileWrite k ..) _ k) _ h

theorem keeps_endRestore (h : Keeps s₀ s) (o : Owed) (status : Code) : Keeps s₀ (s.endRestore o status) :=
  keeps_commandDone (keeps_updSurvival h ..) ..

theorem keeps_restoreBase (h : Keeps s₀ s) (r : RestoreReq) (o : Owed) : Keeps s₀ (s.restoreBase r o) := by
  dsimp only [State.restoreBase]
  split
  · exact keeps_endRestore h ..
  · exact keeps_ite (keeps_endRestore h ..) (keeps_endRestore (keeps_reinstate h ..) ..)

theorem keeps_readMore (h : Keeps s₀ s) (r : Restore) : Keeps s₀ (s.readMore r) := keeps_zSendCounted h ..

theorem keeps_restoreImage (h : Keeps s₀ s) (r : Restore) : Keeps s₀ (s.restoreImage r) :=
  keeps_ite (keeps_endRestore h ..) (keeps_endRestore (keeps_reinstate (keeps_installPages h ..) ..) ..)

theorem keeps_restoreRebuilt (h : Keeps s₀ s) (r : Restore) : Keeps s₀ (s.restoreRebuilt r) := by
  dsimp only [State.restoreRebuilt]
  exact keeps_ite (keeps_endRestore h ..) (keeps_endRestore (keeps_reinstate (keeps_installPages h ..) ..) ..)

theorem keeps_startRestore (h : Keeps s₀ s) (source : Nat) (r : RestoreReq) (o : Owed) :
    Keeps s₀ (s.startRestore source r o) := by
  dsimp only [State.startRestore]
  split
  · exact keeps_restoreBase (keeps_updSurvival (keeps_endExport (keeps_wake h) ..) ..) ..
  · exact keeps_readMore (keeps_updSurvival (keeps_updSurvival (keeps_endExport (keeps_wake h) ..) ..) ..) ..
  · split
    · exact keeps_endRestore (keeps_updSurvival (keeps_endExport (keeps_wake h) ..) ..) ..
    · exact keeps_ite (keeps_endRestore (keeps_updSurvival (keeps_endExport (keeps_wake h) ..) ..) ..) (keeps_ite
        (keeps_endRestore (keeps_updSurvival (keeps_updSurvival (keeps_endExport (keeps_wake h) ..) ..) ..) ..)
        (keeps_ite (keeps_restoreRebuilt (keeps_updSurvival (keeps_updSurvival (keeps_endExport (keeps_wake h) ..) ..)
        ..) ..) (keeps_foldl (fun _ _ k0 => keeps_requestPage k0 ..) _ (keeps_updSurvival (keeps_updSurvival
        (keeps_endExport (keeps_wake h) ..) ..) ..))))

theorem settles_execReadData (s : State) (address : BitVec 64) (crc : BitVec 32) (data : Bytes) :
    Settles s (execReadData address crc data s) := by
  unfold execReadData
  split
  · exact .refl _
  · exact settles_ite (.refl _) (settles_ite (keeps_readMore (.refl _) ..) (settles_ite (keeps_restoreImage
      (keeps_updSurvival (.refl _) ..) ..) (keeps_readMore (keeps_updSurvival (.refl _) ..) ..)))

theorem settles_execRebuildRequest (s : State) (sender : BitVec 8) (tile : BitVec 16) (stepLow : BitVec 32) (page :
    BitVec 64) :
    Settles s (execRebuildRequest sender tile stepLow page s) := by
  unfold execRebuildRequest
  split
  · exact .refl _
  · refine settles_ite (.refl _) ?_
    refine keeps_ite ?_ ?_
    · refine keeps_ite ?_ ?_
      · split
        · refine keeps_sendBulk ?_ ..
          refine keeps_foldl (fun _ _ k0 => ?_) _ (keeps_wake (.refl _))
          split
          · exact keeps_ite k0 (keeps_sendBulk k0 ..)
          · exact k0
        · refine keeps_foldl (fun _ _ k0 => ?_) _ (keeps_wake (.refl _))
          split
          · exact keeps_ite k0 (keeps_sendBulk k0 ..)
          · exact k0
      · refine keeps_foldl (fun _ _ k0 => ?_) _ (keeps_wake (.refl _))
        split
        · exact keeps_ite k0 (keeps_sendBulk k0 ..)
        · exact k0
    · refine keeps_ite ?_ ?_
      · split
        · refine keeps_sendBulk ?_ ..
          refine keeps_ite ?_ ?_
          · split
            · refine keeps_sendBulk ?_ ..
              refine keeps_foldl (fun _ _ k0 => ?_) _ (keeps_wake (.refl _))
              split
              · exact keeps_ite k0 (keeps_sendBulk k0 ..)
              · exact k0
            · refine keeps_foldl (fun _ _ k0 => ?_) _ (keeps_wake (.refl _))
              split
              · exact keeps_ite k0 (keeps_sendBulk k0 ..)
              · exact k0
          · refine keeps_foldl (fun _ _ k0 => ?_) _ (keeps_wake (.refl _))
            split
            · exact keeps_ite k0 (keeps_sendBulk k0 ..)
            · exact k0
        · refine keeps_ite ?_ ?_
          · split
            · refine keeps_sendBulk ?_ ..
              refine keeps_foldl (fun _ _ k0 => ?_) _ (keeps_wake (.refl _))
              split
              · exact keeps_ite k0 (keeps_sendBulk k0 ..)
              · exact k0
            · refine keeps_foldl (fun _ _ k0 => ?_) _ (keeps_wake (.refl _))
              split
              · exact keeps_ite k0 (keeps_sendBulk k0 ..)
              · exact k0
          · refine keeps_foldl (fun _ _ k0 => ?_) _ (keeps_wake (.refl _))
            split
            · exact keeps_ite k0 (keeps_sendBulk k0 ..)
            · exact k0
      · refine keeps_ite ?_ ?_
        · split
          · refine keeps_sendBulk ?_ ..
            refine keeps_foldl (fun _ _ k0 => ?_) _ (keeps_wake (.refl _))
            split
            · exact keeps_ite k0 (keeps_sendBulk k0 ..)
            · exact k0
          · refine keeps_foldl (fun _ _ k0 => ?_) _ (keeps_wake (.refl _))
            split
            · exact keeps_ite k0 (keeps_sendBulk k0 ..)
            · exact k0
        · refine keeps_foldl (fun _ _ k0 => ?_) _ (keeps_wake (.refl _))
          split
          · exact keeps_ite k0 (keeps_sendBulk k0 ..)
          · exact k0

theorem settles_execRebuildUnit (s : State) (m : UnitMsg) : Settles s (execRebuildUnit m s) := by
  dsimp only [execRebuildUnit]
  split
  · exact .refl _
  · refine settles_ite (.refl _) ?_
    refine settles_ite (keeps_foldl (fun _ _ k0 => keeps_sendBulk k0 ..) _ (.refl _)) ?_
    refine settles_ite (keeps_wake (.refl _)) ?_
    split
    · refine keeps_ite ?_ ?_
      · refine keeps_restoreRebuilt ?_ ..
        refine keeps_foldl (fun _ _ k0 => ?_) _ (keeps_updSurvival (keeps_wake (.refl _)) ..)
        split
        · exact k0
        · split
          · exact keeps_placeRebuilt (keeps_updSurvival k0 ..) ..
          · exact keeps_updSurvival k0 ..
      · refine keeps_foldl (fun _ _ k0 => ?_) _ (keeps_updSurvival (keeps_wake (.refl _)) ..)
        split
        · exact k0
        · split
          · exact keeps_placeRebuilt (keeps_updSurvival k0 ..) ..
          · exact keeps_updSurvival k0 ..
    · refine keeps_lastMark ?_ ..
      refine keeps_rescueDark ?_
      refine keeps_foldl (fun _ _ k0 => ?_) _ (keeps_updSurvival (keeps_wake (.refl _)) ..)
      split
      · exact k0
      · split
        · exact keeps_placeRebuilt (keeps_updSurvival k0 ..) ..
        · exact keeps_updSurvival k0 ..

/-! ### Repairs and self-tests (R36 to R43, R248, R355) -/

theorem keeps_updRepair (h : Keeps s₀ s) (f : Repair → Repair) : Keeps s₀ (s.updRepair f) := keeps_with h

theorem keeps_setField (h : Keeps s₀ s) (i : Nat) (v : BitVec 2) : Keeps s₀ (s.setField i v) :=
  keeps_loadRill (keeps_with (keeps_updRepair h ..))

theorem keeps_loseLock (h : Keeps s₀ s) (point : Nat) : Keeps s₀ (s.loseLock point) :=
  keeps_ite h (keeps_ite (keeps_raise (keeps_raise (keeps_with h) ..) ..) (keeps_raise (keeps_with h) ..))

theorem keeps_stopField (h : Keeps s₀ s) (i : Nat) : Keeps s₀ (s.stopField i) :=
  keeps_foldl (fun _ _ k0 => keeps_loseLock k0 ..) _ h

theorem keeps_darken (h : Keeps s₀ s) (i : Nat) : Keeps s₀ (s.darken i) :=
  keeps_rescueDark (keeps_stopField (keeps_with (keeps_foldl (fun _ _ k0 => keeps_clearVolatile k0 ..) _ (keeps_foldl
    (fun _ _ k0 => keeps_loseSlab k0 ..) _ (keeps_moveRecord (keeps_setField (keeps_dropRecords h ..) ..))))) ..)

theorem keeps_fenceField (h : Keeps s₀ s) (i : Nat) (routersOk : Bool) : Keeps s₀ (s.fenceField i routersOk) :=
  keeps_ite h (keeps_ite (keeps_moveRecord (keeps_setField h ..)) (keeps_darken h ..))

theorem keeps_moveTile (h : Keeps s₀ s) (t src dst : Nat) : Keeps s₀ (s.moveTile t src dst) :=
  keeps_with (keeps_updTile (keeps_copyTile (keeps_copyTile (keeps_foldl (fun _ _ k0 => keeps_copyTile k0 ..) _ h) ..)
    ..) ..)

theorem keeps_reloadTile (h : Keeps s₀ s) (t src dst : Nat) : Keeps s₀ (s.reloadTile t src dst) :=
  keeps_ite (keeps_updTile (keeps_tileWrite (keeps_copyTile h ..) ..) ..) (keeps_tileClear (keeps_copyTile h ..) ..)

theorem keeps_setEntryOf (h : Keeps s₀ s) (k : Nat) (d : BitVec 4) : Keeps s₀ (s.setEntryOf k d) :=
  keeps_updRepair h ..

theorem keeps_shiftColumn (h : Keeps s₀ s) (k d : Nat) (loamOk : Bool) : Keeps s₀ (s.shiftColumn k d loamOk) :=
  keeps_ite (keeps_with (keeps_updRepair (keeps_setEntryOf (keeps_foldl (fun _ _ k0 => keeps_ite (keeps_reloadTile k0
    ..) (keeps_moveTile k0 ..)) _ h) ..) ..)) (keeps_losePages (keeps_dropRecords (keeps_with (keeps_updRepair
    (keeps_setEntryOf (keeps_foldl (fun _ _ k0 => keeps_ite (keeps_reloadTile k0 ..) (keeps_moveTile k0 ..)) _ h) ..)
    ..)) ..) ..)

theorem keeps_spareDead (h : Keeps s₀ s) (p : Nat) (ok : Nat → Bool) : Keeps s₀ (s.spareDead p ok) := by
  unfold State.spareDead
  refine keeps_ite ?_ (keeps_updRepair (keeps_setEntryOf h ..) ..)
  split
  · exact keeps_fenceField (keeps_updRepair (keeps_setEntryOf h ..) ..) ..
  · exact keeps_updRepair (keeps_setEntryOf h ..) ..

theorem keeps_repairTile (h : Keeps s₀ s) (p : Nat) (loamOk : Bool) (badRouters others : List Nat) :
    Keeps s₀ (s.repairTile p loamOk badRouters others) := by
  dsimp only [State.repairTile]
  split
  · refine keeps_ite (keeps_spareDead (keeps_updTile h ..) ..) ?_
    refine keeps_ite (keeps_updTile h ..) ?_
    refine keeps_ite ?_ ?_
    · refine keeps_ite ?_ (keeps_shiftColumn (keeps_updTile h ..) ..)
      refine keeps_fenceField ?_ ..
      split
      · exact keeps_ite (keeps_updTile h ..) (keeps_loseSlab (keeps_dropRecords (keeps_updTile h ..) ..) ..)
      · exact keeps_updTile h ..
    · refine keeps_ite (keeps_updTile h ..) ?_
      refine keeps_fenceField ?_ ..
      split
      · exact keeps_ite (keeps_updTile h ..) (keeps_loseSlab (keeps_dropRecords (keeps_updTile h ..) ..) ..)
      · exact keeps_updTile h ..
  · refine keeps_ite (keeps_darken (keeps_ite (keeps_spareDead (keeps_updTile h ..) ..) (keeps_updTile h ..)) ..) ?_
    split
    · exact keeps_ite (keeps_ite (keeps_spareDead (keeps_updTile h ..) ..) (keeps_updTile h ..)) (keeps_loseSlab
        (keeps_dropRecords (keeps_ite (keeps_spareDead (keeps_updTile h ..) ..) (keeps_updTile h ..)) ..) ..)
    · exact keeps_ite (keeps_spareDead (keeps_updTile h ..) ..) (keeps_updTile h ..)
  · exact keeps_updTile h ..

theorem keeps_openBreaker (h : Keeps s₀ s) (i : Nat) : Keeps s₀ (s.openBreaker i) := keeps_stopField (keeps_with h) ..

theorem keeps_darkRepairs (h : Keeps s₀ s) : Keeps s₀ s.darkRepairs :=
  keeps_with (keeps_foldl (fun _ _ k0 => keeps_ite k0 (keeps_darken k0 ..)) _ h)

theorem keeps_spareSite (h : Keeps s₀ s) (key : Nat) : Keeps s₀ (s.spareSite key) :=
  keeps_ite (keeps_ite (keeps_updRepair (keeps_updRepair h ..) ..) (keeps_ite (keeps_updRepair h ..) (keeps_repairTile
    (keeps_with (keeps_ite (keeps_raise (keeps_updRepair h ..) ..) (keeps_updRepair h ..))) ..))) (keeps_ite
    (keeps_ite (keeps_ite (keeps_updLink (keeps_updRepair h ..) ..) (keeps_ite (keeps_updLink (keeps_updRepair h ..)
    ..) (keeps_updRepair h ..))) (keeps_linkStop (keeps_updRepair h ..) ..)) (keeps_updRepair h ..))

theorem keeps_spareLasting (h : Keeps s₀ s) : Keeps s₀ s.spareLasting :=
  keeps_foldl (fun _ _ k0 => keeps_spareSite k0 ..) _ h

theorem keeps_boundary (h : Keeps s₀ s) : Keeps s₀ s.boundary :=
  keeps_ite h (keeps_ite (keeps_with (keeps_toStandby (keeps_unloadProgram (keeps_setTakeovers (keeps_updRepair
    (keeps_ite (keeps_foldl (fun _ _ k0 => keeps_queueTest k0 ..) _ (keeps_spareLasting (keeps_darkRepairs
    (keeps_foldl (fun _ _ k0 => keeps_raise (keeps_openBreaker k0 ..) ..) _ h)))) (keeps_wake (keeps_foldl (fun _ _ k0
    => keeps_queueTest k0 ..) _ (keeps_spareLasting (keeps_darkRepairs (keeps_foldl (fun _ _ k0 => keeps_raise
    (keeps_openBreaker k0 ..) ..) _ h)))))) ..))))) (keeps_setTakeovers (keeps_updRepair (keeps_ite (keeps_foldl (fun
    _ _ k0 => keeps_queueTest k0 ..) _ (keeps_spareLasting (keeps_darkRepairs (keeps_foldl (fun _ _ k0 => keeps_raise
    (keeps_openBreaker k0 ..) ..) _ h)))) (keeps_wake (keeps_foldl (fun _ _ k0 => keeps_queueTest k0 ..) _
    (keeps_spareLasting (keeps_darkRepairs (keeps_foldl (fun _ _ k0 => keeps_raise (keeps_openBreaker k0 ..) ..) _
    h)))))) ..)))

theorem keeps_testScrub (h : Keeps s₀ s) (p block : Nat) : Keeps s₀ (s.testScrub p block) := by
  dsimp only [State.testScrub]
  exact keeps_updTile (keeps_ite (keeps_tileClear (keeps_ite (keeps_tileClear (keeps_ite (keeps_tileClear h ..) h) ..)
    (keeps_ite (keeps_tileClear h ..) h)) ..) (keeps_ite (keeps_tileClear (keeps_ite (keeps_tileClear h ..) h) ..)
    (keeps_ite (keeps_tileClear h ..) h))) ..

theorem keeps_noteFailure (h : Keeps s₀ s) (site block lane : Nat) : Keeps s₀ (s.noteFailure site block lane) :=
  keeps_ite (keeps_raise (keeps_updRepair (keeps_raise (keeps_updRepair h ..) ..) ..) ..) (keeps_raise
    (keeps_updRepair h ..) ..)

theorem keeps_swapLane (h : Keeps s₀ s) (n lane : Nat) : Keeps s₀ (s.swapLane n lane) :=
  keeps_ite (keeps_raise (keeps_linkRecord (keeps_updLink h ..) ..) ..) h

theorem keeps_testDone (h : Keeps s₀ s) (site block lane : Nat) (r : TestResult) :
    Keeps s₀ (s.testDone site block lane r) := by
  dsimp only [State.testDone]
  split
  · exact h
  · refine keeps_ite ?_ ?_
    · refine keeps_ite ?_ ?_
      · refine keeps_repairTile ?_ ..
        refine keeps_with ?_
        refine keeps_foldl (fun _ _ k0 => keeps_commandDone k0 ..) _ ?_
        refine keeps_ite ?_ ?_
        · refine keeps_updRepair ?_ ..
          refine keeps_foldl (fun _ _ k0 => keeps_noteFailure k0 ..) _ ?_
          refine keeps_ite ?_ ?_
          · refine keeps_swapLane ?_ ..
            split
            · exact keeps_losePages (keeps_foldl (fun _ _ k0 => keeps_testScrub k0 ..) _ (keeps_updRepair h ..)) ..
            · exact keeps_foldl (fun _ _ k0 => keeps_testScrub k0 ..) _ (keeps_updRepair h ..)
          · split
            · exact keeps_losePages (keeps_foldl (fun _ _ k0 => keeps_testScrub k0 ..) _ (keeps_updRepair h ..)) ..
            · exact keeps_foldl (fun _ _ k0 => keeps_testScrub k0 ..) _ (keeps_updRepair h ..)
        · refine keeps_foldl (fun _ _ k0 => keeps_noteFailure k0 ..) _ ?_
          refine keeps_ite ?_ ?_
          · refine keeps_swapLane ?_ ..
            split
            · exact keeps_losePages (keeps_foldl (fun _ _ k0 => keeps_testScrub k0 ..) _ (keeps_updRepair h ..)) ..
            · exact keeps_foldl (fun _ _ k0 => keeps_testScrub k0 ..) _ (keeps_updRepair h ..)
          · split
            · exact keeps_losePages (keeps_foldl (fun _ _ k0 => keeps_testScrub k0 ..) _ (keeps_updRepair h ..)) ..
            · exact keeps_foldl (fun _ _ k0 => keeps_testScrub k0 ..) _ (keeps_updRepair h ..)
      · refine keeps_foldl (fun _ _ k0 => keeps_commandDone k0 ..) _ ?_
        refine keeps_ite ?_ ?_
        · refine keeps_updRepair ?_ ..
          refine keeps_foldl (fun _ _ k0 => keeps_noteFailure k0 ..) _ ?_
          refine keeps_ite ?_ ?_
          · refine keeps_swapLane ?_ ..
            split
            · exact keeps_losePages (keeps_foldl (fun _ _ k0 => keeps_testScrub k0 ..) _ (keeps_updRepair h ..)) ..
            · exact keeps_foldl (fun _ _ k0 => keeps_testScrub k0 ..) _ (keeps_updRepair h ..)
          · split
            · exact keeps_losePages (keeps_foldl (fun _ _ k0 => keeps_testScrub k0 ..) _ (keeps_updRepair h ..)) ..
            · exact keeps_foldl (fun _ _ k0 => keeps_testScrub k0 ..) _ (keeps_updRepair h ..)
        · refine keeps_foldl (fun _ _ k0 => keeps_noteFailure k0 ..) _ ?_
          refine keeps_ite ?_ ?_
          · refine keeps_swapLane ?_ ..
            split
            · exact keeps_losePages (keeps_foldl (fun _ _ k0 => keeps_testScrub k0 ..) _ (keeps_updRepair h ..)) ..
            · exact keeps_foldl (fun _ _ k0 => keeps_testScrub k0 ..) _ (keeps_updRepair h ..)
          · split
            · exact keeps_losePages (keeps_foldl (fun _ _ k0 => keeps_testScrub k0 ..) _ (keeps_updRepair h ..)) ..
            · exact keeps_foldl (fun _ _ k0 => keeps_testScrub k0 ..) _ (keeps_updRepair h ..)
    · refine keeps_spareLasting ?_
      refine keeps_ite ?_ ?_
      · refine keeps_repairTile ?_ ..
        refine keeps_with ?_
        refine keeps_foldl (fun _ _ k0 => keeps_commandDone k0 ..) _ ?_
        refine keeps_ite ?_ ?_
        · refine keeps_updRepair ?_ ..
          refine keeps_foldl (fun _ _ k0 => keeps_noteFailure k0 ..) _ ?_
          refine keeps_ite ?_ ?_
          · refine keeps_swapLane ?_ ..
            split
            · exact keeps_losePages (keeps_foldl (fun _ _ k0 => keeps_testScrub k0 ..) _ (keeps_updRepair h ..)) ..
            · exact keeps_foldl (fun _ _ k0 => keeps_testScrub k0 ..) _ (keeps_updRepair h ..)
          · split
            · exact keeps_losePages (keeps_foldl (fun _ _ k0 => keeps_testScrub k0 ..) _ (keeps_updRepair h ..)) ..
            · exact keeps_foldl (fun _ _ k0 => keeps_testScrub k0 ..) _ (keeps_updRepair h ..)
        · refine keeps_foldl (fun _ _ k0 => keeps_noteFailure k0 ..) _ ?_
          refine keeps_ite ?_ ?_
          · refine keeps_swapLane ?_ ..
            split
            · exact keeps_losePages (keeps_foldl (fun _ _ k0 => keeps_testScrub k0 ..) _ (keeps_updRepair h ..)) ..
            · exact keeps_foldl (fun _ _ k0 => keeps_testScrub k0 ..) _ (keeps_updRepair h ..)
          · split
            · exact keeps_losePages (keeps_foldl (fun _ _ k0 => keeps_testScrub k0 ..) _ (keeps_updRepair h ..)) ..
            · exact keeps_foldl (fun _ _ k0 => keeps_testScrub k0 ..) _ (keeps_updRepair h ..)
      · refine keeps_foldl (fun _ _ k0 => keeps_commandDone k0 ..) _ ?_
        refine keeps_ite ?_ ?_
        · refine keeps_updRepair ?_ ..
          refine keeps_foldl (fun _ _ k0 => keeps_noteFailure k0 ..) _ ?_
          refine keeps_ite ?_ ?_
          · refine keeps_swapLane ?_ ..
            split
            · exact keeps_losePages (keeps_foldl (fun _ _ k0 => keeps_testScrub k0 ..) _ (keeps_updRepair h ..)) ..
            · exact keeps_foldl (fun _ _ k0 => keeps_testScrub k0 ..) _ (keeps_updRepair h ..)
          · split
            · exact keeps_losePages (keeps_foldl (fun _ _ k0 => keeps_testScrub k0 ..) _ (keeps_updRepair h ..)) ..
            · exact keeps_foldl (fun _ _ k0 => keeps_testScrub k0 ..) _ (keeps_updRepair h ..)
        · refine keeps_foldl (fun _ _ k0 => keeps_noteFailure k0 ..) _ ?_
          refine keeps_ite ?_ ?_
          · refine keeps_swapLane ?_ ..
            split
            · exact keeps_losePages (keeps_foldl (fun _ _ k0 => keeps_testScrub k0 ..) _ (keeps_updRepair h ..)) ..
            · exact keeps_foldl (fun _ _ k0 => keeps_testScrub k0 ..) _ (keeps_updRepair h ..)
          · split
            · exact keeps_losePages (keeps_foldl (fun _ _ k0 => keeps_testScrub k0 ..) _ (keeps_updRepair h ..)) ..
            · exact keeps_foldl (fun _ _ k0 => keeps_testScrub k0 ..) _ (keeps_updRepair h ..)

/-! ### Power, clocks and temperature (R320 to R340) -/

theorem keeps_updPower (h : Keeps s₀ s) (f : Power → Power) : Keeps s₀ (s.updPower f) := keeps_with h

theorem settles_onRegion (s : State) (i : Nat) {f : Machine.Region → State} (hf : ∀ r, Keeps s (f r)) :
    Settles s (onRegion i s f) :=
  settles_ite (.refl _) (hf ..)

theorem keeps_traceSuspect (h : Keeps s₀ s) (i : Nat) (opened : Bool) : Keeps s₀ (s.traceSuspect i opened) :=
  keeps_traceAt h ..

theorem keeps_openSuspect (h : Keeps s₀ s) (i : Nat) : Keeps s₀ (s.openSuspect i) :=
  keeps_ite h (keeps_ite (keeps_raise (keeps_traceSuspect (keeps_updPower (keeps_ite h (keeps_foldl (fun _ _ k0 =>
    keeps_updTile k0 ..) _ h)) ..) ..) ..) (keeps_traceSuspect (keeps_updPower (keeps_ite h (keeps_foldl (fun _ _ k0
    => keeps_updTile k0 ..) _ h)) ..) ..))

theorem settles_execInputWarning (s : State) (mv : Nat) : Settles s (execInputWarning mv s) :=
  keeps_raise (keeps_foldl (fun _ _ k0 => keeps_openSuspect k0 ..) _ (keeps_updPower (.refl _) ..)) ..

theorem settles_execRailWarning (s : State) (region : Nat) (rail : Rail) (mv : Nat) :
    Settles s (execRailWarning region rail mv s) := by
  unfold execRailWarning
  refine settles_onRegion _ _ (fun _ => ?_)
  refine keeps_ite (.refl _) ?_
  split
  · exact keeps_raise (keeps_openSuspect (keeps_updPower (.refl _) ..) ..) ..
  · exact keeps_ite (.refl _) (keeps_raise (keeps_updPower (.refl _) ..) ..)

theorem settles_execSuspectWindowClose (s : State) (region : Nat) : Settles s (execSuspectWindowClose region s) :=
  settles_onRegion _ _ (fun _ => keeps_ite (.refl _) (keeps_traceSuspect (keeps_updPower (.refl _) ..) ..))

theorem settles_execSuspectWindowTimeout (s : State) (region : Nat) : Settles s (execSuspectWindowTimeout region s) :=
  settles_onRegion _ _ (fun _ => keeps_ite (keeps_raise (.refl _) ..) (.refl _))

theorem settles_execCoreReset (s : State) (region : Nat) : Settles s (execCoreReset region s) :=
  settles_onRegion _ _ (fun _ => keeps_ite (.refl _) (keeps_boundary (keeps_with (keeps_raise (keeps_raise
    (keeps_updPower (keeps_foldl (fun _ _ k1 => keeps_clearVolatile k1 ..) _ (.refl _)) ..) ..) ..))))

theorem settles_execLoamRailReset (s : State) (region : Nat) : Settles s (execLoamRailReset region s) :=
  settles_onRegion _ _ (fun _ => keeps_ite (.refl _) (keeps_boundary (keeps_foldl (fun _ _ k1 => keeps_loseSlab k1 ..)
    _ (keeps_raise (keeps_dropRecords (keeps_updPower (.refl _) ..) ..) ..))))

theorem keeps_powerLost (h : Keeps s₀ s) (code : Code) : Keeps s₀ (s.powerLost code) := h.of_mem rfl fun _ => rfl

theorem settles_execInputOrEdgeReset (s : State) (cause : Code) (mv : Nat) :
    Settles s (execInputOrEdgeReset cause mv s) :=
  settles_ite (.refl _) (keeps_updPower (keeps_powerLost (.refl _) ..) ..)

theorem settles_execBreakerOpen (s : State) (region : Nat) : Settles s (execBreakerOpen region s) :=
  settles_onRegion _ _ (fun _ => keeps_ite (.refl _) (keeps_ite (keeps_updPower (keeps_powerLost (.refl _) ..) ..)
    (keeps_boundary (keeps_raise (keeps_openBreaker (.refl _) ..) ..))))

theorem keeps_ratios (h : Keeps s₀ s) (f : Power → Power) : Keeps s₀ (s.ratios f) :=
  keeps_ite (keeps_updPower (keeps_updPower h ..) ..) (keeps_ite (keeps_with (keeps_updPower h ..)) (keeps_ite
    (keeps_pumpMesh (keeps_with (keeps_updPower h ..))) (keeps_updPower h ..)))

theorem keeps_setRatio (h : Keeps s₀ s) (half ratio : BitVec 8) : Keeps s₀ (s.setRatio half ratio) :=
  keeps_ratios h ..

theorem settles_execDroopStretchBegin (s : State) (region mv : Nat) : Settles s (execDroopStretchBegin region mv s) :=
  settles_onRegion _ _ (fun _ => keeps_ite (.refl _) (keeps_updPower (.refl _) ..))

theorem settles_execDroopStretchEnd (s : State) (region mv : Nat) : Settles s (execDroopStretchEnd region mv s) :=
  settles_onRegion _ _ (fun _ => keeps_ite (.refl _) (keeps_updPower (.refl _) ..))

theorem keeps_takeTemp (h : Keeps s₀ s) (i : Nat) (t : BitVec 8) : Keeps s₀ (s.takeTemp i t) :=
  keeps_ite (keeps_raise (keeps_ite (keeps_raise (keeps_updPower h ..) ..) (keeps_updPower h ..)) ..) (keeps_ite
    (keeps_raise (keeps_updPower h ..) ..) (keeps_updPower h ..))

theorem settles_execTemperatureSample (s : State) (temps : List (BitVec 8)) :
    Settles s (execTemperatureSample temps s) :=
  keeps_ite (keeps_updPower (keeps_foldl (fun _ _ k0 => keeps_takeTemp k0 ..) _ (.refl _)) ..) (keeps_foldl (fun _ _
    k0 => keeps_takeTemp k0 ..) _ (.refl _))

theorem settles_execThermalThrottle (s : State) (half : Nat) : Settles s (execThermalThrottle half s) :=
  settles_ite (.refl _) (settles_ite (keeps_raise (keeps_ratios (.refl _) ..) ..) (.refl _))

theorem settles_execThermalRelease (s : State) (half : Nat) : Settles s (execThermalRelease half s) :=
  settles_ite (.refl _) (settles_ite (.refl _) (keeps_ratios (.refl _) ..))

theorem keeps_powerStatus (h : Keeps s₀ s) : Keeps s₀ (s.powerStatus).1 := keeps_pair (keeps_draw (keeps_draw h))

/-! ### Plates (R122 to R134) -/

theorem keeps_writeDense (h : Keeps s₀ s) (p : Nat) (colMajor : Bool) (addr stride fmt : Nat) (pl : List Nat) :
    Keeps s₀ (s.writeDense p colMajor addr stride fmt pl) :=
  keeps_foldl (fun _ _ k0 => keeps_tileWrite k0 ..) _ h

theorem keeps_plateStoreDone (k : Keeps s₀ s) (t : Site) (p : Nat) (cid : BitVec 64) (a : PlateArray) (i : Nat)
    (computed : List Code) (h : PlateHead) (b : Bytes) (lead : Bytes) :
    Keeps s₀ (plateStoreDone t p cid a i computed h b s lead).state := by
  unfold plateStoreDone
  refine keeps_ite_state (keeps_done (keeps_settle k ..)) ?_
  split
  · exact keeps_done (keeps_writeRows (keeps_settle k ..) ..)
  · exact keeps_done (keeps_tileFault (keeps_settle k ..) ..)

theorem settles_execPlateStore (s : State) (t : Site) (d : PlateDesc) : Settles s (execPlateStore t d s) := by
  dsimp only [execPlateStore]
  refine settles_tileCmd _ _ _ _ _ _ _ (fun _ _ _ k0 => ?_)
  split
  · exact keeps_done (keeps_tileFault k0 ..)
  · exact keeps_plateStoreDone k0 ..

theorem settles_execPlateLoad (s : State) (t : Site) (d : PlateDesc) : Settles s (execPlateLoad t d s) := by
  dsimp only [execPlateLoad]
  refine settles_tileCmd _ _ _ _ _ _ _ (fun _ _ _ k0 => ?_)
  split
  · exact keeps_done (keeps_tileFault k0 ..)
  · exact keeps_ite_state (keeps_done (keeps_settle k0 ..)) (keeps_done (keeps_writeDense (keeps_settle k0 ..) ..))

theorem settles_execPlateTranspose (s : State) (t : Site) (d : PlateDesc) : Settles s (execPlateTranspose t d s) := by
  dsimp only [execPlateTranspose]
  refine settles_tileCmd _ _ _ _ _ _ _ (fun _ _ _ k0 => ?_)
  split
  · exact keeps_done (keeps_tileFault k0 ..)
  · exact keeps_plateStoreDone (keeps_writeSlot (keeps_updTile k0 ..) ..) ..

theorem settles_execPlateAdopt (s : State) (t : Site) (d : PlateDesc) : Settles s (execPlateAdopt t d s) := by
  dsimp only [execPlateAdopt]
  refine settles_tileCmd _ _ _ _ _ _ _ (fun _ _ _ k0 => ?_)
  split
  · exact keeps_done (keeps_tileFault k0 ..)
  · exact keeps_plateStoreDone k0 ..

/-! ### Sparse products (R135 to R146) -/

theorem keeps_clearSieve (h : Keeps s₀ s) (p : Nat) (d : SparseDesc) : Keeps s₀ (s.clearSieve p d) := by
  dsimp only [State.clearSieve]
  exact keeps_updTile (keeps_ite (keeps_tileClear h ..) (keeps_tileClear (keeps_tileClear h ..) ..)) ..

/-- A row update of the Sieve writes cells of its row only through `wrBytes`. -/
theorem rowUpdate_wf {x : SieveAcc} (w : Memory.wf x.mem = true) (p row : Nat) (a : Fp) (b : List Fp) (sb ab : Fp) :
    Memory.wf (x.rowUpdate p row a b sb ab).mem = true :=
  List.foldlRecOn (motive := fun y : SieveAcc => Memory.wf y.mem = true) _ _ w fun _ k _ _ => wrBytes_wf _ _ k

theorem marginUpdate_mem (x : SieveAcc) (take strip b : List Fp) (sb ab : Fp) :
    (x.marginUpdate take strip b sb ab).mem = x.mem := by
  unfold SieveAcc.marginUpdate
  split <;> rfl

theorem kStep_wf {x : SieveAcc} (w : Memory.wf x.mem = true) (p base fmt c : Nat) (plates : List BlockPlate) (b : List Fp) :
    Memory.wf (x.kStep p base fmt c plates b).mem = true :=
  List.foldlRecOn (motive := fun a : SieveAcc × List (Nat × Nat) × Bool => Memory.wf a.1.mem = true) _ _
    (List.foldlRecOn (motive := fun y : SieveAcc => Memory.wf y.mem = true) _ _ w fun _ k _ _ => rowUpdate_wf k ..)
    fun _ k _ _ => (congrArg Memory.wf (marginUpdate_mem ..)).trans k

theorem writeScratch_wf {x : SieveAcc} (w : Memory.wf x.mem = true) (p base scratch : Nat) (plates : List BlockPlate) :
    Memory.wf (writeScratch x p base scratch plates).mem = true :=
  List.foldlRecOn (motive := fun m => Memory.wf m = true) _ _ w fun _ k _ _ =>
    List.foldlRecOn (motive := fun m => Memory.wf m = true) _ _ k fun _ k _ _ => wrBytes_wf _ _ k

theorem sparseFill_wf {s : State} (w : Memory.wf s.mem = true) (p : Nat) (a : PlateArray) (d : SparseDesc) (run : SieveRun) :
    Memory.wf (sparseFill s p a d run).mem = true := by
  refine List.foldlRecOn (motive := fun y : SieveAcc => Memory.wf y.mem = true) _ _ w fun _ k _ _ => ?_
  have filled {f : SieveAcc → Nat → SieveAcc} (hf : ∀ y c, Memory.wf y.mem = true → Memory.wf (f y c).mem = true) :=
    List.foldlRecOn (motive := fun y : SieveAcc => Memory.wf y.mem = true) (List.range 128) f k fun _ k _ _ => hf _ _ k
  dsimp only
  split
  · exact filled fun _ _ k => kStep_wf k ..
  · exact writeScratch_wf (filled fun _ _ k => kStep_wf k ..) ..

theorem settles_execSparseMm (s : State) (t : Site) (d : SparseDesc) : Settles s (execSparseMm t d s) := by
  unfold execSparseMm
  refine settles_tileCmd _ _ _ _ _ _ _ ?_
  intro t p v k
  extract_lets part clear drain a old record put hits early s0 x nnz s1 det r' src cmp o r run run2 fl s2
  have hrecord {u : State} (k : Keeps s u) {c : Code} {fl : Nat} {n : Tally} : Keeps s (record u c fl n) :=
    keeps_ite (keeps_putRecord k ..) k
  have hput {u : State} (k : Keeps s u) {run : SieveRun} : Keeps s (put u run) := keeps_updTile k ..
  clear_value early
  split
  · exact keeps_done (hrecord (keeps_tileFault k ..))
  · have h0 : Keeps s s0 := keeps_ite (keeps_clearSieve k ..) k
    have hx : Keeps s { s0 with mem := x.mem } := h0.of_mem rfl fun w => sparseFill_wf w ..
    have h1 : Keeps s s1 := keeps_count (keeps_updTile hx ..) ..
    refine keeps_ite_state (keeps_done (hput (keeps_refireAll _ _ _ _ _ h1))) ?_
    have hr : Keeps s r.1 := keeps_settle h1 ..
    refine keeps_ite_state (keeps_done (hrecord (hput hr))) ?_
    split
    · exact keeps_done (hrecord (hput (keeps_tileFault hr ..)))
    · exact keeps_done (hrecord (keeps_writeRows (hput hr) ..))

theorem settles_execMaskedMm (s : State) (t : Site) (d : DenseDesc) : Settles s (execMaskedMm t d s) :=
  settles_tileCmd _ _ _ _ _ _ _ (fun _ _ _ k0 => keeps_engineCmd k0 ..)

/-! ### The transposing buffer and the Strata (R154 to R177) -/

theorem settles_execTranspose (s : State) (t : Site) (d : TransDesc) : Settles s (execTranspose t d s) := by
  dsimp only [execTranspose]
  refine settles_tileCmd _ _ _ _ _ _ _ (fun _ _ _ k0 => ?_)
  split
  · exact keeps_done (keeps_tileFault k0 ..)
  · exact keeps_ite_state (keeps_done (keeps_settle k0 ..)) (keeps_done (keeps_ite (keeps_writeRows (keeps_writeSlot
      (keeps_updTile (keeps_settle k0 ..) ..) ..) ..) (keeps_writeSlot (keeps_updTile (keeps_settle k0 ..) ..) ..)))

theorem keeps_writeSpans (p : Nat) (bad : Bool) : ∀ (l : List Span) (b : Bytes) {s : State},
    Keeps s₀ s → Keeps s₀ (s.writeSpans p bad l b)
  | [], _, _, h => h
  | _ :: r, _, _, h => keeps_writeSpans p bad r _ (keeps_ite (keeps_poisonWrite h ..) (keeps_tileWrite h ..))

theorem keeps_updStrata (h : Keeps s₀ s) (p : Nat) (f : Strata → Strata) : Keeps s₀ (s.updStrata p f) :=
  keeps_updTile h ..

theorem keeps_moveEntry (h : Keeps s₀ s) (p : Nat) (from' to' : List Span) : Keeps s₀ (s.moveEntry p from' to') :=
  keeps_writeSpans _ _ _ _ h

theorem keeps_writeBackOne (h : Keeps s₀ s) (p : Nat) (b : Backward) : Keeps s₀ (s.writeBackOne p b) := by
  dsimp only [State.writeBackOne]
  split
  · exact keeps_ite h (keeps_updStrata (keeps_moveEntry h ..) ..)
  · exact h

theorem keeps_refillOne (h : Keeps s₀ s) (p : Nat) (b : Backward) : Keeps s₀ (s.refillOne p b) := by
  dsimp only [State.refillOne]
  split
  · exact keeps_updStrata (keeps_moveEntry h ..) ..
  · exact h

theorem keeps_makeRoom (p : Nat) (b : Backward) (n : Nat) : ∀ (fuel : Nat) {s : State},
    Keeps s₀ s → Keeps s₀ (s.makeRoom p b n fuel)
  | 0, _, h => h
  | k + 1, _, h => keeps_ite (keeps_makeRoom p b n k (keeps_writeBackOne h ..)) h

theorem keeps_pushEntry (h : Keeps s₀ s) (p : Nat) (b : Backward) (id : BitVec 64) (payload : Bytes) :
    Keeps s₀ (s.pushEntry p b id payload) := by
  dsimp only [State.pushEntry]
  exact keeps_updStrata (keeps_writeSpans _ _ _ _ (keeps_makeRoom _ _ _ _ h)) ..

theorem keeps_pushCheckpoint (h : Keeps s₀ s) (p : Nat) (b : Backward) (id : BitVec 64) (payload : Bytes) :
    Keeps s₀ (s.pushCheckpoint p b id payload) := by
  dsimp only [State.pushCheckpoint]
  exact keeps_updStrata (keeps_tileWrite h ..) ..

theorem keeps_notePushSlot (h : Keeps s₀ s) (p : Nat) (d : PushDesc) : Keeps s₀ (s.notePushSlot p d) :=
  keeps_ite (keeps_updTile h ..) h

theorem settles_execStrataPush (s : State) (t : Site) (d : PushDesc) : Settles s (execStrataPush t d s) := by
  dsimp only [execStrataPush]
  exact settles_tileCmd _ _ _ _ _ _ _ (fun _ _ _ k0 => keeps_ite_state (keeps_done (keeps_updStrata
    (keeps_notePushSlot k0 ..) ..)) (keeps_ite_state (keeps_done (keeps_tileFault k0 ..)) (keeps_ite_state (keeps_done
    (keeps_tileFault k0 ..)) (keeps_ite_state (keeps_done (keeps_settle k0 ..)) (keeps_done (keeps_notePushSlot
    (keeps_ite (keeps_writeSlot (keeps_pushEntry (keeps_settle k0 ..) ..) ..) (keeps_pushEntry (keeps_settle k0 ..)
    ..)) ..))))))

theorem settles_execStrataPop (s : State) (t : Site) (d : PopDesc) : Settles s (execStrataPop t d s) := by
  dsimp only [execStrataPop]
  refine settles_tileCmd _ _ _ _ _ _ _ (fun _ _ _ k0 => ?_)
  split
  · exact keeps_done (keeps_tileFault k0 ..)
  · refine keeps_ite_state (keeps_done (keeps_tileFault k0 ..)) ?_
    split
    · exact keeps_done (keeps_tileFault k0 ..)
    · exact keeps_ite_state (keeps_done (keeps_settle k0 ..)) (keeps_done (keeps_tileWrite (keeps_updStrata (keeps_ite
        (keeps_refillOne (keeps_settle k0 ..) ..) (keeps_settle k0 ..)) ..) ..))

theorem keeps_abortHere (h : Keeps s₀ s) (p : Nat) : Keeps s₀ (s.abortHere p) := keeps_with (keeps_updTile h ..)

theorem settles_execStrataLayerFill (s : State) (t : Site) (d : LayerDesc) : Settles s (execStrataLayerFill t d s) :=
  settles_tileCmd _ _ _ _ _ _ _ (fun _ _ _ k0 => keeps_ite_state (keeps_done (keeps_abortHere k0 ..)) (keeps_ite_state
    (keeps_done (keeps_updStrata k0 ..)) (keeps_ite_state (keeps_done (keeps_tileFault k0 ..)) (keeps_ite_state
    (keeps_done (keeps_tileFault k0 ..)) (keeps_ite_state (keeps_done (keeps_settle k0 ..)) (keeps_done
    (keeps_updStrata (keeps_pushCheckpoint (keeps_settle k0 ..) ..) ..)))))))

theorem keeps_redo (h : Keeps s₀ s) (t : Nat) (ids : List (BitVec 64)) : Keeps s₀ (s.redo t ids) := keeps_updMesh h ..

theorem settles_execStrataLayerDrain (s : State) (t : Site) (d : LayerDesc) :
    Settles s (execStrataLayerDrain t d s) := by
  unfold execStrataLayerDrain
  refine settles_tileCmd _ _ _ _ _ _ _ (fun _ _ _ k0 => ?_)
  refine keeps_ite_state (keeps_done (keeps_abortHere k0 ..)) ?_
  refine keeps_ite_state k0 ?_
  split
  · exact keeps_done (keeps_tileFault k0 ..)
  · refine keeps_ite_state (keeps_done (keeps_tileFault k0 ..)) ?_
    split
    · exact keeps_done (keeps_tileFault k0 ..)
    · exact keeps_ite_state (keeps_done (keeps_settle k0 ..)) (keeps_done (keeps_redo (keeps_tileWrite
        (keeps_updStrata (keeps_settle k0 ..) ..) ..) ..))

/-! ### The course of a step (R15 to R28, R342 to R352) -/

theorem keeps_resendLate (h : Keeps s₀ s) (owed : List (BitVec 64 × BitVec 16 × LateEntry)) (prev : BitVec 64) :
    Keeps s₀ (s.resendLate owed prev) :=
  keeps_foldl (fun _ _ k0 => keeps_foldl (fun _ _ k1 => keeps_sendBlock k1 ..) _ k0) _ h

theorem keeps_askAll (h : Keeps s₀ s) : Keeps s₀ s.askAll :=
  keeps_foldl (fun _ _ k0 => keeps_foldl (fun _ _ k1 => keeps_ite k1 (keeps_foldl (fun _ _ k2 => keeps_askResend k2
    ..) _ k1)) _ k0) _ h

theorem keeps_raiseMarks (h : Keeps s₀ s) : Keeps s₀ s.raiseMarks :=
  keeps_foldl (fun _ _ k0 => keeps_ite (keeps_raise (keeps_raise k0 ..) ..) (keeps_raise k0 ..)) _ h

theorem keeps_latchStep (h : Keeps s₀ s) (p : StepOpen) (switch : Nat) : Keeps s₀ (s.latchStep p switch) :=
  keeps_with h

theorem keeps_openStep {s0 : State} (h : Keeps s₀ s0) (p : StepOpen) : Keeps s₀ (s0.openStep p).1 := by
  unfold State.openStep
  extract_lets s again units switch s1 r owed s2 s3 power pages s4 s5 s6 s7 s8 s9
  have h1 : Keeps s₀ s1 := keeps_beginPhase (keeps_latchStep (keeps_wake h) ..) ..
  have h2 : Keeps s₀ s2 := keeps_foldl (fun _ _ k => keeps_updTile k ..) _ (keeps_setTakeovers h1)
  have h3 : Keeps s₀ s3 := keeps_foldl (fun _ _ k => keeps_setPb (keeps_emptyIntake k ..) ..) _ h2
  have h4 : Keeps s₀ s4 := keeps_with h3
  split
  · exact keeps_pair (keeps_endPhase (keeps_raise h4 ..) ..)
  · have h5 : Keeps s₀ s5 := keeps_resendLate (keeps_raiseMarks h4) ..
    have h6 : Keeps s₀ s6 := keeps_ite (keeps_askAll h5) h5
    have h7 : Keeps s₀ s7 := keeps_endPhase (keeps_drainEarly _ h6) ..
    split
    · exact h7
    · exact keeps_pair (keeps_pumpMesh (keeps_with (keeps_beginPhase h7 ..)))

theorem keeps_mapTiles (h : Keeps s₀ s) (f : Tile → Tile) : Keeps s₀ (s.mapTiles f) :=
  keeps_foldl (fun _ _ k0 => keeps_updTile k0 ..) _ h

theorem keeps_stopTiles (h : Keeps s₀ s) : Keeps s₀ s.stopTiles :=
  keeps_foldl (fun _ _ k0 => keeps_updTile k0 ..) _ (keeps_mapTiles h ..)

theorem keeps_abortToReduce (h : Keeps s₀ s) : Keeps s₀ s.abortToReduce :=
  keeps_tryVote (keeps_foldl (fun _ _ k0 => keeps_headerOnly k0 ..) _ (keeps_with (keeps_stopTiles (keeps_ite h
    (keeps_beginReduce h)))))

theorem settles_execFillEnd (s : State) (last : Nat) : Settles s (execFillEnd last s) :=
  settles_ite (.refl _) (settles_ite (keeps_abortToReduce (keeps_with (keeps_voidPhase (keeps_with (.refl _)) ..)))
    (keeps_beginPhase (keeps_endPhase (keeps_with (.refl _)) ..) ..))

theorem settles_execDrainEnd (s : State) (last : Nat) : Settles s (execDrainEnd last s) := by
  unfold execDrainEnd
  refine settles_ite (.refl _) ?_
  refine settles_ite (keeps_abortToReduce (keeps_voidPhase (keeps_with (.refl _)) ..)) ?_
  split
  · exact keeps_raise (keeps_endPhase (keeps_with (.refl _)) ..) ..
  · exact keeps_tryVote (keeps_ite (keeps_beginReduce (keeps_with (keeps_endPhase (keeps_with (.refl _)) ..)))
      (keeps_with (keeps_endPhase (keeps_with (.refl _)) ..)))

theorem keeps_skipStep (h : Keeps s₀ s) : Keeps s₀ s.skipStep := keeps_with (keeps_mapTiles (keeps_releaseNext h) ..)

theorem keeps_commitStep (h : Keeps s₀ s) : Keeps s₀ s.commitStep :=
  keeps_with (keeps_mapTiles (keeps_releaseOld (keeps_with (keeps_writeRecord h ..)) ..) ..)

theorem settles_execCommitPoint (s : State) : Settles s (execCommitPoint s) := by
  unfold execCommitPoint
  refine settles_ite (.refl _) ?_
  split
  · exact .refl _
  · refine settles_ite (keeps_raise (.refl _) ..) ?_
    split
    · exact keeps_raise (.refl _) ..
    · exact keeps_beginPhase (keeps_ite (keeps_voidPhase (keeps_skipStep (.refl _)) ..) (keeps_endPhase
        (keeps_commitStep (.refl _)) ..)) ..

theorem keeps_capture (h : Keeps s₀ s) (outcome : Nat) (cause : Code) : Keeps s₀ (s.capture outcome cause) :=
  keeps_ite (keeps_with h) h

theorem settles_execSealEnd (s : State) : Settles s (execSealEnd s) :=
  settles_ite (.refl _) (keeps_boundary (keeps_beginRefresh (keeps_advanceParity (keeps_retag (keeps_with
    (keeps_sendEvent (keeps_draw (keeps_capture (keeps_endPhase (.refl _) ..) ..)) ..))) ..) ..))

theorem keeps_releaseStep (h : Keeps s₀ s) : Keeps s₀ s.releaseStep :=
  keeps_with (keeps_foldl (fun _ _ k0 => keeps_updPb (keeps_emptyIntake k0 ..) ..) _ (keeps_mapTiles
    (keeps_releaseNext h) ..))

theorem keeps_finishDiscard (h : Keeps s₀ s) : Keeps s₀ s.finishDiscard := by
  unfold State.finishDiscard
  split
  · exact h
  · exact keeps_boundary (keeps_with (keeps_sendEvent (keeps_capture h ..) ..))

theorem keeps_rescueFailed (h : Keeps s₀ s) : Keeps s₀ s.rescueFailed :=
  keeps_foldl (fun _ _ k0 => keeps_handleLost k0 ..) _ (keeps_with h)

theorem keeps_discardRepairs (h : Keeps s₀ s) (tests : List DeadTest) : Keeps s₀ (s.discardRepairs tests) :=
  keeps_with (keeps_setTakeovers (keeps_foldl (fun _ _ k0 => keeps_repairTile k0 ..) _ (keeps_with (keeps_rescueFailed
    (keeps_darkRepairs (keeps_writeRecord h ..))))))

theorem settles_execDiscardRelease (s : State) (tests : List DeadTest) : Settles s (execDiscardRelease tests s) :=
  settles_ite (.refl _) (keeps_ite (keeps_finishDiscard (keeps_discardRepairs (keeps_releaseStep (.refl _)) ..))
    (keeps_discardRepairs (keeps_releaseStep (.refl _)) ..))

/-! ### Trace, counters and time (R383 to R396) -/

theorem keeps_startFetch {s0 : State} (h : Keeps s₀ s0) (o : Owed) (data : Bytes) (status : Code) :
    Keeps s₀ (s0.startFetch o data status) :=
  keeps_with (keeps_wake h)

theorem settles_execFetchComplete (s : State) : Settles s (execFetchComplete s) := by
  unfold execFetchComplete
  split
  · exact .refl _
  · exact keeps_commandDone (keeps_ite (keeps_updSession (keeps_with (.refl _)) ..) (keeps_with (.refl _))) ..

theorem keeps_beginOffsets (h : Keeps s₀ s) : Keeps s₀ s.beginOffsets := by
  dsimp only [State.beginOffsets]
  exact keeps_updTrace h ..

theorem keeps_sendOn (h : Keeps s₀ s) (n : Nat) (m : ZMsg) : Keeps s₀ (s.sendOn n m) :=
  keeps_ite h (keeps_flushLink (keeps_with (keeps_updLink h ..)) ..)

theorem keeps_updOffset (h : Keeps s₀ s) (peer : BitVec 16) (f : PeerOffset → PeerOffset) :
    Keeps s₀ (s.updOffset peer f) :=
  keeps_updTrace h ..

theorem settles_execPeerOffsetExchange (s : State) (peer : BitVec 16) :
    Settles s (execPeerOffsetExchange peer s) := by
  dsimp only [execPeerOffsetExchange]
  split
  · exact .refl _
  · refine settles_ite (.refl _) ?_
    split
    · exact keeps_updOffset (keeps_draw (keeps_wake (.refl _))) ..
    · exact keeps_sendOn (keeps_updOffset (keeps_draw (keeps_wake (.refl _))) ..) ..

theorem settles_execTimeProbe (s : State) (link : Nat) (m : TimeMsg) : Settles s (execTimeProbe link m s) :=
  settles_onLink _ _ (fun _ => keeps_ite (.refl _) (keeps_sendOn (keeps_wake (.refl _)) ..))

theorem settles_execTimeReply (s : State) (link : Nat) (m : TimeMsg) : Settles s (execTimeReply link m s) :=
  settles_onLink _ _ (fun _ => keeps_ite (.refl _) (keeps_updOffset (keeps_wake (.refl _)) ..))

theorem keeps_armTrace (h : Keeps s₀ s) (c : TraceCfg) (empty : Bool) : Keeps s₀ (s.armTrace c empty) :=
  keeps_beginOffsets (keeps_updTrace h ..)

theorem keeps_disarmTrace (h : Keeps s₀ s) : Keeps s₀ s.disarmTrace := keeps_freezeRings h

theorem settles_execTraceTrigger (s : State) (ring : Nat) : Settles s (execTraceTrigger ring s) := by
  unfold execTraceTrigger
  refine settles_ite (.refl _) ?_
  split
  · exact settles_ite (.refl _) (keeps_setRing (.refl _) ..)
  · exact .refl _

theorem settles_execTraceFreeze (s : State) (ring : Nat) : Settles s (execTraceFreeze ring s) :=
  settles_ite (.refl _) (keeps_ite (keeps_setRing (.refl _) ..) (.refl _))

theorem keeps_counterEntry (h : Keeps s₀ s) (c : Counter) (i : Nat) : Keeps s₀ (counterEntry s c i).1 :=
  keeps_pair (keeps_ite (keeps_draw (keeps_draw h)) h)

theorem keeps_sampleTile (h : Keeps s₀ s) (t : Nat) (mask : BitVec 16) : Keeps s₀ (s.sampleTile t mask).1 :=
  keeps_pair (keeps_foldl_fst (fun _ _ k => keeps_pair (keeps_counterEntry k ..)) _ h)

theorem keeps_startSampling {s0 : State} (h : Keeps s₀ s0) (o : Owed) (mask : BitVec 16) (first count : Nat) (time :
    BitVec 64) :
    Keeps s₀ (s0.startSampling o mask first count time) :=
  keeps_ite (keeps_startFetch (keeps_wake h) ..) (keeps_with (keeps_wake h))

theorem settles_execCounterSample (s : State) (tile : Nat) : Settles s (execCounterSample tile s) := by
  dsimp only [execCounterSample]
  refine settles_ite (.refl _) ?_
  split
  · exact .refl _
  · exact settles_ite (keeps_startFetch (keeps_with (keeps_sampleTile (.refl _) ..)) ..) (keeps_with (keeps_sampleTile
      (.refl _) ..))

/-! ### Boot and the ports (R404 to R408) -/

theorem keeps_updBoot (h : Keeps s₀ s) (f : Boot → Boot) : Keeps s₀ (s.updBoot f) := keeps_with h

theorem keeps_startAttempt (h : Keeps s₀ s) : Keeps s₀ s.startAttempt := keeps_updBoot h ..

theorem keeps_attemptFails (h : Keeps s₀ s) (status : Code) (stage : Nat) : Keeps s₀ (s.attemptFails status stage) :=
  keeps_with h

theorem keeps_startEdge (h : Keeps s₀ s) : Keeps s₀ s.startEdge := keeps_ite (keeps_updPower h ..) h

theorem settles_execInputStart (s : State) : Settles s (execInputStart s) :=
  settles_ite (.refl _) (keeps_ite (keeps_startAttempt (keeps_updPower (.refl _) ..)) (keeps_startEdge (keeps_updPower
    (.refl _) ..)))

theorem settles_execFwFetch (s : State) (why : FetchFail) (port : Port) : Settles s (execFwFetch why port s) :=
  settles_ite (settles_ite (keeps_updBoot (.refl _) ..) (settles_ite (keeps_updBoot (.refl _) ..) (.refl _)))
    (settles_ite (keeps_attemptFails (.refl _) ..) (.refl _))

theorem settles_execBootHeaderFetched (s : State) (h : FwHeader) (port : Port) :
    Settles s (execBootHeaderFetched h port s) := by
  unfold execBootHeaderFetched
  refine settles_ite (.refl _) ?_
  split
  · exact keeps_attemptFails (.refl _) ..
  · exact keeps_startEdge (keeps_updBoot (.refl _) ..)

theorem settles_execFirmwareBodyFetched (s : State) (body : Bytes) (tagOk : Bool) (port : Port) :
    Settles s (execFirmwareBodyFetched body tagOk port s) :=
  settles_ite (.refl _) (settles_ite (keeps_attemptFails (.refl _) ..) (settles_ite (keeps_attemptFails (.refl _) ..)
    (keeps_updBoot (.refl _) ..)))

theorem keeps_startFirmware (h : Keeps s₀ s) : Keeps s₀ s.startFirmware :=
  keeps_foldl (fun _ _ k0 => keeps_ite (keeps_startTraining k0 ..) k0) _ (keeps_loadRill (keeps_with h))

theorem settles_execProvisioningRecordFetched (s : State) (record : Option Bytes) :
    Settles s (execProvisioningRecordFetched record s) := by
  dsimp only [execProvisioningRecordFetched]
  refine settles_ite (.refl _) ?_
  split
  · exact keeps_attemptFails (keeps_updBoot (.refl _) ..) ..
  · exact keeps_startFirmware (keeps_updBoot (.refl _) ..)

theorem keeps_raiseBoot (h : Keeps s₀ s) : Keeps s₀ s.raiseBoot :=
  keeps_foldl (fun _ _ k0 => keeps_sendEvent k0 ..) _ (keeps_updBoot h ..)

theorem settles_execRegionStartFail (s : State) (region : Nat) : Settles s (execRegionStartFail region s) :=
  settles_onRegion _ _ (fun _ => keeps_ite (keeps_ite (keeps_updPower (keeps_attemptFails (.refl _) ..) ..) (.refl _))
    (keeps_ite (keeps_boundary (keeps_raise (keeps_openBreaker (.refl _) ..) ..)) (.refl _)))

/-! ### Loading a program (R300 to R303) -/

theorem keeps_loadProgram {s0 : State} (h : Keeps s₀ s0) (digest : Digest) (b : Bindings) (o : Owed) :
    Keeps s₀ (s0.loadProgram digest b o).1 := by
  dsimp only [State.loadProgram]
  refine keeps_ite_fst (keeps_pair (keeps_ite h (keeps_with h))) ?_
  refine keeps_ite_fst (keeps_pair (keeps_ite h (keeps_with h))) ?_
  refine keeps_ite_fst (keeps_pair (keeps_ite h (keeps_with h))) ?_
  split
  · exact keeps_pair (keeps_ite h (keeps_with h))
  · exact keeps_pair (keeps_with (keeps_ite h (keeps_with h)))

theorem keeps_installTile (h : Keeps s₀ s) (m : Image) (t : Nat) (g : TileProg) : Keeps s₀ (s.installTile m t g) := by
  dsimp only [State.installTile]
  exact keeps_updTile (keeps_ite (keeps_tileWrite (keeps_tileWrite h ..) ..) (keeps_tileWrite h ..)) ..

theorem keeps_placePage (h : Keeps s₀ s) (x : Nat × Nat) : Keeps s₀ (s.placePage x) := by
  unfold State.placePage
  refine keeps_ite h ?_
  split
  · exact keeps_setEntry (keeps_tileWrite h ..) ..
  · exact h

theorem keeps_installProgram (h : Keeps s₀ s) (p : Program) : Keeps s₀ (s.installProgram p) :=
  keeps_foldl (fun _ _ k0 => keeps_placePage k0 ..) _ (keeps_activate (keeps_with (keeps_with (keeps_foldl (fun _ _ k0
    => keeps_installTile k0 ..) _ h))))

theorem settles_execProgramLoadComplete (s : State) (failedRegions : List Nat) :
    Settles s (execProgramLoadComplete failedRegions s) := by
  unfold execProgramLoadComplete
  refine settles_ite (.refl _) ?_
  split
  · exact .refl _
  · exact settles_ite (keeps_commandDone (keeps_toStandby (keeps_activate (keeps_with (keeps_boundary (keeps_foldl
      (fun _ _ k0 => keeps_raise (keeps_openBreaker k0 ..) ..) _ (.refl _)))))) ..) (keeps_commandDone
      (keeps_installProgram (keeps_boundary (keeps_foldl (fun _ _ k0 => keeps_raise (keeps_openBreaker k0 ..) ..) _
      (.refl _))) ..) ..)

theorem keeps_beginProgram (h : Keeps s₀ s) : Keeps s₀ s.beginProgram := by
  unfold State.beginProgram
  refine keeps_with ?_
  refine keeps_toStandby ?_
  refine keeps_unloadProgram ?_
  split
  · exact keeps_commandDone h ..
  · exact h

/-! ### Delit commands (R304 to R314) -/

theorem keeps_refuse (h : Keeps s₀ s) (c : Code) : Keeps s₀ (s.refuse c).1 := h

theorem keeps_ok (h : Keeps s₀ s) (b : Bytes) : Keeps s₀ (s.ok b).1 := h

theorem keeps_accepted (h : Keeps s₀ s) : Keeps s₀ (s.accepted).1 := h

theorem keeps_readEntries (h : Keeps s₀ s) (n first count : Nat) (f : Nat → Bytes) :
    Keeps s₀ (s.readEntries n first count f).1 :=
  keeps_ite_fst (keeps_refuse h ..) (keeps_ok h ..)

theorem keeps_endSession (h : Keeps s₀ s) (id : Nat) (status : Code) : Keeps s₀ (s.endSession id status) :=
  keeps_closeSession (keeps_ite (keeps_endExport h ..) h) ..

theorem keeps_writeRegion (h : Keeps s₀ s) (region : Sys2Proof.Region) (off : Nat) (data : Bytes) :
    Keeps s₀ (s.writeRegion region off data).1 := by
  unfold State.writeRegion
  split
  · exact keeps_ite_fst h (keeps_ite_fst h (keeps_pair (keeps_with h)))
  · exact keeps_ite_fst h (keeps_ite_fst h (keeps_pair (keeps_with h)))
  · exact h

theorem keeps_freeRead (h : Keeps s₀ s) (e : Export) : Keeps s₀ (s.freeRead e) := keeps_with h

theorem keeps_readRegion (h : Keeps s₀ s) {session : Nat} {region : Sys2Proof.Region} {off n : Nat} {r : State × Bytes}
    (hr : s.readRegion session region off n = some r) : Keeps s₀ r.1 := by
  unfold State.readRegion at hr
  split at hr
  · split at hr
    · obtain ⟨-, rfl⟩ := by simpa using hr
      exact h
    · simp at hr
  · split at hr
    · obtain ⟨-, rfl⟩ := by simpa using hr
      exact keeps_wake (keeps_freeRead (keeps_with h) ..)
    · simp at hr
  · simp at hr

theorem keeps_doEventFilter (k : Keeps s₀ s) (h : Hdr) (severity : BitVec 8) :
    Keeps s₀ (doEventFilter h severity s).1 :=
  keeps_ite_fst (keeps_refuse k ..) (keeps_ok (keeps_updSession k ..) ..)

theorem keeps_doModuleInfo (h : Keeps s₀ s) : Keeps s₀ (doModuleInfo s).1 := keeps_ok h ..

theorem keeps_doQpCreate (k : Keeps s₀ s) (h : Hdr) : Keeps s₀ (doQpCreate h s).1 :=
  keeps_ite_fst (keeps_refuse k ..) (keeps_ite_fst (keeps_refuse k ..) (keeps_ok (keeps_with (keeps_draw k)) ..))

theorem keeps_doQpDestroy (k : Keeps s₀ s) (h : Hdr) (qpn : BitVec 24) : Keeps s₀ (doQpDestroy h qpn s).1 :=
  keeps_ite_fst (keeps_refuse k ..) (keeps_ite_fst (keeps_refuse k ..) (keeps_ok (keeps_with k) ..))

theorem keeps_doBulkWrite (h : Keeps s₀ s) (region : Sys2Proof.Region) (off : BitVec 56) (data : Bytes) :
    Keeps s₀ (doBulkWrite region off data s).1 :=
  keeps_ite_fst (keeps_refuse h ..) (keeps_pair (keeps_writeRegion h ..))

theorem keeps_doBulkRead (k : Keeps s₀ s) (h : Hdr) (region : Sys2Proof.Region) (off : BitVec 56) (n : Nat) :
    Keeps s₀ (doBulkRead h region off n s).1 := by
  unfold doBulkRead
  refine keeps_ite_fst (keeps_refuse k ..) ?_
  split
  case h_1 hr => exact keeps_ok (keeps_readRegion k hr) ..
  case h_2 => exact keeps_refuse k ..

theorem keeps_doProgramLoad (k : Keeps s₀ s) (h : Hdr) (digest : Digest) (b : Bindings) :
    Keeps s₀ (doProgramLoad h digest b s).1 :=
  keeps_pair (keeps_loadProgram k ..)

theorem keeps_doStepDiscard (h : Keeps s₀ s) : Keeps s₀ (doStepDiscard s).1 :=
  keeps_ite_fst (keeps_refuse h ..) (keeps_ok h ..)

theorem keeps_doReceiptFetch (h : Keeps s₀ s) (step : BitVec 64) : Keeps s₀ (doReceiptFetch step s).1 := by
  unfold doReceiptFetch
  split
  · exact keeps_ok h ..
  · exact keeps_refuse h ..

theorem keeps_doStrataStatus (h : Keeps s₀ s) (tile : Nat) : Keeps s₀ (doStrataStatus tile s).1 :=
  keeps_ite_fst (keeps_refuse h ..) (keeps_ok h ..)

theorem keeps_doLossScaleWrite (h : Keeps s₀ s) (v : BitVec 64) : Keeps s₀ (doLossScaleWrite v s).1 :=
  keeps_ite_fst (keeps_refuse h ..) (keeps_ok (keeps_with h) ..)

theorem keeps_doOptGroupWrite (h : Keeps s₀ s) (i : Nat) (e : BitVec 256) : Keeps s₀ (doOptGroupWrite i e s).1 :=
  keeps_ite_fst (keeps_refuse h ..) (keeps_ite_fst (keeps_refuse h ..) (keeps_ite_fst (keeps_refuse h ..) (keeps_ok
    (keeps_with h) ..)))

theorem keeps_doOptGroupRead (h : Keeps s₀ s) (first count : Nat) : Keeps s₀ (doOptGroupRead first count s).1 :=
  keeps_readEntries h ..

theorem keeps_doWindowWrite (h : Keeps s₀ s) (i : Nat) (v : BitVec 16) : Keeps s₀ (doWindowWrite i v s).1 :=
  keeps_ite_fst (keeps_refuse h ..) (keeps_ite_fst (keeps_refuse h ..) (keeps_ite_fst (keeps_refuse h ..) (keeps_ok
    (keeps_with h) ..)))

theorem keeps_doWindowRead (h : Keeps s₀ s) (first count : Nat) : Keeps s₀ (doWindowRead first count s).1 :=
  keeps_readEntries h ..

theorem keeps_doKilnStatsRead (h : Keeps s₀ s) (first count : Nat) : Keeps s₀ (doKilnStatsRead first count s).1 :=
  keeps_readEntries h ..

theorem keeps_doKilnStatsClear (h : Keeps s₀ s) : Keeps s₀ (doKilnStatsClear s).1 :=
  keeps_ok (keeps_foldl (fun _ _ k0 => keeps_updPb k0 ..) _ h) ..

theorem keeps_doFieldFence (h : Keeps s₀ s) (i : Nat) : Keeps s₀ (doFieldFence i s).1 :=
  keeps_ite_fst (keeps_refuse h ..) (keeps_ite_fst (keeps_ok h ..) (keeps_ok (keeps_fenceField h ..) ..))

theorem keeps_doFieldUnfence (h : Keeps s₀ s) (i : Nat) : Keeps s₀ (doFieldUnfence i s).1 :=
  keeps_ite_fst (keeps_refuse h ..) (keeps_ite_fst (keeps_refuse h ..) (keeps_ok (keeps_moveRecord (keeps_setField h
    ..)) ..))

theorem keeps_requestTest (h : Keeps s₀ s) (o : Owed) (site block lane : Nat) (full recal : Bool) :
    Keeps s₀ (s.requestTest o site block lane full recal) :=
  keeps_ite (keeps_commandDone h ..) (keeps_queueTest (keeps_wake h) ..)

theorem keeps_doSelftest (h : Keeps s₀ s) (site block lane : Nat) (full recal : Bool) :
    Keeps s₀ (doSelftest site block lane full recal s).1 :=
  keeps_ite_fst (keeps_refuse h ..) (keeps_accepted h)

theorem keeps_doPositionIdSet (h : Keeps s₀ s) (id : BitVec 16) : Keeps s₀ (doPositionIdSet id s).1 :=
  keeps_ite_fst (keeps_refuse h ..) (keeps_ite_fst (keeps_refuse h ..) (keeps_ok (keeps_with h) ..))

theorem keeps_doPeerTableWrite (h : Keeps s₀ s) (n : Nat) (e : BitVec 32) : Keeps s₀ (doPeerTableWrite n e s).1 :=
  keeps_ite_fst (keeps_refuse h ..) (keeps_ite_fst (keeps_refuse h ..) (keeps_ite_fst (keeps_refuse h ..) (keeps_ok
    (keeps_setPeer h ..) ..)))

theorem keeps_doLinkStatus (h : Keeps s₀ s) (first count : Nat) : Keeps s₀ (doLinkStatus first count s).1 :=
  keeps_readEntries h ..

theorem keeps_doSyncRead (h : Keeps s₀ s) (obj : Nat) : Keeps s₀ (doSyncRead obj s).1 :=
  keeps_ite_fst (keeps_refuse h ..) (keeps_ok h ..)

theorem keeps_noteHandSet (h : Keeps s₀ s) (obj action : Nat) (value : BitVec 64) :
    Keeps s₀ (s.noteHandSet obj action value) :=
  keeps_with (keeps_setObj h ..)

theorem keeps_doSetValue (h : Keeps s₀ s) (obj : Nat) (value : BitVec 64) : Keeps s₀ (doSetValue obj value s).1 :=
  keeps_ite_fst (keeps_refuse h ..) (keeps_ite_fst (keeps_refuse h ..) (keeps_ok (keeps_raise (keeps_wakeSatisfied
    (keeps_noteHandSet (keeps_setObj h ..) ..) ..) ..) ..))

theorem keeps_doRelease (h : Keeps s₀ s) (obj : Nat) : Keeps s₀ (doRelease obj s).1 :=
  keeps_ite_fst (keeps_refuse h ..) (keeps_ite_fst (keeps_refuse h ..) (keeps_ok (keeps_raise (keeps_noteHandSet
    (keeps_completeRound h ..) ..) ..) ..))

theorem keeps_doSyncDump (k : Keeps s₀ s) (h : Hdr) : Keeps s₀ (doSyncDump h s).1 :=
  keeps_accepted (keeps_startFetch (keeps_writeSyncDump k ..) ..)

theorem keeps_doClockRatio (h : Keeps s₀ s) (half ratio : BitVec 8) : Keeps s₀ (doClockRatio half ratio s).1 :=
  keeps_ite_fst (keeps_refuse h ..) (keeps_ok (keeps_setRatio h ..) ..)

theorem keeps_doPowerStatus (h : Keeps s₀ s) : Keeps s₀ (doPowerStatus s).1 := keeps_ok (keeps_powerStatus h) ..

theorem keeps_doSnapshotExport (k : Keeps s₀ s) (h : Hdr) (r : ExportReq) : Keeps s₀ (doSnapshotExport h r s).1 :=
  keeps_ite_fst (keeps_refuse k ..) (keeps_ite_fst (keeps_refuse k ..) (keeps_ite_fst (keeps_refuse k ..)
    (keeps_accepted (keeps_startExport k ..))))

theorem keeps_doParityConfig (h : Keeps s₀ s) (c : ParityCfg) : Keeps s₀ (doParityConfig c s).1 :=
  keeps_ite_fst (keeps_refuse h ..) (keeps_ite_fst (keeps_refuse h ..) (keeps_ok (keeps_configureParity h ..) ..))

theorem keeps_doRestore (h : Keeps s₀ s) (source : Nat) (r : RestoreReq) : Keeps s₀ (doRestore source r s).1 :=
  keeps_ite_fst (keeps_refuse h ..) (keeps_ite_fst (keeps_refuse h ..) (keeps_accepted h))

theorem keeps_beginRestore (h : Keeps s₀ s) (source : Nat) (r : RestoreReq) (o : Owed) :
    Keeps s₀ (s.beginRestore source r o) := by
  unfold State.beginRestore
  refine keeps_startRestore ?_ ..
  split
  · exact keeps_endRestore h ..
  · exact h

theorem keeps_doTraceArm (k : Keeps s₀ s) (h : Hdr) (c : TraceCfg) (empty : Bool) :
    Keeps s₀ (doTraceArm h c empty s).1 :=
  keeps_ite_fst (keeps_refuse k ..) (keeps_ok (keeps_armTrace k ..) ..)

theorem keeps_doTraceDisarm (k : Keeps s₀ s) (h : Hdr) : Keeps s₀ (doTraceDisarm h s).1 :=
  keeps_ite_fst (keeps_refuse k ..) (keeps_ok (keeps_disarmTrace k) ..)

theorem keeps_doTraceFetch (k : Keeps s₀ s) (h : Hdr) (first count : BitVec 16) (withModule : Bool) :
    Keeps s₀ (doTraceFetch h first count withModule s).1 := by
  unfold doTraceFetch
  split
  · exact keeps_accepted (keeps_startFetch k ..)
  · exact keeps_refuse k ..

theorem keeps_doCounters (k : Keeps s₀ s) (h : Hdr) (mask first count : BitVec 16) (time : BitVec 64) :
    Keeps s₀ (doCounters h mask first count time s).1 :=
  keeps_ite_fst (keeps_refuse k ..) (keeps_accepted (keeps_startSampling k ..))

theorem keeps_doPhaseDetails (k : Keeps s₀ s) (h : Hdr) (first : BitVec 64) (count : BitVec 16) :
    Keeps s₀ (doPhaseDetails h first count s).1 :=
  keeps_ite_fst (keeps_refuse k ..) (keeps_accepted (keeps_startFetch k ..))

theorem keeps_doReplayFetch (k : Keeps s₀ s) (h : Hdr) (step : BitVec 64) (attempt : BitVec 16) :
    Keeps s₀ (doReplayFetch h step attempt s).1 := by
  unfold doReplayFetch
  refine keeps_ite_fst (keeps_refuse k ..) ?_
  split
  · exact keeps_accepted (keeps_startFetch k ..)
  · exact keeps_refuse k ..

theorem keeps_doDumpFetch (k : Keeps s₀ s) (h : Hdr) (part : BitVec 8) (first count : BitVec 16) :
    Keeps s₀ (doDumpFetch h part first count s).1 :=
  keeps_ite_fst (keeps_refuse k ..) (keeps_ite_fst (keeps_refuse k ..) (keeps_accepted (keeps_startFetch k ..)))

theorem keeps_performOp (k : Keeps s₀ s) (h : Hdr) (op : DelitOp) : Keeps s₀ (performOp h op s).1 := by
  unfold performOp
  split
  · exact keeps_ok k ..
  · exact keeps_ok k ..
  · exact keeps_doEventFilter k ..
  · exact keeps_doModuleInfo k
  · exact keeps_doQpCreate k ..
  · exact keeps_doQpDestroy k ..
  · exact keeps_doBulkWrite k ..
  · exact keeps_doBulkRead k ..
  · exact keeps_ok (keeps_beginProgram k) ..
  · exact keeps_doProgramLoad k ..
  · split
    · exact keeps_refuse k ..
    · exact keeps_openStep k ..
  · exact keeps_doStepDiscard k
  · exact keeps_ok k ..
  · exact keeps_ok k ..
  · exact keeps_doReceiptFetch k ..
  · exact keeps_doStrataStatus k ..
  · exact keeps_doLossScaleWrite k ..
  · exact keeps_ok k ..
  · exact keeps_doOptGroupWrite k ..
  · exact keeps_doOptGroupRead k ..
  · exact keeps_doWindowWrite k ..
  · exact keeps_doWindowRead k ..
  · exact keeps_doKilnStatsRead k ..
  · exact keeps_doKilnStatsClear k
  · exact keeps_ok k ..
  · exact keeps_ok k ..
  · exact keeps_doFieldFence k ..
  · exact keeps_doFieldUnfence k ..
  · exact keeps_doSelftest k ..
  · exact keeps_doSelftest k ..
  · exact keeps_doSelftest k ..
  · exact keeps_doPositionIdSet k ..
  · exact keeps_doPeerTableWrite k ..
  · exact keeps_doLinkStatus k ..
  · exact keeps_doSyncRead k ..
  · exact keeps_doSetValue k ..
  · exact keeps_doRelease k ..
  · exact keeps_doSyncDump k ..
  · exact keeps_doClockRatio k ..
  · exact keeps_doPowerStatus k
  · exact keeps_doSnapshotExport k ..
  · exact keeps_doParityConfig k ..
  · exact keeps_doRestore k ..
  · exact keeps_doRestore k ..
  · exact keeps_doRestore k ..
  · exact keeps_doTraceArm k ..
  · exact keeps_doTraceDisarm k ..
  · exact keeps_doTraceArm k ..
  · exact keeps_doTraceFetch k ..
  · exact keeps_doCounters k ..
  · exact keeps_doPhaseDetails k ..
  · exact keeps_doReplayFetch k ..
  · exact keeps_doDumpFetch k ..
  · exact keeps_ok k ..

theorem keeps_followOp (k : Keeps s₀ s) (h : Hdr) (op : DelitOp) : Keeps s₀ (followOp h op s) := by
  unfold followOp
  split
  · exact keeps_endSession k ..
  · exact keeps_ite k (keeps_raise k ..)
  · exact keeps_requestTest k ..
  · exact keeps_requestTest k ..
  · exact keeps_requestTest k ..
  · exact keeps_beginRestore k ..
  · exact keeps_beginRestore k ..
  · exact keeps_beginRestore k ..
  · exact k

theorem keeps_respond (k : Keeps s₀ s) (h : Hdr) (status : Code) (payload : Bytes) :
    Keeps s₀ (s.respond h status payload) :=
  keeps_sendHost (keeps_updSession k ..) ..

theorem keeps_answerOp (k : Keeps s₀ s) (h : Hdr) (op : DelitOp) (control : Bool) :
    Keeps s₀ (answerOp h op control s).1 :=
  keeps_ite_fst (keeps_refuse k ..) (keeps_ite_fst (keeps_refuse k ..) (keeps_ite_fst (keeps_refuse k ..)
    (keeps_performOp k ..)))

theorem keeps_execute (k : Keeps s₀ s) (h : Hdr) (op : DelitOp) (control : Bool) :
    Keeps s₀ (s.execute h op control) := by
  unfold State.execute
  refine keeps_ite ?_ (keeps_ite (keeps_followOp (keeps_respond (keeps_answerOp k ..) ..) ..) (keeps_respond
    (keeps_answerOp k ..) ..))
  split
  · exact keeps_with k
  · exact k

theorem keeps_runHeld (id : Nat) : ∀ (fuel : Nat) {s : State}, Keeps s₀ s → Keeps s₀ (State.runHeld id fuel s)
  | 0, _, h => h
  | n + 1, s, h => by
    unfold State.runHeld
    split
    · exact h
    · refine keeps_ite h ?_
      split
      · exact h
      · exact keeps_runHeld id n (keeps_execute (keeps_updSession h ..) ..)

theorem keeps_takeCommand (k : Keeps s₀ s) (h : Hdr) (op : DelitOp) : Keeps s₀ (s.takeCommand h op) := by
  unfold State.takeCommand
  split
  · exact k
  · refine keeps_ite k ?_
    refine keeps_ite ?_ (keeps_ite k (keeps_ite (keeps_execute k ..) (keeps_runHeld _ _ (keeps_updSession k ..))))
    split
    · exact keeps_sendHost k ..
    · exact k

theorem keeps_delit (k : Keeps s₀ s) (h : Hdr) (op : DelitOp) : Keeps s₀ (s.delit h op) :=
  keeps_takeDgram k _ _ _ _ (fun _ k0 => keeps_takeCommand k0 ..)

theorem keeps_resumeOpen (h : Keeps s₀ s) : Keeps s₀ s.resumeOpen := by
  unfold State.resumeOpen
  split
  · exact h
  · exact keeps_ite h (keeps_runHeld _ _ (keeps_execute (keeps_with h) ..))

theorem settles_execColumnShiftCopyDone (s : State) : Settles s (execColumnShiftCopyDone s) :=
  settles_ite (.refl _) (keeps_resumeOpen (keeps_ite (keeps_finishDiscard (keeps_with (.refl _))) (keeps_with (.refl
    _))))

/-! ### Sessions and RoCEv2 (R297 to R316) -/

theorem keeps_takeHello (h : Keeps s₀ s) (m : HelloMsg) : Keeps s₀ (State.takeHello m s) := by
  unfold State.takeHello
  split
  · exact keeps_sendHost h ..
  · exact keeps_sendHost (keeps_with (keeps_draw h)) ..

theorem settles_execHello (s : State) (m : HelloMsg) : Settles s (execHello m s) :=
  settles_ite (.refl _) (keeps_takeDgram (.refl _) _ _ _ _ (fun _ k0 => keeps_takeHello k0 ..))

theorem keeps_takeControl (h : Keeps s₀ s) : Keeps s₀ s.takeControl := by
  unfold State.takeControl
  split
  · exact h
  · exact keeps_ite (keeps_with (keeps_endSession h ..)) (keeps_endSession h ..)

theorem keeps_takeFinish (h : Keeps s₀ s) (session : Nat) (sigEd : BitVec 512) (sigMl : Bytes) :
    Keeps s₀ (State.takeFinish session sigEd sigMl s) := by
  unfold State.takeFinish
  split
  · exact h
  · exact keeps_ite h (keeps_ite (keeps_sendHost (keeps_with h) ..) (keeps_ite (keeps_sendHost (keeps_ite
      (keeps_takeControl (keeps_with h)) (keeps_with h)) ..) (keeps_ite (keeps_beginOffsets (keeps_raiseBoot
      (keeps_with (keeps_ite (keeps_takeControl (keeps_with h)) (keeps_with h))))) (keeps_with (keeps_ite
      (keeps_takeControl (keeps_with h)) (keeps_with h))))))

theorem settles_execSessionTimeout (s : State) (session : Nat) : Settles s (execSessionTimeout session s) := by
  unfold execSessionTimeout
  split
  · exact .refl _
  · exact keeps_ite (keeps_endSession (.refl _) ..) (.refl _)

theorem keeps_reportLost (h : Keeps s₀ s) (id : Nat) : Keeps s₀ (s.reportLost id) := by
  unfold State.reportLost
  split
  · exact h
  · exact keeps_ite h (keeps_eventTo (keeps_updSession h ..) ..)

theorem keeps_takeEventAck (h : Keeps s₀ s) (session seq : Nat) : Keeps s₀ (State.takeEventAck session seq s) :=
  keeps_reportLost (keeps_updSession h ..) ..

theorem settles_execEventAck (s : State) (session : Nat) (m : AckMsg) : Settles s (execEventAck session m s) :=
  keeps_takeDgram (.refl _) _ _ _ _ (fun _ k0 => keeps_takeEventAck k0 ..)

theorem settles_execEventRetransmit (s : State) (session : Nat) : Settles s (execEventRetransmit session s) := by
  unfold execEventRetransmit
  split
  · exact .refl _
  · exact keeps_foldl (fun _ _ k0 => keeps_sendHost k0 ..) _ (.refl _)

theorem keeps_updQp (h : Keeps s₀ s) (qpn : BitVec 24) (f : QueuePair → QueuePair) : Keeps s₀ (s.updQp qpn f) :=
  keeps_with h

theorem keeps_onQp (h : Keeps s₀ s) (qpn : BitVec 24) (net : Net) {act : QueuePair → State → State} (hf : ∀ q u, Keeps
    s₀ u → Keeps s₀ (act q u)) :
    Keeps s₀ (s.onQp qpn net act) := by
  unfold State.onQp
  split
  · exact h
  · exact hf _ _ (keeps_ite (keeps_sendHost h ..) h)

theorem settles_execRdmaWrite (s : State) (qpn : BitVec 24) (key : BitVec 32) (place : RdmaPlace) (data : Bytes) (net
    : Net) :
    Settles s (execRdmaWrite qpn key place data net s) :=
  keeps_onQp (.refl _) _ _ (fun _ _ k0 => keeps_ite (keeps_sendHost k0 ..) (keeps_ite (keeps_sendHost
    (keeps_writeRegion k0 ..) ..) (keeps_sendHost k0 ..)))

theorem settles_execRdmaRead (s : State) (qpn : BitVec 24) (key : BitVec 32) (place : RdmaPlace) (length : Nat) (net : Net) :
    Settles s (execRdmaRead qpn key place length net s) := by
  refine keeps_onQp (.refl s) _ _ fun _ _ k => ?_
  split
  case h_1 hr =>
    split at hr
    · exact keeps_sendHost (keeps_readRegion k hr) ..
    · cases hr
  case h_2 => exact keeps_sendHost k ..

theorem settles_execSend (s : State) (qpn : BitVec 24) (_data : Bytes) (unsupported : Bool) (net : Net) :
    Settles s (execSend qpn _data unsupported net s) :=
  keeps_onQp (.refl _) _ _ (fun _ _ k0 => keeps_ite (keeps_updQp (keeps_sendHost k0 ..) ..) (keeps_sendHost k0 ..))

/-! ### Status codes, maintenance and the fatal path (R342, R350, R359) -/

theorem keeps_poisonNext (h : Keeps s₀ s) (site block : Nat) : Keeps s₀ (s.poisonNext site block) := by
  unfold State.poisonNext
  split
  · exact keeps_with h
  · exact h

theorem keeps_hopFails (h : Keeps s₀ s) (site : BitVec 12) (hop : BitVec 8) : Keeps s₀ (s.hopFails site hop) :=
  keeps_ite h (keeps_raise (keeps_updRepair h ..) ..)

theorem keeps_hopRetries (h : Keeps s₀ s) (site : BitVec 12) (hop : BitVec 8) : Keeps s₀ (s.hopRetries site hop) :=
  keeps_ite (keeps_with h) (keeps_hopFails (keeps_with h) ..)

theorem keeps_hopsPass (h : Keeps s₀ s) (site : BitVec 12) : Keeps s₀ (s.hopsPass site) := keeps_with h

theorem keeps_noteStatus (h : Keeps s₀ s) (m : StatusMsg) : Keeps s₀ (s.noteStatus m) := by
  unfold State.noteStatus
  refine keeps_ite (keeps_hopRetries (keeps_ite (keeps_queueTest (keeps_noteDetection h ..) ..) h) ..) ?_
  refine keeps_ite (keeps_poisonNext (keeps_hopsPass (keeps_ite (keeps_queueTest (keeps_noteDetection h ..) ..) h) ..)
    ..) ?_
  refine keeps_ite ?_ (keeps_hopsPass (keeps_ite (keeps_queueTest (keeps_noteDetection h ..) ..) h) ..)
  split
  · exact keeps_losePages (keeps_hopsPass (keeps_ite (keeps_queueTest (keeps_noteDetection h ..) ..) h) ..) ..
  · exact keeps_hopsPass (keeps_ite (keeps_queueTest (keeps_noteDetection h ..) ..) h) ..

theorem settles_execEvent (s : State) (m : StatusMsg) : Settles s (execEvent m s) :=
  settles_ite (.refl _) (keeps_boundary (keeps_noteStatus (keeps_raise (.refl _) ..) ..))

theorem settles_execHalt (s : State) (tile : Nat) : Settles s (execHalt tile s) :=
  settles_ite (.refl _) (keeps_rillAt (.refl _) _ (fun _ k0 => keeps_foldl (fun _ _ k1 => keeps_updTile k1 ..) _ k0))

theorem keeps_maintReply (h : Keeps s₀ s) (p : Nat) (tag : BitVec 12) (data : Bytes) :
    Keeps s₀ (s.maintReply p tag data) :=
  keeps_foldl (fun _ _ k0 => keeps_sendRill k0 ..) _ h

theorem keeps_maintAt (h : Keeps s₀ s) (p : Nat) (type : BitVec 8) (tag : BitVec 12) (addr : BitVec 40) {f : State →
    State} (hf : ∀ u, Keeps s₀ u → Keeps s₀ (f u)) :
    Keeps s₀ (s.maintAt p type tag addr f) :=
  keeps_rillAt (keeps_wake h) _ (fun _ k0 => keeps_ite k0 (hf _ k0))

theorem settles_execMaintWrite (s : State) (phys : Nat) (addr : BitVec 40) (m : MaintData) :
    Settles s (execMaintWrite phys addr m s) :=
  settles_ite (.refl _) (keeps_maintAt (.refl _) _ _ _ _ (fun _ k0 => keeps_ite k0 (keeps_ite (keeps_maintReply
    (keeps_maintStore k0 ..) ..) (keeps_maintReply k0 ..))))

theorem settles_execMaintRead (s : State) (phys : Nat) (addr : BitVec 40) (length : Nat) (tag : BitVec 12) :
    Settles s (execMaintRead phys addr length tag s) :=
  settles_ite (.refl _) (keeps_maintAt (.refl _) _ _ _ _ (fun _ k0 => keeps_ite k0 (keeps_ite (keeps_maintReply
    (keeps_with k0) ..) (keeps_maintReply k0 ..))))

theorem keeps_pollTile (h : Keeps s₀ s) (answers : List (Nat × BitVec 64)) (p : Nat) :
    Keeps s₀ (State.pollTile answers s p) := by
  unfold State.pollTile
  refine keeps_ite h ?_
  split
  · exact keeps_raise h ..
  · exact keeps_ite (keeps_raise h ..) (keeps_setTile h ..)

theorem settles_execHeartbeatPoll (s : State) (answers : List (Nat × BitVec 64)) :
    Settles s (execHeartbeatPoll answers s) :=
  settles_ite (.refl _) (keeps_boundary (keeps_foldl (fun _ _ k0 => keeps_pollTile k0 ..) _ (.refl _)))

theorem settles_execModuleFatal (s : State) (code : Code) (p : Place) : Settles s (execModuleFatal code p s) :=
  settles_ite (.refl _) (settles_ite (keeps_powerLost (.refl _) ..) (keeps_raise (.refl _) ..))

theorem keeps_takeDump (h : Keeps s₀ s) (code : Code) (absent : List (Nat × BitVec 8)) :
    Keeps s₀ (s.takeDump code absent) := by
  dsimp only [State.takeDump]
  exact keeps_updTrace (keeps_writeSyncDump (keeps_with h) ..) ..

theorem keeps_abandonStep (h : Keeps s₀ s) : Keeps s₀ s.abandonStep :=
  keeps_ite h (keeps_ite (keeps_retag (keeps_with h)) (keeps_with (keeps_releaseStep h)))

theorem keeps_closeAll (h : Keeps s₀ s) (code : Code) : Keeps s₀ (s.closeAll code) :=
  keeps_with (keeps_foldl (fun _ _ k0 => keeps_closeSession k0 ..) _ h)

theorem keeps_fieldsOff (h : Keeps s₀ s) (code : Code) : Keeps s₀ (s.fieldsOff code) :=
  (keeps_dropRecords h (List.range logicalTiles)).of_mem rfl fun _ => rfl

theorem settles_execFatalDumpComplete (s : State) (absent : List (Nat × BitVec 8)) :
    Settles s (execFatalDumpComplete absent s) := by
  unfold execFatalDumpComplete
  split
  · exact .refl _
  · exact keeps_ite (keeps_fieldsOff (keeps_with (keeps_toStandby (keeps_unloadProgram (keeps_abandonStep
      (keeps_closeAll (keeps_takeDump (.refl _) ..) ..))))) ..) (keeps_with (keeps_toStandby (keeps_unloadProgram
      (keeps_abandonStep (keeps_closeAll (keeps_takeDump (.refl _) ..) ..)))))

/-! ### The idle cycle (R328) -/

theorem keeps_consumeMailbox (h : Keeps s₀ s) : Keeps s₀ s.consumeMailbox := by
  unfold State.consumeMailbox
  split
  · exact h
  · exact keeps_ite (keeps_progress (keeps_with h) ..) h

theorem keeps_tick (h : Keeps s₀ s) : Keeps s₀ s.tick := keeps_ite (keeps_with (keeps_consumeMailbox h)) h

/-! ### The machine -/

/-- Every command keeps the queue behind it and the canonical form of the memories, or is refused by the load's check. -/
theorem settles_exec (s : State) (c : Instr) : Settles s (exec c s) := by
  cases c with
  | ping => exact keeps_delit (.refl _) ..
  | sessionClose => exact keeps_delit (.refl _) ..
  | eventFilter => exact keeps_delit (.refl _) ..
  | moduleInfo => exact keeps_delit (.refl _) ..
  | qpCreate => exact keeps_delit (.refl _) ..
  | qpDestroy => exact keeps_delit (.refl _) ..
  | bulkWrite => exact keeps_delit (.refl _) ..
  | bulkRead => exact keeps_delit (.refl _) ..
  | programBegin => exact keeps_delit (.refl _) ..
  | programLoad => exact keeps_delit (.refl _) ..
  | programLoadComplete => exact settles_execProgramLoadComplete ..
  | stepOpen => exact keeps_delit (.refl _) ..
  | stepDiscard => exact keeps_delit (.refl _) ..
  | stepStatusRead => exact keeps_delit (.refl _) ..
  | lossRead => exact keeps_delit (.refl _) ..
  | receiptFetch => exact keeps_delit (.refl _) ..
  | strataStatusRead => exact keeps_delit (.refl _) ..
  | lossScaleWrite => exact keeps_delit (.refl _) ..
  | lossScaleRead => exact keeps_delit (.refl _) ..
  | optGroupWrite => exact keeps_delit (.refl _) ..
  | optGroupRead => exact keeps_delit (.refl _) ..
  | windowWrite => exact keeps_delit (.refl _) ..
  | windowRead => exact keeps_delit (.refl _) ..
  | kilnStatsRead => exact keeps_delit (.refl _) ..
  | kilnStatsClear => exact keeps_delit (.refl _) ..
  | fieldMapRead => exact keeps_delit (.refl _) ..
  | repairMapRead => exact keeps_delit (.refl _) ..
  | fieldFence => exact keeps_delit (.refl _) ..
  | fieldUnfence => exact keeps_delit (.refl _) ..
  | selftestTest => exact keeps_delit (.refl _) ..
  | selftestRecalibrate => exact keeps_delit (.refl _) ..
  | selftestFull => exact keeps_delit (.refl _) ..
  | selftestDone => exact keeps_resumeOpen (keeps_testDone (.refl _) ..)
  | positionIdSet => exact keeps_delit (.refl _) ..
  | peerTableWrite => exact keeps_delit (.refl _) ..
  | linkStatusRead => exact keeps_delit (.refl _) ..
  | syncRead => exact keeps_delit (.refl _) ..
  | setValue => exact keeps_delit (.refl _) ..
  | release => exact keeps_delit (.refl _) ..
  | syncDump => exact keeps_delit (.refl _) ..
  | clockRatioSet => exact keeps_delit (.refl _) ..
  | powerStatusRead => exact keeps_delit (.refl _) ..
  | snapshotExport => exact keeps_delit (.refl _) ..
  | exportComplete => exact settles_execExportComplete ..
  | parityConfig => exact keeps_delit (.refl _) ..
  | restoreStore => exact keeps_delit (.refl _) ..
  | restoreBase => exact keeps_delit (.refl _) ..
  | restoreRebuild => exact keeps_delit (.refl _) ..
  | traceSetAndArm => exact keeps_delit (.refl _) ..
  | traceDisarm => exact keeps_delit (.refl _) ..
  | traceEmptyAndArm => exact keeps_delit (.refl _) ..
  | traceFetch => exact keeps_delit (.refl _) ..
  | counterReadCounters => exact keeps_delit (.refl _) ..
  | counterSample => exact settles_execCounterSample ..
  | counterReadPhaseDetails => exact keeps_delit (.refl _) ..
  | replayFetch => exact keeps_delit (.refl _) ..
  | dumpFetch => exact keeps_delit (.refl _) ..
  | attest => exact keeps_delit (.refl _) ..
  | hello => exact settles_execHello ..
  | finish => exact keeps_takeDgram (.refl _) _ _ _ _ (fun _ k0 => keeps_takeFinish k0 ..)
  | eventAck => exact settles_execEventAck ..
  | eventRetransmit => exact settles_execEventRetransmit ..
  | sessionTimeout => exact settles_execSessionTimeout ..
  | fragmentTimeout => exact keeps_with (.refl _)
  | handshakeTimeout => exact keeps_with (.refl _)
  | rdmaWrite => exact settles_execRdmaWrite ..
  | rdmaRead => exact settles_execRdmaRead ..
  | send _ data => exact settles_execSend _ _ data ..
  | congestionNotification => exact keeps_updQp (.refl _) ..
  | rateRestore => exact keeps_updQp (.refl _) ..
  | ptpSync => exact settles_ite (keeps_updTrace (.refl _) ..) (.refl _)
  | leaseRenewal => exact settles_ite (keeps_sendHost (keeps_with (.refl _)) ..) (.refl _)
  | icmpEcho => exact keeps_ite (keeps_sendHost (.refl _) ..) (.refl _)
  | arp => exact keeps_ite (keeps_sendHost (.refl _) ..) (.refl _)
  | status => exact settles_ite (keeps_sendHost (.refl _) ..) (.refl _)
  | bootNow => exact keeps_ite (keeps_startAttempt (.refl _)) (.refl _)
  | wardenPowerOn => exact settles_ite (.refl _) (keeps_with (.refl _))
  | inputStart => exact settles_execInputStart ..
  | bootAttempt => exact keeps_ite (keeps_startAttempt (.refl _)) (.refl _)
  | bootHeaderFetched => exact settles_execBootHeaderFetched ..
  | edgeRegionActive => exact settles_ite (keeps_updBoot (keeps_updPower (.refl _) ..) ..) (.refl _)
  | firmwareBodyFetched => exact settles_execFirmwareBodyFetched ..
  | provisioningRecordFetched => exact settles_execProvisioningRecordFetched ..
  | bootRetryWait => exact keeps_ite (keeps_startAttempt (.refl _)) (.refl _)
  | denseMm => exact settles_execDenseMm ..
  | canvasSave t d => exact settles_execCanvasSave s t d
  | canvasRestore => exact settles_execCanvasRestore ..
  | sparseMm => exact settles_execSparseMm ..
  | maskedMm => exact settles_execMaskedMm ..
  | plateStore => exact settles_execPlateStore ..
  | plateLoad => exact settles_execPlateLoad ..
  | plateTranspose => exact settles_execPlateTranspose ..
  | plateAdopt => exact settles_execPlateAdopt ..
  | transpose => exact settles_execTranspose ..
  | strataPush => exact settles_execStrataPush ..
  | strataPop => exact settles_execStrataPop ..
  | strataLayerFill => exact settles_execStrataLayerFill ..
  | strataLayerDrain => exact settles_execStrataLayerDrain ..
  | strataWriteback => exact settles_ite (keeps_writeBackOne (.refl _) ..) (.refl _)
  | strataRefill => exact settles_ite (keeps_refillOne (.refl _) ..) (.refl _)
  | pruneTopk => exact settles_execPruneTopk ..
  | pruneThreshold => exact settles_execPruneThreshold ..
  | regrow => exact settles_execRegrow ..
  | maskCommit => exact settles_execMaskCommit ..
  | add => exact settles_vecOp ..
  | sub => exact settles_vecOp ..
  | mul => exact settles_vecOp ..
  | fma => exact settles_vecOp ..
  | max => exact settles_vecOp ..
  | min => exact settles_vecOp ..
  | abs => exact settles_vecOp ..
  | neg => exact settles_vecOp ..
  | div => exact settles_vecOp ..
  | sqrt => exact settles_vecOp ..
  | cvt => exact settles_vecOp ..
  | select => exact settles_vecOp ..
  | cmpLt => exact settles_vecOp ..
  | palF => exact settles_vecOp ..
  | palD => exact settles_vecOp ..
  | sum => exact settles_vecOp ..
  | maxred => exact settles_vecOp ..
  | sumsq => exact settles_vecOp ..
  | paletteLoad => exact settles_execPaletteLoad ..
  | lossReport => exact settles_execLossReport ..
  | optStep => exact settles_execOptStep ..
  | recvAdd => exact settles_execRecvAdd ..
  | syncSignal => exact settles_execSyncSignal ..
  | syncWait => exact settles_execSyncWait ..
  | syncAdd => exact keeps_atHeadEnd (.refl _) _ _ (fun _ k0 => keeps_syncAdd k0 ..)
  | arrive => exact keeps_atHeadEnd (.refl _) _ _ (fun _ k0 => keeps_syncArrive k0 ..)
  | wait => exact keeps_atHeadEnd (.refl _) _ _ (fun _ k0 => keeps_syncWaitOp k0 ..)
  | arriveWait => exact keeps_atHeadEnd (.refl _) _ _ (fun _ k0 => keeps_syncArrive k0 ..)
  | leave => exact keeps_atHeadEnd (.refl _) _ _ (fun _ k0 => keeps_syncLeave k0 ..)
  | syncWake => exact settles_execSyncWake ..
  | halt => exact settles_execHalt ..
  | maintWrite => exact settles_execMaintWrite ..
  | maintRead => exact settles_execMaintRead ..
  | maintReply => exact keeps_wake (.refl _)
  | mailbox => exact keeps_rillAt (.refl _) _ (fun _ k0 => keeps_ite (keeps_with k0) k0)
  | trace => exact keeps_ite (keeps_traceTo (.refl _) ..) (.refl _)
  | undeliverable => exact keeps_raise (.refl _) ..
  | event => exact settles_execEvent ..
  | causeWindowClose => exact settles_ite (keeps_with (.refl _)) (.refl _)
  | discardRelease => exact settles_execDiscardRelease ..
  | columnShiftCopyDone => exact settles_execColumnShiftCopyDone ..
  | heartbeatPoll => exact settles_execHeartbeatPoll ..
  | rillHopFailed => exact keeps_hopFails (keeps_hopsPass (.refl _) ..) ..
  | seamRealigned => exact keeps_ite (keeps_pumpMesh (keeps_with (.refl _))) (.refl _)
  | fillEnd => exact settles_execFillEnd ..
  | drainEnd => exact settles_execDrainEnd ..
  | columnTotal => exact settles_execColumnTotal ..
  | columnTotalAck => exact settles_ite (.refl _) (keeps_updTile (.refl _) ..)
  | xs96Block => exact settles_execXs96Block ..
  | resendRequest => exact settles_execResendRequest ..
  | stragglerDeadline => exact settles_execStragglerDeadline ..
  | voteSend => exact settles_execVoteSend ..
  | vote => exact settles_execVote ..
  | commitPoint => exact settles_execCommitPoint ..
  | sealEnd => exact settles_execSealEnd ..
  | deadlock => exact settles_execDeadlock ..
  | weightFrame => exact settles_execWeightFrame ..
  | signal => exact settles_execSignal ..
  | timeProbe => exact settles_execTimeProbe ..
  | timeReply => exact settles_execTimeReply ..
  | peerOffsetExchange => exact settles_execPeerOffsetExchange ..
  | timeProbeTimeout => exact keeps_updOffset (.refl _) ..
  | zlinkFlit => exact settles_execZlinkFlit ..
  | nak => exact settles_execNak ..
  | credit => exact settles_execCredit ..
  | laneSwap => exact settles_execLaneSwap ..
  | restripe => exact settles_execRestripe ..
  | route => exact settles_execRoute ..
  | ident _ _ _ pb fw => exact settles_execIdent _ _ _ _ pb fw
  | trainTimeout => exact settles_execTrainTimeout ..
  | downRetry => exact settles_execDownRetry ..
  | laneDegrading => exact settles_execLaneDegrading ..
  | laneLost => exact settles_execLaneLost ..
  | spareTrained => exact settles_execSpareTrained ..
  | parityJoin => exact settles_execParityJoin ..
  | parityReady => exact settles_execParityReady ..
  | parityUnit => exact settles_execParityUnit ..
  | parityDone => exact settles_execParityDone ..
  | rebuildRequest => exact settles_execRebuildRequest ..
  | rebuildUnit => exact settles_execRebuildUnit ..
  | readData => exact settles_execReadData ..
  | traceTrigger => exact settles_execTraceTrigger ..
  | traceFreeze => exact settles_execTraceFreeze ..
  | idleEntry => exact settles_ite (keeps_with (.refl _)) (.refl _)
  | inputWarning => exact settles_execInputWarning ..
  | inputOrEdgeReset => exact settles_execInputOrEdgeReset ..
  | railWarning => exact settles_execRailWarning ..
  | suspectWindowClose => exact settles_execSuspectWindowClose ..
  | suspectWindowTimeout => exact settles_execSuspectWindowTimeout ..
  | coreReset => exact settles_execCoreReset ..
  | loamRailReset => exact settles_execLoamRailReset ..
  | breakerOpen => exact settles_execBreakerOpen ..
  | regionStartFail => exact settles_execRegionStartFail ..
  | peakLimit => exact settles_ite (.refl _) (keeps_raise (keeps_ratios (.refl _) ..) ..)
  | peakLimitRelease => exact settles_ite (.refl _) (keeps_ratios (.refl _) ..)
  | droopStretchBegin => exact settles_execDroopStretchBegin ..
  | droopStretchEnd => exact settles_execDroopStretchEnd ..
  | injectionLockLoss => exact keeps_ite (.refl _) (keeps_loseLock (.refl _) ..)
  | temperatureSample => exact settles_execTemperatureSample ..
  | thermalThrottle => exact settles_execThermalThrottle ..
  | thermalRelease => exact settles_execThermalRelease ..
  | coolingLoss => exact settles_ite (.refl _) (keeps_raise (keeps_ratios (.refl _) ..) ..)
  | coolingRestored => exact keeps_updPower (.refl _) ..
  | coolingFailed => exact keeps_ite (keeps_raise (.refl _) ..) (.refl _)
  | moduleFatal => exact settles_execModuleFatal ..
  | fatalDumpComplete => exact settles_execFatalDumpComplete ..
  | fwFetch => exact settles_execFwFetch ..
  | fetchComplete => exact settles_execFetchComplete ..

/-- A step with a command at the front runs that command on the queue's rest. -/
theorem settles_step {c : Instr} {rest : List Instr} (h : s.pending = c :: rest) :
    Settles { s with pending := rest } (step s) := by
  have hs : step s = exec c { s with pending := rest } := by rw [step, h]
  exact hs ▸ settles_exec _ c

/-- Settles O1. -/
theorem stepRunsFront : Obligations.StepRunsFront := by
  unfold Obligations.StepRunsFront
  intro c rest s h
  rw [step, h]

/-- Settles O2: a step is one command's work, and none of the operations in it touches the queue. -/
theorem stepsTakeOneCommand : Obligations.StepsTakeOneCommand := by
  unfold Obligations.StepsTakeOneCommand
  intro c rest s h
  have hs := settles_step h
  refine ⟨fun t ht => ?_, fun f hf => ?_, fun r hr => ?_⟩
  · rw [ht] at hs
    exact hs.pending
  · rw [hf] at hs
    exact hs.elim
  · rw [hr] at hs
    exact hs

/-- Settles O3: every write to a memory keeps its keys rising and its bytes non-zero, and every command's work consists of such
writes; an idle cycle writes nothing. -/
theorem stepKeepsMemory : Obligations.StepKeepsMemory := by
  unfold Obligations.StepKeepsMemory
  intro s t w ht
  cases hp : s.pending with
  | nil =>
    rw [step, hp] at ht
    cases ht
    exact (keeps_tick (.refl s)).memory w
  | cons c rest =>
    have hs := settles_step hp
    rw [ht] at hs
    exact hs.memory w

/-- Settles O4. -/
theorem resetCanonical : Obligations.ResetCanonical := by
  unfold Obligations.ResetCanonical Canonical
  decide +kernel

/-- Settles O5: what the idle cycle does beside counting is the firmware's reading of its mailboxes. -/
theorem emptyQueueTicks : Obligations.EmptyQueueTicks := by
  unfold Obligations.EmptyQueueTicks
  intro s hp
  have hstep : step s = .next s.tick := by rw [step, hp]
  refine ⟨fun hw => by simp [hstep, State.tick, hw], fun hw => ?_⟩
  rw [hstep, State.tick, if_pos hw, State.consumeMailbox]
  cases hm : s.mailboxes with
  | nil => simp [hm]
  | cons m r => cases hf : s.boot.firmwareRuns <;> simp [hm, State.progress, mailboxQueue]

end Sys2Proof.Laws
end

section
/-! Delit commands that read, set or fetch: their answers, and what they leave unchanged (R289, R295 to R317, R389 to R398). -/

namespace Sys2Proof.Laws

open Sys2Proof.Machine Sys2Proof.Safety

section
variable {h : Hdr} {x : Session} {s t : State} {op : DelitOp}

/-! ### Reads of registers and tables (O6) -/

/-- A read that any session may send at any moment. -/
theorem delit_read {b : Bytes} (r : Ready h x s) (no : ∀ p, op ≠ .stepOpen p) (c : needsControl op = false)
    (w : betweenSteps op = false) (f : ∀ u, followOp h op u = u) (a : performOp h op (heard h s) = (heard h t, 0, b)) :
    s.delit h op = replied h 0 b t :=
  State.delit_ok r no (.inl c) (.inl w) f a

/-- A read of table entries: all of them when they exist, 0x1004 otherwise. -/
theorem delit_readEntries {n first count : Nat} {g : Nat → Bytes} (r : Ready h x s) (no : ∀ p, op ≠ .stepOpen p)
    (c : needsControl op = false) (w : betweenSteps op = false) (f : ∀ u, followOp h op u = u)
    (a : performOp h op (heard h s) = (heard h s).readEntries n first count g) :
    s.delit h op = if first + count ≤ n then replied h 0 ((List.range count).flatMap (fun i => g (first + i))) s
      else replied h 0x1004 [] s := by
  unfold State.readEntries at a
  split
  case isTrue hle => exact delit_read r no c w f (a.trans (if_neg (by omega)))
  case isFalse hlt => exact State.delit_refused r no (.inl c) (.inl w) (by decide) (a.trans (if_pos (by omega)))

/-- MODULE_INFO shows nothing of when a session was last heard of. -/
theorem doModuleInfo_heard (h : Hdr) (s : State) : doModuleInfo (heard h s) = (heard h s, 0, (doModuleInfo s).2.2) := by
  have hsessions {g : Session → Bytes} (hg : ∀ y, g { y with lastHeard := s.now } = g y) :
      (heard h s).host.sessions.flatMap g = s.host.sessions.flatMap g := by
    simp only [heard, State.heard, State.updSession, List.flatMap_map]
    congr 1
    funext y
    split <;> simp [hg]
  have hcount : (heard h s).host.sessions.length = s.host.sessions.length := List.length_map ..
  simp only [doModuleInfo, State.ok, hcount]
  rw [hsessions fun _ => rfl]
  rfl

end

/-- Settles O6. -/
theorem readsAnswer : Obligations.ReadsAnswer := by
  unfold Obligations.ReadsAnswer
  refine ⟨fun h x s nonce r => ?_, fun h x s first count r => ?_⟩
  · have hinfo := delit_read (op := .moduleInfo) r (by nofun) rfl rfl (fun _ => rfl) (doModuleInfo_heard h s)
    refine ⟨?_, congrArg Host.Outcome.next hinfo, ?_, ?_, ?_, ?_, ?_, ?_⟩
    all_goals exact congrArg Host.Outcome.next (delit_read r (by nofun) rfl rfl (fun _ => rfl) rfl)
  · exact ⟨congrArg Host.Outcome.next (delit_readEntries (op := .optGroupRead first count) (n := 64)
        (g := fun i => leBytes 32 (smGet (0 : BitVec 256) s.step.optGroups i).toNat) r (by nofun) rfl rfl (fun _ => rfl) rfl),
      congrArg Host.Outcome.next (delit_readEntries (op := .windowRead first count) (n := 256)
        (g := fun i => leBytes 2 (s.window i).toNat) r (by nofun) rfl rfl (fun _ => rfl) rfl),
      congrArg Host.Outcome.next (delit_readEntries (op := .kilnStatsRead first count) (n := 256)
        (g := fun i => leBytes 8 (s.kilnStats i).toNat) r (by nofun) rfl rfl (fun _ => rfl) rfl),
      congrArg Host.Outcome.next (delit_readEntries (op := .linkStatusRead first count) (n := 24)
        (g := fun i => leBytes 8 (s.linkStatus i)) r (by nofun) rfl rfl (fun _ => rfl) rfl)⟩

/-! ### Reads of one object (O7) -/

/-- The RESULT bytes of a session are there whenever it was last heard of. -/
theorem readRegion_result {h : Hdr} {x : Session} {s : State} (hx : s.sessionOf h.session = some x) {off n : Nat}
    (hn : off + n ≤ x.result.length) :
    (heard h s).readRegion h.session 3 off n = some (heard h s, (x.result.drop off).take n) := by
  have hheard : (heard h s).sessionOf h.session = some { x with lastHeard := s.now } := by
    rw [State.sessionOf_heard, hx, Option.map_some]
  unfold State.readRegion
  simp only [BitVec.reduceToNat, hheard]
  exact if_pos hn

/-- Settles O7. -/
theorem objectReadsAnswer : Obligations.ObjectReadsAnswer := by
  unfold Obligations.ObjectReadsAnswer
  intro h x s r
  have hx : s.sessionOf h.session = some x := r.1.2.1
  refine ⟨fun obj hobj => congrArg Host.Outcome.next ?_, fun tile htile => congrArg Host.Outcome.next ?_, fun n => ?_,
    fun off n hn hlen => congrArg Host.Outcome.next ?_, ?_⟩
  · exact delit_read (op := .syncRead obj) r (by nofun) rfl rfl (fun _ => rfl) (if_neg (by omega))
  · exact delit_read (op := .strataStatusRead tile) r (by nofun) rfl rfl (fun _ => rfl)
      (if_neg (Nat.not_le.mpr htile))
  · have hread : performOp h (.receiptFetch n) (heard h s) = doReceiptFetch n (heard h s) := rfl
    have hsteps : (heard h s).step = s.step := rfl
    rw [doReceiptFetch, hsteps] at hread
    cases hrec : s.step.receipts.find? (fun r => r.1 == n) with
    | some y => exact congrArg Host.Outcome.next (delit_read r (by nofun) rfl rfl (fun _ => rfl) (by rw [hread, hrec]; rfl))
    | none => exact congrArg Host.Outcome.next (State.delit_refused r (by nofun) (.inl rfl) (.inl rfl) (by decide)
        (by rw [hread, hrec]; rfl))
  · have hread : performOp h (.bulkRead 3 off n) (heard h s) = doBulkRead h 3 off n (heard h s) := rfl
    rw [doBulkRead, if_neg (by omega), readRegion_result hx hlen] at hread
    exact delit_read r (by nofun) rfl rfl (fun _ => rfl) hread
  · exact congrArg Host.Outcome.next (delit_read (op := .powerStatusRead) r (by nofun) rfl rfl (fun _ => rfl) rfl)

/-! ### Updates of many entries of a table -/

theorem smGet_notKey {α : Type} {d : α} {n : Nat} : ∀ {m : SMap α}, n ∉ m.map (·.1) → smGet d m n = d
  | [], _ => rfl
  | (a, v) :: r, h => by
    simp only [List.map_cons, List.mem_cons, not_or] at h
    rw [smGet, if_neg h.1, smGet_notKey h.2, ite_self]

section
variable {α : Type} [DecidableEq α] {d : α} {f : α → α} {m : SMap α} {n : Nat}

theorem smUpd_wf {lo : Nat} (h : lo ≤ n) (w : smWf d lo m = true) : smWf d lo (smUpd d n f m) = true := smPut_wf h w

/-- Entries updated one after another by a function that changes nothing the second time. -/
theorem smGet_foldl_smUpd (hf : ∀ a, f (f a) = f a) : ∀ (l : List Nat) {m : SMap α}, smWf d 0 m = true →
    smGet d (l.foldl (fun m k => smUpd d k f m) m) n = if n ∈ l then f (smGet d m n) else smGet d m n
  | [], _, _ => by simp
  | k :: r, m, w => by
    rw [List.foldl_cons, smGet_foldl_smUpd hf r (smUpd_wf (Nat.zero_le k) w)]
    by_cases hk : n = k
    · subst hk
      rw [smUpd, smGet_smPut_same w, hf]
      simp
    · rw [smUpd, smGet_smPut_other hk w]
      simp [hk]

end

/-- Port blocks updated one after another. -/
theorem foldl_updPb_eq (f : PbState → PbState) (l : List Nat) (s : State) : l.foldl (fun s n => s.updPb n f) s =
    { s with pbs := l.foldl (fun m n => smUpd {} n f m) s.pbs } := by
  induction l generalizing s with
  | nil => rfl
  | cons n r ih => rw [List.foldl_cons, ih]; rfl

/-! ### Settings and tables (O8) -/

section
variable {h : Hdr} {x : Session} {s t : State} {op : DelitOp}

/-- A command of the controlling session between steps, that answers OK. -/
theorem delit_set (r : ReadyBetween h x s) (no : ∀ p, op ≠ .stepOpen p) (f : ∀ u, followOp h op u = u)
    (a : performOp h op (heard h s) = (heard h t, 0, [])) : s.delit h op = replied h 0 [] t :=
  State.delit_ok r.1.1 no (.inr r.1.2) (.inr r.2) f a

/-- The same, refused: nothing but the session changes. -/
theorem delit_unset (r : ReadyBetween h x s) (no : ∀ p, op ≠ .stepOpen p) {st : Code} (n : 1 < st.toNat)
    (a : performOp h op (heard h s) = (heard h s, st, [])) : s.delit h op = replied h st [] s :=
  State.delit_refused r.1.1 no (.inr r.1.2) (.inr r.2) n a

end

/-- A link that trains or carries traffic, given a peer-table entry without DISABLE, keeps its state. -/
theorem setPeer_enabled {s : State} {n : Nat} {e : BitVec 32} (hon : (linkOf s n).state ≠ .disabled) (he : e.getLsbD 18 = false) :
    s.setPeer n e = s.setLink n { linkOf s n with peerTable := e } := by
  rw [State.setPeer, he]
  simp [hon, State.updLink]

/-- A port block without statistics. -/
def noStats (p : PbState) : PbState := { p with stats := [] }

/-- Settles O8. -/
theorem settingsAndTablesWritten : Obligations.SettingsAndTablesWritten := by
  unfold Obligations.SettingsAndTablesWritten
  refine ⟨fun h x s r => ⟨fun v hv => ?_, fun i e hi he hok => ?_, fun i v hi hv hlo hhi => ?_, fun id hp hid => ?_⟩,
    fun h x s r hc => ?_, fun h x s n e r => ⟨fun hn he hk ha hd => ?_, fun hn he => ?_, fun hn => ?_⟩⟩
  · exact congrArg Host.Outcome.next (delit_set (op := .lossScaleWrite v) r (by nofun) (fun _ => rfl) (if_neg (by simp [hv])))
  · refine congrArg Host.Outcome.next (delit_set (op := .optGroupWrite i e) r (by nofun) (fun _ => rfl) ?_)
    have hzero : bitsOf e.toNat 255 193 = 0 := by
      rw [bitsOf, Nat.shiftRight_eq_div_pow, Nat.div_eq_of_lt he, Nat.zero_mod]
    exact (if_neg (by omega)).trans ((if_neg (by simp [hzero])).trans (if_neg (by simp [hok])))
  · exact congrArg Host.Outcome.next (delit_set (op := .windowWrite i v) r (by nofun) (fun _ => rfl)
      ((if_neg (by omega)).trans ((if_neg (by omega)).trans (if_neg (by omega)))))
  · exact congrArg Host.Outcome.next (delit_set (op := .positionIdSet id) r (by nofun) (fun _ => rfl)
      ((if_neg (by simp [heard, State.heard, State.updSession, hp])).trans
        (if_neg fun ⟨hlow, hne⟩ => hid.elim (Nat.not_lt.mpr hlow) hne)))
  · obtain ⟨-, -, hpbs, -⟩ := hc
    refine ⟨(s.pbs.map (·.1)).foldl (fun m n => smUpd {} n noStats m) s.pbs, ?_, fun n => ?_⟩
    · exact congrArg Host.Outcome.next (delit_set (op := .kilnStatsClear) r (by nofun) (fun _ => rfl)
        (congrArg (·, 0, []) (foldl_updPb_eq ..)))
    · rw [smGet_foldl_smUpd (f := noStats) (fun _ => rfl) _ hpbs]
      split
      · rfl
      · rename_i hn
        rw [pbOf, smGet_notKey hn]
  · refine congrArg Host.Outcome.next (delit_set (op := .peerTableWrite n e) r (by nofun) (fun _ => rfl) ?_)
    have hbit : e.getLsbD 18 = false := Nat.testBit_lt_two_pow he
    refine (if_neg (by omega)).trans ((if_neg (by omega)).trans ((if_neg ?_).trans ?_))
    · exact not_or.mpr ⟨hk, ha⟩
    · exact congrArg (·, 0, []) (setPeer_enabled (s := heard h s) hd hbit)
  · exact congrArg Host.Outcome.next (delit_unset (op := .peerTableWrite n e) r (by nofun) (by decide)
      ((if_neg (by omega)).trans (if_pos he)))
  · exact congrArg Host.Outcome.next (delit_unset (op := .peerTableWrite n e) r (by nofun) (by decide) (if_pos hn))

/-! ### Fields fenced (O9) -/

/-- The copies of the commit record move whoever was heard of. -/
theorem moveRecord_heard (h : Hdr) (s : State) : (heard h s).moveRecord = heard h s.moveRecord := by
  have hplaces : (heard h s).repair = s.repair := rfl
  unfold State.moveRecord
  rw [hplaces]
  cases recordPlaces s.repair <;> rfl

theorem moveRecord_repair (s : State) : s.moveRecord.repair = s.repair := by
  unfold State.moveRecord
  cases recordPlaces s.repair <;> rfl

/-- A field's new state, and every other field's old one. -/
theorem fieldState_setField {s : State} (w : smWf 0 0 s.repair.fieldMap = true) (i : Nat) (v : BitVec 2) :
    fieldState ((s.setField i v).moveRecord).repair i = v ∧
      ∀ j, j ≠ i → fieldState ((s.setField i v).moveRecord).repair j = fieldState s.repair j := by
  rw [moveRecord_repair]
  exact ⟨smGet_smPut_same w, fun j hj => smGet_smPut_other hj w⟩

/-- Settles O9. -/
theorem fieldsFenced : Obligations.FieldsFenced := by
  unfold Obligations.FieldsFenced
  intro h x s i r hi w
  have moved (v : BitVec 2) : ((heard h s).setField i v).moveRecord = heard h (s.setField i v).moveRecord :=
    moveRecord_heard h (s.setField i v)
  refine ⟨fun hdark => ⟨_, congrArg Host.Outcome.next (delit_set (op := .fieldFence i) r (by nofun) (fun _ => rfl) ?_), rfl,
      fieldState_setField w i 1⟩,
    fun hst htested => ⟨_, congrArg Host.Outcome.next (delit_set (op := .fieldUnfence i) r (by nofun) (fun _ => rfl) ?_), rfl,
      fieldState_setField w i 0⟩,
    fun hst huntested => congrArg Host.Outcome.next (delit_unset (op := .fieldUnfence i) r (by nofun) (by decide) ?_)⟩
  · have hfence : (heard h s).fenceField i true = heard h (s.setField i 1).moveRecord := (if_neg hdark).trans (moved 1)
    exact (if_neg (by omega)).trans ((if_neg hdark).trans (congrArg (·, 0, []) hfence))
  · have hkept : ¬ (fieldState (heard h s).repair i ≠ 1 ∨ !(heard h s).repair.fullPassed.contains i) := by
      simp [heard, State.heard, State.updSession, hst, htested]
    exact (if_neg (by omega)).trans ((if_neg hkept).trans (congrArg (·, 0, []) (moved 0)))
  · have hrefused : fieldState (heard h s).repair i ≠ 1 ∨ !(heard h s).repair.fullPassed.contains i := by
      simp [heard, State.heard, State.updSession, huntested]
    exact (if_neg (by omega)).trans (if_pos hrefused)

/-! ### Commands on the session itself (O10) -/

section
variable {h : Hdr} {s : State}

/-- An update of a session that does not look at when it was heard of. -/
theorem updSession_heard {f : Session → Session} (hf : ∀ y v, f { y with lastHeard := v } = { f y with lastHeard := v })
    (hid : ∀ y, (f y).id = y.id) : (heard h s).updSession h.session f = heard h (s.updSession h.session f) := by
  simp only [heard, State.heard, State.updSession, List.map_map]
  congr 3
  funext y
  by_cases hy : y.id = h.session
  · simp only [Function.comp, if_pos hy, if_pos ((hid y).trans hy)]
    exact hf y s.now
  · simp only [Function.comp, if_neg hy]

theorem pumpMesh_idle (hparts : s.mesh.parts = []) : s.pumpMesh = s := by
  unfold State.pumpMesh
  rw [hparts]
  rfl

/-- What clock requests change while no schedule runs: an idle module keeps the ratios in effect beside them, ratios that differ
begin the awaited mode, and ratios that are equal again realign the seam. -/
theorem ratios_eq (hparts : s.mesh.parts = []) (f : Power → Power) : s.ratios f =
    if s.power.state = .idle then { s with
      power := { f s.power with held := s.power.held.or (some (s.power.effWest, s.power.effEast)) } }
    else if (f s.power).effWest ≠ (f s.power).effEast then { s with
      power := f s.power
      seam := ⟨true, false⟩ }
    else if s.seam.awaited then { s with
      power := f s.power
      seam := ⟨s.seam.awaited, true⟩ }
    else { s with power := f s.power } := by
  have hrealign : ({ s with power := f s.power, seam := ⟨s.seam.awaited, true⟩ } : State).pumpMesh =
      { s with power := f s.power, seam := ⟨s.seam.awaited, true⟩ } := pumpMesh_idle hparts
  rw [← hrealign]
  rfl

theorem ratios_heard (hparts : s.mesh.parts = []) (f : Power → Power) : (heard h s).ratios f = heard h (s.ratios f) := by
  have hparts' : (heard h s).mesh.parts = [] := hparts
  have hpower : (heard h s).power = s.power := rfl
  have hseam : (heard h s).seam = s.seam := rfl
  rw [ratios_eq hparts, ratios_eq hparts', hpower, hseam]
  split_ifs <;> rfl

/-- Clock requests act on what the power state and the seam hold, and a schedule that has not begun stays where it is. -/
theorem ratios_frame (hparts : s.mesh.parts = []) (f : Power → Power) : s.ratios f = { s with
    power := (s.ratios f).power
    seam := (s.ratios f).seam } := by
  rw [ratios_eq hparts]
  split_ifs <;> rfl

/-- The host's request for its halves, whatever the seam does. -/
theorem setRatio_host (hparts : s.mesh.parts = []) (half ratio : BitVec 8) : (s.setRatio half ratio).power.hostWest =
      (if half = 1 then s.power.hostWest else ratio.toNat) ∧
    (s.setRatio half ratio).power.hostEast = (if half = 0 then s.power.hostEast else ratio.toNat) := by
  unfold State.setRatio
  rw [ratios_eq hparts]
  split_ifs <;> simp [*]

end

/-- Settles O10. -/
theorem sessionCommands : Obligations.SessionCommands := by
  unfold Obligations.SessionCommands
  intro h x s r
  refine ⟨fun v hlo hhi => ?_, fun hport hfew => ?_, fun qpn hport hmine => ?_, fun half ratio hctl hhalf hratio hparts => ?_,
    fun hexp => ?_⟩
  · have hlevel : ¬ (v = 0 ∨ 4 < v.toNat) := by
      rintro (rfl | hbig)
      · exact absurd hlo (by decide)
      · omega
    have hset : performOp h (.eventFilter v) (heard h s) =
        (heard h (s.updSession h.session (fun y => { y with filter := v.toNat })), 0, []) :=
      (if_neg hlevel).trans (congrArg (·, 0, []) (updSession_heard (fun _ _ => rfl) (fun _ => rfl)))
    exact congrArg Host.Outcome.next (State.delit_ok r (by nofun) (.inl rfl) (.inl rfl) (fun _ => rfl) hset)
  · refine ⟨_, _, congrArg Host.Outcome.next (State.delit_ok (op := .qpCreate) r (by nofun) (.inl rfl) (.inl rfl) (fun _ => rfl)
      ((if_neg hport).trans ((if_neg (Nat.not_le.mpr hfew)).trans rfl))), rfl, rfl, rfl, rfl, ?_⟩
    simp
  · exact congrArg Host.Outcome.next (State.delit_ok (op := .qpDestroy qpn) r (by nofun) (.inl rfl) (.inl rfl) (fun _ => rfl)
      ((if_neg hport).trans (if_neg (by simpa [heard, State.heard, State.updSession] using hmine))))
  · refine ⟨_, congrArg Host.Outcome.next (State.delit_ok (op := .clockRatioSet half ratio) r (by nofun) (.inr hctl) (.inl rfl)
      (fun _ => rfl) ((if_neg (by omega)).trans (congrArg (·, 0, []) (ratios_heard hparts _)))), rfl,
      (setRatio_host hparts half ratio).1, (setRatio_host hparts half ratio).2, ratios_frame hparts _⟩
  · have hclose : s.delit h .sessionClose = (replied h 0 [] s).endSession h.session 0 :=
      (State.delit_ready r (by nofun) (.inl rfl) (.inl rfl) rfl).trans (if_pos (by decide))
    refine congrArg Host.Outcome.next (hclose.trans ?_)
    have hnone : (replied h 0 [] s).survival.exporting = none := hexp
    unfold State.endSession
    rw [hnone]
    rfl

/-! ### Fetches, samples and dumps (O11) -/

theorem wake_heard (h : Hdr) (s : State) : (heard h s).wake = heard h s.wake := by
  have hstate : (heard h s).power.state = s.power.state := rfl
  unfold State.wake
  rw [hstate]
  split <;> rfl

theorem startFetch_heard (h : Hdr) (s : State) (o : Owed) (b : Bytes) (st : Code) :
    (heard h s).startFetch o b st = heard h (s.startFetch o b st) := by
  unfold State.startFetch
  rw [wake_heard]
  rfl

theorem startSampling_heard (h : Hdr) (s : State) (o : Owed) (mask : BitVec 16) (first count : Nat) (time : BitVec 64) :
    (heard h s).startSampling o mask first count time = heard h (s.startSampling o mask first count time) := by
  unfold State.startSampling
  rw [wake_heard]
  by_cases hnone : (((List.range count).map (first + ·)).filter
      (fun t => fieldState s.wake.repair (fieldOfLogical t) != 2)).isEmpty = true
  · exact (if_pos hnone).trans ((startFetch_heard h s.wake o [] 0).trans (congrArg (heard h) (if_pos hnone).symm))
  · have hrepair : (heard h s.wake).repair = s.wake.repair := rfl
    simp only [hrepair, hnone, Bool.false_eq_true, if_false]
    rfl

/-- A fetch command of any session that is accepted. -/
theorem delit_fetch {h : Hdr} {x : Session} {s : State} {op : DelitOp} {b : Bytes} {st : Code} (r : Ready h x s)
    (no : ∀ p, op ≠ .stepOpen p) (c : needsControl op = false) (w : betweenSteps op = false) (f : ∀ u, followOp h op u = u)
    (a : performOp h op (heard h s) = ((heard h s).startFetch (owed h) b st, 1, [])) :
    s.delit h op = replied h 1 [] (s.startFetch (owed h) b st) := by
  rw [State.delit_accepted r no (.inl c) (.inl w) (a.trans (congrArg (·, 1, []) (startFetch_heard h s _ b st))), f]

/-- The bits of a sum of distinct powers of two. -/
theorem sum_pow_testBit (f : Nat → Bool) {n k : Nat} (h : k < n) :
    ((List.range n).foldl (fun a q => a + b2n (f q) * 2 ^ q) 0).testBit k = f k := by
  have hterm : (fun (a q : Nat) => a + b2n (f q) * 2 ^ q) = fun m k => if f k then m + 2 ^ k else m := by
    funext a q
    cases f q <;> simp [b2n]
  rw [hterm]
  exact (foldl_pow_testBit f n).2 k h

theorem blockedQueues_getLsbD (s : State) {q : Nat} (h : q < 101) :
    (blockedQueues s).getLsbD q = decide (11000000 ≤ (s.now - smGet 0 s.sync.progressAt q).toNat) := by
  rw [blockedQueues, BitVec.getLsbD_ofNat, decide_eq_true h, Bool.true_and]
  exact sum_pow_testBit (fun q => decide (11000000 ≤ (s.now - smGet 0 s.sync.progressAt q).toNat)) h

/-- Settles O11. -/
theorem fetchesAndSamples : Obligations.FetchesAndSamples := by
  unfold Obligations.FetchesAndSamples
  refine ⟨fun h x s r => ⟨fun first count m b hb => congrArg Host.Outcome.next ?_,
    fun first n hlo hhi => congrArg Host.Outcome.next ?_,
    fun n a c hpol hc => congrArg Host.Outcome.next ?_, fun n a hpol => congrArg Host.Outcome.next ?_,
    fun part first count hpart => congrArg Host.Outcome.next ?_,
    fun part first count hpart hpol => congrArg Host.Outcome.next ?_⟩,
    fun h x s r => ⟨fun mask first count time hlo hhi htime => congrArg Host.Outcome.next ?_,
      ⟨_, rfl, congrArg Host.Outcome.next ?_,
      fun q hq => blockedQueues_getLsbD s hq⟩⟩⟩
  · have hdata : (heard h s).traceData first.toNat count.toNat m = some b := hb
    exact delit_fetch (op := .traceFetch first count m) r (by nofun) rfl rfl (fun _ => rfl)
      (show doTraceFetch h first count m (heard h s) = _ by rw [doTraceFetch, hdata]; rfl)
  · have hcount : ¬ (n = 0 ∨ 256 < n.toNat) := by
      rintro (rfl | hbig)
      · exact absurd hlo (by decide)
      · omega
    exact delit_fetch (op := .counterReadPhaseDetails first n) r (by nofun) rfl rfl (fun _ => rfl) (if_neg hcount)
  · have hpol' : (heard h s).policy 2 = true := hpol
    have hc' : (heard h s).captureOf n a.toNat = some c := hc
    exact delit_fetch (op := .replayFetch n a) r (by nofun) rfl rfl (fun _ => rfl)
      (show doReplayFetch h n a (heard h s) = _ by rw [doReplayFetch, hpol', hc']; rfl)
  · have hpol' : (heard h s).policy 2 = false := hpol
    exact State.delit_refused (op := .replayFetch n a) r (by nofun) (.inl rfl) (.inl rfl) (by decide)
      (show doReplayFetch h n a (heard h s) = _ by rw [doReplayFetch, hpol']; rfl)
  · have hpol : ¬ ((part = 1 ∨ part = 4) ∧ !(heard h s).policy 1) := by
      have hpolicy : (heard h s).policy 1 = s.policy 1 := rfl
      rw [hpolicy]
      rintro ⟨hp, hno⟩
      grind
    have hrange : ¬ (4 < part.toNat ∨
        (part = 4 ∧ (count = 0 ∨ 56 < count.toNat ∨ physicalTiles < first.toNat + count.toNat))) := by
      obtain rfl | rfl | rfl | ⟨rfl, -⟩ | ⟨rfl, -, hlo, hhi, hfit⟩ := hpart
      iterate 4 simp
      rintro (hbig | ⟨-, rfl | hbig | hbig⟩)
      · exact absurd hbig (by decide)
      · exact absurd hlo (by decide)
      · omega
      · exact absurd hfit (Nat.not_le.mpr hbig)
    exact delit_fetch (op := .dumpFetch part first count) r (by nofun) rfl rfl (fun _ => rfl)
      ((if_neg hpol).trans (if_neg hrange))
  · have hpol' : (heard h s).policy 1 = false := hpol
    exact State.delit_refused (op := .dumpFetch part first count) r (by nofun) (.inl rfl) (.inl rfl) (by decide)
      (if_pos ⟨hpart, by rw [hpol']; rfl⟩)
  · have hvalid : counterReadInvalid (heard h s) first.toNat count.toNat time = false := by
      have hnow : (heard h s).now = s.now := rfl
      have hfits : ¬ logicalTiles < first.toNat + count.toNat := Nat.not_lt.mpr hhi
      rw [counterReadInvalid, hnow]
      obtain rfl | htime := htime
      · simp [hfits, Nat.not_lt.mpr hlo]
      · simp [hfits, Nat.not_lt.mpr hlo, Nat.not_lt.mpr htime]
    rw [State.delit_accepted (op := .counterReadCounters mask first count time) r (by nofun) (.inl rfl) (.inl rfl)
      (show doCounters h mask first count time (heard h s) = _ by
        rw [doCounters, hvalid, if_neg (by decide), startSampling_heard]; rfl)]
    rfl
  · have hdump : performOp h .syncDump (heard h s) =
        ((heard h (s.writeSyncDump 0 (blockedQueues s))).startFetch (owed h)
          (syncDumpBytes s 0 (blockedQueues s)) 0, 1, []) := rfl
    exact State.delit_accepted (op := .syncDump) r (by nofun) (.inl rfl) (.inl rfl)
      (hdump.trans (congrArg (·, 1, []) (startFetch_heard ..)))

/-! ### Long commands (O12) -/

section
variable {h : Hdr} {x : Session} {s : State}

/-- A long command of the controlling session between steps: its work goes on behind its response. -/
theorem delit_long {op : DelitOp} (r : ReadyBetween h x s) (no : ∀ p, op ≠ .stepOpen p)
    (a : performOp h op (heard h s) = (heard h s, 1, [])) :
    Host.Outcome.next (s.delit h op) = (.next (followOp h op (replied h 1 [] s)) : Host.Outcome State Fault Refusal) :=
  congrArg Host.Outcome.next (State.delit_accepted r.1.1 no (.inr r.1.2) (.inr r.2) a)

theorem doSelftest_accepted {site block lane : Nat} {full recal : Bool}
    (hv : selftestInvalid s site block lane full recal = false) :
    doSelftest site block lane full recal (heard h s) = (heard h s, 1, []) := by
  have hv' : selftestInvalid (heard h s) site block lane full recal = false := hv
  rw [doSelftest, hv', if_neg (by decide)]
  rfl

theorem doRestore_accepted {source : Nat} {q : RestoreReq} (hp : s.program.isSome = true)
    (hv : storeInvalid (source == 0) q.storeId q.storeAddress = false) :
    doRestore source q (heard h s) = (heard h s, 1, []) := by
  have hp' : ¬ (heard h s).program.isNone = true := by
    rw [show (heard h s).program = s.program from rfl, Option.isNone_eq_false_iff.mpr hp]
    decide
  rw [doRestore, if_neg hp', hv, if_neg (by decide)]
  rfl

end

/-- Settles O12. -/
theorem longCommandsAccepted : Obligations.LongCommandsAccepted := by
  unfold Obligations.LongCommandsAccepted
  intro h x s r
  refine ⟨fun site block lane hv => ?_, fun site block lane hv => ?_, fun site hv => ?_,
    fun q hp hv => ?_, fun q hp hv => ⟨?_, ?_⟩⟩
  · exact delit_long (op := .selftestTest site block lane) r (by nofun) (doSelftest_accepted hv)
  · exact delit_long (op := .selftestRecalibrate site block lane) r (by nofun) (doSelftest_accepted hv)
  · exact delit_long (op := .selftestFull site) r (by nofun) (doSelftest_accepted hv)
  · exact delit_long (op := .restoreStore q) r (by nofun) (doRestore_accepted (source := 0) hp hv)
  · exact delit_long (op := .restoreBase q) r (by nofun) (doRestore_accepted (source := 1) hp hv)
  · exact delit_long (op := .restoreRebuild q) r (by nofun) (doRestore_accepted (source := 2) hp hv)

end Sys2Proof.Laws
end

section
/-! Power, clocks and temperature: what the supervisors' events change (chapters 14, 15). -/

namespace Sys2Proof.Laws

open Sys2Proof.Machine Sys2Proof.Safety

/-! ### Raised codes -/

section
variable {s : State} {c : Code} {p : Place} {i : BitVec 64} {d : Nat} {e : BitVec 64}

/-- A code below Step-fatal that notes no death leaves trace records and events only. -/
theorem raise_frame {n : Nat} (hs : severityOf s.step.inProgress p d c = n) (hn : n < 3) (h9 : c ≠ 0x4009) (hA : c ≠ 0x400A) :
    s.raise c p i d e = { s with
      trace := (s.raise c p i d e).trace
      host := (s.raise c p i d e).host } := State.raise_minor (hs.trans_lt hn) h9 hA

/-- A Step-fatal code that notes no death begins the discard before the commit point, and changes nothing else. -/
theorem raise_discard_eq (hs : severityOf s.step.inProgress p d c = 3) (hd : CanDiscard s) (h9 : c ≠ 0x4009) (hA : c ≠ 0x400A) :
    ∃ tr ho, s.raise c p i d e = { s with
      trace := tr
      host := ho
      arbiter := { s.arbiter with
        latched := [⟨c, p, s.now⟩], windowOpen := true, cause := none, repaired := false, fenced := false,
        pagesLost := false, takeover := false, released := false }
      step := { s.step with phase := .discarding }
      rillOut := haltMsg :: s.rillOut } := by
  have hdeath : s.noteDeath c p = s := if_neg fun hdying => hdying.1.elim h9 hA
  obtain ⟨tr, ho, hr⟩ := State.raise_discards (i := i) (d := d) (e := e) hs hd
  rw [hr, hdeath]
  exact ⟨tr, ho, rfl⟩

theorem raise_discard (hs : severityOf s.step.inProgress p d c = 3) (hd : CanDiscard s) (h9 : c ≠ 0x4009) (hA : c ≠ 0x400A) :
    Discards s (s.raise c p i d e) c p ∧ s.raise c p i d e = { s with
      trace := (s.raise c p i d e).trace
      host := (s.raise c p i d e).host
      arbiter := (s.raise c p i d e).arbiter
      step := (s.raise c p i d e).step
      rillOut := (s.raise c p i d e).rillOut } := by
  obtain ⟨tr, ho, hr⟩ := raise_discard_eq (i := i) (e := e) hs hd h9 hA
  rw [hr]
  exact ⟨⟨rfl, rfl, rfl, rfl⟩, rfl⟩

theorem traceAt_flashDump (kind : Nat) (keep : Bool) (site : BitVec 12) (cid : BitVec 64) (data : Nat) :
    (s.traceAt kind keep site cid data).trace.flashDump = s.trace.flashDump := by
  unfold State.traceAt State.trace1 State.traceTo
  extract_lets x mask cap old
  split
  · rfl
  · split
    · split <;> rfl
    · rfl

theorem latch_flashDump (c : Code) (p : Place) : (s.latch c p).trace.flashDump = s.trace.flashDump := by
  unfold State.latch
  extract_lets
  split
  · rfl
  · split
    · exact traceAt_flashDump ..
    · rfl

theorem startFatal_flashDump (c : Code) : (s.startFatal c).trace.flashDump = s.trace.flashDump := by
  unfold State.startFatal
  split <;> rfl

/-- Module flash keeps its dump whatever is raised. -/
theorem raise_flashDump : (s.raise c p i d e).trace.flashDump = s.trace.flashDump := by
  unfold State.raise
  extract_lets sev u v w
  have hw : w.trace.flashDump = s.trace.flashDump := by
    have hu : u.trace.flashDump = s.trace.flashDump := traceAt_flashDump ..
    have hv : v.trace.flashDump = s.trace.flashDump := by
      unfold v
      split
      · exact hu
      · rw [State.sendEvent_trace]
        exact hu
    rw [← hv]
    exact congrArg Trace.flashDump (State.noteDeath_trace ..)
  split
  · rfl
  · split
    · rw [latch_flashDump, hw]
    · split
      · rw [startFatal_flashDump, hw]
      · exact hw

/-- Where no session listens, none begins to. -/
theorem raise_noSessions (h : s.host.sessions = []) : (s.raise c p i d e).host.sessions = [] := by
  have hsend (u : State) (ev : Event) (hu : u.host.sessions = []) : u.sendEvent ev = u := by
    rw [State.sendEvent, hu]
    rfl
  have htrace (k : Nat) (b : Bool) (n : Nat) : (s.traceAt k b p.site i n).host.sessions = [] := by
    rw [State.traceAt_host]
    exact h
  unfold State.raise
  extract_lets sev u v w
  have hw : w.host.sessions = [] := by
    have hv : v.host.sessions = [] := by
      unfold v
      split
      · exact htrace ..
      · rw [hsend _ _ (htrace ..)]
        exact htrace ..
    rw [← hv]
    exact congrArg HostSide.sessions (State.noteDeath_host ..)
  split
  · exact h
  · split
    · rw [State.latch_host, hw]
    · split
      · rw [State.startFatal_host, hw]
      · exact hw

end

/-! ### Regions and the tiles of a field -/

theorem regionOf_updRegion {w : Power} (hw : smWf {} 0 w.regions = true) (i : Nat) (f : Machine.Region → Machine.Region) (j : Nat) :
    regionOf (w.updRegion i f) j = if j = i then f (regionOf w i) else regionOf w j := by
  split
  case isTrue h => subst h; exact smGet_smPut_same hw
  case isFalse h => exact smGet_smPut_other h hw

theorem regionsWf_updRegion {w : Power} (hw : smWf {} 0 w.regions = true) (i : Nat) (f : Machine.Region → Machine.Region) :
    smWf {} 0 (w.updRegion i f).regions = true := smPut_wf (Nat.zero_le i) hw

theorem regionOf_congr {v w : Power} (h : v.regions = w.regions) (i : Nat) : regionOf v i = regionOf w i := by
  unfold regionOf
  rw [h]

theorem mem_fieldTiles {p i : Nat} : p ∈ fieldTiles i ↔ p < 2688 ∧ fieldOfPhys p = i := by
  simp [fieldTiles, physicalTiles]

/-- A region of the module. -/
theorem onRegion_of_lt {i : Nat} (h : i < 57) (s : State) (f : Machine.Region → State) :
    onRegion i s f = .next (f (regionOf s.power i)) := if_neg (Nat.not_le.mpr h)

/-- Tiles updated one after another. -/
theorem foldl_updTile_eq (f : Tile → Tile) (l : List Nat) (s : State) : l.foldl (fun s p => s.updTile p f) s =
    { s with tiles := l.foldl (fun m p => smUpd {} p f m) s.tiles } := by
  induction l generalizing s with
  | nil => rfl
  | cons p r ih => rw [List.foldl_cons, ih]; rfl

theorem foldl_smUpd_wf {α : Type} [DecidableEq α] {d : α} (f : α → α) (l : List Nat) : ∀ {m : SMap α}, smWf d 0 m = true →
    smWf d 0 (l.foldl (fun m p => smUpd d p f m) m) = true := by
  induction l with
  | nil => exact id
  | cons p r ih => exact fun h => ih (smUpd_wf (Nat.zero_le p) h)

/-! ### Suspect windows (O13) -/

theorem markSuspect_idem (t : Tile) : t.markSuspect.markSuspect = t.markSuspect := by
  simp [Tile.markSuspect]

section
variable {s : State} {i : Nat}

/-- The tiles of a field, their incomplete refire units marked suspect. -/
def markField (i : Nat) (m : SMap Tile) : SMap Tile := (fieldTiles i).foldl (fun m p => smUpd {} p Tile.markSuspect m) m

theorem markField_wf (i : Nat) {m : SMap Tile} (hm : smWf {} 0 m = true) : smWf {} 0 (markField i m) = true :=
  foldl_smUpd_wf _ _ hm

/-- A suspect window that opens in a field region marks the region's tiles, and is traced. -/
theorem openSuspect_eq (hi : i < 56) (hclosed : (regionOf s.power i).suspect = false) : ∃ tr, s.openSuspect i = { s with
    tiles := markField i s.tiles
    power := s.power.updRegion i (fun r => { r with suspect := true })
    trace := tr } := by
  have hedge : i ≠ edgeRegion := by unfold edgeRegion; omega
  have hopen : s.openSuspect i = (((fieldTiles i).foldl (fun s p => s.updTile p Tile.markSuspect) s).updPower
      (·.updRegion i (fun r => { r with suspect := true }))).traceSuspect i true := by
    simp [State.openSuspect, hclosed, hedge]
  rw [foldl_updTile_eq] at hopen
  refine ⟨(s.openSuspect i).trace, State.eq_of_fields ?_⟩
  rw [hopen]
  simp [State.updPower, Power.updRegion, markField]

/-- What a suspect window that opens in a field region leaves unchanged. -/
theorem openSuspect_frame (hi : i < 56) : s.openSuspect i = { s with
    tiles := (s.openSuspect i).tiles
    power := { s.power with regions := (s.openSuspect i).power.regions }
    trace := (s.openSuspect i).trace } := by
  cases hclosed : (regionOf s.power i).suspect
  · obtain ⟨tr, hopen⟩ := openSuspect_eq hi hclosed
    refine State.eq_of_fields ?_
    rw [hopen]
    simp [Power.updRegion]
  · have hsame : s.openSuspect i = s := if_pos hclosed
    rw [hsame]

theorem regionOf_openSuspect (hw : smWf {} 0 s.power.regions = true) (hi : i < 56) (j : Nat) : regionOf (s.openSuspect i).power j =
    if j = i then { regionOf s.power i with suspect := true } else regionOf s.power j := by
  cases hclosed : (regionOf s.power i).suspect
  · obtain ⟨tr, hopen⟩ := openSuspect_eq hi hclosed
    rw [hopen]
    exact regionOf_updRegion hw i _ j
  · have hsame : s.openSuspect i = s := if_pos hclosed
    rw [hsame]
    split
    case isTrue h => rw [h, ← hclosed]
    case isFalse => rfl

theorem tileOf_openSuspect (hw : smWf {} 0 s.tiles = true) (hi : i < 56) (p : Nat) : tileOf (s.openSuspect i) p =
    if p < 2688 ∧ fieldOfPhys p = i ∧ (regionOf s.power i).suspect = false then (tileOf s p).markSuspect else tileOf s p := by
  cases hclosed : (regionOf s.power i).suspect
  · obtain ⟨tr, hopen⟩ := openSuspect_eq hi hclosed
    rw [hopen]
    simp only [tileOf, markField, smGet_foldl_smUpd markSuspect_idem _ hw, mem_fieldTiles, and_true]
  · have hsame : s.openSuspect i = s := if_pos hclosed
    rw [hsame, if_neg (by simp)]

theorem openSuspect_wf (ht : smWf {} 0 s.tiles = true) (hr : smWf {} 0 s.power.regions = true) (hi : i < 56) :
    smWf {} 0 (s.openSuspect i).tiles = true ∧ smWf {} 0 (s.openSuspect i).power.regions = true := by
  cases hclosed : (regionOf s.power i).suspect
  · obtain ⟨tr, hopen⟩ := openSuspect_eq hi hclosed
    rw [hopen]
    dsimp only
    exact ⟨markField_wf i ht, regionsWf_updRegion hr i _⟩
  · have hsame : s.openSuspect i = s := if_pos hclosed
    rw [hsame]
    exact ⟨ht, hr⟩

end

/-- Suspect windows that open in several field regions. -/
theorem foldl_openSuspect (l : List Nat) : ∀ {s : State}, (∀ i ∈ l, i < 56) → smWf {} 0 s.tiles = true →
    smWf {} 0 s.power.regions = true →
    (l.foldl State.openSuspect s = { s with
      tiles := (l.foldl State.openSuspect s).tiles
      power := { s.power with regions := (l.foldl State.openSuspect s).power.regions }
      trace := (l.foldl State.openSuspect s).trace }) ∧
    (∀ j, regionOf (l.foldl State.openSuspect s).power j =
      if j ∈ l then { regionOf s.power j with suspect := true } else regionOf s.power j) ∧
    ∀ p, tileOf (l.foldl State.openSuspect s) p = if p < 2688 ∧ fieldOfPhys p ∈ l ∧
      (regionOf s.power (fieldOfPhys p)).suspect = false then (tileOf s p).markSuspect else tileOf s p := by
  induction l with
  | nil => exact fun _ _ _ => ⟨rfl, by simp, by simp⟩
  | cons i r ih =>
    intro s hl ht hr
    have hi : i < 56 := hl i (List.mem_cons_self ..)
    obtain ⟨ht', hr'⟩ := openSuspect_wf ht hr hi
    obtain ⟨hframe, hregions, htiles⟩ := ih (s := s.openSuspect i) (fun j hj => hl j (List.mem_cons_of_mem _ hj)) ht' hr'
    rw [List.foldl_cons]
    refine ⟨?_, fun j => ?_, fun p => ?_⟩
    · rw [hframe, openSuspect_frame hi]
    · rw [hregions, regionOf_openSuspect hr hi]
      by_cases hj : j = i <;> by_cases hm : j ∈ r <;> simp [hj, hm]
    · rw [htiles, regionOf_openSuspect hr hi, tileOf_openSuspect ht hi]
      by_cases hp : fieldOfPhys p = i
      · subst hp
        by_cases hb : p < 2688 <;> by_cases hs : (regionOf s.power (fieldOfPhys p)).suspect = false <;> simp [hb, hs]
      · simp [hp]

/-- Settles O13. -/
theorem suspectWindows : Obligations.SuspectWindows := by
  unfold Obligations.SuspectWindows
  intro s hc
  obtain ⟨-, ht, -, -, -, hr⟩ := hc
  have count : ∀ {i : Nat}, i < 57 → ¬ regionCount ≤ i := fun hi => Nat.not_le.mpr hi
  refine ⟨fun mv => ⟨_, rfl, ?_⟩, fun i mv hi hp => ⟨_, (if_neg (count (by omega))).trans (congrArg _ (if_neg (by simp [hp]))), ?_⟩,
    fun i mv hi hp => ⟨_, (if_neg (count (by omega))).trans
      (congrArg _ ((if_neg (by simp [hp])).trans (if_neg (by unfold edgeRegion; omega)))), ?_⟩,
    fun i hi hs => ⟨_, (if_neg (count hi)).trans (congrArg _ (if_neg (by simp [hs]))), ?_⟩,
    fun i hi hs hd => ⟨_, (if_neg (count hi)).trans (congrArg _ (if_pos hs)), ?_⟩⟩
  · obtain ⟨hframe, hregions, htiles⟩ := foldl_openSuspect ((List.range 56).filter (fun i => (regionOf s.power i).powered))
      (s := s.updPower (fun w => { w with
        inputMv := mv
        inputLow := true })) (by simp +contextual) ht hr
    refine ⟨?_, fun i => ?_, fun p => ?_⟩
    · rw [raise_frame (n := 1) rfl (by decide) (by decide) (by decide), hframe]
      rfl
    · rw [State.raise_power, hregions]
      simp only [List.mem_filter, List.mem_range]
      rfl
    · rw [tileOf_congr (State.raise_tiles ..), htiles]
      have hfield : p < 2688 → fieldOfPhys p < 56 := fun hp => by unfold fieldOfPhys Machine.rowOf colOf; omega
      simp only [List.mem_filter, List.mem_range]
      refine if_congr ⟨fun ⟨hb, ⟨_, hon⟩, hs⟩ => ⟨hb, hon, hs⟩, fun ⟨hb, hon, hs⟩ => ⟨hb, ⟨hfield hb, hon⟩, hs⟩⟩ rfl rfl
  · dsimp only
    set u := s.updPower (·.updRegion i (fun r => { r with
      vcore := mv
      railLow := true })) with hu
    have hur : smWf {} 0 u.power.regions = true := regionsWf_updRegion hr i _
    have hui : ∀ j, regionOf u.power j = if j = i then { regionOf s.power i with
        vcore := mv
        railLow := true } else regionOf s.power j := regionOf_updRegion hr i _
    refine ⟨?_, fun j => ?_, fun p => ?_⟩
    · rw [raise_frame (n := 1) rfl (by decide) (by decide) (by decide), openSuspect_frame hi]
      rfl
    · rw [State.raise_power, regionOf_openSuspect hur hi, hui, hui, if_pos rfl]
      split <;> rfl
    · rw [tileOf_congr (State.raise_tiles ..), tileOf_openSuspect (s := u) ht hi, hui, if_pos rfl]
      rfl
  · dsimp only
    refine ⟨?_, fun j => ?_⟩
    · rw [raise_frame (n := 1) rfl (by decide) (by decide) (by decide)]
      rfl
    · rw [State.raise_power]
      exact regionOf_updRegion hr i _ j
  · refine ⟨?_, by rw [State.traceSuspect_power]; rfl, fun j => ?_⟩
    · exact State.eq_of_fields (by simp [State.updPower])
    · rw [State.traceSuspect_power]
      exact (regionOf_congr rfl j).trans (regionOf_updRegion hr i (fun r => { r with
        suspect := false
        railLow := false
        vcore := if r.railLow then nominalMv r.state else r.vcore }) j)
  · obtain ⟨hdisc, hframe⟩ := raise_discard (s := s) (c := 0x2106) (p := moduleWide) (i := noCmd) (d := i) (e := 0)
      rfl hd (by decide) (by decide)
    exact ⟨hdisc, hframe⟩

/-! ### Resets (O14) -/

/-- A further Step-fatal code during a discard is latched behind the others. -/
theorem raise_secondary {s : State} {c : Code} {p : Place} {i : BitVec 64} {d : Nat} {e : BitVec 64}
    (hs : severityOf s.step.inProgress p d c = 3) (hphase : s.step.phase = .discarding) (h9 : c ≠ 0x4009) (hA : c ≠ 0x400A) :
    ∃ tr ho, s.raise c p i d e = { s with
      trace := tr
      host := ho
      arbiter := { s.arbiter with latched := s.arbiter.latched ++ [⟨c, p, s.now⟩] } } := by
  obtain ⟨tr, ho, hr⟩ := s.raise_eq (c := c) (p := p) (i := i) (d := d) (e := e) (by omega)
  have hdeath (u : State) : u.noteDeath c p = u := if_neg fun hdying => hdying.1.elim h9 hA
  refine ⟨tr, ho, ?_⟩
  rw [hr, hs, hdeath, if_pos rfl, State.latch, if_pos hphase]

/-- Two Step-fatal codes before the commit point: the first begins the discard. -/
theorem raise_both {s : State} {c c' : Code} {p : Place} {i : BitVec 64} {d : Nat} {e : BitVec 64}
    (hs : severityOf s.step.inProgress p d c = 3) (hs' : ∀ b, severityOf b p d c' = 3) (hd : CanDiscard s)
    (hc : c ≠ 0x4009 ∧ c ≠ 0x400A) (hc' : c' ≠ 0x4009 ∧ c' ≠ 0x400A) :
    ∃ tr ho ar, (s.raise c p i d e).raise c' p i d e = { s with
      trace := tr
      host := ho
      arbiter := ar
      step := { s.step with phase := .discarding }
      rillOut := haltMsg :: s.rillOut } ∧
      ar.latched = [⟨c, p, s.now⟩, ⟨c', p, s.now⟩] ∧ ar.unload = s.arbiter.unload := by
  obtain ⟨tr, ho, hfirst⟩ := raise_discard_eq (i := i) (e := e) hs hd hc.1 hc.2
  obtain ⟨tr', ho', hsecond⟩ := raise_secondary (s := s.raise c p i d e) (c := c') (p := p) (i := i) (d := d) (e := e) (hs' _)
    (by rw [hfirst]) hc'.1 hc'.2
  rw [hsecond, hfirst]
  exact ⟨tr', ho', _, rfl, rfl, rfl⟩

/-- What a core reset leaves of a tile's record. -/
def volatileLost (t : Tile) : Tile := { dead := t.dead, heartbeat := t.heartbeat }

theorem clearVolatile_eq (s : State) (p : Nat) : s.clearVolatile p = { s with
    mem := clearRange s.mem (memKey p 0) (memKey p loamBase)
    checks := (s.clearVolatile p).checks
    tiles := smUpd {} p volatileLost s.tiles } := by
  unfold State.clearVolatile
  rfl

theorem memKey_div {p a : Nat} (ha : a < 2 ^ 40) : memKey p a / 2 ^ 40 = p ∧ memKey p a % 2 ^ 40 = a := by
  unfold memKey
  omega

/-- Volatile stores of several tiles lost. -/
theorem foldl_clearVolatile (l : List Nat) : ∀ {s : State}, smWf {} 0 s.tiles = true → MemoryWf s → ∃ m c ts,
    l.foldl State.clearVolatile s = { s with
      mem := m
      checks := c
      tiles := ts } ∧
    (∀ k, rdByte m k = if k / 2 ^ 40 ∈ l ∧ k % 2 ^ 40 < loamBase then 0 else rdByte s.mem k) ∧
    ∀ p, smGet {} ts p = if p ∈ l then volatileLost (tileOf s p) else tileOf s p := by
  induction l with
  | nil => exact fun _ _ => ⟨_, _, _, rfl, by simp, by simp [tileOf]⟩
  | cons q r ih =>
    intro s ht hm
    obtain ⟨m, c, ts, hfold, hmem, htiles⟩ := ih (s := s.clearVolatile q)
      (by rw [clearVolatile_eq]; exact smUpd_wf (Nat.zero_le q) ht) (clearRange_wf _ _ hm)
    refine ⟨m, c, ts, by rw [List.foldl_cons, hfold, clearVolatile_eq], fun k => ?_, fun p => ?_⟩
    · have hread : rdByte (s.clearVolatile q).mem k = _ := rdByte_clearRange (lo' := 0) (memKey q 0) (memKey q loamBase) k hm
      rw [hmem, hread]
      have hkey : memKey q 0 ≤ k ∧ k < memKey q loamBase ↔ k / 2 ^ 40 = q ∧ k % 2 ^ 40 < loamBase := by
        unfold memKey loamBase
        omega
      simp only [hkey, List.mem_cons]
      split_ifs <;> first | rfl | grind
    · have hread : tileOf (s.clearVolatile q) p = if p = q then volatileLost (tileOf s p) else tileOf s p := by
        rw [clearVolatile_eq]
        split
        case isTrue hp => subst hp; exact smGet_smPut_same ht
        case isFalse hp => exact smGet_smPut_other hp ht
      rw [htiles, hread]
      by_cases hp : p = q <;> by_cases hr : p ∈ r <;> simp [hp, hr, volatileLost]

/-- What sending to peers changes: links, what has left, the byte counts, and reports to the sessions that are there. -/
def Sends (s u : State) : Prop := ∃ l z p tr ho, u = { s with
  links := l
  zOut := z
  pbs := p
  trace := tr
  host := ho } ∧ tr.flashDump = s.trace.flashDump ∧ (s.host.sessions = [] → ho.sessions = [])

namespace Sends

theorem refl (s : State) : Sends s s := ⟨_, _, _, _, _, rfl, rfl, id⟩

theorem trans {s u v : State} (h : Sends s u) (k : Sends u v) : Sends s v := by
  obtain ⟨_, _, _, _, _, rfl, hdump, hnone⟩ := h
  obtain ⟨_, _, _, _, _, rfl, kdump, knone⟩ := k
  exact ⟨_, _, _, _, _, rfl, kdump.trans hdump, fun h => knone (hnone h)⟩

theorem foldl {α : Type} {f : State → α → State} (hf : ∀ u x, Sends u (f u x)) (l : List α) (s : State) : Sends s (l.foldl f s) := by
  induction l generalizing s with
  | nil => exact refl s
  | cons x r ih => exact (hf s x).trans (ih _)

theorem updLink (s : State) (n : Nat) (f : Link → Link) : Sends s (s.updLink n f) := ⟨_, _, _, _, _, rfl, rfl, id⟩

theorem updPb (s : State) (n : Nat) (f : PbState → PbState) : Sends s (s.updPb n f) := ⟨_, _, _, _, _, rfl, rfl, id⟩

theorem raise {s : State} {c : Code} {p : Place} {i : BitVec 64} {d : Nat} {e : BitVec 64} {n : Nat}
    (hs : severityOf s.step.inProgress p d c = n) (hn : n < 3) (h9 : c ≠ 0x4009) (hA : c ≠ 0x400A) :
    Sends s (s.raise c p i d e) := 
  ⟨_, _, _, _, _, raise_frame hs hn h9 hA, raise_flashDump, raise_noSessions⟩

theorem trySwitch (s : State) (n : Nat) : Sends s (s.trySwitch n) := by
  unfold State.trySwitch
  split
  · exact (updLink ..).trans (raise (n := 2) rfl (by decide) (by decide) (by decide))
  · exact refl s

theorem flushLink (s : State) (n : Nat) : Sends s (s.flushLink n) := (updLink ..).trans (trySwitch ..)

theorem linkRecord (s : State) (n : Nat) (r : LinkRecord) : Sends s (s.linkRecord n r) := (updLink ..).trans (flushLink ..)

theorem giveCredit (s : State) (n c flits : Nat) : Sends s (s.giveCredit n c flits) := by
  unfold State.giveCredit
  split
  · exact refl s
  · exact (updLink ..).trans (linkRecord ..)

theorem zSend (s : State) (pb : Nat) (m : ZMsg) : Sends s (s.zSend pb m) := by
  unfold State.zSend
  split
  · exact refl s
  · split
    · exact Sends.trans ⟨_, _, _, _, _, rfl, rfl, id⟩ (flushLink ..)
    · exact refl s

theorem zSendCounted (s : State) (pb channel : Nat) (m : ZMsg) : Sends s (s.zSendCounted pb channel m) :=
  (zSend ..).trans (updPb ..)

theorem sendBulk (s : State) (pb : Nat) (dest : BitVec 16) (destPb : Nat) (body : Bytes) :
    Sends s (s.sendBulk pb dest destPb body) := zSendCounted ..

end Sends

/-- What the loss of pages keeps: memories, tiles, program, repair state and step, and the codes latched so far. -/
structure KeepsRest (s u : State) : Prop where
  mem : u.mem = s.mem
  tiles : u.tiles = s.tiles
  program : u.program = s.program
  repair : u.repair = s.repair
  variant : u.variant = s.variant
  step : u.step = s.step
  latched : s.arbiter.latched <+: u.arbiter.latched

namespace KeepsRest

theorem refl (s : State) : KeepsRest s s := ⟨rfl, rfl, rfl, rfl, rfl, rfl, List.prefix_rfl⟩

theorem trans {s u v : State} (h : KeepsRest s u) (k : KeepsRest u v) : KeepsRest s v :=
  ⟨k.mem.trans h.mem, k.tiles.trans h.tiles, k.program.trans h.program, k.repair.trans h.repair, k.variant.trans h.variant,
    k.step.trans h.step, h.latched.trans k.latched⟩

theorem foldl {α : Type} {f : State → α → State} {s : State} (hf : ∀ u x, u.step = s.step → KeepsRest u (f u x)) (l : List α) :
    KeepsRest s (l.foldl f s) := by
  suffices h : ∀ (l : List α) (u : State), KeepsRest s u → KeepsRest s (l.foldl f u) from h l s (refl s)
  intro l
  induction l with
  | nil => exact fun _ => id
  | cons x r ih => exact fun u hu => ih (f u x) (hu.trans (hf u x hu.step))

theorem endExport (s : State) (c : Code) : KeepsRest s (s.endExport c) := by
  unfold State.endExport
  split
  · exact refl s
  · constructor <;> simp

theorem of_sends {s u : State} (h : Sends s u) : KeepsRest s u := by
  obtain ⟨_, _, _, _, _, rfl, -, -⟩ := h
  exact ⟨rfl, rfl, rfl, rfl, rfl, rfl, List.prefix_rfl⟩

theorem raise {s : State} {c : Code} {p : Place} {i : BitVec 64} {d : Nat} {e : BitVec 64}
    (hs : severityOf s.step.inProgress p d c = 3) (hphase : s.step.phase = .discarding) (h9 : c ≠ 0x4009) (hA : c ≠ 0x400A) :
    KeepsRest s (s.raise c p i d e) := by
  obtain ⟨tr, ho, hr⟩ := raise_secondary (i := i) (e := e) hs hphase h9 hA
  rw [hr]
  exact ⟨rfl, rfl, rfl, rfl, rfl, rfl, List.prefix_append ..⟩

theorem requestPage {s : State} (hphase : s.step.phase = .discarding) (t index : Nat) (from' : Option Nat) (step : BitVec 32) :
    KeepsRest s (s.requestPage t index from' step) := by
  unfold State.requestPage
  split
  · exact refl s
  · dsimp only
    generalize hv : s.updSurvival _ = v
    have hkeep : KeepsRest s v := by rw [← hv]; exact ⟨rfl, rfl, rfl, rfl, rfl, rfl, List.prefix_rfl⟩
    split
    · exact hkeep.trans (raise rfl (by rw [hkeep.step]; exact hphase) (by decide) (by decide))
    · exact hkeep.trans (of_sends (.foldl (fun _ _ => .sendBulk ..) ..))

theorem handleLost {s : State} (hphase : s.step.phase = .discarding) (t page : Nat) (dark : Bool) :
    KeepsRest s (s.handleLost t page dark) := by
  unfold State.handleLost
  extract_lets from' mine v parity u
  have hkeep : KeepsRest s u := by
    unfold u
    split
    · exact endExport ..
    · exact refl s
  have hph : u.step.phase = .discarding := by rw [hkeep.step]; exact hphase
  clear_value u
  split
  · exact hkeep.trans (requestPage hph ..)
  · exact hkeep.trans (requestPage hph ..)
  · split
    · exact hkeep
    · extract_lets shared
      split
      · exact hkeep.trans (requestPage hph ..)
      · split
        · exact hkeep.trans (requestPage hph ..)
        · exact hkeep.trans (trans (u := u.updSurvival (fun v => { v with rollback := true }))
            ⟨rfl, rfl, rfl, rfl, rfl, rfl, List.prefix_rfl⟩ (raise rfl hph (by decide) (by decide)))

theorem losePages {s : State} (hphase : s.step.phase = .discarding) (t : Nat) (pages : List Nat) (dark : Bool) :
    KeepsRest s (s.losePages t pages dark) := by
  unfold State.losePages
  extract_lets new oldPages oldArbiter u
  have hkeep : KeepsRest s u := ⟨rfl, rfl, rfl, rfl, rfl, rfl, List.prefix_rfl⟩
  exact hkeep.trans (foldl (fun v x hv => handleLost (by rw [hv]; exact hphase) ..) _)

end KeepsRest

/-- Nothing of what a step's end waits for begins while the step is in progress. -/
theorem boundary_inProgress {s : State} (h : s.step.inProgress = true) : s.boundary = s := if_pos h

/-- The memories once the slab of a logical tile has been lost. -/
def slabLost (s : State) (t : Nat) : List Host.Cell :=
  clearRange s.mem (memKey (physOf s.repair t) loamBase)
    (memKey (physOf s.repair t) (loamBase + slabPages s.variant * pageBytes))

theorem loseSlab_keeps {s : State} (hphase : s.step.phase = .discarding) (t : Nat) (dark : Bool) :
    KeepsRest { s with mem := slabLost s t } (s.loseSlab t dark) := by
  unfold State.loseSlab
  extract_lets keep mine u emptied v
  have hkeep : KeepsRest { s with mem := slabLost s t } v := ⟨rfl, rfl, rfl, rfl, rfl, rfl, List.prefix_rfl⟩
  exact hkeep.trans (KeepsRest.losePages (s := v) hphase ..)

/-- Slabs of several logical tiles lost. -/
theorem foldl_loseSlab (dark : Bool) (l : List Nat) : ∀ {s : State}, s.step.phase = .discarding → MemoryWf s → ∃ m,
    KeepsRest { s with mem := m } (l.foldl (fun s t => s.loseSlab t dark) s) ∧
    ∀ p a, a < 2 ^ 40 → rdByte m (memKey p a) =
      if (∃ u ∈ l, physOf s.repair u = p) ∧ loamBase ≤ a ∧ a < loamBase + slabPages s.variant * pageBytes then 0
      else rdByte s.mem (memKey p a) := by
  induction l with
  | nil => exact fun _ _ => ⟨_, KeepsRest.refl _, by simp⟩
  | cons t r ih =>
    intro s hphase hm
    have hkeep := loseSlab_keeps hphase t dark
    obtain ⟨m, hrest, hmem⟩ := ih (s := s.loseSlab t dark) (by rw [hkeep.step]; exact hphase)
      (by unfold MemoryWf; rw [hkeep.mem]; exact clearRange_wf _ _ hm)
    refine ⟨m, KeepsRest.trans (u := { s.loseSlab t dark with mem := m }) ⟨rfl, hkeep.tiles, hkeep.program, hkeep.repair, hkeep.variant,
      hkeep.step, hkeep.latched⟩ hrest,
      fun p a ha => ?_⟩
    rw [hmem p a ha, hkeep.mem, hkeep.repair, hkeep.variant, slabLost, rdByte_clearRange (lo' := 0) _ _ _ hm]
    have hslab : loamBase + slabPages s.variant * pageBytes < 2 ^ 40 := by
      cases s.variant <;> decide
    have hkey : memKey (physOf s.repair t) loamBase ≤ memKey p a ∧
        memKey p a < memKey (physOf s.repair t) (loamBase + slabPages s.variant * pageBytes) ↔
        physOf s.repair t = p ∧ loamBase ≤ a ∧ a < loamBase + slabPages s.variant * pageBytes := by
      unfold memKey
      omega
    simp only [hkey, List.exists_mem_cons_iff]
    split_ifs <;> first | rfl | grind

/-- Settles O14. -/
theorem resetsLoseMemories : Obligations.ResetsLoseMemories := by
  unfold Obligations.ResetsLoseMemories
  refine ⟨fun s i hc hd hi hp => ?_, fun s i hm hd hi hp => ?_⟩
  · obtain ⟨hmw, htw, -, -, -, hrw⟩ := hc
    have hedge : ¬ (i = edgeRegion ∨ (!(regionOf s.power i).powered) = true) := by
      rw [hp]
      unfold edgeRegion
      simp
      omega
    refine ⟨_, (if_neg (Nat.not_le.mpr (by omega : i < 57))).trans (congrArg Host.Outcome.next (if_neg hedge)), ?_⟩
    obtain ⟨m, c, ts, hfold, hmem, htiles⟩ := foldl_clearVolatile (fieldTiles i) (s := s) htw hmw
    rw [hfold]
    obtain ⟨tr, ho, ar, hboth, hlatched, hunload⟩ := raise_both (s := ({ s with
        mem := m
        checks := c
        tiles := ts } : State).updPower (·.updRegion i (fun r => { r.noteReset s.age with
          vcore := nominalMv r.state
          suspect := false
          railLow := false }))) (c := 0x7002) (c' := 0x2106) (p := moduleWide) (i := noCmd) (d := i) (e := 0) rfl (fun _ => rfl)
      hd (by decide) (by decide)
    dsimp only
    erw [hboth]
    rw [boundary_inProgress (by simp [Step.inProgress])]
    refine ⟨rfl, hlatched, ?_, fun k => ?_, fun p hp => ?_, fun j hj => ?_, rfl⟩
    · rw [hunload]
      rfl
    · refine (hmem k).trans (if_congr ?_ rfl rfl)
      rw [mem_fieldTiles, and_assoc]
    · refine (htiles p).trans (if_congr ?_ rfl rfl)
      rw [mem_fieldTiles, and_iff_right hp]
    · exact (regionOf_updRegion hrw i _ j).trans (if_neg hj)
  · have hedge : ¬ (i = edgeRegion ∨ (!(regionOf s.power i).powered) = true) := by
      rw [hp]
      unfold edgeRegion
      simp
      omega
    refine ⟨_, (if_neg (Nat.not_le.mpr (by omega : i < 57))).trans (congrArg Host.Outcome.next (if_neg hedge)), ?_⟩
    dsimp only
    generalize hu : (s.updPower (·.updRegion i (fun r => { r.noteReset s.age with vloam := 1100 }))).dropRecords
      (fieldLogical i) = u
    have hcan : CanDiscard u := by rw [← hu]; exact hd
    have hkeep : u.mem = s.mem ∧ u.tiles = s.tiles ∧ u.program = s.program ∧ u.repair = s.repair ∧ u.variant = s.variant ∧
        u.now = s.now := by
      rw [← hu]
      simp
    obtain ⟨tr, ho, hraise⟩ := State.raise_discards (s := u) (c := 0x7003) (p := moduleWide) (i := noCmd) (d := i) (e := 0) rfl hcan
    obtain ⟨m, hrest, hmem⟩ := foldl_loseSlab false (fieldLogical i) (s := u.raise 0x7003 moduleWide noCmd i) (by rw [hraise])
      (by unfold MemoryWf; rw [State.raise_mem, hkeep.1]; exact hm)
    obtain ⟨kmem, ktiles, kprogram, krepair, kvariant, know⟩ := hkeep
    have hlatched : (u.raise 0x7003 moduleWide noCmd i).arbiter.latched = [⟨0x7003, moduleWide, s.now⟩] := by rw [hraise, ← know]
    have hphase : ((fieldLogical i).foldl (fun s t => s.loseSlab t false) (u.raise 0x7003 moduleWide noCmd i)).step.phase =
        .discarding := by
      rw [hrest.step, hraise]
    rw [boundary_inProgress (by unfold Step.inProgress; rw [hphase]; rfl)]
    refine ⟨hphase, ?_, fun p a ha => ?_, ?_, ?_, ?_⟩
    · obtain ⟨l, hl⟩ := hrest.latched
      rw [← hl, hlatched]
      rfl
    · rw [hrest.mem, hmem p a ha, State.raise_repair, krepair, State.raise_variant, kvariant, State.raise_mem, kmem]
    · rw [hrest.tiles, ← ktiles]
      exact State.raise_tiles ..
    · rw [hrest.program, ← kprogram]
      exact State.raise_program ..
    · rw [hrest.repair, ← krepair]
      exact State.raise_repair ..

/-! ### Breakers and regions that do not start (O15) -/

section
variable {s : State} {i n : Nat}

/-- A field holds one injection point at most. -/
theorem filter_injectionField : ∀ n < 16, (List.range 16).filter (fun k => injectionField k == injectionField n) = [n] := by
  decide

theorem stopField_point (hn : n < 16) (hi : injectionField n = i) : s.stopField i = s.loseLock n := by
  subst hi
  rw [State.stopField, filter_injectionField n hn]
  rfl

theorem stopField_noPoint (h : ∀ n < 16, injectionField n ≠ i) : s.stopField i = s := by
  have hnone : (List.range 16).filter (fun k => injectionField k == i) = [] := by simpa using h
  rw [State.stopField, hnone]
  rfl

/-- An injection point that is lost: reported, and fatal with the last of its half. -/
theorem loseLock_new (hlost : n ∉ s.power.lostLocks) : ∃ tr ho, s.loseLock n =
    if { s.power with lostLocks := s.power.lostLocks ++ [n] }.halfUnlocked s.repair (n / 8) then
      ({ s with
        power := { s.power with lostLocks := s.power.lostLocks ++ [n] }
        trace := tr
        host := ho } : State).raise 0x7009 moduleWide noCmd (n / 8)
    else { s with
      power := { s.power with lostLocks := s.power.lostLocks ++ [n] }
      trace := tr
      host := ho } := by
  unfold State.loseLock
  rw [if_neg (by simpa using hlost)]
  dsimp only
  rw [raise_frame (n := 2) rfl (by decide) (by decide) (by decide)]
  exact ⟨_, _, rfl⟩

/-- An injection point that its half can do without. -/
theorem loseLock_eq (h : n ∈ s.power.lostLocks ∨
      { s.power with lostLocks := s.power.lostLocks ++ [n] }.halfUnlocked s.repair (n / 8) = false) :
    ∃ tr ho ls, s.loseLock n = { s with
      power := { s.power with lostLocks := ls }
      trace := tr
      host := ho } ∧ ∀ k, k ∈ ls ↔ k ∈ s.power.lostLocks ∨ k = n := by
  by_cases hlost : n ∈ s.power.lostLocks
  · rw [State.loseLock, if_pos (by simpa using hlost)]
    exact ⟨_, _, _, rfl, fun k => ⟨.inl, fun hk => hk.elim id (fun e => e ▸ hlost)⟩⟩
  · obtain ⟨tr, ho, hlose⟩ := loseLock_new hlost
    rw [hlose, h.resolve_left hlost, if_neg (by decide)]
    exact ⟨_, _, _, rfl, by simp⟩

/-- The last injection point of a half: the mesh is lost. -/
theorem loseLock_fatal (hlost : n ∉ s.power.lostLocks) (hfatal : s.arbiter.fatal = none)
    (h : { s.power with lostLocks := s.power.lostLocks ++ [n] }.halfUnlocked s.repair (n / 8) = true) :
    (s.loseLock n).arbiter.fatal = some 0x7009 ∧ (s.loseLock n).step = s.step ∧
      (s.loseLock n).power = { s.power with lostLocks := s.power.lostLocks ++ [n] } := by
  obtain ⟨tr, ho, hlose⟩ := loseLock_new hlost
  rw [hlose, if_pos h]
  obtain ⟨hcode, -, -, -, -, hstep⟩ := State.raise_fatal (s := { s with
    power := { s.power with lostLocks := s.power.lostLocks ++ [n] }
    trace := tr
    host := ho }) (c := 0x7009) (p := moduleWide) (i := noCmd) (d := n / 8) (e := 0) rfl hfatal (by decide) (by decide)
  exact ⟨hcode, hstep, State.raise_power ..⟩

/-- A field region whose breaker opens, before the code is raised. -/
theorem openBreaker_eq (hw : smWf {} 0 s.power.regions = true) (h : ∀ n, n < 16 → injectionField n = i → n ∈ s.power.lostLocks ∨
      { s.power with lostLocks := s.power.lostLocks ++ [n] }.halfUnlocked s.repair (n / 8) = false) :
    ∃ tr ho ls rs ds, s.openBreaker i = { s with
      power := { s.power with
        regions := rs
        lostLocks := ls }
      arbiter := { s.arbiter with darkFields := ds }
      trace := tr
      host := ho } ∧ (∀ k, k ∈ ls ↔ k ∈ s.power.lostLocks ∨ (k < 16 ∧ injectionField k = i)) ∧ i ∈ ds ∧
      (smGet {} rs i).state = .broken ∧ (smGet {} rs i).vcore = 0 ∧ (smGet {} rs i).vloam = 0 ∧
      ∀ j, j ≠ i → smGet {} rs j = regionOf s.power j := by
  unfold State.openBreaker
  dsimp only
  generalize hds : (if s.arbiter.darkFields.contains i then s.arbiter.darkFields else s.arbiter.darkFields ++ [i]) = ds
  have hmem : i ∈ ds := by
    rw [← hds]
    split
    case isTrue hin => simpa using hin
    case isFalse => simp
  have hregion (j : Nat) : regionOf (s.power.updRegion i (fun r => { r.enter .off with
      state := .broken
      vcore := 0
      vloam := 0
      suspect := false })) j = _ := regionOf_updRegion hw i _ j
  have hbroken := (hregion i).trans (if_pos rfl)
  by_cases hpoint : ∃ n, n < 16 ∧ injectionField n = i
  · obtain ⟨n, hn, hni⟩ := hpoint
    rw [stopField_point hn hni]
    obtain ⟨tr, ho, ls, hlose, hls⟩ := loseLock_eq (s := { s with
      power := s.power.updRegion i (fun r => { r.enter .off with
        state := .broken
        vcore := 0
        vloam := 0
        suspect := false })
      arbiter := { s.arbiter with darkFields := ds } }) (h n hn hni)
    refine ⟨tr, ho, ls, _, ds, hlose, fun k => (hls k).trans (or_congr_right ⟨fun hk => hk ▸ ⟨hn, hni⟩, fun ⟨hk, hki⟩ => ?_⟩), hmem,
      congrArg Machine.Region.state hbroken, congrArg Machine.Region.vcore hbroken, congrArg Machine.Region.vloam hbroken,
      fun j hj => (hregion j).trans (if_neg hj)⟩
    have hone := filter_injectionField n hn
    have hin : k ∈ (List.range 16).filter (fun k => injectionField k == injectionField n) := by simp [hk, hki, hni]
    simpa [hone] using hin
  · rw [stopField_noPoint fun n hn hni => hpoint ⟨n, hn, hni⟩]
    refine ⟨_, _, s.power.lostLocks, _, ds, rfl, fun k => ⟨.inl, fun hk => hk.elim id fun hp => (hpoint ⟨k, hp⟩).elim⟩, hmem,
      congrArg Machine.Region.state hbroken, congrArg Machine.Region.vcore hbroken, congrArg Machine.Region.vloam hbroken,
      fun j hj => (hregion j).trans (if_neg hj)⟩

end

/-- Settles O15. -/
theorem fieldRegionBreaks : Obligations.FieldRegionBreaks := by
  unfold Obligations.FieldRegionBreaks
  intro s i hc hd hi
  obtain ⟨-, -, -, -, -, hw⟩ := hc
  have hregion : ¬ regionCount ≤ i := Nat.not_le.mpr (by omega : i < 57)
  have hedge : i ≠ edgeRegion := by unfold edgeRegion; omega
  refine ⟨fun hlocks => ?_, fun n hn hni hlost hfatal hhalf hstate => ?_⟩
  · obtain ⟨tr, ho, ls, rs, ds, hopen, hls, hds, hbroken, hcore, hloam, hothers⟩ := openBreaker_eq hw hlocks
    have hrun (c : Code) (hsev : severityOf s.step.inProgress moduleWide i c = 3) (h9 : c ≠ 0x4009) (hA : c ≠ 0x400A) :
        ∃ tr ho ar, ((s.openBreaker i).raise c moduleWide noCmd i).boundary = { s with
          power := { s.power with
            regions := rs
            lostLocks := ls }
          trace := tr
          host := ho
          arbiter := ar
          step := { s.step with phase := .discarding }
          rillOut := haltMsg :: s.rillOut } ∧ ar.darkFields = ds ∧ ar.latched = [⟨c, moduleWide, s.now⟩] ∧ ar.windowOpen = true := by
      obtain ⟨tr', ho', hraise⟩ := raise_discard_eq (s := s.openBreaker i) (c := c) (p := moduleWide) (i := noCmd) (d := i) (e := 0)
        (by rw [hopen]; exact hsev) (by rw [hopen]; exact hd) h9 hA
      rw [boundary_inProgress (by rw [hraise]; rfl), hraise, hopen]
      exact ⟨tr', ho', _, rfl, rfl, rfl, rfl⟩
    refine ⟨fun hstate => ?_, fun hramp => ?_⟩
    · obtain ⟨tr', ho', ar, hrun, hdark, hlatched, hwindow⟩ := hrun 0x7006
        (by simp [severityOf, hedge]) (by decide) (by decide)
      refine ⟨_, (if_neg hregion).trans (congrArg _ ((if_neg hstate).trans ((if_neg hedge).trans hrun))),
        ⟨rfl, hlatched, hwindow, rfl⟩, ?_⟩
      exact ⟨by rw [hdark]; exact hds, hbroken, hcore, hloam, hothers, hls, rfl⟩
    · obtain ⟨tr', ho', ar, hrun, hdark, hlatched, hwindow⟩ := hrun 0x7010 rfl (by decide) (by decide)
      refine ⟨_, (if_neg hregion).trans (congrArg _ ((if_neg hedge).trans ((if_pos hramp).trans hrun))),
        ⟨rfl, hlatched, hwindow, rfl⟩, ?_⟩
      exact ⟨by rw [hdark]; exact hds, hbroken, rfl⟩
  · refine ⟨_, (if_neg hregion).trans (congrArg _ ((if_neg hstate).trans (if_neg hedge))), ?_⟩
    have hbroken (f : Machine.Region → Machine.Region) : regionOf (s.power.updRegion i f) i = f (regionOf s.power i) :=
      (regionOf_updRegion hw i f i).trans (if_pos rfl)
    unfold State.openBreaker
    dsimp only
    rw [stopField_point hn hni]
    generalize hv : ({ s with power := _, arbiter := _ } : State) = v
    have hlost' : n ∉ v.power.lostLocks := by rw [← hv]; exact hlost
    have hfatal' : v.arbiter.fatal = none := by rw [← hv]; exact hfatal
    have hhalf' : { v.power with lostLocks := v.power.lostLocks ++ [n] }.halfUnlocked v.repair (n / 8) = true := by
      rw [← hv]
      exact hhalf
    have hstate' : (regionOf v.power i).state = .broken := by
      rw [← hv]
      exact congrArg Machine.Region.state (hbroken _)
    obtain ⟨hcode, hstep, hpower⟩ := loseLock_fatal hlost' hfatal' hhalf'
    have hcan : CanDiscard (v.loseLock n) := by
      unfold CanDiscard
      rw [hstep, ← hv]
      exact hd
    obtain ⟨tr, ho, hraise⟩ := raise_discard_eq (s := v.loseLock n) (c := 0x7006) (p := moduleWide) (i := noCmd) (d := i) (e := 0)
      (by simp [severityOf, hedge]) hcan (by decide) (by decide)
    rw [boundary_inProgress (by rw [hraise]; rfl), hraise]
    refine ⟨hcode, ?_, by simp [hpower]⟩
    dsimp only
    rw [hpower]
    exact hstate'

/-! ### Power lost (O16) -/

/-- What a table reads as once a function that keeps the default has been applied to every entry. -/
theorem smGet_map_filter {α β : Type} [DecidableEq α] [DecidableEq β] {d : α} {e : β} {g : α → β} (hg : g d = e) (n : Nat) :
    ∀ {m : SMap α} {lo : Nat}, smWf d lo m = true →
      smGet e ((m.map (fun x => (x.1, g x.2))).filter (fun x => x.2 ≠ e)) n = g (smGet d m n)
  | [], _, _ => hg.symm
  | (a, v) :: r, lo, hw => by
    simp only [smWf, Bool.and_eq_true, decide_eq_true_eq] at hw
    have ih := smGet_map_filter hg n hw.2
    by_cases hv : g v = e
    · simp only [List.map_cons, List.filter_cons, hv, ne_eq, not_true_eq_false, decide_false, Bool.false_eq_true, if_false]
      rw [← hv] at ih ⊢
      rw [ih, smGet]
      by_cases hn : n = a
      · rw [if_pos hn, smGet_below hw.2 (by omega), hg, hv]
      · by_cases hlt : n < a
        · rw [if_neg hn, if_pos hlt, smGet_below hw.2 (by omega)]
        · rw [if_neg hn, if_neg hlt]
    · simp only [List.map_cons, List.filter_cons, hv, ne_eq, not_false_eq_true, decide_true, if_true, smGet]
      split_ifs
      · rfl
      · exact hg.symm
      · exact ih

theorem smWf_map_filter {α β : Type} [DecidableEq α] [DecidableEq β] {d : α} {e : β} (g : α → β) :
    ∀ {m : SMap α} {lo : Nat}, smWf d lo m = true → smWf e lo ((m.map (fun x => (x.1, g x.2))).filter (fun x => x.2 ≠ e)) = true
  | [], _, _ => rfl
  | (a, v) :: r, lo, hw => by
    simp only [smWf, Bool.and_eq_true, decide_eq_true_eq] at hw
    obtain ⟨⟨hlo, -⟩, hr⟩ := hw
    have ih := smWf_map_filter (e := e) g hr
    by_cases hv : g v = e
    · simpa [List.filter_cons, hv] using smWf_mono (by omega) ih
    · simpa [List.filter_cons, hv, smWf, hlo] using ih

/-- A region without power: broken for good, or off. -/
def unpowered (r : Machine.Region) : Machine.Region := { ({} : Machine.Region) with
  state := if r.state = .broken then .broken else .off
  resets := r.resets
  lasting := r.lasting }

theorem regionOf_powerLost {s : State} (hw : smWf {} 0 s.power.regions = true) (code : Code) (i : Nat) :
    regionOf (s.powerLost code).power i = unpowered (regionOf s.power i) :=
  smGet_map_filter (g := unpowered) rfl i hw

theorem regionsWf_powerLost {s : State} (hw : smWf {} 0 s.power.regions = true) (code : Code) :
    smWf {} 0 (s.powerLost code).power.regions = true := smWf_map_filter unpowered hw

/-- Settles O16. -/
theorem powerLossTurnsDormant : Obligations.PowerLossTurnsDormant := by
  unfold Obligations.PowerLossTurnsDormant
  intro s hc
  obtain ⟨-, -, -, -, -, hw⟩ := hc
  refine ⟨fun cause mv hon => ⟨_, if_neg (by simp [hon]), rfl, hon, rfl, rfl, rfl, rfl, rfl, rfl, rfl, rfl, rfl, rfl, rfl, rfl, rfl,
    fun i => congrArg Machine.Region.state (regionOf_powerLost hw cause i)⟩, fun hstate => ?_⟩
  have hcount : ¬ regionCount ≤ edgeRegion := by decide
  have hexec : exec (.breakerOpen 56) s = .next ((s.powerLost 0x7006).updPower
      (·.updRegion edgeRegion (fun r => { r with state := .broken }))) := by
    change execBreakerOpen edgeRegion s = _
    unfold execBreakerOpen onRegion
    rw [if_neg hcount]
    exact congrArg Host.Outcome.next ((if_neg hstate).trans (if_pos rfl))
  refine ⟨_, hexec, rfl, rfl, rfl, rfl, rfl, rfl, ?_⟩
  have hregion := regionOf_updRegion (regionsWf_powerLost hw 0x7006) edgeRegion (fun r => { r with state := .broken }) 56
  exact congrArg Machine.Region.state (hregion.trans (if_pos rfl))

/-! ### Clock requests and the seam (O17) -/

/-- Clock requests of a module that is not idle, while no schedule runs: the power state is exactly what was asked, and the seam
follows. -/
theorem ratios_active {s : State} (hactive : s.power.state ≠ .idle) (hparts : s.mesh.parts = []) (f : Power → Power) :
    s.ratios f = { s with
      power := f s.power
      seam := (s.ratios f).seam } := by
  rw [ratios_eq hparts, if_neg hactive]
  split_ifs <;> rfl

/-- Settles O17. -/
theorem clocksAndSeam : Obligations.ClocksAndSeam := by
  unfold Obligations.ClocksAndSeam
  refine ⟨fun s hactive hparts => ⟨fun watts hw hlim => ?_, fun watts hw => ?_, fun half hh hhot htherm => ?_,
    fun half hh hcool hloss => ?_, fun hloss => ?_⟩, fun s => ⟨rfl, fun half ratio hidle => ?_, fun hactive f => ⟨fun hne => ?_, fun heq haw => ?_, fun heq haw => ?_⟩,
    fun hre heq => ?_, fun hre hne => ?_⟩⟩
  · refine ⟨_, if_neg (by omega), ?_⟩
    rw [raise_frame (n := 1) rfl (by decide) (by decide) (by decide), ratios_active hactive hparts]
  · refine ⟨_, if_neg (by omega), ?_⟩
    rw [ratios_active hactive hparts]
  · refine ⟨_, (if_neg (by omega)).trans (if_pos ⟨hhot, htherm⟩), ?_⟩
    rw [raise_frame (n := 1) rfl (by decide) (by decide) (by decide), ratios_active hactive hparts]
  · refine ⟨_, (if_neg (by omega)).trans (if_neg (by simp [hcool, hloss])), ?_⟩
    rw [ratios_active hactive hparts]
  · refine ⟨_, if_neg (by simp [hloss]), ?_⟩
    rw [raise_frame (n := 2) rfl (by decide) (by decide) (by decide), ratios_active hactive hparts]
  · refine ⟨_, rfl, ?_⟩
    have hset : s.setRatio half ratio = _ := if_pos hidle
    rw [hset]
    cases hheld : s.power.held with
    | none => simp [State.updPower, Power.effWest, Power.effEast, hheld]
    | some x => simp [State.updPower, Power.effWest, Power.effEast, hheld]
  · have hset : s.ratios f = _ := (if_neg hactive).trans (if_pos hne)
    rw [hset]
    exact ⟨rfl, rfl, rfl⟩
  · exact (if_neg hactive).trans ((if_neg (not_not.mpr heq)).trans (if_pos haw))
  · exact (if_neg hactive).trans ((if_neg (not_not.mpr heq)).trans (if_neg (by simpa [State.updPower] using haw)))
  · exact ⟨_, congrArg _ (if_pos ⟨hre, heq⟩), rfl, rfl⟩
  · exact congrArg _ (if_neg fun h => hne h.2)

/-! ### Droop, injection, temperature and cooling (O18) -/

/-- A Module-fatal code starts the fatal path and changes nothing else. -/
theorem raise_fatal_frame {s : State} {c : Code} {p : Place} {i : BitVec 64} {d : Nat} {e : BitVec 64}
    (hs : severityOf s.step.inProgress p d c = 4) (hfatal : s.arbiter.fatal = none) (h9 : c ≠ 0x4009) (hA : c ≠ 0x400A) :
    s.raise c p i d e = { s with
      trace := (s.raise c p i d e).trace
      host := (s.raise c p i d e).host
      arbiter := (s.raise c p i d e).arbiter
      rillOut := (s.raise c p i d e).rillOut } := by
  obtain ⟨tr, ho, hr⟩ := s.raise_eq (c := c) (p := p) (i := i) (d := d) (e := e) (by omega)
  have hdeath (u : State) : u.noteDeath c p = u := if_neg fun hdying => hdying.1.elim h9 hA
  rw [hr, hdeath, hs, if_neg (by decide), if_pos rfl]
  unfold State.startFatal
  rw [show ({ s with
    trace := tr
    host := ho } : State).arbiter.fatal = none from hfatal]
  rfl

/-- What a region's temperature sample changes, below the limit at which the module stops. -/
theorem takeTemp_eq (s : State) (i : Nat) {t : BitVec 8} (ht : t.toNat < 105) : ∃ tr ho, s.takeTemp i t = { s with
    power := s.power.updRegion i (fun r => { r with
      temp := t
      warned := decide (95 ≤ t.toNat) })
    trace := tr
    host := ho } := by
  unfold State.takeTemp
  extract_lets r u v slow
  rw [if_neg (by omega)]
  unfold v
  split
  · rw [raise_frame (n := 1) rfl (by decide) (by decide) (by decide)]
    exact ⟨_, _, rfl⟩
  · exact ⟨_, _, rfl⟩

/-- Samples of consecutive regions. -/
theorem foldl_takeTemp (temps : List (BitVec 8)) : ∀ {k : Nat} {s : State}, (∀ x ∈ temps, x.toNat < 105) →
    smWf {} 0 s.power.regions = true → ∃ rs tr ho,
      (temps.zipIdx k).foldl (fun s (x : BitVec 8 × Nat) => s.takeTemp x.2 x.1) s = { s with
        power := { s.power with regions := rs }
        trace := tr
        host := ho } ∧
      ∀ j, smGet {} rs j = if k ≤ j ∧ j < k + temps.length then { regionOf s.power j with
          temp := temps.getD (j - k) 0
          warned := decide (95 ≤ (temps.getD (j - k) 0).toNat) } else regionOf s.power j := by
  induction temps with
  | nil => exact fun _ _ => ⟨_, _, _, rfl, by simp [regionOf]⟩
  | cons t r ih =>
    intro k s hcool hw
    obtain ⟨tr, ho, htake⟩ := takeTemp_eq s k (hcool t (List.mem_cons_self ..))
    have hregion := regionOf_updRegion hw k (fun r => { r with
      temp := t
      warned := decide (95 ≤ t.toNat) })
    obtain ⟨rs, tr', ho', hfold, hrs⟩ := ih (k := k + 1) (s := s.takeTemp k t) (fun x hx => hcool x (List.mem_cons_of_mem _ hx))
      (by rw [htake]; exact regionsWf_updRegion hw k _)
    refine ⟨rs, tr', ho', ?_, fun j => ?_⟩
    · rw [List.zipIdx_cons, List.foldl_cons, hfold, htake]
      rfl
    · rw [hrs, htake, hregion, List.length_cons]
      by_cases hj : j = k
      · subst hj
        simp
      · by_cases hlo : k + 1 ≤ j
        · obtain ⟨m, rfl⟩ := Nat.exists_eq_add_of_le hlo
          have hm : k + 1 + m - k = m + 1 := by omega
          have hm' : k + 1 + m - (k + 1) = m := by omega
          have hin : (k + 1 ≤ k + 1 + m ∧ k + 1 + m < k + 1 + r.length) ↔
              (k ≤ k + 1 + m ∧ k + 1 + m < k + (r.length + 1)) := by omega
          simp only [if_neg hj, hin, hm, hm', List.getD_cons_succ]
        · rw [if_neg (by omega), if_neg hj, if_neg (by omega)]

/-- Settles O18. -/
theorem powerEvents : Obligations.PowerEvents := by
  unfold Obligations.PowerEvents
  intro s hc
  obtain ⟨-, -, -, -, -, hw⟩ := hc
  have count : ∀ {i : Nat}, i < 57 → ¬ regionCount ≤ i := fun hi => Nat.not_le.mpr hi
  refine ⟨fun i mv hi hstate hmv => ⟨_, (if_neg (count hi)).trans (congrArg _ (if_neg (by simp [hstate]; omega))), rfl,
      fun j => (regionOf_congr rfl j).trans (regionOf_updRegion hw i (fun r => { r with vcore := mv }) j)⟩,
    fun i mv hi hmv hstretch => ⟨_, (if_neg (count hi)).trans (congrArg _ (if_neg (by simp [hstretch]; omega))), rfl,
      fun j hj => ((regionOf_congr rfl j).trans (regionOf_updRegion hw i
        (fun r => if r.state = .active then { r with vcore := mv } else r) j)).trans (if_neg hj)⟩,
    fun n hn hlost hhalf => ?_, fun n hn hlost hfatal hhalf => ?_, fun temps hlen hcool => ?_, fun hloss hfatal => ?_⟩
  · refine ⟨_, congrArg Host.Outcome.next (if_neg (by omega)), ?_⟩
    obtain ⟨tr, ho, hlose⟩ := loseLock_new hlost
    rw [hlose, hhalf, if_neg (by decide)]
  · refine ⟨_, congrArg Host.Outcome.next (if_neg (by omega)), ?_⟩
    obtain ⟨tr, ho, hlose⟩ := loseLock_new hlost
    rw [hlose, if_pos hhalf]
    exact State.raise_fatal (s := { s with
      power := { s.power with lostLocks := s.power.lostLocks ++ [n] }
      trace := tr
      host := ho }) rfl hfatal (by decide) (by decide)
  · obtain ⟨rs, tr, ho, hfold, hrs⟩ := foldl_takeTemp temps (k := 0) (s := s) hcool hw
    have hall : temps.take regionCount = temps := List.take_of_length_le (by rw [hlen]; decide)
    have hhot : temps.any (fun t => decide (80 ≤ t.toNat)) = true ↔ ∃ x ∈ temps, 80 ≤ x.toNat := by simp
    refine ⟨_, rfl, ?_⟩
    dsimp only
    rw [hall, hfold]
    refine ⟨?_, fun i hi => ?_⟩
    · by_cases h : ∃ x ∈ temps, 80 ≤ x.toNat
      · rw [if_pos (hhot.mpr h), if_pos h]
        rfl
      · rw [if_neg (mt hhot.mp h), if_neg h]
    · have hi' := (hrs i).trans (if_pos (by omega))
      split <;> exact hi'
  · exact ⟨_, congrArg Host.Outcome.next (if_pos hloss), State.raise_fatal rfl hfatal (by decide) (by decide),
      raise_fatal_frame rfl hfatal (by decide) (by decide)⟩

/-! ### The fatal path and idling (O19) -/

/-- Regions put into a state, whatever else the power state holds. -/
theorem foldl_updRegion_frame {f : Power → Nat → Power} (hf : ∀ w i, ∃ rs, f w i = { w with regions := rs }) (l : List Nat)
    (w : Power) : ∃ rs, l.foldl f w = { w with regions := rs } := by
  induction l generalizing w with
  | nil => exact ⟨_, rfl⟩
  | cons i r ih =>
    obtain ⟨rs, hi⟩ := hf w i
    obtain ⟨rs', hr⟩ := ih (f w i)
    exact ⟨rs', by rw [List.foldl_cons, hr, hi]⟩

theorem fieldRegions_frame (w : Power) (a b : RegionState) : ∃ rs, w.fieldRegions a b = { w with regions := rs } :=
  foldl_updRegion_frame (fun w i => by split <;> exact ⟨_, rfl⟩) _ w

theorem regionOf_fieldRegions {w : Power} (hw : smWf {} 0 w.regions = true) (a b : RegionState) (j : Nat) :
    regionOf (w.fieldRegions a b) j = if j < 56 ∧ (regionOf w j).state = a then (regionOf w j).enter b else regionOf w j := by
  suffices h : ∀ (l : List Nat) {w : Power}, smWf {} 0 w.regions = true → l.Nodup →
      regionOf (l.foldl (fun w i => if (regionOf w i).state = a then w.updRegion i (·.enter b) else w) w) j =
        if j ∈ l ∧ (regionOf w j).state = a then (regionOf w j).enter b else regionOf w j by
    have hall := h (List.range 56) hw List.nodup_range
    simp only [List.mem_range] at hall
    exact hall
  intro l
  induction l with
  | nil => simp
  | cons i r ih =>
    intro w hw hnodup
    obtain ⟨hi, hr⟩ := List.nodup_cons.mp hnodup
    rw [List.foldl_cons]
    by_cases ha : (regionOf w i).state = a
    · rw [if_pos ha, ih (regionsWf_updRegion hw i _) hr, regionOf_updRegion hw]
      by_cases hj : j = i
      · subst hj
        simp [hi, ha]
      · simp [hj]
    · rw [if_neg ha, ih hw hr]
      by_cases hj : j = i
      · subst hj
        simp [ha]
      · simp [hj]

/-- What the end of the fatal path leaves alone before it turns to power: power, the dump in module flash, and sessions that are gone. -/
structure Quiet (s u : State) : Prop where
  power : u.power = s.power
  flash : u.trace.flashDump = s.trace.flashDump
  sessions : s.host.sessions = [] → u.host.sessions = []

namespace Quiet

theorem refl (s : State) : Quiet s s := ⟨rfl, rfl, id⟩

theorem trans {s u v : State} (h : Quiet s u) (k : Quiet u v) : Quiet s v :=
  ⟨k.power.trans h.power, k.flash.trans h.flash, fun hs => k.sessions (h.sessions hs)⟩

theorem foldl {α : Type} {f : State → α → State} (hf : ∀ u x, Quiet u (f u x)) (l : List α) (s : State) : Quiet s (l.foldl f s) := by
  induction l generalizing s with
  | nil => exact refl s
  | cons x r ih => exact (hf s x).trans (ih _)

theorem of_sends {s u : State} (h : Sends s u) : Quiet s u := by
  obtain ⟨_, _, _, _, _, rfl, hflash, hnone⟩ := h
  exact ⟨rfl, hflash, hnone⟩

theorem freeIntake (s : State) (pb n : Nat) : Quiet s (s.freeIntake pb n) :=
  (of_sends (.giveCredit ..)).trans ⟨rfl, rfl, id⟩

theorem emptyIntake (s : State) (pb : Nat) : Quiet s (s.emptyIntake pb) :=
  trans (u := s.setPb pb { pbOf s pb with
    verified := []
    ready := [] }) ⟨rfl, rfl, id⟩ (foldl (fun _ _ => freeIntake ..) ..)

theorem mapTiles (s : State) (f : Tile → Tile) : Quiet s (s.mapTiles f) :=
  foldl (f := fun s p => s.updTile p f) (fun _ _ => ⟨rfl, rfl, id⟩) ..

theorem releaseStep (s : State) : Quiet s s.releaseStep := by
  unfold State.releaseStep
  extract_lets u v
  have hu : Quiet s u := trans (u := s.releaseNext) ⟨rfl, rfl, id⟩ (mapTiles ..)
  have hv : Quiet u v := foldl (f := fun s n => (s.emptyIntake n).updPb n (fun p => { p with
      accs := []
      sumBuffer := []
      expected := []
      streams := []
      pendingSignals := []
      sentBytes := [] })) (fun w n => (emptyIntake w n).trans ⟨rfl, rfl, id⟩) ..
  exact (hu.trans hv).trans ⟨rfl, rfl, id⟩

theorem abandonStep (s : State) : Quiet s s.abandonStep ∧ s.abandonStep.step.phase = .idle := by
  unfold State.abandonStep
  split
  case isTrue h => exact ⟨refl s, by simpa [Step.inProgress] using h⟩
  case isFalse h =>
    split
    · exact ⟨⟨rfl, rfl, id⟩, rfl⟩
    · exact ⟨(releaseStep s).trans ⟨rfl, rfl, id⟩, rfl⟩

end Quiet

/-- Every session has been closed. -/
theorem closeAll_sessions (s : State) (c : Code) : (s.closeAll c).host.sessions = [] ∧ (s.closeAll c).power = s.power ∧
    (s.closeAll c).trace = s.trace := by
  have hfold (l : List Nat) : ∀ (u : State), (l.foldl (fun s id => s.closeSession id c) u).host.sessions =
      u.host.sessions.filter (fun x => x.id ∉ l) := by
    induction l with
    | nil => simp
    | cons i r ih =>
      intro u
      rw [List.foldl_cons, ih]
      simp [State.closeSession, List.filter_filter, Bool.and_comm]
  refine ⟨(hfold _ s).trans ?_, ?_, ?_⟩
  · simp only [List.mem_map, List.filter_eq_nil_iff, decide_eq_true_eq, not_not]
    exact fun x hx => ⟨x, hx, rfl⟩
  · exact foldl_keeps State.power (fun s id => s.closeSession id c) (fun _ _ => rfl) _ s
  · exact foldl_keeps State.trace (fun s id => s.closeSession id c) (fun _ _ => rfl) _ s

theorem unloadProgram_quiet (s : State) : Quiet s s.unloadProgram ∧ s.unloadProgram.step = s.step := by
  unfold State.unloadProgram
  extract_lets u
  have hu : u.power = s.power ∧ u.trace = s.trace ∧ u.host = s.host ∧ u.step = s.step := by
    have hf {β : Type} (f : State → β) (hclear : ∀ t p, f (State.tileClear t p programBase 0x100000) = f t) : f u = f s :=
      foldl_keeps f (fun s p => s.tileClear p programBase 0x100000) hclear _ s
    exact ⟨hf State.power fun _ _ => rfl, hf State.trace fun _ _ => rfl, hf State.host fun _ _ => rfl, hf State.step fun _ _ => rfl⟩
  clear_value u
  obtain ⟨hpower, htrace, hhost, hstep⟩ := hu
  exact ⟨⟨hpower, congrArg Trace.flashDump htrace, fun h => (congrArg HostSide.sessions hhost).trans h⟩, hstep⟩

/-- A module in STANDBY: its power state, and what that leaves alone. -/
theorem toStandby_power (s : State) : s.toStandby.power.state = .standby ∧ s.toStandby.power.tooHot = s.power.tooHot := by
  obtain ⟨rs, hrs⟩ := fieldRegions_frame s.power .active .retention
  unfold State.toStandby
  rw [hrs]
  exact ⟨rfl, rfl⟩

/-- Every field region switched off: the memories are empty, and the cause is kept with the power state. -/
theorem fieldsOff_facts (s : State) (c : Code) : (s.fieldsOff c).power.state = s.power.state ∧
    (s.fieldsOff c).power.tooHot = some c ∧ (s.fieldsOff c).mem = [] ∧ (s.fieldsOff c).program = s.program ∧
    (s.fieldsOff c).arbiter = s.arbiter ∧ (s.fieldsOff c).step.phase = s.step.phase ∧
    (s.fieldsOff c).trace.flashDump = s.trace.flashDump ∧ (s.host.sessions = [] → (s.fieldsOff c).host.sessions = []) := by
  unfold State.fieldsOff
  extract_lets u w
  obtain ⟨rs, hrs⟩ : ∃ rs, w = { u.power with regions := rs } :=
    foldl_updRegion_frame (f := fun w i => w.updRegion i (·.enter .off)) (fun _ _ => ⟨_, rfl⟩) _ _
  have hsessions (h : s.host.sessions = []) : u.host.sessions = [] := by
    have hu : u.host.sessions = if _ then _ else s.host.sessions := rfl
    rw [hu, h]
    split <;> rfl
  rw [hrs]
  exact ⟨rfl, rfl, rfl, rfl, rfl, rfl, rfl, hsessions⟩

theorem takeDump_facts (s : State) (c : Code) (absent : List (Nat × BitVec 8)) : (s.takeDump c absent).power = s.power ∧
    (hotCause c = true → (s.takeDump c absent).trace.flashDump.isSome = true) := by
  refine ⟨rfl, fun h => ?_⟩
  unfold State.takeDump
  simp [State.updTrace, h]

/-- The module at the end of the fatal path, before field regions are switched off. -/
theorem fatalEnd_facts (s : State) (c : Code) (absent : List (Nat × BitVec 8)) :
    let v := ((s.takeDump c absent).closeAll c).abandonStep.unloadProgram.toStandby
    v.power.state = .standby ∧ v.power.tooHot = s.power.tooHot ∧ v.host.sessions = [] ∧ v.step.phase = .idle ∧ v.program = none ∧
      (hotCause c = true → v.trace.flashDump.isSome = true) := by
  obtain ⟨hpower, hflash⟩ := takeDump_facts s c absent
  generalize s.takeDump c absent = d at *
  obtain ⟨csessions, cpower, ctrace⟩ := closeAll_sessions d c
  generalize d.closeAll c = e at *
  obtain ⟨aquiet, aphase⟩ := Quiet.abandonStep e
  generalize e.abandonStep = a at *
  obtain ⟨uquiet, ustep⟩ := unloadProgram_quiet a
  have uprogram : a.unloadProgram.program = none := rfl
  generalize a.unloadProgram = u at *
  obtain ⟨tstate, thot⟩ := toStandby_power u
  have hquiet := aquiet.trans uquiet
  intro v
  refine ⟨tstate, ?_, ?_, ?_, ?_, fun h => ?_⟩
  · rw [thot, hquiet.power, cpower, hpower]
  · rw [State.toStandby_host]
    exact hquiet.sessions csessions
  · rw [State.toStandby_step, ustep, aphase]
  · rw [State.toStandby_program, uprogram]
  · rw [State.toStandby_trace, hquiet.flash, ctrace]
    exact hflash h

/-- Settles O19. -/
theorem fatalPathAndIdle : Obligations.FatalPathAndIdle := by
  unfold Obligations.FatalPathAndIdle
  refine ⟨fun s code => ⟨fun p hruns hfatal hcode => ?_, fun absent hfatal => ?_⟩, fun s hc hactive hprog hidle hbusy => ?_⟩
  · have hsev : severityOf s.step.inProgress p edgeRegion code = 4 ∧ severityOf s.step.inProgress p 0 code = 4 := by
      obtain rfl | rfl | rfl := hcode <;> exact ⟨rfl, rfl⟩
    have hother : code ≠ 0x7005 ∧ code ≠ 0x7006 ∧ code ≠ 0x4009 ∧ code ≠ 0x400A := by
      obtain rfl | rfl | rfl := hcode <;> decide
    obtain ⟨h5, h6, h9, hA⟩ := hother
    have hexec : exec (.moduleFatal code p) s = .next (s.raise code p) :=
      (if_neg (by simp [hruns, hsev.1])).trans (if_neg fun h => h.elim h5 h6)
    exact ⟨_, hexec, State.raise_fatal hsev.2 hfatal h9 hA, raise_fatal_frame hsev.2 hfatal h9 hA⟩
  · have hexec : ∃ v : State, exec (.fatalDumpComplete absent) s = .next (if hotCause code then v.fieldsOff code else v) ∧
        v.power.state = .standby ∧ v.power.tooHot = s.power.tooHot ∧ v.host.sessions = [] ∧ v.step.phase = .idle ∧
        v.program = none ∧ v.arbiter.fatal = none ∧ (hotCause code = true → v.trace.flashDump.isSome = true) := by
      have hfacts := fatalEnd_facts s code absent
      change ∃ v, execFatalDumpComplete absent s = _ ∧ _
      unfold execFatalDumpComplete
      rw [hfatal]
      dsimp only at hfacts ⊢
      generalize ((s.takeDump code absent).closeAll code).abandonStep = a at hfacts ⊢
      generalize a.unloadProgram.toStandby = w at hfacts ⊢
      obtain ⟨hstate, hhot, hsessions, hphase, hprogram, hflash⟩ := hfacts
      exact ⟨_, rfl, hstate, hhot, hsessions, hphase, hprogram, rfl, hflash⟩
    obtain ⟨v, hexec, hstate, hhot, hsessions, hphase, hprogram, hnone, hflash⟩ := hexec
    have hcause : hotCause code = true ↔ code = 0x700C ∨ code = 0x700E := by simp [hotCause]
    refine ⟨_, hexec, ?_⟩
    by_cases h : hotCause code = true
    · obtain ⟨fstate, fhot, fmem, fprogram, farbiter, fphase, fflash, fsessions⟩ := fieldsOff_facts v code
      rw [if_pos h, if_pos (hcause.mp h), fstate, fprogram, farbiter, fphase, fflash]
      exact ⟨hstate, hprogram, fsessions hsessions, hnone, hphase, fhot, fun _ => ⟨fmem, hflash h⟩⟩
    · rw [if_neg h, if_neg (mt hcause.mpr h)]
      exact ⟨hstate, hprogram, hsessions, hnone, hphase, hhot, fun hc => absurd (hcause.mpr hc) h⟩
  · obtain ⟨-, -, -, -, -, hw⟩ := hc
    have hregion (i : Nat) := regionOf_fieldRegions hw .active .retention i
    have hentry : exec .idleEntry s = .next { s with power := { s.power.fieldRegions .active .retention with
        state := .idle
        meshRun := false
        stretching := false } } := if_pos ⟨hactive, hprog, hidle, by simp [hbusy]⟩
    generalize s.power.fieldRegions .active .retention = w at hregion hentry
    refine ⟨_, hentry, rfl, rfl, rfl, fun i => ?_⟩
    refine (congrArg Machine.Region.state ((regionOf_congr rfl i).trans (hregion i))).trans ?_
    split
    case isTrue h => simp [Region.enter, h.2]
    case isFalse => rfl

end Sys2Proof.Laws
end

section
/-! The warden, boot, commands before their work, sessions and RoCEv2 (chapters 13, 18). -/

namespace Sys2Proof.Laws

open Sys2Proof.Machine Sys2Proof.Safety

/-! ### The warden and the ports (O20) -/

theorem portIndex_injective {p q : Port} (h : portIndex p = portIndex q) : p = q := by
  cases p <;> cases q <;> first | rfl | contradiction

/-- Settles O20. -/
theorem wardenAndPorts : Obligations.WardenAndPorts := by
  unfold Obligations.WardenAndPorts
  intro s
  refine ⟨fun hoff => ?_, fun hon hdormant => ?_, fun port data net hnet hup => ?_, fun port a net hnet hup hmine => ?_,
    fun port a hup hw => ?_, fun port data a net hbad => ?_, fun port a hup => ?_⟩
  · exact if_neg (by simp [hoff])
  · refine (if_pos ⟨hon, hdormant⟩).trans ?_
    rw [hdormant]
    rfl
  · exact congrArg Host.Outcome.next (if_pos ⟨hnet, hup⟩)
  · exact congrArg Host.Outcome.next (if_pos ⟨hnet, hup, hmine.imp_left fun ⟨h0, h⟩ => ⟨h ▸ h0, h.symm⟩⟩)
  · refine ⟨_, if_pos hup, smGet_smPut_same hw, fun q hq => smGet_smPut_other (mt portIndex_injective hq) hw, rfl⟩
  · have hrefused : ¬ (netOk net = true ∧ s.portUp port = true) := by
      rintro ⟨hnet, hup⟩
      simp only [netOk, Bool.and_eq_true, decide_eq_true_eq, Bool.not_eq_true'] at hnet
      grind
    simp only [List.mem_cons, List.not_mem_nil, or_false]
    rintro c (rfl | rfl)
    · exact congrArg Host.Outcome.next (if_neg hrefused)
    · exact congrArg Host.Outcome.next (if_neg fun h => hrefused ⟨h.1, h.2.1⟩)
  · exact if_neg (by simp [hup])

/-! ### Boot attempts (O21) -/

theorem canAttempt_eq {s : State} (hon : s.power.wardenOn = true) (hdormant : s.power.state = .dormant) :
    s.canAttempt = (s.boot.stage == 0) := by
  rw [State.canAttempt, hon, hdormant]
  rfl

theorem canAttempt_running {s : State} (h : s.boot.stage ≠ 0) : s.canAttempt = false := by
  simp [State.canAttempt, h]

/-- Judging a record leaves the firmware image that has been fetched. -/
theorem judge_image (b : Boot) (r : Option Bytes) : (b.judge r).header = b.header ∧ (b.judge r).body = b.body := by
  have hinstall (x : Bytes) : (b.install x).header = b.header ∧ (b.install x).body = b.body := by
    unfold Boot.install
    extract_lets inB b1
    split <;> exact ⟨rfl, rfl⟩
  unfold Boot.judge
  extract_lets b1
  have h1 : b1.header = b.header ∧ b1.body = b.body := by
    unfold b1
    split
    · exact ⟨rfl, rfl⟩
    · split
      · exact hinstall _
      · exact ⟨rfl, rfl⟩
  clear_value b1
  split <;> exact h1

/-- Stage 7: what starting the firmware changes. -/
theorem startFirmware_eq (s : State) : ∃ ls, s.startFirmware = { s with
    boot := { s.boot.note ⟨s.now, 0, 7, s.boot.port⟩ with
      stage := 0
      wait := 1
      measurement := sha256 (s.boot.header ++ s.boot.body)
      firmwareRuns := true }
    repair := s.repair.switched
    rill := { s.rill with around := some (darkFields s.repair) }
    power := { s.power with state := .standby }
    links := ls } := by
  have hfold (l : List Nat) : ∀ u : State, ∃ ls, l.foldl (fun s n => if (linkOf s n).state = .off then s.startTraining n else s) u =
      { u with links := ls } := by
    induction l with
    | nil => exact fun u => ⟨_, rfl⟩
    | cons n r ih =>
      intro u
      rw [List.foldl_cons]
      split
      · obtain ⟨ls, h⟩ := ih (u.startTraining n)
        exact ⟨ls, h⟩
      · exact ih u
  exact hfold ..

/-- Settles O21. -/
theorem bootAttempts : Obligations.BootAttempts := by
  unfold Obligations.BootAttempts
  refine ⟨fun s => ?_, fun s => ?_⟩
  · intro begun ready
    refine ⟨fun hon hdormant hstage => ?_, fun hstage => ?_⟩
    · have hcan : s.canAttempt = true := by rw [canAttempt_eq hon hdormant, hstage]; rfl
      have hcan' : ready.canAttempt = true := hcan
      refine ⟨congrArg _ (if_pos hcan), (if_neg (by simp [hon])).trans (congrArg Host.Outcome.next (if_pos hcan')),
        fun hready hwait => congrArg _ (if_pos ⟨hcan, hready, hwait⟩),
        fun hready hwait => ⟨congrArg _ (if_pos ⟨hcan, hready, hwait⟩), congrArg _ (if_neg fun h => hwait h.2.2)⟩⟩
    · have hcan := canAttempt_running hstage
      exact ⟨congrArg _ (if_neg (by simp [hcan])), congrArg _ (if_neg (by simp [hcan])), congrArg _ (if_neg (by simp [hcan]))⟩
  · refine ⟨fun f hstage => ?_, fun hon hstage hoff => ?_, fun hstage hramp => ?_, fun body ok hstage => ?_, fun r hstage => ?_,
      fun hstage hport => ?_, fun hstage hport => ?_, fun why port hstage => ?_, fun hstage => ?_, fun c n => ⟨rfl, rfl, rfl, rfl⟩⟩
    · refine (if_neg (by simp [hstage])).trans ?_
      cases hrefused : s.boot.headerRefused f.bytes with
      | some c => rfl
      | none =>
        refine congrArg Host.Outcome.next ?_
        by_cases hedge : s.power.inputReady = true ∧ (regionOf s.power 56).state = .off
        · rw [if_pos hedge]
          exact if_pos ⟨rfl, hedge⟩
        · rw [if_neg hedge]
          exact if_neg fun h => hedge h.2
    · have hcan : s.canAttempt = false := canAttempt_running (by simp [hstage])
      refine (if_neg (by simp [hon])).trans (congrArg Host.Outcome.next ((if_neg ?_).trans (if_pos ?_)))
      · exact fun h => absurd (hcan.symm.trans h) (by decide)
      · exact ⟨hstage, rfl, hoff⟩
    · exact if_pos ⟨hstage, hramp⟩
    · refine (if_neg (by simp [hstage])).trans ?_
      by_cases hbody : body.length = fieldAt s.boot.header 12 4 ∧ digestBytes (sha256 body) = cut s.boot.header 16 32
      · rw [if_pos hbody]
        refine (if_neg (by simp [hbody])).trans ?_
        cases ok <;> rfl
      · rw [if_neg hbody]
        exact if_pos (by tauto)
    · obtain ⟨hheader, hbody⟩ := judge_image s.boot r
      have hexec : exec (.provisioningRecordFetched r) s = match (s.boot.judge r).versionRefused with
          | some c => .next ({ s with boot := s.boot.judge r }.attemptFails c 6)
          | none => .next ({ s with boot := s.boot.judge r } : State).startFirmware := if_neg (by simp [hstage])
      cases hrefused : (s.boot.judge r).versionRefused with
      | some c =>
        rw [hrefused] at hexec
        exact ⟨_, hexec, rfl, fun d hd => by rw [Option.some.inj hd], nofun⟩
      | none =>
        rw [hrefused] at hexec
        obtain ⟨ls, hstart⟩ := startFirmware_eq { s with boot := s.boot.judge r }
        dsimp only at hexec
        rw [hstart] at hexec
        refine ⟨_, hexec, rfl, nofun, fun _ => ⟨rfl, rfl, rfl, ?_, rfl, rfl⟩⟩
        rw [← hheader, ← hbody]
    · exact (if_pos ⟨hstage, rfl⟩).trans (if_pos ⟨hport.symm, rfl⟩)
    · exact (if_pos ⟨hstage, rfl⟩).trans ((if_neg (by simp)).trans (if_pos ⟨hport.symm, rfl⟩))
    · exact (if_neg (by grind)).trans (if_pos (by tauto))
    · have hcount : ¬ regionCount ≤ edgeRegion := by decide
      have hexec : exec (.regionStartFail 56) s = .next ((s.attemptFails 0x7010 2).updPower
          (·.updRegion edgeRegion (fun r => { r with
            state := .broken
            vcore := 0
            vloam := 0 }))) := by
        change execRegionStartFail edgeRegion s = _
        unfold execRegionStartFail onRegion
        rw [if_neg hcount]
        exact congrArg Host.Outcome.next ((if_pos rfl).trans (if_pos hstage))
      exact ⟨_, hexec, rfl, rfl⟩

/-! ### What stands before the work of a Delit command (O22) -/

section
variable {h : Hdr} {x : Session} {s : State} {op : DelitOp}

/-- The row of a Delit command is its delivery. -/
theorem exec_rowOf (h : Hdr) (op : DelitOp) (s : State) : exec (Safety.rowOf h op) s = .next (s.delit h op) := by
  cases op <;> rfl

theorem knows_iff {kind : BitVec 8} (hk : kind ≠ 1) (h4 : kind ≠ 4) (s : State) (id : Nat) :
    s.knows kind id = true ↔ ∃ y ∈ s.host.sessions, y.id = id := by
  rw [State.knows, beq_false_of_ne hk, if_neg h4, Bool.false_or, List.any_eq_true]
  simp only [beq_iff_eq]

/-- A command that its session holds no answer for is refused by its sender, its moment or a reserved field. -/
theorem delit_refusedFirst {c : Code} (r : InOrder h x s) (hw : mustWait h op x.control (heard h s) = false)
    (ha : answerOp h op x.control (heard h s) = (heard h s, c, [])) (hc : ¬ c.toNat ≤ 1) :
    s.delit h op = replied h c [] s := by
  rw [State.delit_inOrder r]
  unfold State.execute
  rw [if_neg (by simp [show mustWait h op x.control (s.heard h.session) = false from hw])]
  dsimp only
  rw [show answerOp h op x.control (s.heard h.session) = _ from ha, if_neg hc]
  exact State.respond_heard ..

theorem mustWait_observer (hctl : x.control = false) : mustWait h op x.control s = false := by
  cases op <;> simp [mustWait, hctl]

theorem mustWait_inStep (hstep : s.step.inProgress = true) (b : Bool) : mustWait h op b s = false := by
  cases op <;> simp [mustWait, hstep]

theorem mustWait_notOpen (hown : ownReserved op = false) (b : Bool) : mustWait h op b s = false := by
  cases op <;> first | rfl | contradiction

theorem sessionOf_updSession {f : Session → Session} (hf : ∀ y, (f y).id = y.id) {id : Nat} :
    (s.updSession id f).sessionOf id = (s.sessionOf id).map f := by
  simp only [State.sessionOf, State.updSession]
  induction s.host.sessions with
  | nil => rfl
  | cons y r ih => by_cases hy : y.id = id <;> simp [hy, hf, ih]

/-- No held command follows the last that was executed. -/
theorem runHeld_waits {id : Nat} (n : Nat) (hnext : ∀ y, s.sessionOf id = some y → ∀ c ∈ y.held, c.1.seq ≠ y.executed + 1) :
    State.runHeld id n s = s := by
  cases n with
  | zero => rfl
  | succ n =>
    unfold State.runHeld
    split
    · rfl
    next y hy =>
      have hnone : y.held.find? (fun c => c.1.seq == y.executed + 1) = none := by simpa using fun a b => hnext y hy (a, b)
      rw [hnone, ite_self]

/-- A command of a session that has been heard of. -/
theorem takeCommand_of_session (hx : s.sessionOf h.session = some x) : (heard h s).takeCommand h op =
    if s.arbiter.fatal.isSome then heard h s
    else if h.seq ≤ x.executed then
      match x.cache.find? (fun m => match m with | .response _ q _ _ _ => q == h.seq | _ => false) with
      | some m => (heard h s).sendHost m
      | none => heard h s
    else if x.executed + 64 < h.seq ∨ x.held.any (fun c => c.1.seq == h.seq) ∨
        (s.openPending h.session ∧ h.seq = x.executed + 1) then heard h s
    else if x.held = [] ∧ h.seq = x.executed + 1 then (heard h s).execute h op x.control
    else ((heard h s).updSession h.session (fun y => { y with held := y.held ++ [(h, op)] })).runHeld h.session 65 := by
  have hheard : (heard h s).sessionOf h.session = some { x with lastHeard := s.now } := by
    rw [State.sessionOf_heard, hx, Option.map_some]
  unfold State.takeCommand
  rw [hheard]
  rfl

end

/-- Settles O22. -/
theorem commandsBeforeTheirWork : Obligations.CommandsBeforeTheirWork := by
  unfold Obligations.CommandsBeforeTheirWork
  refine ⟨fun h op s => ⟨fun hnet => ?_, fun hnet hbad => ?_, fun hnet hsound hknown htag => ?_, fun hnet hsound hknown htag hmissing => ?_⟩,
    fun h op x s r hx => ⟨fun hfatal => ?_, fun cid st b hfatal hseq hcache => ?_, fun hfatal hseq => ?_, fun hfatal hlo hhi hheld => ?_⟩,
    fun h x op s r => ⟨fun hneeds hctl => ?_, fun hctl hbetween hstep => ?_, fun hctl hresv hown hmoment => ?_⟩⟩
  all_goals rw [exec_rowOf]; refine congrArg Host.Outcome.next ?_
  · exact if_pos (by simp [hnet])
  · refine (if_neg (by simp [hnet])).trans (if_pos (hbad.imp (fun hb => by rw [hb]; rfl) fun hno => ?_))
    have hknows : ¬ s.knows 5 h.session = true := fun hk =>
      let ⟨y, hy, hid⟩ := (knows_iff (kind := 5) (by decide) (by decide) s h.session).mp hk
      hno y hy hid
    simpa using hknows
  · have hknows := (knows_iff (kind := 5) (by decide) (by decide) s h.session).mpr hknown
    have hgood : ¬ ((!dgramSound h.dg 5) = true ∨ (!s.knows 5 h.session) = true) := by rw [hsound, hknows]; decide
    exact (if_neg (by simp [hnet])).trans ((if_neg hgood).trans (if_pos ⟨by decide, by simp [htag]⟩))
  · have hknows := (knows_iff (kind := 5) (by decide) (by decide) s h.session).mpr hknown
    have hpart : (List.range h.dg.fragCount).all (s.fragmentsOf h.session h.seq h.dg).contains = false := by
      obtain ⟨i, hi, hno⟩ := hmissing
      simp only [List.all_eq_false, List.mem_range]
      exact ⟨i, hi, by simpa using hno⟩
    have hfrag : (s.heard h.session).fragmentsOf h.session h.seq h.dg = s.fragmentsOf h.session h.seq h.dg := rfl
    have hgood : ¬ ((!dgramSound h.dg 5) = true ∨ (!s.knows 5 h.session) = true) := by rw [hsound, hknows]; decide
    refine (if_neg (by simp [hnet])).trans ((if_neg hgood).trans ((if_neg (by simp [htag])).trans ?_))
    simp only [State.gather, hfrag, hpart, Bool.false_eq_true, if_false]
    rfl
  · rw [State.delit, State.takeDgram_arrives r, takeCommand_of_session hx, if_pos hfatal]
  · rw [State.delit, State.takeDgram_arrives r, takeCommand_of_session hx, if_neg (by simp [hfatal]), if_pos hseq, hcache]
    simp
  · rw [State.delit, State.takeDgram_arrives r, takeCommand_of_session hx, if_neg (by simp [hfatal]), if_neg (by omega),
      if_pos (.inl hseq)]
  · rw [State.delit, State.takeDgram_arrives r, takeCommand_of_session hx, if_neg (by simp [hfatal]), if_neg (by omega), if_neg,
      if_neg (by rintro ⟨-, hnext⟩; omega)]
    · refine runHeld_waits _ fun y hy c hc => ?_
      have hheard := sessionOf_updSession (s := heard h s) (f := fun y => { y with held := y.held ++ [(h, op)] }) (id := h.session)
        (fun _ => rfl)
      rw [hheard, State.sessionOf_heard, hx] at hy
      obtain rfl := Option.some.inj hy
      obtain hold | hnew := List.mem_append.mp hc
      · exact (hheld c hold).2
      · rw [List.mem_singleton.mp hnew]
        exact Nat.ne_of_gt hlo
    · rintro (hfar | hsame | ⟨-, hnext⟩)
      · omega
      · obtain ⟨c, hc, hseq⟩ := List.any_eq_true.mp hsame
        exact (hheld c hc).1 (by simpa using hseq)
      · omega
  · exact delit_refusedFirst r (mustWait_observer hctl) (if_pos ⟨hneeds, by simp [hctl]⟩) (by decide)
  · exact delit_refusedFirst r (mustWait_inStep hstep _) ((if_neg (by simp [hctl])).trans (if_pos ⟨hbetween, hstep⟩)) (by decide)
  · refine delit_refusedFirst r (mustWait_notOpen hown _) ((if_neg (by simp [hctl])).trans ((if_neg ?_).trans
      (if_pos ⟨hresv, by simp [hown]⟩))) (by decide)
    rintro ⟨hbetween, hstep⟩
    obtain hno | hno := hmoment
    · exact absurd (hno.symm.trans hbetween) (by decide)
    · exact absurd (hno.symm.trans hstep) (by decide)

/-! ### Handshakes and sessions (O23) -/

section
variable {s : State} {id : Nat}

theorem map_notMember {l : List Session} (h : ∀ y ∈ l, y.id ≠ id) (f : Session → Session) :
    l.map (fun y => if y.id = id then f y else y) = l := by
  conv_rhs => rw [← List.map_id l]
  exact List.map_congr_left fun y hy => if_neg (h y hy)

/-- Nobody is heard of in a session that is not there. -/
theorem heard_notMember (h : ∀ y ∈ s.host.sessions, y.id ≠ id) : s.heard id = s := by
  unfold State.heard State.updSession
  rw [map_notMember h]

theorem notMember_of_sessionOf (h : s.sessionOf id = none) : ∀ y ∈ s.host.sessions, y.id ≠ id := by
  simpa [State.sessionOf] using h

/-- Who the sessions are, and which of them controls. -/
def roster (l : List Session) : List (Nat × Bool) := l.map (fun y => (y.id, y.control))

theorem roster_append (l : List Session) (y : Session) : roster (l ++ [y]) = roster l ++ [(y.id, y.control)] := by
  simp [roster]

theorem mem_roster {l : List Session} {r : Nat × Bool} : r ∈ roster l ↔ ∃ y ∈ l, y.id = r.1 ∧ y.control = r.2 := by
  simp [roster, Prod.ext_iff]

/-- What telling the sessions changes: the same sessions stand, and what has been sent stays sent. -/
def Tells (s u : State) : Prop := ∃ ho, u = { s with host := ho } ∧ roster ho.sessions = roster s.host.sessions ∧
  s.host.sent <:+ ho.sent

namespace Tells

theorem refl (s : State) : Tells s s := ⟨_, rfl, rfl, List.suffix_rfl⟩

theorem trans {s u v : State} (h : Tells s u) (k : Tells u v) : Tells s v := by
  obtain ⟨_, rfl, hroster, hsent⟩ := h
  obtain ⟨_, rfl, kroster, ksent⟩ := k
  exact ⟨_, rfl, kroster.trans hroster, hsent.trans ksent⟩

theorem foldl {α : Type} {f : State → α → State} (hf : ∀ u x, Tells u (f u x)) (l : List α) (s : State) : Tells s (l.foldl f s) := by
  induction l generalizing s with
  | nil => exact refl s
  | cons x r ih => exact (hf s x).trans (ih _)

theorem updSession (s : State) (id : Nat) {f : Session → Session} (hf : ∀ y, ((f y).id, (f y).control) = (y.id, y.control)) :
    Tells s (s.updSession id f) := by
  refine ⟨_, rfl, ?_, List.suffix_rfl⟩
  simp only [roster, List.map_map]
  refine List.map_congr_left fun y _ => ?_
  simp only [Function.comp]
  split
  · exact hf y
  · rfl

theorem sendHost (s : State) (m : HostMsg) : Tells s (s.sendHost m) := ⟨_, rfl, rfl, List.suffix_cons ..⟩

/-- An event that may be dropped closes no session. -/
theorem eventTo (s : State) (id : Nat) {e : Event} (he : (decide (3 ≤ e.severity) || e.type = 2 || e.type = 3) = false) :
    Tells s (s.eventTo id e) := by
  unfold State.eventTo
  split
  · exact refl s
  · dsimp only
    rw [he, if_neg (by decide)]
    split
    · exact updSession s id fun _ => rfl
    · exact (updSession s id (f := fun y => { y with
        eventSeq := y.eventSeq + 1
        unacked := y.unacked ++ [(y.eventSeq + 1, e)] }) fun _ => rfl).trans (sendHost ..)

theorem sendEvent (s : State) {e : Event} (he : (decide (3 ≤ e.severity) || e.type = 2 || e.type = 3) = false) :
    Tells s (s.sendEvent e) := foldl (f := fun s (x : Session) => s.eventTo x.id e) (fun u x => eventTo u x.id he) _ _

theorem commandDone (s : State) (o : Owed) (c : Code) : Tells s (s.commandDone o c) := sendEvent s rfl

end Tells

theorem controller_map_id (u : State) : u.controller.map (·.id) = ((roster u.host.sessions).find? (·.2)).map (·.1) := by
  unfold State.controller roster
  rw [List.find?_map, Option.map_map]
  rfl

/-- The boot's codes are told to the sessions. -/
theorem raiseBoot_tells (s : State) : Tells { s with boot := { s.boot with
    unraised := []
    queued := [] } } s.raiseBoot :=
  Tells.foldl (f := fun s c => s.sendEvent (s.mkEvent 1 c 1 moduleWide noCmd 0 0)) (fun u _ => Tells.sendEvent u rfl) _ _

end

/-- A HELLO_REPLY's first 1,160 bytes. -/
theorem length_helloBody (id nonce counter : Nat) (ek : Bytes) : (helloBody id nonce counter ek).length = 1160 := by
  simp [helloBody, beBytes, zeros]

section
variable {s : State} {x : Session} {ed : BitVec 512} {ml : Bytes} {d : Dgram}

theorem exec_finish (hnew : ∀ y ∈ s.host.sessions, y.id ≠ x.id) (harr : Arrives d 4 x.id 0 s) :
    exec (.finish x.id ed ml d) s = .next (s.takeFinish x.id ed ml) := by
  refine congrArg Host.Outcome.next ((State.takeDgram_arrives harr _).trans ?_)
  rw [heard_notMember hnew]

/-- The handshakes once that of a session is over. -/
def handshakeOver (s : State) (id : Nat) : State :=
  { s with host := { s.host with handshakes := s.host.handshakes.filter (fun y => y.id ≠ id) } }

/-- A session established from its handshake. -/
def establish (u : State) (x : Session) (now : BitVec 64) : State :=
  { u with host := { u.host with sessions := u.host.sessions ++ [{ x with
    established := true
    lastHeard := now }] } }

/-- A session that ends: it is closed, and only its own goes. -/
theorem endSession_host (u : State) (id : Nat) (c : Code) :
    roster (u.endSession id c).host.sessions = (roster u.host.sessions).filter (fun r => r.1 ≠ id) ∧
      .close id c ∈ (u.endSession id c).host.sent := by
  have hclose (v : State) (hv : roster v.host.sessions = roster u.host.sessions) :
      roster (v.closeSession id c).host.sessions = (roster u.host.sessions).filter (fun r => r.1 ≠ id) := by
    rw [← hv, roster, roster, List.filter_map]
    rfl
  have hexport : roster (u.endExport 0x320A).host.sessions = roster u.host.sessions := by
    unfold State.endExport
    split
    · rfl
    · obtain ⟨ho, hdone, hroster, -⟩ := Tells.commandDone _ _ _
      rw [hdone]
      exact hroster
  unfold State.endSession
  extract_lets mine
  split
  · exact ⟨hclose _ hexport, List.mem_cons_self ..⟩
  · exact ⟨hclose _ rfl, List.mem_cons_self ..⟩

/-- Control taken from a session, which is closed. -/
theorem takeControl_host {u : State} {old : Session} (hold : u.controller = some old) :
    roster u.takeControl.host.sessions = (roster u.host.sessions).filter (fun r => r.1 ≠ old.id) ∧
      .close old.id 0x100A ∈ u.takeControl.host.sent := by
  unfold State.takeControl
  rw [hold]
  dsimp only
  split <;> exact endSession_host u old.id 0x100A

/-- A FINISH of a handshake that is open, while control is free or may be taken. -/
theorem takeFinish_eq (hfatal : s.arbiter.fatal = none) (hx : s.host.handshakes.find? (fun y => y.id == x.id) = some x)
    (hctl : x.control = true → s.controller.isSome = true → x.takeover = true)
    (hfew : (if x.control then (handshakeOver s x.id).takeControl else handshakeOver s x.id).host.sessions.length < 8) :
    s.takeFinish x.id ed ml = if finishOk s x ed ml then
      (if x.control then (establish (handshakeOver s x.id).takeControl x s.now).raiseBoot.beginOffsets
        else establish (handshakeOver s x.id) x s.now)
      else s := by
  unfold State.takeFinish
  rw [hx]
  cases hok : finishOk s x ed ml
  · simp [hok]
  · have hfree : ¬ (x.control = true ∧ s.controller.isSome = true ∧ (!x.takeover) = true) := by
      rintro ⟨h1, h2, h3⟩
      simp [hctl h1 h2] at h3
    simp only [hfatal, hok, Option.isSome_none, Bool.not_true, Bool.false_eq_true, or_self, if_false, if_true]
    rw [if_neg hfree]
    refine (if_neg (Nat.not_le.mpr hfew)).trans ?_
    by_cases hc : x.control = true
    · simp only [if_pos hc]
      rfl
    · simp only [if_neg hc]
      rfl

end

/-- Settles O23. -/
theorem handshakesAndSessions : Obligations.HandshakesAndSessions := by
  unfold Obligations.HandshakesAndSessions
  refine ⟨fun s m hruns hup hfatal harr hnone => ?_, fun s x ed ml d hfatal hx hfew hnew => ⟨fun harr hctl => ?_, fun harr hctl hfree => ?_,
    fun old harr hctl htake hold => ?_, fun hnet hsound htag => ?_⟩⟩
  · have hexec : exec (.hello m) s = .next (s.takeHello m) := by
      refine (if_neg (by simp [hruns, hup, hfatal])).trans
        (congrArg Host.Outcome.next ((State.takeDgram_arrives harr _).trans ?_))
      rw [heard_notMember (notMember_of_sessionOf hnone)]
    unfold State.takeHello at hexec
    refine ⟨fun c hc => ?_, fun hc => ?_⟩
    · rw [hc] at hexec
      exact hexec
    · rw [hc] at hexec
      have htranscript (b : Bytes) : (helloBody s.host.nextSession s.draw.1.toNat s.draws (cut m.raw 72 1184) ++ b).take 1160 =
          helloBody s.host.nextSession s.draw.1.toNat s.draws (cut m.raw 72 1184) := by
        rw [← length_helloBody s.host.nextSession s.draw.1.toNat s.draws (cut m.raw 72 1184), List.take_left]
      refine ⟨_, _, hexec, rfl, rfl, rfl, rfl, rfl, ?_, rfl⟩
      rw [List.append_assoc, htranscript]
  · rw [exec_finish hnew harr, takeFinish_eq hfatal hx (by simp [hctl]) (by simp [hctl, handshakeOver, hfew]), if_neg (c := x.control = true) (by simp [hctl])]
    rfl
  · have hcontrol : (handshakeOver s x.id).takeControl = handshakeOver s x.id := by
      have hnone : (handshakeOver s x.id).controller = none := hfree
      unfold State.takeControl
      rw [hnone]
    refine ⟨_, exec_finish hnew harr, ?_⟩
    rw [takeFinish_eq hfatal hx (by simp [hfree]) (by rw [if_pos hctl, hcontrol]; exact hfew), if_pos hctl, hcontrol]
    refine ⟨fun hno => if_neg (by simp [hno]), fun hok => ?_⟩
    rw [if_pos hok]
    obtain ⟨ho, htold, hroster, -⟩ := raiseBoot_tells (establish (handshakeOver s x.id) x s.now)
    have hcontroller : (establish (handshakeOver s x.id) x s.now).raiseBoot.beginOffsets.controller.map (·.id) = some x.id := by
      have hbefore : (roster s.host.sessions).find? (·.2) = none := by
        have hnone := hfree
        unfold State.controller at hnone
        simpa [roster, List.find?_eq_none] using hnone
      have hhost : (establish (handshakeOver s x.id) x s.now).raiseBoot.beginOffsets.host = ho := by
        change (establish (handshakeOver s x.id) x s.now).raiseBoot.host = ho
        rw [htold]
      rw [controller_map_id, hhost, hroster]
      change ((roster (s.host.sessions ++ [_])).find? (·.2)).map (·.1) = _
      rw [roster_append, List.find?_append, hbefore]
      simp [hctl]
    refine ⟨hcontroller, ?_⟩
    unfold State.beginOffsets
    rw [htold]
    exact ⟨rfl, rfl, rfl⟩
  · obtain ⟨hleft, hclosed⟩ := takeControl_host (u := handshakeOver s x.id) hold
    have hfew' : (handshakeOver s x.id).takeControl.host.sessions.length < 8 := by
      have hlength := congrArg List.length hleft
      simp only [roster, List.length_map] at hlength
      rw [hlength]
      exact (List.length_filter_le ..).trans_lt (by simpa [handshakeOver] using hfew)
    refine ⟨_, exec_finish hnew harr, fun hok => ?_⟩
    rw [takeFinish_eq hfatal hx (fun _ _ => htake) (by rw [if_pos hctl]; exact hfew'), if_pos hok, if_pos hctl]
    obtain ⟨ho, htold, hroster, hsent⟩ := raiseBoot_tells (establish (handshakeOver s x.id).takeControl x s.now)
    have hhost : (establish (handshakeOver s x.id).takeControl x s.now).raiseBoot.beginOffsets.host = ho := by
      change (establish (handshakeOver s x.id).takeControl x s.now).raiseBoot.host = ho
      rw [htold]
    have hstand : roster ho.sessions = (roster s.host.sessions).filter (fun r => r.1 ≠ old.id) ++ [(x.id, x.control)] := by
      rw [hroster]
      exact (roster_append ..).trans (congrArg (· ++ _) hleft)
    rw [hhost]
    refine ⟨fun y hy hid => ?_, ?_, hsent.subset hclosed⟩
    · have hin : (y.id, y.control) ∈ roster ho.sessions := mem_roster.mpr ⟨y, hy, rfl, rfl⟩
      rw [hstand, List.mem_append] at hin
      obtain hin | hin := hin
      · simp [hid] at hin
      · have hxid : y.id = x.id := congrArg Prod.fst (List.mem_singleton.mp hin)
        have holdin : old ∈ s.host.sessions := List.mem_of_find?_eq_some hold
        exact hnew old holdin (hid.symm.trans hxid)
    · have hin : (x.id, x.control) ∈ roster ho.sessions := by rw [hstand]; simp
      obtain ⟨y, hy, hid, hyc⟩ := mem_roster.mp hin
      exact ⟨y, hy, hid, hyc.trans hctl⟩
  · have hknows : s.knows 4 x.id = true := by
      have hin : s.host.handshakes.any (fun y => y.id == x.id) = true :=
        List.any_eq_true.mpr ⟨x, List.mem_of_find?_eq_some hx, by simp⟩
      exact hin
    have hgood : ¬ ((!dgramSound d 4) = true ∨ (!s.knows 4 x.id) = true) := by rw [hsound, hknows]; decide
    refine congrArg Host.Outcome.next ((if_neg (by simp [hnet])).trans ((if_neg hgood).trans
      ((if_pos ⟨by decide, by simp [htag]⟩).trans ?_)))
    unfold State.tagFailed
    dsimp only
    rw [map_notMember hnew]
    rfl

/-! ### Timers and events (O24) -/

section
variable {s : State} {id seq : Nat}

theorem updSession_updSession (s : State) (id : Nat) {f g : Session → Session} (hf : ∀ y, (f y).id = y.id) :
    (s.updSession id f).updSession id g = s.updSession id (fun y => g (f y)) := by
  simp only [State.updSession, List.map_map]
  congr 2
  refine List.map_congr_left fun y _ => ?_
  by_cases hy : y.id = id <;> simp [hy, hf]

/-- A session once events up to a number have been acknowledged. -/
def acknowledged (seq : Nat) (now : BitVec 64) (y : Session) : Session :=
  { y with
    unacked := y.unacked.filter (fun e => decide (seq < e.1))
    reserved := y.reserved.filter (fun e => decide (seq < e.1))
    lastHeard := now }

/-- An acknowledgement releases events, and reports what was lost when there is room again. -/
theorem exec_eventAck {d : Dgram} (harr : Arrives d 8 id seq s) : exec (.eventAck id ⟨seq, d⟩) s =
    .next ((s.updSession id (acknowledged seq s.now)).reportLost id) := by
  refine congrArg Host.Outcome.next ((State.takeDgram_arrives harr _).trans (congrArg (State.reportLost · id) ?_))
  exact updSession_updSession s id fun _ => rfl

/-- An event that may be dropped, told to a session that has room for it. -/
theorem eventTo_room {x : Session} (hx : s.sessionOf id = some x) {e : Event}
    (he : (decide (3 ≤ e.severity) || e.type = 2 || e.type = 3) = false) (hroom : x.unacked.length < 4096) :
    s.eventTo id e = (s.updSession id (fun y => { y with
      eventSeq := y.eventSeq + 1
      unacked := y.unacked ++ [(y.eventSeq + 1, e)] })).sendHost (.event id (x.eventSeq + 1) e) := by
  unfold State.eventTo
  rw [hx]
  dsimp only
  rw [he, if_neg (by decide), if_neg (Nat.not_le.mpr hroom)]

theorem insertEvent_perm (e : Nat × Event) (l : List (Nat × Event)) : (insertEvent e l).Perm (e :: l) := by
  induction l with
  | nil => exact .refl _
  | cons x r ih =>
    unfold insertEvent
    split
    · exact .refl _
    · exact (ih.cons x).trans (.swap ..)

theorem foldl_insertEvent_perm (r l : List (Nat × Event)) : (r.foldl (fun l e => insertEvent e l) l).Perm (l ++ r) := by
  induction r generalizing l with
  | nil => simp
  | cons e r ih =>
    refine (ih _).trans (((insertEvent_perm e l).append_right r).trans ?_)
    exact List.perm_middle.symm

theorem foldl_sendHost {α : Type} (f : α → HostMsg) (l : List α) : ∀ s : State, l.foldl (fun s e => s.sendHost (f e)) s =
    { s with host := { s.host with sent := (l.map f).reverse ++ s.host.sent } } := by
  induction l with
  | nil => exact fun _ => rfl
  | cons e r ih =>
    intro s
    rw [List.foldl_cons, ih]
    simp [State.sendHost]

end

/-- Settles O24. -/
theorem timersAndEvents : Obligations.TimersAndEvents := by
  unfold Obligations.TimersAndEvents
  refine ⟨fun s id => ⟨rfl, fun seq => rfl, fun x hx hexp hlate => ?_, fun x hx hsoon => ?_⟩,
    fun s id seq d x harr hx => ⟨fun hlost => ?_, fun hlost hroom => ?_, ?_⟩⟩
  · change execSessionTimeout id s = _
    unfold execSessionTimeout State.endSession
    rw [hx, hexp]
    exact congrArg Host.Outcome.next (if_pos hlate)
  · change execSessionTimeout id s = _
    unfold execSessionTimeout
    rw [hx]
    exact congrArg Host.Outcome.next (if_neg (by omega))
  · have hack := sessionOf_updSession (s := s) (f := acknowledged seq s.now) (id := id) (fun _ => rfl)
    rw [hx, Option.map_some] at hack
    rw [exec_eventAck harr]
    unfold State.reportLost
    rw [hack]
    exact congrArg Host.Outcome.next (if_pos (.inl hlost))
  · have hack := sessionOf_updSession (s := s) (f := acknowledged seq s.now) (id := id) (fun _ => rfl)
    rw [hx, Option.map_some] at hack
    have hzero := sessionOf_updSession (s := s.updSession id (acknowledged seq s.now)) (f := fun y => { y with lostEvents := 0 })
      (id := id) (fun _ => rfl)
    rw [hack, Option.map_some] at hzero
    have htold := eventTo_room hzero (e := (s.updSession id (acknowledged seq s.now)).mkEvent 5 0 1 moduleWide noCmd
      (acknowledged seq s.now x).lostEvents 0) rfl hroom
    have hreport : (s.updSession id (acknowledged seq s.now)).reportLost id =
        ((s.updSession id (acknowledged seq s.now)).updSession id (fun y => { y with lostEvents := 0 })).eventTo id
          ((s.updSession id (acknowledged seq s.now)).mkEvent 5 0 1 moduleWide noCmd (acknowledged seq s.now x).lostEvents 0) := by
      unfold State.reportLost
      rw [hack]
      exact if_neg fun h => h.elim hlost (Nat.not_le.mpr hroom)
    rw [htold] at hreport
    have hafter := sessionOf_updSession (s := (s.updSession id (acknowledged seq s.now)).updSession id (fun y => { y with lostEvents := 0 }))
      (f := fun y => { y with
        eventSeq := y.eventSeq + 1
        unacked := y.unacked ++ [(y.eventSeq + 1, (s.updSession id (acknowledged seq s.now)).mkEvent 5 0 1 moduleWide noCmd
          (acknowledged seq s.now x).lostEvents 0)] }) (id := id) (fun _ => rfl)
    rw [hzero, Option.map_some] at hafter
    refine ⟨_, _, (exec_eventAck harr).trans (congrArg Host.Outcome.next hreport), rfl, hafter, rfl, rfl, ?_⟩
    simp [acknowledged, State.mkEvent]
  · have hperm := foldl_insertEvent_perm x.reserved x.unacked
    have hexec : exec (.eventRetransmit id) s = .next ((x.reserved.foldl (fun l e => insertEvent e l) x.unacked).foldl
        (fun s (e : Nat × Event) => s.sendHost (.event id e.1 e.2)) s) := by
      change execEventRetransmit id s = _
      unfold execEventRetransmit
      rw [hx]
    rw [foldl_sendHost (fun e : Nat × Event => .event id e.1 e.2)] at hexec
    refine ⟨_, _, hexec, rfl, ?_, fun e he => ?_⟩
    · simp [hperm.length_eq]
    · exact List.mem_reverse.mpr (List.mem_map_of_mem (hperm.mem_iff.mpr he))

/-! ### RoCEv2 (O25) -/

section
variable {s : State} {qpn : BitVec 24} {q : QueuePair} {net : Net}

/-- A packet on a queue pair, its mark of congestion answered. -/
theorem onQp_some (hq : s.queuePair qpn = some q) (hnet : netOk net = true) (act : QueuePair → State → State) :
    s.onQp qpn net act = act q (if net.ecn then s.sendHost (.cnp qpn) else s) := by
  unfold State.onQp
  rw [if_pos hnet, hq]

theorem onQp_refused (hnet : netOk net = false) (act : QueuePair → State → State) : s.onQp qpn net act = s := by
  unfold State.onQp
  rw [hnet, if_neg (by decide)]

/-- The answer to a mark of congestion leaves everything else. -/
theorem marked_eq (s : State) (qpn : BitVec 24) (b : Bool) : ∃ l, (if b then s.sendHost (.cnp qpn) else s) =
    { s with host := { s.host with sent := l } } := by
  cases b <;> exact ⟨_, rfl⟩

theorem writeRegion_other {region : Sys2Proof.Region} (h1 : region ≠ 1) (h2 : region ≠ 2) (off : Nat) (data : Bytes) :
    s.writeRegion region off data = (s, 0x1004) := by
  have h1' : region.toNat ≠ 1 := fun h => h1 (BitVec.eq_of_toNat_eq h)
  have h2' : region.toNat ≠ 2 := fun h => h2 (BitVec.eq_of_toNat_eq h)
  unfold State.writeRegion
  split
  · contradiction
  · contradiction
  · rfl

theorem readRegion_other {region : Sys2Proof.Region} (h3 : region ≠ 3) (h4 : region ≠ 4) (session off n : Nat) :
    s.readRegion session region off n = none := by
  have h3' : region.toNat ≠ 3 := fun h => h3 (BitVec.eq_of_toNat_eq h)
  have h4' : region.toNat ≠ 4 := fun h => h4 (BitVec.eq_of_toNat_eq h)
  unfold State.readRegion
  split
  · contradiction
  · contradiction
  · rfl

end

/-- Settles O25. -/
theorem rdmaVerbs : Obligations.RdmaVerbs := by
  unfold Obligations.RdmaVerbs
  intro s qpn q x net hq hx
  refine ⟨fun hnet => ?_, fun key region hkey => ?_, fun hnet key region off data n unsupported c hc => ?_, ?_, ?_⟩
  · intro u
    have hwrite (key : BitVec 32) (place : RdmaPlace) (data : Bytes) : exec (.rdmaWrite qpn key place data net) s = _ :=
      congrArg Host.Outcome.next (onQp_some hq hnet _)
    have hread (key : BitVec 32) (place : RdmaPlace) (n : Nat) : exec (.rdmaRead qpn key place n net) s = _ :=
      congrArg Host.Outcome.next (onQp_some hq hnet _)
    have hsend (data : Bytes) (b : Bool) : exec (.send qpn data b net) s = _ :=
      congrArg Host.Outcome.next (onQp_some hq hnet _)
    obtain ⟨l, hu⟩ := marked_eq s qpn net.ecn
    change u = _ at hu
    have hux : u.sessionOf q.session = some x := by rw [hu]; exact hx
    have hukey (region : Sys2Proof.Region) (key : BitVec 32) : u.keyFits q region key = s.keyFits q region key := by rw [hu]; rfl
    refine ⟨fun key off data hctl hkey hopen hfits => (hwrite ..).trans (congrArg Host.Outcome.next ?_),
      fun key off data hctl hkey hstep hfits => (hwrite ..).trans (congrArg Host.Outcome.next ?_),
      fun key region off data hbad => (hwrite ..).trans (congrArg Host.Outcome.next ?_),
      fun key off n hkey hfits => (hread ..).trans (congrArg Host.Outcome.next ?_),
      fun key region off n hbad => (hread ..).trans (congrArg Host.Outcome.next ?_),
      fun data => ⟨hsend .., hsend ..⟩⟩
    · have hregion : u.writeRegion 1 off.toNat data = ({ u with host := { u.host with
          programImage := wrBytes s.host.programImage off.toNat data } }, 0) := by
        rw [hu]
        exact (if_neg (by simp [hopen])).trans (if_neg (Nat.not_lt.mpr hfits))
      dsimp only
      rw [hux, hukey, hregion]
      refine (if_neg ?_).trans (if_pos rfl)
      dsimp only
      rw [hctl, hkey]
      decide
    · have hregion : u.writeRegion 2 off.toNat data = ({ u with host := { u.host with
          batch := wrBytes s.host.batch off.toNat data } }, 0) := by
        rw [hu]
        exact (if_neg (Nat.not_lt.mpr hfits)).trans (if_neg (by simp [hstep]))
      dsimp only
      rw [hux, hukey, hregion]
      refine (if_neg ?_).trans (if_pos rfl)
      dsimp only
      rw [hctl, hkey]
      decide
    · dsimp only
      rw [hux, hukey]
      obtain hctl | hkey | ⟨h1, h2⟩ := hbad
      · exact if_pos (.inl (by simp [hctl]))
      · exact if_pos (.inr (by simp [hkey]))
      · rw [writeRegion_other h1 h2]
        exact (if_congr Iff.rfl rfl (if_neg (by decide : ¬ (0x1004 : Code) = 0))).trans (ite_self _)
    · have hregion : u.readRegion q.session 3 off.toNat n = some (u, cut x.result off.toNat n) := by
        have hres : u.readRegion q.session 3 off.toNat n = match u.sessionOf q.session with
            | some x => if off.toNat + n ≤ x.result.length then some (u, cut x.result off.toNat n) else none
            | none => none := rfl
        rw [hres, hux]
        exact if_pos hfits
      dsimp only
      rw [hukey, if_pos hkey, hregion]
    · dsimp only
      rw [hukey]
      obtain hkey | ⟨h3, h4⟩ := hbad
      · rw [hkey]
        rfl
      · rw [readRegion_other h3 h4, ite_self]
  · obtain ⟨p, hp, hsession, hpos, hissued⟩ := hkey
    simp only [State.keyFits, Bool.and_eq_true, decide_eq_true_eq, List.any_eq_true, beq_iff_eq]
    exact ⟨hpos, p, hp, hsession, hissued⟩
  · simp only [List.mem_cons, List.not_mem_nil, or_false] at hc
    obtain rfl | rfl | rfl := hc <;> exact congrArg Host.Outcome.next (onQp_refused hnet _)
  · refine congrArg Host.Outcome.next (congrArg (fun l => { s with host := { s.host with queuePairs := l } })
      (List.map_congr_left fun q _ => ?_))
    split
    · cases hlast : q.lastHalved with
      | none => simp [hlast]
      | some t => by_cases hdue : t.toNat + 55000 ≤ s.now.toNat <;> simp [cnpInterval, hdue, hlast]
    · rfl
  · refine congrArg Host.Outcome.next (congrArg (fun l => { s with host := { s.host with queuePairs := l } })
      (List.map_congr_left fun q _ => ?_))
    split
    · dsimp only
      cases hlast : q.lastCnp with
      | none => simp
      | some t =>
        by_cases hdue : t.toNat + 110000 ≤ s.now.toNat
        · simp [restoreInterval, hdue]
        · simp [restoreInterval, hdue, ← hlast]
    · rfl

end Sys2Proof.Laws
end

section
/-! The cause of a discard, sums of blocks, sync objects, Rill messages and status codes (chapters 3, 9, 12, 15). -/

namespace Sys2Proof.Laws

open Sys2Proof.Machine Sys2Proof.Safety

/-! ### The cause of a discard (O37) -/

/-- A discard whose cause window is still open when a Module-fatal code has started the fatal path (R342, R359). -/
def fatalWhileWindowOpen : State := { State.reset with
  step := { phase := .discarding, current := ⟨1, 0, 0, 0, [128]⟩, expected := 1 }
  arbiter := {
    latched := [⟨0x6003, ⟨0xFFF, 0⟩, 900⟩]
    windowOpen := true
    fatal := some 0x7001 } }

/-- On the fatal path the window is left open: CAUSE_WINDOW_CLOSE chooses no cause there. -/
theorem causeWindowClose_fatal {s : State} (hfatal : s.arbiter.fatal.isNone = false) :
    exec .causeWindowClose s = .next s :=
  if_neg fun ⟨_, _, h⟩ => Bool.false_ne_true (hfatal.symm.trans h)

/-- Refutes O37: its second clause has no premise that the fatal path has not begun, and there the window stays open. -/
theorem not_causeChosen : ¬ Obligations.CauseChosen := by
  unfold Obligations.CauseChosen
  rintro ⟨-, hclose, -⟩
  have hexec := hclose fatalWhileWindowOpen rfl rfl
  rw [causeWindowClose_fatal rfl] at hexec
  have hopen : true = false := congrArg (fun s : State => s.arbiter.windowOpen) (Host.Outcome.next.inj hexec)
  exact absurd hopen (by decide)

/-! ### The sum of blocks (O42) -/

/-- Reading a key just stored, whatever the table: a value other than the default is found. -/
theorem smGet_smPut_ne {α : Type} [DecidableEq α] {d v : α} {k : Nat} (hv : v ≠ d) : ∀ m : SMap α, smGet d (smPut d k v m) k = v
  | [] => by simp [smPut, smGet, hv]
  | (a, w) :: r => by
    unfold smPut
    rw [if_neg hv, if_neg hv]
    split
    · simp [smGet]
    · split
      · simp [smGet]
      · next hlt hne => simp [smGet, hlt, hne, smGet_smPut_ne hv r]

/-- What a contribution does to the accumulator of its entry (R222, R226). -/
def SumAcc.addTo (a : SumAcc) (b : Block) : SumAcc :=
  { a with
    sums := (List.range 256).foldl (fun t i => smUpd 0 i (· + b.elem i) t) a.sums
    nf := min (a.nf + b.nf.toNat) 65535
    ovf := a.ovf || b.ovf
    started := true
    got := if b.isLate then a.got else smUpd 0 b.bitmapIndex.toNat (· + 1) a.got
    lateGot := if b.isLate then smUpd 0 b.bitmapIndex.toNat (· + 1) a.lateGot else a.lateGot }

theorem accOf_addBlock (s : State) (pb e k : Nat) (b : Block) :
    accOf (pbOf (s.addBlock pb e k b) pb) e = SumAcc.addTo (accOf (pbOf s pb) e) b := by
  have hacc : SumAcc.addTo (accOf (pbOf s pb) e) b ≠ {} := fun h => Bool.false_ne_true (congrArg SumAcc.started h).symm
  have haccs : smPut {} e (SumAcc.addTo (accOf (pbOf s pb) e) b) (pbOf s pb).accs ≠ [] := fun h => by
    have hget := smGet_smPut_ne (k := e) hacc (pbOf s pb).accs
    rw [h] at hget
    exact hacc hget.symm
  have hpb : pbOf (s.addBlock pb e k b) pb = { pbOf s pb with
      accs := smPut {} e (SumAcc.addTo (accOf (pbOf s pb) e) b) (pbOf s pb).accs } :=
    smGet_smPut_ne (fun h => haccs (congrArg PbState.accs h)) _
  rw [hpb]
  exact smGet_smPut_ne hacc _

theorem accOf_foldl_addBlock (pb e : Nat) (bs : List (Nat × Block)) : ∀ s : State,
    accOf (pbOf (bs.foldl (fun s x => s.addBlock pb e x.1 x.2) s) pb) e =
      bs.foldl (fun a x => SumAcc.addTo a x.2) (accOf (pbOf s pb) e) := by
  induction bs with
  | nil => exact fun _ => rfl
  | cons x bs ih =>
    intro s
    rw [List.foldl_cons, List.foldl_cons, ih, accOf_addBlock]

/-- Adding a value at each key below a bound. -/
theorem smGet_foldl_add (f : Nat → Int) (n : Nat) {m : SMap Int} (hm : smWf 0 0 m = true) :
    smWf 0 0 ((List.range n).foldl (fun t i => smUpd 0 i (· + f i) t) m) = true ∧
    ∀ i, smGet 0 ((List.range n).foldl (fun t i => smUpd 0 i (· + f i) t) m) i = smGet 0 m i + if i < n then f i else 0 := by
  induction n with
  | zero => exact ⟨hm, fun i => by simp⟩
  | succ n ih =>
    obtain ⟨hwf, hget⟩ := ih
    rw [List.range_succ, List.foldl_append, List.foldl_cons, List.foldl_nil]
    refine ⟨smUpd_wf (Nat.zero_le n) hwf, fun i => ?_⟩
    by_cases hi : i = n
    · subst hi
      rw [smUpd, smGet_smPut_same hwf, hget, if_neg (Nat.lt_irrefl i), if_pos (Nat.lt_succ_self i), add_zero]
    · rw [smUpd, smGet_smPut_other hi hwf, hget]
      exact congrArg _ (if_congr (by omega) rfl rfl)

/-- What an accumulator holds after a list of contributions. -/
theorem foldl_addTo (bs : List (Nat × Block)) : ∀ {a : SumAcc}, smWf 0 0 a.sums = true → smWf 0 0 a.got = true → a.nf ≤ 65535 →
    let c := bs.foldl (fun a x => SumAcc.addTo a x.2) a
    (∀ i, i < 256 → smGet 0 c.sums i = smGet 0 a.sums i + (bs.map (fun x => x.2.elem i)).sum) ∧
    c.nf = min (a.nf + (bs.map (fun x => x.2.nf.toNat)).sum) 65535 ∧
    c.ovf = (a.ovf || bs.any (fun x => x.2.ovf)) ∧
    ∀ m, smGet 0 c.got m = smGet 0 a.got m + (bs.filter (fun x => !x.2.isLate && x.2.bitmapIndex.toNat == m)).length := by
  induction bs with
  | nil => exact fun _ _ hnf => ⟨fun i _ => by simp, by simpa using hnf, by simp, fun m => by simp⟩
  | cons x bs ih =>
    intro a hsums hgot hnf
    obtain ⟨hswf, hsget⟩ := smGet_foldl_add (fun i => x.2.elem i) 256 hsums
    have hgwf : smWf 0 0 (SumAcc.addTo a x.2).got = true := by
      unfold SumAcc.addTo
      dsimp only
      split
      · exact hgot
      · exact smUpd_wf (Nat.zero_le _) hgot
    have hgget (m : Nat) : smGet 0 (SumAcc.addTo a x.2).got m =
        smGet 0 a.got m + if (!x.2.isLate && x.2.bitmapIndex.toNat == m) = true then 1 else 0 := by
      unfold SumAcc.addTo
      dsimp only
      cases x.2.isLate with
      | true => simp
      | false =>
        by_cases hm : x.2.bitmapIndex.toNat = m
        · subst hm
          simp [smUpd, smGet_smPut_same hgot]
        · simp [smUpd, smGet_smPut_other (Ne.symm hm) hgot, hm]
    have hnf' : (SumAcc.addTo a x.2).nf ≤ 65535 := by
      unfold SumAcc.addTo
      exact Nat.min_le_right _ _
    have hswf' : smWf 0 0 (SumAcc.addTo a x.2).sums = true := by
      unfold SumAcc.addTo
      dsimp only
      exact hswf
    obtain ⟨hs, hn, ho, hg⟩ := ih (a := SumAcc.addTo a x.2) hswf' hgwf hnf'
    refine ⟨fun i hi => ?_, ?_, ?_, fun m => ?_⟩
    · have hone : smGet 0 (SumAcc.addTo a x.2).sums i = smGet 0 a.sums i + x.2.elem i := by
        unfold SumAcc.addTo
        rw [hsget, if_pos hi]
      rw [List.foldl_cons, hs i hi, List.map_cons, List.sum_cons, hone, add_assoc]
    · rw [List.foldl_cons, hn, List.map_cons, List.sum_cons]
      change min (min (a.nf + x.2.nf.toNat) 65535 + _) 65535 = _
      omega
    · rw [List.foldl_cons, ho, List.any_cons, ← Bool.or_assoc]
      rfl
    · rw [List.foldl_cons, hg m, hgget m, List.filter_cons]
      split
      · rw [List.length_cons]
        omega
      · omega

/-- Settles O42, by induction on the list of contributions; a sum over a list does not depend on its order. -/
theorem sumsCommute : Obligations.SumsCommute := by
  unfold Obligations.SumsCommute
  intro s pb e bs hempty _ after
  have hafter (l : List (Nat × Block)) := foldl_addTo l (a := {}) rfl rfl (by decide)
  have hacc (l : List (Nat × Block)) : after l = l.foldl (fun a x => SumAcc.addTo a x.2) {} :=
    hempty ▸ accOf_foldl_addBlock pb e l s
  have hsum (l : List (Nat × Block)) : (∀ i, i < 256 → smGet 0 (after l).sums i = (l.map (fun x => x.2.elem i)).sum) ∧
      (after l).nf = min (l.map (fun x => x.2.nf.toNat)).sum 65535 ∧ (after l).ovf = l.any (fun x => x.2.ovf) ∧
      ∀ m, smGet 0 (after l).got m = (l.filter (fun x => !x.2.isLate && x.2.bitmapIndex.toNat == m)).length := by
    rw [hacc]
    obtain ⟨hs, hn, ho, hg⟩ := hafter l
    exact ⟨fun i hi => (hs i hi).trans (zero_add _), hn.trans (by rw [zero_add]), ho.trans (Bool.false_or _),
      fun m => (hg m).trans (Nat.zero_add _)⟩
  obtain ⟨hs, hn, ho, hg⟩ := hsum bs
  refine ⟨hs, hn, ho, hg, fun other hperm => ?_⟩
  obtain ⟨hs', hn', ho', -⟩ := hsum other
  refine ⟨fun i hi => ?_, ?_, ?_⟩
  · rw [hs i hi, hs' i hi, (hperm.map _).sum_eq]
  · rw [hn, hn', (hperm.map _).sum_eq]
  · rw [ho, ho', Bool.eq_iff_iff, List.any_eq_true, List.any_eq_true]
    exact exists_congr fun x => and_congr_left fun _ => hperm.symm.mem_iff

/-! ### Operations at a head-end (O32) -/

section
variable {s : State} {m : SyncMsg} {i j : Nat}

/-- An operation that R279 does not refuse is applied once its queue has made progress (R293). -/
theorem atHeadEnd_applied {code : Nat} (h : syncInvalid s m code = false) (f : State → State) :
    s.atHeadEnd m code f = f (s.progress (headEndQueue m.syncId.toNat)) := by
  rw [State.atHeadEnd, h, if_neg Bool.false_ne_true]

theorem setValue_of_lt (o : SyncObj) {v : Nat} (h : v < 2 ^ 48) : o.setValue v = { o with state := BitVec.ofNat 64 v } := by
  rw [SyncObj.setValue, Nat.mod_eq_of_lt h]

theorem value_ofNat {o : SyncObj} {v : Nat} (h : v < 2 ^ 48) (hstate : o.state = BitVec.ofNat 64 v) : o.value = v := by
  have hv : o.state.toNat = v := by
    rw [hstate, BitVec.toNat_ofNat]
    omega
  rw [syncObj_value (hv ▸ h), hv]

/-- An ADD below 2^48: the object takes its sum and signaller, and the waiters that the sum satisfies are woken. -/
theorem syncAdd_eq (hvalid : syncInvalid s m 1 = false) (hfenced : (s.obj m.syncId.toNat).kind = 3 → 128 ≤ m.op.toNat)
    (w : smWf {} 0 s.sync.objs = true) {v : Nat} (hv : (s.obj m.syncId.toNat).value + m.operand.toNat = v) (hlt : v < 2 ^ 48) :
    let u := s.setObj m.syncId.toNat { s.obj m.syncId.toNat with
      state := BitVec.ofNat 64 v
      last := signaller m.srcKind m.src m.op.toNat m.stepLow }
    s.syncAdd m = { u with
      sync := { u.sync with waiters := s.sync.waiters.filter (fun x => !satisfiedBy m.syncId.toNat v x) }
      rillOut := ((s.sync.waiters.filter (satisfiedBy m.syncId.toNat v)).map
        (fun x => wakeMsg x.site m.syncId.toNat v false)).reverse ++ s.rillOut } := by
  intro u
  have hvalue : (u.obj m.syncId.toNat).value = v := by
    rw [obj_setObj_same w]
    exact value_ofNat hlt rfl
  have hwork : s.syncAdd m = u.wakeSatisfied m.syncId.toNat := by
    unfold State.syncAdd
    dsimp only
    rw [if_neg (by simp [hvalid]), if_neg fun h => absurd (hfenced h.1) (Nat.not_le.mpr h.2), hv,
      if_neg (Nat.not_le.mpr hlt), setValue_of_lt _ hlt]
  rw [hwork, State.wakeSatisfied, hvalue]
  exact wakeWhere_eq obj_of_satisfiedBy u v

theorem syncAdd_overflow (hvalid : syncInvalid s m 1 = false) (hfenced : (s.obj m.syncId.toNat).kind = 3 → 128 ≤ m.op.toNat)
    (hlt : 2 ^ 48 ≤ (s.obj m.syncId.toNat).value + m.operand.toNat) : s.syncAdd m = s.syncFault m 0x6003 := by
  unfold State.syncAdd
  dsimp only
  rw [if_neg (by simp [hvalid]), if_neg fun h => absurd (hfenced h.1) (Nat.not_le.mpr h.2), if_pos hlt]

end

/-- Settles O32. -/
theorem syncCounters : Obligations.SyncCounters := by
  unfold Obligations.SyncCounters
  intro m s ⟨_, _, _, _, hobjs, _⟩ i g o v woken
  have hgobjs : smWf {} 0 g.sync.objs = true := hobjs
  have hmsgs : woken.map (fun w => wakeMsg w.site w.obj v false) =
      (s.sync.waiters.filter (satisfiedBy i v)).map (fun w => wakeMsg w.site i v false) :=
    List.map_congr_left fun w hw => by rw [obj_of_satisfiedBy w (List.mem_filter.mp hw).2]
  refine ⟨fun hvalid hfenced hlt => ?_, fun hvalid hfenced hge hd => ?_, fun hvalid hwaits hreached => ?_,
    fun hvalid hwaits hshort => ?_⟩
  · have hadd := syncAdd_eq (s := g) hvalid hfenced hgobjs (v := v) rfl hlt
    refine ⟨_, congrArg Host.Outcome.next ((atHeadEnd_applied hvalid _).trans hadd), obj_setObj_same hgobjs,
      fun j hj => obj_setObj_other hgobjs hj, rfl, ?_⟩
    rw [hmsgs]
    rfl
  · have hfault := syncAdd_overflow (s := g) hvalid hfenced hge
    have hseverity : severityOf g.step.inProgress ⟨if m.srcKind = 0 then m.src.setWidth 12 else 0xFFF, 0⟩ m.syncId.toNat 0x6003 = 3 := by
      rw [show g.step.inProgress = true from hd.1]
      rfl
    obtain ⟨hdiscards, hframe⟩ := raise_discard (i := noCmd) (e := 0) hseverity hd (by decide) (by decide)
    exact ⟨_, congrArg Host.Outcome.next ((atHeadEnd_applied hvalid _).trans hfault), hdiscards, hframe⟩
  · refine congrArg Host.Outcome.next ((atHeadEnd_applied hvalid _).trans ?_)
    change (if (syncInvalid s m 3 || s.alreadyWaits m) = true then _ else if o.target m.operand.toNat ≤ o.value then _ else _) = _
    rw [hvalid, hwaits, if_neg (by decide), if_pos hreached]
    rfl
  · refine congrArg Host.Outcome.next ((atHeadEnd_applied hvalid _).trans ?_)
    change (if (syncInvalid s m 3 || s.alreadyWaits m) = true then _ else if o.target m.operand.toNat ≤ o.value then _ else _) = _
    rw [hvalid, hwaits, if_neg (by decide), if_neg (Nat.not_le.mpr hshort)]
    rfl

/-! ### A barrier's state word (Table 12-2) -/

section
variable {o : SyncObj} {round arrived leaving loc : Nat}

theorem barrierWord_toNat : (barrierWord round arrived leaving loc).toNat =
    round % 65536 + 2 ^ 16 * (arrived % 8192) + 2 ^ 32 * (leaving % 8192) + 2 ^ 45 * (loc % 8192) := by
  rw [barrierWord, BitVec.toNat_ofNat]
  omega

theorem round_of_word (h : o.state = barrierWord round arrived leaving loc) : o.round = round % 65536 := by
  rw [SyncObj.round, h, barrierWord_toNat, bitsOf, Nat.shiftRight_eq_div_pow]
  omega

theorem arrived_of_word (h : o.state = barrierWord round arrived leaving loc) : o.arrived = arrived % 8192 := by
  rw [SyncObj.arrived, h, barrierWord_toNat, bitsOf, Nat.shiftRight_eq_div_pow]
  omega

theorem leaving_of_word (h : o.state = barrierWord round arrived leaving loc) : o.leaving = leaving % 8192 := by
  rw [SyncObj.leaving, h, barrierWord_toNat, bitsOf, Nat.shiftRight_eq_div_pow]
  omega

theorem localArrivals_of_word (h : o.state = barrierWord round arrived leaving loc) : o.localArrivals = loc % 8192 := by
  rw [SyncObj.localArrivals, h, barrierWord_toNat, bitsOf, Nat.shiftRight_eq_div_pow]
  omega

theorem round_lt (o : SyncObj) : o.round < 65536 := Nat.mod_lt _ (by decide)

theorem arrived_lt (o : SyncObj) : o.arrived < 8192 := Nat.mod_lt _ (by decide)

theorem leaving_lt (o : SyncObj) : o.leaving < 8192 := Nat.mod_lt _ (by decide)

theorem localArrivals_lt (o : SyncObj) : o.localArrivals < 8192 := Nat.mod_lt _ (by decide)

theorem participants_le (o : SyncObj) : o.participants ≤ 4096 := Nat.succ_le_of_lt (Nat.mod_lt _ (by decide : 0 < 2 ^ (19 + 1 - 8)))

end

/-! ### Arrivals (O33) -/

/-- A waiter that would be taken from the table at once leaves it as though it had not joined. -/
theorem filter_addWaiter {w : Waiter} {p : Waiter → Bool} (h : p w = false) : ∀ l, (addWaiter w l).filter p = l.filter p
  | [] => by simp [addWaiter, h]
  | x :: r => by
    unfold addWaiter
    split
    · rw [List.filter_cons, h, if_neg Bool.false_ne_true]
    · rw [List.filter_cons, List.filter_cons, filter_addWaiter h r]

/-- A barrier with one arrival more in its filling round. -/
def arrivedOnce (o : SyncObj) (m : SyncMsg) (waits : Bool) : SyncObj := { o with
  state := barrierWord o.round (o.arrived + 1) o.leaving
    (if o.isGate && m.srcKind != 1 then o.localArrivals + 1 else o.localArrivals)
  last := signaller m.srcKind m.src m.op.toNat m.stepLow
  waitArrivals := if waits then o.waitArrivals + 1 else o.waitArrivals }

/-- The waiter table with an arrival that waits. -/
def waitersAfter (s : State) (m : SyncMsg) (waits : Bool) : List Waiter :=
  if waits then addWaiter ⟨m.src.setWidth 12, 4, m.syncId.toNat, ((s.obj m.syncId.toNat).round + 1) % 65536⟩ s.sync.waiters
  else s.sync.waiters

/-- An arrival counted into the round, before the round may complete. -/
def counted (s : State) (m : SyncMsg) (waits : Bool) : State :=
  let u := s.setObj m.syncId.toNat (arrivedOnce (s.obj m.syncId.toNat) m waits)
  { u with sync := { u.sync with waiters := waitersAfter s m waits } }

section
variable {s : State} {m : SyncMsg} {waits : Bool}

theorem objsWf_counted (w : smWf {} 0 s.sync.objs = true) : smWf {} 0 (counted s m waits).sync.objs = true :=
  objsWf_setObj w

/-- The wakes of the round that this arrival completes: its own waiter is woken with the others. -/
theorem roundWoken_counted (s : State) (m : SyncMsg) (waits : Bool) :
    let i := m.syncId.toNat
    let r := (((counted s m waits).obj i).round + 1) % 65536
    roundWoken (counted s m waits) i = { s with
      sync := { s.sync with
        objs := (roundWoken (counted s m waits) i).sync.objs
        waiters := s.sync.waiters.filter (fun w => !waitsRound i w) }
      rillOut := (((waitersAfter s m waits).filter (waitsRound i)).map (fun w => wakeMsg w.site i r false)).reverse ++ s.rillOut } := by
  intro i r
  have hleft : (waitersAfter s m waits).filter (fun w => !waitsRound i w) = s.sync.waiters.filter (fun w => !waitsRound i w) := by
    cases waits with
    | true => exact filter_addWaiter (by simp [waitsRound, i]) _
    | false => rfl
  rw [← hleft]
  rfl

theorem countArrival_eq (h : (s.obj m.syncId.toNat).arrived + 1 + (s.obj m.syncId.toNat).leaving ≤
      (s.obj m.syncId.toNat).participants) :
    s.countArrival m waits = if (s.obj m.syncId.toNat).participants ≤ (s.obj m.syncId.toNat).arrived + 1 then
      (counted s m waits).completeRound m.syncId.toNat else counted s m waits := by
  unfold State.countArrival
  dsimp only
  rw [if_neg (Nat.not_lt.mpr h)]
  cases waits <;> rfl

theorem countArrival_overrun (h : (s.obj m.syncId.toNat).participants <
      (s.obj m.syncId.toNat).arrived + 1 + (s.obj m.syncId.toNat).leaving) :
    s.countArrival m waits =
      (s.setObj m.syncId.toNat { s.obj m.syncId.toNat with overrun := true }).syncFault m 0x6004 := if_pos h

/-- An arrival too many discards the step (R284). -/
theorem overrun_discards (hd : CanDiscard s) :
    let u := s.setObj m.syncId.toNat { s.obj m.syncId.toNat with overrun := true }
    Discards s (u.syncFault m 0x6004) 0x6004 ⟨if m.srcKind = 0 then m.src.setWidth 12 else 0xFFF, 0⟩ ∧
      (u.syncFault m 0x6004).sync = u.sync := by
  intro u
  have hseverity : severityOf u.step.inProgress ⟨if m.srcKind = 0 then m.src.setWidth 12 else 0xFFF, 0⟩ m.syncId.toNat 0x6004 = 3 := by
    rw [show u.step.inProgress = true from hd.1]
    rfl
  obtain ⟨hdiscards, -⟩ := raise_discard (i := noCmd) (e := 0) hseverity hd (by decide) (by decide)
  exact ⟨hdiscards, State.raise_sync ..⟩

theorem syncArrive_valid (hvalid : syncInvalid s m (if waits then 4 else 2) = false) (hwaits : waits = true → s.alreadyWaits m = false) :
    (syncInvalid s m (if waits then 4 else 2) || (waits && s.alreadyWaits m)) = false := by
  cases waits with
  | true => rw [hvalid, hwaits rfl]; rfl
  | false => rw [hvalid]; rfl

/-- An arrival of the filling round, or one at a barrier that is no gate, counts. -/
theorem syncArrive_counts (hvalid : syncInvalid s m (if waits then 4 else 2) = false) (hwaits : waits = true → s.alreadyWaits m = false)
    (hrealigns : (s.obj m.syncId.toNat).realigns = true → s.realignStep = true)
    (hgate : (s.obj m.syncId.toNat).isGate = false ∨
      ((s.obj m.syncId.toNat).gateSet = true ∧ m.stepLow = (s.obj m.syncId.toNat).gateStep + 1)) :
    s.syncArrive m waits = s.countArrival m waits := by
  unfold State.syncArrive
  dsimp only
  rw [syncArrive_valid hvalid hwaits, if_neg Bool.false_ne_true]
  have hnow : ¬ ((s.obj m.syncId.toNat).realigns && !s.realignStep) = true := by
    cases hr : (s.obj m.syncId.toNat).realigns with
    | true => rw [hrealigns hr]; decide
    | false => exact Bool.false_ne_true
  rw [if_neg hnow]
  obtain hno | ⟨hset, hstep⟩ := hgate
  · rw [hno, if_neg Bool.false_ne_true]
  · split
    · rw [hset, hstep, BitVec.add_comm, BitVec.add_sub_cancel]
      exact if_pos (by decide)
    · rfl

theorem syncArrive_notNow (hvalid : syncInvalid s m (if waits then 4 else 2) = false) (hwaits : waits = true → s.alreadyWaits m = false)
    (hrealigns : (s.obj m.syncId.toNat).realigns = true) (hnot : s.realignStep = false) :
    s.syncArrive m waits = s.uncounted m waits := by
  unfold State.syncArrive
  dsimp only
  rw [syncArrive_valid hvalid hwaits, if_neg Bool.false_ne_true, hrealigns, hnot]
  rfl

theorem syncArrive_pastGate (hvalid : syncInvalid s m (if waits then 4 else 2) = false) (hwaits : waits = true → s.alreadyWaits m = false)
    (hrealigns : (s.obj m.syncId.toNat).realigns = false) (hgate : (s.obj m.syncId.toNat).isGate = true)
    (hset : (s.obj m.syncId.toNat).gateSet = true) (hpast : m.stepLow = (s.obj m.syncId.toNat).gateStep ∨
      2 ^ 31 ≤ (m.stepLow - (s.obj m.syncId.toNat).gateStep).toNat) :
    s.syncArrive m waits = s.uncounted m waits := by
  have hd : (m.stepLow - (s.obj m.syncId.toNat).gateStep).toNat = 0 ∨
      2 ^ 31 ≤ (m.stepLow - (s.obj m.syncId.toNat).gateStep).toNat :=
    hpast.imp (fun h => by rw [h, BitVec.sub_self]; rfl) id
  unfold State.syncArrive
  dsimp only
  rw [syncArrive_valid hvalid hwaits, if_neg Bool.false_ne_true, hrealigns, hgate, hset, Bool.false_and, if_neg Bool.false_ne_true, if_pos rfl, if_pos rfl,
    if_neg (by omega), if_pos hd]

/-- ARRIVE and ARRIVE_WAIT. -/
theorem exec_arrive (hvalid : syncInvalid s m (if waits then 4 else 2) = false) :
    exec (if waits then Instr.arriveWait m else .arrive m) s =
      .next ((s.progress (headEndQueue m.syncId.toNat)).syncArrive m waits) := by
  cases waits <;> exact congrArg Host.Outcome.next (atHeadEnd_applied hvalid _)

theorem uncounted_eq (s : State) (m : SyncMsg) (waits : Bool) : s.uncounted m waits = { s with
    rillOut := if waits then wakeMsg (m.src.setWidth 12) m.syncId.toNat (s.obj m.syncId.toNat).round true :: s.rillOut
      else s.rillOut } := by
  cases waits <;> rfl

end

/-- Settles O33. -/
theorem syncBarriers : Obligations.SyncBarriers := by
  unfold Obligations.SyncBarriers
  intro m waits s ⟨_, _, _, _, hobjs, _⟩ i g o c valid woken uncounted
  have hgobjs : smWf {} 0 g.sync.objs = true := hobjs
  refine ⟨fun ⟨hvalid, hwaits⟩ hrealigns hgate hroom => ?_, fun ⟨hvalid, hwaits⟩ hrealigns hgate hover hd => ?_,
    fun ⟨hvalid, hwaits⟩ hrealigns hnot => ?_, fun ⟨hvalid, hwaits⟩ hrealigns hgate hset hpast => ?_,
    fun hvalid hsrc hleaving => ?_⟩
  · have hexec : exec c s = .next (g.countArrival m waits) := (exec_arrive hvalid).trans
      (congrArg Host.Outcome.next (syncArrive_counts (s := g) hvalid hwaits hrealigns hgate))
    rw [hexec, countArrival_eq (s := g) hroom]
    have hobj : (counted g m waits).obj i = arrivedOnce o m waits := obj_setObj_same hgobjs
    have hother (j : Nat) (hj : j ≠ i) : (counted g m waits).obj j = s.obj j := obj_setObj_other hgobjs hj
    have hparticipants := participants_le o
    refine ⟨fun hfew => ?_, fun hfull hplain => ?_⟩
    · have hnot : ¬ (g.obj m.syncId.toNat).participants ≤ (g.obj m.syncId.toNat).arrived + 1 := Nat.not_le.mpr hfew
      rw [if_neg hnot]
      have hstate : ((counted g m waits).obj i).state = (arrivedOnce o m waits).state := congrArg SyncObj.state hobj
      have hround := round_lt o
      have hleaving := leaving_lt o
      have hlocal := localArrivals_lt o
      refine ⟨_, rfl, (round_of_word hstate).trans (Nat.mod_eq_of_lt hround),
        (arrived_of_word hstate).trans (Nat.mod_eq_of_lt (by omega)), (leaving_of_word hstate).trans (Nat.mod_eq_of_lt hleaving),
        (localArrivals_of_word hstate).trans ?_, ?_, hother, rfl⟩
      · cases o.isGate <;> cases hk : (m.srcKind != 1) <;> simp_all [Nat.mod_eq_of_lt hlocal]
      · rw [hobj]
        rfl
    · have hmine : ((counted g m waits).obj i).round = o.round :=
        (round_of_word (congrArg SyncObj.state hobj)).trans (Nat.mod_eq_of_lt (round_lt o))
      have hwoken := obj_roundWoken_same (i := i) (objsWf_counted (m := m) (waits := waits) hgobjs)
      have hword := congrArg SyncObj.state hwoken
      have hwaiters : waitersAfter g m waits = if waits then
          addWaiter ⟨m.src.setWidth 12, 4, i, (o.round + 1) % 65536⟩ s.sync.waiters else s.sync.waiters := rfl
      have hlast : (g.obj m.syncId.toNat).participants ≤ (g.obj m.syncId.toNat).arrived + 1 := hfull.ge
      rw [if_pos hlast, completeRound_eq,
        if_neg (by rw [hobj]; exact fun h => Bool.false_ne_true (hplain.symm.trans h))]
      refine ⟨_, rfl, ?_, (arrived_of_word hword), (localArrivals_of_word hword), (leaving_of_word hword).trans ?_, ?_, fun hg => ?_,
        fun j hj => (obj_roundWoken_other (objsWf_counted hgobjs) hj).trans (hother j hj), ?_⟩
      · rw [round_of_word hword, hmine, Nat.mod_mod]
      · rw [hobj]
        rfl
      · rw [hwoken]
        rfl
      · rw [hwoken, hobj]
        have hset : o.gateSet = true := by
          obtain hno | ⟨hset, -⟩ := hgate
          · exact absurd (hg.symm.trans hno) (by decide)
          · exact hset
        change (if o.isGate then (if o.gateSet then o.gateStep + 1 else _) else o.gateStep) = _
        rw [if_pos hg, if_pos hset]
      · have hmsgs : woken.map (fun w => wakeMsg w.site w.obj ((o.round + 1) % 65536) false) =
            woken.map (fun w => wakeMsg w.site i ((o.round + 1) % 65536) false) :=
          List.map_congr_left fun w hw => by rw [obj_of_waitsRound w (List.mem_filter.mp hw).2]
        rw [hmsgs, roundWoken_counted, hmine]
        rfl
  · have hexec : exec c s = .next (g.countArrival m waits) := (exec_arrive hvalid).trans
      (congrArg Host.Outcome.next (syncArrive_counts (s := g) hvalid hwaits hrealigns hgate))
    rw [hexec, countArrival_overrun (s := g) hover]
    obtain ⟨hdiscards, hsync⟩ := overrun_discards (s := g) (m := m) hd
    exact ⟨_, rfl, (obj_congr (congrArg Sync.objs hsync)).trans (obj_setObj_same hgobjs),
      fun j hj => (obj_congr (congrArg Sync.objs hsync)).trans (obj_setObj_other hgobjs hj), hdiscards⟩
  · rw [exec_arrive hvalid, syncArrive_notNow (s := g) hvalid hwaits hrealigns hnot, uncounted_eq]
    rfl
  · rw [exec_arrive hvalid, syncArrive_pastGate (s := g) hvalid hwaits hrealigns hgate hset hpast, uncounted_eq]
    rfl
  · have hwork : g.syncLeave m = g.setObj i { o with
        state := barrierWord o.round o.arrived (o.leaving - 1) o.localArrivals } :=
      if_neg (c := (syncInvalid s m 5 || o.leaving == 0) = true) (by rw [hvalid]; simpa using hleaving)
    have hobj := obj_setObj_same (i := i) (o := { o with
      state := barrierWord o.round o.arrived (o.leaving - 1) o.localArrivals }) hgobjs
    have hword := congrArg SyncObj.state hobj
    have hround := round_lt o
    have harrived := arrived_lt o
    have hleft := leaving_lt o
    refine ⟨_, congrArg Host.Outcome.next ((atHeadEnd_applied hvalid _).trans hwork),
      (leaving_of_word hword).trans (Nat.mod_eq_of_lt (by omega)), (round_of_word hword).trans (Nat.mod_eq_of_lt hround),
      (arrived_of_word hword).trans (Nat.mod_eq_of_lt harrived), ?_, fun j hj => obj_setObj_other hgobjs hj, rfl⟩
    rw [hobj]

/-! ### Messages that reach a tile or come back (R68, R70) -/

section
variable {s : State} {p : Nat} {m : RillMsg}

/-- A trace record changes the trace only. -/
theorem traceAt_eq (s : State) (kind : Nat) (keep : Bool) (site : BitVec 12) (cid : BitVec 64) (data : Nat) :
    ∃ tr, s.traceAt kind keep site cid data = { s with trace := tr } :=
  ⟨(s.traceAt kind keep site cid data).trace, State.eq_of_fields (by simp)⟩

theorem dest_toNat (hp : p < 2688) : (BitVec.ofNat 12 p).toNat = p := by
  rw [BitVec.toNat_ofNat]
  exact Nat.mod_eq_of_lt (by omega)

theorem rillCut_of_lt (r : Repair) (hp : p < 2688) : rillCut r p = (fieldState r (fieldOfPhys p) == 2) := by
  rw [rillCut, decide_eq_true (p := p < physicalTiles) hp, Bool.true_and]

/-- A message to a tile of a field that is not dark is delivered. -/
theorem rillAt_tile (hp : p < 2688) (hlit : fieldState s.repair (fieldOfPhys p) ≠ 2) (hdest : m.dest = BitVec.ofNat 12 p)
    (htype : rillTypes.contains m.type.toNat = true) (f : State → State) : s.rillAt m f = f s := by
  have hknown : rillDest p = true := by simp [rillDest, physicalTiles, hp]
  have hplain : (p != 0xFFF) = true := bne_iff_ne.mpr (by omega)
  refine if_pos ?_
  rw [rillDelivers, hdest, dest_toNat hp, htype, hknown, rillCut_of_lt _ hp, beq_false_of_ne hlit, hplain]
  rfl

/-- A message to a tile of a dark field comes back. -/
theorem rillAt_dark (hp : p < 2688) (hdark : fieldState s.repair (fieldOfPhys p) = 2) (hdest : m.dest = BitVec.ofNat 12 p)
    (f : State → State) : s.rillAt m f = s.bounce m := by
  refine if_neg ?_
  rw [rillDelivers, hdest, dest_toNat hp, rillCut_of_lt _ hp, hdark, beq_self_eq_true, Bool.not_true, Bool.and_false, Bool.false_and]
  exact Bool.false_ne_true

end

/-! ### Wakes and the deadlock detector (O34) -/

section
variable {s : State} {tile obj : Nat}

/-- A tile that waits on the object issues again, and answers a counted barrier wake with LEAVE (R283). -/
theorem wakeTile_eq (hw : (tileOf s tile).waiting = some obj) (uncounted : Bool) : ∃ tr, s.wakeTile tile obj uncounted = { s with
    tiles := (s.updTile tile (fun t => { t with waiting := none })).tiles
    trace := tr
    rillOut := if (s.obj obj).kind = 2 ∧ uncounted = false then
      syncMsg (BitVec.ofNat 12 tile) obj 5 (low32 s.currentStep) 0 :: s.rillOut else s.rillOut } := by
  obtain ⟨tr, htr⟩ := traceAt_eq (s.updTile tile (fun t => { t with waiting := none })) 7 false (BitVec.ofNat 12 tile) noCmd (obj + 2 ^ 24)
  refine ⟨tr, ?_⟩
  rw [State.wakeTile, if_pos hw, htr]
  by_cases hleave : (s.obj obj).kind = 2 ∧ uncounted = false
  · have hcond : ((s.obj obj).kind == 2 && !uncounted) = true := by rw [hleave.1, hleave.2]; rfl
    dsimp only
    rw [if_pos hcond, if_pos hleave]
    rfl
  · have hcond : ¬ ((s.obj obj).kind == 2 && !uncounted) = true := by simpa using hleave
    dsimp only
    rw [if_neg hcond, if_neg hleave]
    rfl

theorem execSyncWake_of_lt (ht : tile < 2688) (value : BitVec 64) (uncounted : Bool) :
    exec (.syncWake tile obj value uncounted) s =
      .next (s.rillAt (wakeMsg (BitVec.ofNat 12 tile) obj value.toNat uncounted) (·.wakeTile tile obj uncounted)) :=
  if_neg (Nat.not_le.mpr ht)

theorem deadlock_fires (harmed : s.sync.armed = true) (hwaits : s.somethingWaits = true) :
    exec (.deadlock (BitVec.allOnes 101)) s = .next { s with
      sync := { s.sync with
        dump := some (1, syncDumpBytes s 1 (BitVec.allOnes 101))
        armed := false }
      trace := (s.raise 0x6005 moduleWide).trace
      host := (s.raise 0x6005 moduleWide).host } := by
  have hraise := raise_frame (s := s) (c := 0x6005) (p := moduleWide) (i := noCmd) (d := 0) (e := 0) (n := 2) rfl (by decide)
    (by decide) (by decide)
  refine (if_pos ⟨harmed, rfl, hwaits⟩).trans (congrArg Host.Outcome.next ?_)
  rw [hraise]
  rfl

/-- An operation that R279 refuses is a fault; its head-end's queue makes no progress. -/
theorem syncAdd_refused {m : SyncMsg} (h : syncInvalid s m 1 = true) : s.atHeadEnd m 1 (·.syncAdd m) = s.syncFault m 0x6001 := by
  rw [State.atHeadEnd, h, if_pos rfl]
  exact if_pos h

theorem syncAdd_armed {m : SyncMsg} (h : syncInvalid s m 1 = false) : (s.atHeadEnd m 1 (·.syncAdd m)).sync.armed = true := by
  rw [atHeadEnd_applied h]
  unfold State.syncAdd
  extract_lets i o
  split
  · exact congrArg Sync.armed (State.raise_sync ..)
  split
  · exact congrArg Sync.armed (State.raise_sync ..)
  split
  · exact congrArg Sync.armed (State.raise_sync ..)
  · exact congrArg (fun u : State => u.sync.armed) (wakeWhere_eq (i := i) (fun w hw => obj_of_satisfiedBy w hw) _ _)

end

/-- Settles O34. -/
theorem wakesAndDeadlock : Obligations.WakesAndDeadlock := by
  unfold Obligations.WakesAndDeadlock
  intro s
  refine ⟨fun tile obj v uncounted ht ⟨_, htiles, _⟩ hlit hw => ?_, fun tile obj v uncounted ht hlit hw => ?_,
    fun tile obj v uncounted ht hdark => ?_, fun harmed hwaits => ⟨_, deadlock_fires harmed hwaits, rfl⟩, fun queues hnot => ?_,
    fun m hvalid => ⟨_, rfl, syncAdd_armed hvalid⟩, fun m hinvalid => ?_⟩
  · obtain ⟨tr, hwake⟩ := wakeTile_eq hw uncounted
    refine ⟨_, (execSyncWake_of_lt ht ..).trans (congrArg Host.Outcome.next ((rillAt_tile ht hlit rfl rfl _).trans hwake)),
      (tileOf_congr rfl).trans (tileOf_updTile_same (fun t => { t with waiting := none }) htiles),
      fun p hp => (tileOf_congr rfl).trans (tileOf_updTile_other (fun t => { t with waiting := none }) htiles hp), rfl⟩
  · exact (execSyncWake_of_lt ht ..).trans (congrArg Host.Outcome.next ((rillAt_tile ht hlit rfl rfl _).trans (if_neg hw)))
  · exact ⟨_, (execSyncWake_of_lt ht ..).trans (congrArg Host.Outcome.next (rillAt_dark ht hdark rfl _))⟩
  · refine if_neg fun ⟨harmed, hall, hwaits⟩ => ?_
    obtain h | h | h := hnot
    · exact absurd (h.symm.trans harmed) (by decide)
    · exact absurd (h.symm.trans hwaits) (by decide)
    · exact h hall
  · refine ⟨_, congrArg Host.Outcome.next (syncAdd_refused hinvalid), ?_, ?_⟩
    · exact congrArg Sync.armed (State.raise_sync ..)
    · exact congrArg Sync.objs (State.raise_sync ..)

/-! ### Messages of the Rill (O35) -/

section
variable {s : State} {p : Nat}

/-- Waking an idle module moves its power state and the seam only. -/
theorem wake_eq (s : State) : ∃ w sm, s.wake = { s with
    power := w
    seam := sm } := by
  unfold State.wake State.activate
  split
  · exact ⟨_, _, rfl⟩
  · exact ⟨_, _, rfl⟩

theorem foldl_halt (l : List Nat) (hw : smWf {} 0 s.tiles = true) (q : Nat) :
    tileOf (l.foldl (fun s p => s.updTile p (fun t => { t with halted := true })) s) q =
      if q ∈ l then { tileOf s q with halted := true } else tileOf s q := by
  rw [foldl_updTile_eq]
  exact smGet_foldl_smUpd (f := fun t : Tile => { t with halted := true }) (fun _ => rfl) l hw

theorem mem_rillTiles_all {r : Repair} {q : Nat} : q ∈ rillTiles r 0xFFF ↔ q < 2688 ∧ fieldState r (fieldOfPhys q) ≠ 2 := by
  rw [rillTiles, List.mem_filter, List.mem_filter, List.mem_range]
  refine ⟨fun ⟨⟨hq, _⟩, hcut⟩ => ⟨hq, ?_⟩, fun ⟨hq, hlit⟩ => ⟨⟨hq, by simp⟩, ?_⟩⟩
  · rw [rillCut_of_lt _ hq] at hcut
    simpa using hcut
  · rw [rillCut_of_lt _ hq]
    simpa using hlit

theorem mem_rillTiles_one {r : Repair} (hp : p < 2688) (hlit : fieldState r (fieldOfPhys p) ≠ 2) {q : Nat} :
    q ∈ rillTiles r p ↔ q = p := by
  have hplain : (p == 0xFFF) = false := beq_false_of_ne (by omega)
  rw [rillTiles, List.mem_filter, List.mem_filter, List.mem_range, hplain, Bool.or_false, beq_iff_eq]
  refine ⟨fun ⟨⟨_, hq⟩, _⟩ => hq, fun hq => ⟨⟨hq ▸ hp, hq⟩, ?_⟩⟩
  rw [hq, rillCut_of_lt _ hp]
  simpa using hlit

/-- A HALT to one tile, or to all of them. -/
theorem execHalt_of_lt {d : Nat} (hd : d < 4096) : exec (.halt d) s = .next (s.rillAt (kelletMsg d false 0x48 0 []) (fun s =>
    (rillTiles s.repair d).foldl (fun s p => s.updTile p (fun t => { t with halted := true })) s)) :=
  if_neg (Nat.not_le.mpr hd)

theorem rillAt_broadcast (f : State → State) : s.rillAt (kelletMsg 0xFFF false 0x48 0 []) f = f s := by
  have hcut : rillCut s.repair 0xFFF = false := by simp [rillCut, physicalTiles]
  refine if_pos ?_
  rw [rillDelivers]
  change (_ && _ && !rillCut s.repair 0xFFF && _) = true
  rw [hcut]
  decide

/-! ### Maintenance access (R46, R54) -/

theorem maintAt_live (hp : p < 2688) (hlit : fieldState s.repair (fieldOfPhys p) ≠ 2) (hdead : (tileOf s p).dead = false)
    {type : BitVec 8} (htype : rillTypes.contains type.toNat = true) (tag : BitVec 12) (a : BitVec 40) (f : State → State) :
    s.maintAt p type tag a f = f s.wake := by
  obtain ⟨w, sm, hwake⟩ := wake_eq s
  rw [State.maintAt, hwake, rillAt_tile hp (by exact hlit) rfl htype]
  exact if_neg fun h => Bool.false_ne_true (hdead.symm.trans ((tileOf_congr rfl ▸ rfl : (tileOf s p).dead = _).trans h))

theorem maintAt_dark (hp : p < 2688) (hdark : fieldState s.repair (fieldOfPhys p) = 2) (type : BitVec 8) (tag : BitVec 12)
    (a : BitVec 40) (f : State → State) :
    s.maintAt p type tag a f = s.wake.bounce (kelletMsg p true type tag [a.setWidth 64]) := by
  obtain ⟨w, sm, hwake⟩ := wake_eq s
  rw [State.maintAt, hwake, rillAt_dark hp (by exact hdark) rfl]

/-- A reply of one to 56 bytes is one message. -/
theorem maintReply_one (s : State) (p : Nat) (tag : BitVec 12) {data : Bytes} (h0 : 0 < data.length) (h56 : data.length ≤ 56) :
    s.maintReply p tag data = { s with
      rillOut := ⟨0xF00, BitVec.ofNat 12 p, true, 0x42, tag, toWords ((data.length + 7) / 8) data⟩ :: s.rillOut } := by
  have hparts : (data.length + 55) / 56 = 1 := by omega
  unfold State.maintReply
  dsimp only
  rw [hparts]
  change s.sendRill ⟨0xF00, BitVec.ofNat 12 p, true, 0x42, tag, toWords ((((data.drop 0).take 56).length + 7) / 8)
    ((data.drop 0).take 56)⟩ = _
  rw [List.drop_zero, List.take_of_length_le h56]
  rfl

theorem length_rdBytes (m : List Host.Cell) : ∀ (n a : Nat), (rdBytes m a n).length = n
  | 0, _ => rfl
  | n + 1, a => congrArg (· + 1) (length_rdBytes m n (a + 1))

theorem length_fitTo (n : Nat) (b : Bytes) : (fitTo n b).length = n := by
  rw [fitTo, List.length_take, List.length_append, zeros, List.length_replicate]
  omega

theorem length_dmaRead (s : State) (p a n : Nat) : (dmaRead s p a n).length = n := by
  unfold dmaRead
  split
  · exact length_fitTo ..
  split
  · exact length_fitTo ..
  split
  · rw [registerBytes, List.length_map, List.length_range]
  split
  · rw [slabBytes, List.length_map, List.length_range]
  · exact length_rdBytes ..

/-- Outside the windows, the registers and the slab, the DMA engine reads memory. -/
theorem dmaRead_plain {a n : Nat} (htop : a + n ≤ paletteBase) (hwindow : a + n ≤ 0x1200000 ∨ 0x1280000 ≤ a) :
    dmaRead s p a n = tileRead s p a n := by
  obtain rfl | hn := Nat.eq_zero_or_pos n
  · exact List.eq_nil_of_length_eq_zero (length_dmaRead ..)
  simp only [paletteBase] at htop
  unfold dmaRead
  rw [if_neg (by omega), if_neg (by omega), if_neg (by simp only [registerBase]; omega), if_neg (by simp only [loamBase]; omega)]

theorem maintStore_plain {a : Nat} (h : a < loamBase ∨ loamBase + 2 * pageBytes ≤ a) (d : Bytes) :
    s.maintStore p a d = s.tileWrite p a d := if_neg (by omega)

/-- A KEEP record reaches its ring and no other. -/
theorem traceTo_kept {k : Nat} {r : TraceRec} (hcap : ringCapacity s k ≠ 0) (hkeep : r.keep = true)
    (hw : smWf ({} : Ring) 0 s.trace.rings = true) :
    ringAt (s.traceTo k r) k = (ringAt s k).write (ringCapacity s k) s.trace.fired.isSome r ∧
    (∀ j, j ≠ k → ringAt (s.traceTo k r) j = ringAt s j) ∧ s.traceTo k r = { s with trace := (s.traceTo k r).trace } := by
  have hrings : (s.traceTo k r).trace.rings =
      smPut {} k ((ringAt s k).write (ringCapacity s k) s.trace.fired.isSome r) s.trace.rings := by
    unfold State.traceTo
    extract_lets mask cap u
    rw [if_neg (by simp [hkeep, cap, hcap])]
    split
    · split <;> rfl
    · rfl
  refine ⟨?_, fun j hj => ?_, State.eq_of_fields (by simp)⟩
  · rw [ringAt, hrings, smGet_smPut_same hw]
  · rw [ringAt, hrings, smGet_smPut_other hj hw, ringAt]

/-! ### Hops (R70) -/

theorem hopFails_marked {site : BitVec 12} {hop : BitVec 8} (h : (site, hop) ∈ s.repair.failedHops) :
    s.hopFails site hop = s := if_pos (List.contains_iff_mem.mpr h)

theorem hopFails_new {site : BitVec 12} {hop : BitVec 8} (h : (site, hop) ∉ s.repair.failedHops) : ∃ tr ho,
    s.hopFails site hop = { s with
      repair := { s.repair with failedHops := s.repair.failedHops ++ [(site, hop)] }
      trace := tr
      host := ho } := by
  have hraise := raise_frame (s := s.updRepair (fun r => { r with failedHops := r.failedHops ++ [(site, hop)] })) (c := 0x4007)
    (p := ⟨site, 15⟩) (i := noCmd) (d := hop.toNat) (e := 0) (n := 2) rfl (by decide) (by decide) (by decide)
  rw [State.hopFails, if_neg (mt List.contains_iff_mem.mp h), hraise]
  exact ⟨_, _, rfl⟩

end

/-- Settles O35. -/
theorem rillMessages : Obligations.RillMessages := by
  unfold Obligations.RillMessages
  intro s
  obtain ⟨w, sm, hwake⟩ := wake_eq s
  refine ⟨fun p hp ⟨_, htiles, _⟩ hlit => ?_, fun ⟨_, htiles, _⟩ => ?_, fun p hp hdark => ?_,
    fun p a d tag hp hlit hdead hplain => ?_, fun p a n tag hp hlit hdead hmap h0 h56 => ?_,
    fun p a n htop hwindow => dmaRead_plain htop hwindow, fun p a d n tag hp hdark => ?_, fun m => rfl, fun m htype hlo hhi => ?_,
    fun m hbad => ?_, fun m hdest hd => ?_, fun m hdest => ?_, fun r hruns hrings hkeep => ?_, fun site hop => ?_⟩
  · have hget := foldl_halt (rillTiles s.repair p) htiles
    refine ⟨_, (execHalt_of_lt (by omega)).trans (congrArg Host.Outcome.next (rillAt_tile hp hlit rfl rfl _)),
      (hget p).trans (if_pos ((mem_rillTiles_one hp hlit).mpr rfl)),
      fun q hq => (hget q).trans (if_neg (mt (mem_rillTiles_one hp hlit).mp hq)), ?_⟩
    rw [foldl_updTile_eq]
  · have hget := foldl_halt (rillTiles s.repair 0xFFF) htiles
    refine ⟨_, (execHalt_of_lt (by decide)).trans (congrArg Host.Outcome.next (rillAt_broadcast _)),
      fun q hq hlit => (hget q).trans (if_pos (mem_rillTiles_all.mpr ⟨hq, hlit⟩)), fun q hq => (hget q).trans (if_neg fun h => ?_), ?_⟩
    · obtain ⟨hlt, hlit⟩ := mem_rillTiles_all.mp h
      obtain hge | hdark := hq
      · omega
      · exact hlit hdark
    · rw [foldl_updTile_eq]
  · exact ⟨_, (execHalt_of_lt (by omega)).trans (congrArg Host.Outcome.next (rillAt_dark hp hdark rfl _))⟩
  · refine (if_neg (by omega)).trans (congrArg Host.Outcome.next ((maintAt_live hp hlit hdead (by decide) ..).trans ?_))
    have hreal : ¬ physicalTiles ≤ p := Nat.not_le.mpr hp
    rw [if_neg hreal, State.wake_variant, maintStore_plain hplain, maintReply_one _ _ _ (by decide) (by decide),
      maintReply_one _ _ _ (by decide) (by decide), hwake]
    split <;> rfl
  · refine (if_neg (by omega)).trans (congrArg Host.Outcome.next ((maintAt_live hp hlit hdead (by decide) ..).trans ?_))
    have hreal : ¬ physicalTiles ≤ p := Nat.not_le.mpr hp
    rw [State.wake_variant, if_neg hreal, if_pos hmap, maintReply_one _ _ _ (by rw [length_dmaRead]; exact h0)
      (by rw [length_dmaRead]; exact h56), length_dmaRead, hwake]
  · refine ⟨⟨rillHeader (kelletMsg p true 0x40 tag [a.setWidth 64]), (if_neg (by omega)).trans
        (congrArg Host.Outcome.next ((maintAt_dark hp hdark ..).trans ?_))⟩,
      ⟨rillHeader (kelletMsg p true 0x41 tag [a.setWidth 64]), (if_neg (by omega)).trans
        (congrArg Host.Outcome.next ((maintAt_dark hp hdark ..).trans ?_))⟩⟩
    · rw [hwake]
      rfl
    · rw [hwake]
      rfl
  · have hdelivers : rillDelivers s.repair m = true := by
      have hcut : rillCut s.repair m.dest.toNat = false := by
        rw [rillCut, decide_eq_false (by simp only [physicalTiles]; omega), Bool.false_and]
      have hdest : rillDest m.dest.toNat = true := by simp [rillDest, hlo, hhi]
      have hplain : (m.dest.toNat != 0xFFF) = true := bne_iff_ne.mpr (by omega)
      rw [rillDelivers, htype, hcut, hdest, hplain]
      rfl
    exact congrArg Host.Outcome.next ((if_pos hdelivers).trans (if_pos ⟨hlo, hhi⟩))
  · refine congrArg Host.Outcome.next (if_neg ?_)
    rw [rillDelivers]
    obtain h | h := hbad <;> rw [h] <;> simp
  · have hseverity : severityOf s.step.inProgress ⟨m.dest, 0⟩ 0 0x4008 = 3 := if_pos hdest
    obtain ⟨hdiscards, -⟩ := raise_discard (i := noCmd) (e := m.payload.headD 0) hseverity hd (by decide) (by decide)
    exact ⟨_, rfl, hdiscards, State.raise_mem .., State.raise_tiles ..⟩
  · have hseverity : severityOf s.step.inProgress ⟨m.dest, 0⟩ 0 0x4008 = 2 := if_neg (Nat.not_lt.mpr hdest)
    exact ⟨_, rfl, raise_frame hseverity (by decide) (by decide) (by decide)⟩
  · obtain ⟨hring, hother, hframe⟩ := traceTo_kept (s := s) (k := moduleRing) (by rw [ringCapacity, if_pos rfl]; decide) hkeep hrings
    exact ⟨_, congrArg Host.Outcome.next (if_pos hruns), hring, hother, hframe⟩
  · intro f
    refine ⟨fun hnew => ?_, fun hmarked => congrArg Host.Outcome.next (hopFails_marked (s := s.hopsPass site) hmarked)⟩
    obtain ⟨tr, ho, hfails⟩ := hopFails_new (s := s.hopsPass site) hnew
    exact ⟨_, congrArg Host.Outcome.next hfails, rfl⟩

/-! ### Status codes that arrive (O36) -/

section
variable {s : State} {m : StatusMsg}

/-- A code that notes no detection, hop or lost page shows only that its site's hops carry messages. -/
theorem noteStatus_other (hdet : detectionCodes.contains m.code.toNat = false) (hhop : m.code ≠ 0x4006) (hmesh : m.code ≠ 0x4001)
    (hpage : m.code ≠ 0x3004) : s.noteStatus m = s.hopsPass m.place.site := by
  unfold State.noteStatus
  extract_lets site block lane u
  have hu : u = s := if_neg (by rw [hdet]; exact Bool.false_ne_true)
  rw [hu, if_neg hhop, if_neg fun h => hmesh h.1, if_neg fun h => hpage h.1]

theorem detectionCodes_mild : ∀ n ∈ detectionCodes, ¬ (n = 0x5004 ∨ n = 0x5007) ∧ n ≠ 0x4008 ∧ n ≠ 0x7006 ∧
    moduleFatalCodes.contains n = false ∧ stepFatalCodes.contains n = false ∧ n ≠ 0x4009 ∧ n ≠ 0x400A ∧ n ≠ 0x3004 := by
  decide

/-- A detection's code is below Step-fatal. -/
theorem severityOf_detection (b : Bool) (p : Place) (d : Nat) {c : Code} (h : detectionCodes.contains c.toNat = true) :
    severityOf b p d c < 3 ∧ c ≠ 0x4009 ∧ c ≠ 0x400A ∧ c ≠ 0x3004 := by
  obtain ⟨hstep, hrill, hbreaker, hmodule, hfatal, h9, hA, hpage⟩ := detectionCodes_mild _ (List.contains_iff_mem.mp h)
  refine ⟨?_, fun hc => h9 (hc ▸ rfl), fun hc => hA (hc ▸ rfl), fun hc => hpage (hc ▸ rfl)⟩
  unfold severityOf
  extract_lets n
  rw [if_neg hstep, if_neg hrill, if_neg hbreaker, hmodule, hfatal, if_neg Bool.false_ne_true, if_neg Bool.false_ne_true]
  split
  · decide
  · split <;> decide

/-- The lane that a detection names: a plane and lane of a Sieve half, or none. -/
def detectedLane (m : StatusMsg) : Nat :=
  if m.place.block.toNat = 15 ∨ m.place.block.toNat = 16 then m.detail.toNat % 256 else 0

/-- The record of a detection that a status code reports, and the test queued for its site. -/
def detectionNoted (s : State) (m : StatusMsg) : State :=
  (s.noteDetection m.place.site.toNat m.place.block.toNat (detectedLane m)).queueTest m.place.site.toNat m.place.block.toNat
    (detectedLane m) false false []

theorem noteStatus_detection (hdet : detectionCodes.contains m.code.toNat = true) : s.noteStatus m =
    if m.code = 0x4006 then (detectionNoted s m).hopRetries m.place.site (BitVec.ofNat 8 m.detail.toNat)
    else if m.code = 0x4001 ∧ 11 ≤ m.place.block.toNat ∧ m.place.block.toNat ≤ 14 then
      ((detectionNoted s m).hopsPass m.place.site).poisonNext m.place.site.toNat m.place.block.toNat
    else (detectionNoted s m).hopsPass m.place.site := by
  obtain ⟨-, -, -, hpage⟩ := severityOf_detection true m.place 0 hdet
  unfold State.noteStatus
  extract_lets site block lane u
  have hu : u = detectionNoted s m := if_pos hdet
  have hlast (v : State) (e : State) : (if m.code = 0x3004 ∧ site < physicalTiles then v else e) = e := if_neg fun h => hpage h.1
  rw [hu, hlast]

/-- A page that a tile reports lost is marked (R244). -/
theorem noteStatus_page {u : Nat} (hcode : m.code = 0x3004) (hsite : m.place.site.toNat < 2688)
    (hu : logicalOf s.repair m.place.site.toNat = some u) :
    s.noteStatus m = (s.hopsPass m.place.site).losePages u [m.detail.toNat] false := by
  have hplain : (if detectionCodes.contains m.code.toNat = true then (s.noteDetection m.place.site.toNat m.place.block.toNat
      (if m.place.block.toNat = 15 ∨ m.place.block.toNat = 16 then m.detail.toNat % 256 else 0)).queueTest m.place.site.toNat
      m.place.block.toNat (if m.place.block.toNat = 15 ∨ m.place.block.toNat = 16 then m.detail.toNat % 256 else 0) false false []
      else s) = s := if_neg (by rw [hcode]; decide)
  unfold State.noteStatus
  dsimp only
  rw [hplain, if_neg (by rw [hcode]; decide), if_neg (fun h => absurd (hcode.symm.trans h.1) (by decide)), if_pos ⟨hcode, hsite⟩, hu]

/-- A Step-fatal code is no detection. -/
theorem notDetection_of_stepFatal {b : Bool} {p : Place} {d : Nat} {c : Code} (h : severityOf b p d c = 3) :
    detectionCodes.contains c.toNat = false ∧ c ≠ 0x4006 ∧ c ≠ 0x4001 := by
  have hnot : ¬ detectionCodes.contains c.toNat = true := fun hdet => absurd h (severityOf_detection b p d hdet).1.ne
  exact ⟨Bool.not_eq_true _ ▸ hnot, fun hc => hnot (hc ▸ rfl), fun hc => hnot (hc ▸ rfl)⟩

/-- A test queued: a pending test of the same site is joined, or a new one is added. -/
theorem queueTest_eq (s : State) {site block lane : Nat} (full recal : Bool) (owed : List Owed) (hsite : site < 65536)
    (hblock : block < 256) (hlane : lane < 256) : ∃ ts, s.queueTest site block lane full recal owed = { s with
      repair := { s.repair with tests := ts } } ∧
    ∃ x ∈ ts, x.site.toNat = site ∧ x.block.toNat = block ∧ x.lane.toNat = lane := by
  unfold State.queueTest
  extract_lets same now
  split
  case isTrue h =>
    obtain ⟨t, ht, hsame⟩ := List.any_eq_true.mp h
    refine ⟨_, rfl, _, List.mem_map_of_mem ht, ?_⟩
    rw [if_pos hsame]
    simp only [same, Bool.and_eq_true, beq_iff_eq, and_assoc] at hsame
    exact hsame
  case isFalse h =>
    refine ⟨_, rfl, _, List.mem_append_right _ (List.mem_singleton.mpr rfl), ?_, ?_, ?_⟩ <;> rw [BitVec.toNat_ofNat] <;>
      exact Nat.mod_eq_of_lt (by omega)

/-- A detection enters its site's history; the sixteenth in a day makes the site lasting (R250). -/
theorem noteDetection_eq (s : State) (site block lane : Nat) : ∃ h f l tr ho, s.noteDetection site block lane = { s with
    repair := { s.repair with
      history := h
      fullPassed := f
      lasting := l }
    trace := tr
    host := ho } := by
  unfold State.noteDetection
  extract_lets k h d oldRepair u newRepair
  split
  · exact ⟨_, _, _, _, _, raise_frame (n := 1) rfl (by decide) (by decide) (by decide)⟩
  · exact ⟨_, _, _, _, _, rfl⟩

/-- The record of a detection and its test: the repair state's history and tests, and reports. -/
theorem detected_eq (s : State) {site block lane : Nat} (hsite : site < 65536) (hblock : block < 256) (hlane : lane < 256) :
    ∃ h f l ts tr ho, (s.noteDetection site block lane).queueTest site block lane false false [] = { s with
      repair := { s.repair with
        history := h
        fullPassed := f
        lasting := l
        tests := ts }
      trace := tr
      host := ho } ∧ ∃ x ∈ ts, x.site.toNat = site ∧ x.block.toNat = block ∧ x.lane.toNat = lane := by
  obtain ⟨h, f, l, tr, ho, hnote⟩ := noteDetection_eq s site block lane
  obtain ⟨ts, hqueue, htest⟩ := queueTest_eq (s.noteDetection site block lane) false false [] hsite hblock hlane
  refine ⟨h, f, l, ts, tr, ho, ?_, htest⟩
  rw [hqueue, hnote]

theorem detectionNoted_eq (s : State) (m : StatusMsg) : ∃ h f l ts tr ho, detectionNoted s m = { s with
      repair := { s.repair with
        history := h
        fullPassed := f
        lasting := l
        tests := ts }
      trace := tr
      host := ho } ∧
    ∃ x ∈ ts, x.site.toNat = m.place.site.toNat ∧ x.block.toNat = m.place.block.toNat ∧ x.lane.toNat = detectedLane m := by
  have hlane : detectedLane m < 256 := by unfold detectedLane; split <;> omega
  exact detected_eq s (by omega) (by omega) hlane

theorem poisonNext_eq (s : State) (site block : Nat) : ∃ mesh, s.poisonNext site block = { s with mesh := mesh } ∧
    ∀ x, meshSiteOf s.repair site = some x → mesh = { s.mesh with failing := s.mesh.failing ++ [(x, block - 10)] } := by
  unfold State.poisonNext
  cases hx : meshSiteOf s.repair site with
  | some x => exact ⟨_, rfl, fun y hy => by rw [Option.some.inj hy]⟩
  | none => exact ⟨_, rfl, nofun⟩

/-- A retry of a hop counted (R70). -/
def retryCounted (s : State) (k : Nat) : State := { s with rill := { s.rill with
  failures := smPut 0 k (if smGet 0 s.rill.failures k + 1 < 16 then smGet 0 s.rill.failures k + 1 else 0) s.rill.failures } }

/-- A retry of a hop is counted; the sixteenth marks the hop failed and starts the count anew (R70). -/
theorem hopRetries_eq (s : State) (site : BitVec 12) (hop : BitVec 8) : let k := 256 * site.toNat + hop.toNat
    let n := smGet 0 s.rill.failures k + 1
    ∃ fh tr ho, s.hopRetries site hop = { retryCounted s k with
      repair := { s.repair with failedHops := fh }
      trace := tr
      host := ho } ∧ (n < 16 → fh = s.repair.failedHops) ∧ (16 ≤ n → (site, hop) ∈ fh) := by
  intro k n
  have hwork : s.hopRetries site hop = if n < 16 then retryCounted s k else (retryCounted s k).hopFails site hop := rfl
  rw [hwork]
  by_cases hn : n < 16
  · rw [if_pos hn]
    exact ⟨_, _, _, rfl, fun _ => rfl, fun h => absurd h (Nat.not_le.mpr hn)⟩
  · rw [if_neg hn]
    by_cases hmarked : (site, hop) ∈ s.repair.failedHops
    · rw [hopFails_marked (s := retryCounted s k) hmarked]
      exact ⟨_, _, _, rfl, fun h => absurd h hn, fun _ => hmarked⟩
    · obtain ⟨tr, ho, hfails⟩ := hopFails_new (s := retryCounted s k) hmarked
      rw [hfails]
      exact ⟨_, _, _, rfl, fun h => absurd h hn, fun _ => List.mem_append_right _ (List.mem_singleton.mpr rfl)⟩

/-! ### The loss of a page -/

theorem requestPage_lost (s : State) (t index : Nat) (from' : Option Nat) (step : BitVec 32) :
    (s.requestPage t index from' step).pages.lost = s.pages.lost := by
  unfold State.requestPage
  split
  · rfl
  next c _ =>
    extract_lets w v
    split
    · exact congrArg Pages.lost (State.raise_pages ..)
    · obtain ⟨_, _, _, _, _, h, -⟩ := Sends.foldl (fun (u : State) (x : Nat × BitVec 16) => Sends.sendBulk u (colOf t / 2) x.2
        (colOf t / 2) (bulkBody 6 0 t step index c.selfIndex.toNat [])) v.peersInGroup v
      exact (congrArg (fun u : State => u.pages.lost) h).trans rfl

theorem handleLost_lost (s : State) (t page : Nat) (dark : Bool) : (s.handleLost t page dark).pages.lost = s.pages.lost := by
  unfold State.handleLost
  extract_lets from' mine v parity u
  have hu : u.pages.lost = s.pages.lost := by
    unfold u State.endExport
    split
    · split
      · rfl
      · rw [State.commandDone_pages]
    · rfl
  split
  · exact (requestPage_lost ..).trans hu
  · exact (requestPage_lost ..).trans hu
  · split
    · exact hu
    · extract_lets shared
      split
      · exact (requestPage_lost ..).trans hu
      · split
        · exact (requestPage_lost ..).trans hu
        · exact (congrArg Pages.lost (State.raise_pages ..)).trans hu

/-- Every page named is marked lost, and no mark is taken away. -/
theorem losePages_lost (s : State) (t : Nat) (pages : List Nat) (dark : Bool) (k : Nat) :
    (k ∈ s.pages.lost → k ∈ (s.losePages t pages dark).pages.lost) ∧
    (k ∈ pages.map (pageKey t) → k ∈ (s.losePages t pages dark).pages.lost) := by
  unfold State.losePages
  extract_lets new oldPages oldArbiter u
  have hlost : (new.foldl (fun s p => s.handleLost t p dark) u).pages.lost = s.pages.lost ++ new.map (pageKey t) := by
    suffices h : ∀ (l : List Nat) (v : State), (l.foldl (fun s p => s.handleLost t p dark) v).pages.lost = v.pages.lost from h new u
    intro l
    induction l with
    | nil => exact fun _ => rfl
    | cons p r ih => exact fun v => (ih _).trans (handleLost_lost ..)
  rw [hlost, List.mem_append]
  refine ⟨.inl, fun hk => ?_⟩
  obtain ⟨p, hp, rfl⟩ := List.mem_map.mp hk
  by_cases hold : pageKey t p ∈ s.pages.lost
  · exact .inl hold
  · exact .inr (List.mem_map_of_mem (List.mem_filter.mpr ⟨hp, by simpa using hold⟩))

end

theorem noteDeath_eq (s : State) (c : Code) (p : Place) : ∃ ds, s.noteDeath c p = { s with
    arbiter := { s.arbiter with deadTiles := ds } } := by
  unfold State.noteDeath
  split <;> exact ⟨_, rfl⟩

theorem latch_discarding {s : State} (h : s.step.phase = .discarding) (c : Code) (p : Place) : s.latch c p = { s with
    arbiter := { s.arbiter with latched := s.arbiter.latched ++ [⟨c, p, s.now⟩] } } := if_pos h

/-- A Step-fatal code before the commit point begins the discard, whether or not it notes a death. -/
theorem raise_discards_any {s : State} {c : Code} {p : Place} {i : BitVec 64} {d : Nat} {e : BitVec 64}
    (hs : severityOf s.step.inProgress p d c = 3) (hd : CanDiscard s) : ∃ tr ho ds, s.raise c p i d e = { s with
      trace := tr
      host := ho
      arbiter := { s.arbiter with
        deadTiles := ds, latched := [⟨c, p, s.now⟩], windowOpen := true, cause := none, repaired := false, fenced := false,
        pagesLost := false, takeover := false, released := false }
      step := { s.step with phase := .discarding }
      rillOut := haltMsg :: s.rillOut } := by
  obtain ⟨tr, ho, hr⟩ := State.raise_discards (i := i) (d := d) (e := e) hs hd
  obtain ⟨ds, hdeath⟩ := noteDeath_eq s c p
  rw [hr, hdeath]
  exact ⟨tr, ho, ds, rfl⟩

/-- A Step-fatal code during a discard is one more latched code, whether or not it notes a death. -/
theorem raise_secondary_any {s : State} {c : Code} {p : Place} {i : BitVec 64} {d : Nat} {e : BitVec 64}
    (hs : severityOf s.step.inProgress p d c = 3) (hphase : s.step.phase = .discarding) : ∃ tr ho ds, s.raise c p i d e = { s with
      trace := tr
      host := ho
      arbiter := { s.arbiter with
        deadTiles := ds
        latched := s.arbiter.latched ++ [⟨c, p, s.now⟩] } } := by
  obtain ⟨tr, ho, hr⟩ := s.raise_eq (c := c) (p := p) (i := i) (d := d) (e := e) (by omega)
  dsimp only at hr
  obtain ⟨ds, hdeath⟩ := noteDeath_eq { s with trace := tr, host := ho } c p
  rw [hdeath, hs, if_pos rfl, latch_discarding (by exact hphase)] at hr
  exact ⟨tr, ho, ds, hr⟩

/-- Settles O36. -/
theorem statusCodesArrive : Obligations.StatusCodesArrive := by
  unfold Obligations.StatusCodesArrive
  intro m s
  have hexec (hruns : s.boot.firmwareRuns = true) : exec (.event m) s =
      .next ((s.raise m.code m.place m.cid m.detail.toNat m.detail2).noteStatus m).boundary := if_neg (by rw [hruns]; decide)
  refine ⟨fun hquiet => if_pos (by rw [hquiet]; rfl), fun hruns hsev hpage hd => ?_, fun hruns hsev hpage hphase => ?_,
    fun hruns hdet hstep => ?_, fun hruns hcode hstep hwf => ?_, fun u hruns hcode hd hsite hu => ?_⟩
  · obtain ⟨hdet, hhop, hmesh⟩ := notDetection_of_stepFatal hsev
    obtain ⟨tr, ho, ds, hraise⟩ := raise_discards_any (i := m.cid) (e := m.detail2) (hd.1.symm ▸ hsev) hd
    rw [hexec hruns, noteStatus_other hdet hhop hmesh hpage, hraise, boundary_inProgress rfl]
    exact ⟨_, rfl, ⟨rfl, rfl, rfl, rfl⟩, rfl⟩
  · obtain ⟨hdet, hhop, hmesh⟩ := notDetection_of_stepFatal hsev
    have hbusy : s.step.inProgress = true := by rw [Step.inProgress, hphase]; rfl
    obtain ⟨tr, ho, ds, hraise⟩ := raise_secondary_any (i := m.cid) (e := m.detail2) (hbusy.symm ▸ hsev) hphase
    rw [hexec hruns, noteStatus_other hdet hhop hmesh hpage, hraise, boundary_inProgress (by exact hbusy)]
    exact ⟨_, rfl, rfl, rfl, rfl, rfl⟩
  · obtain ⟨hmild, h9, hA, -⟩ := severityOf_detection s.step.inProgress m.place m.detail.toNat hdet
    obtain ⟨h, f, l, ts, tr, ho, hnoted, htest⟩ := detectionNoted_eq (s.raise m.code m.place m.cid m.detail.toNat m.detail2) m
    have hlane (x : Test) (hx : x.site.toNat = m.place.site.toNat ∧ x.block.toNat = m.place.block.toNat ∧ x.lane.toNat = detectedLane m) :
        x.site.toNat = m.place.site.toNat ∧ x.block = m.place.block ∧ x.lane.toNat =
          (if m.place.block = 15 ∨ m.place.block = 16 then m.detail.toNat % 256 else 0) := by
      obtain ⟨hsite, hblock, hlane⟩ := hx
      refine ⟨hsite, BitVec.eq_of_toNat_eq hblock, hlane.trans (if_congr (or_congr ?_ ?_) rfl rfl)⟩ <;> rw [← BitVec.toNat_inj] <;> rfl
    obtain ⟨x, hx, hfields⟩ := htest
    rw [hexec hruns, noteStatus_detection hdet, hnoted, State.raise_minor hmild h9 hA]
    split
    case isTrue hcode =>
      obtain ⟨fh, tr', ho', hretry, -, -⟩ := hopRetries_eq (detectionNoted (s.raise m.code m.place m.cid m.detail.toNat m.detail2) m)
        m.place.site (BitVec.ofNat 8 m.detail.toNat)
      rw [hnoted, State.raise_minor hmild h9 hA] at hretry
      rw [hretry, boundary_inProgress (by exact hstep)]
      exact ⟨_, rfl, fun _ => rfl, fun x h => absurd (hcode.symm.trans h) (by decide), ⟨x, hx, hlane x hfields⟩, rfl⟩
    split
    case isTrue hcode =>
      obtain ⟨mesh, hpoison, hpoisoned⟩ := poisonNext_eq _ m.place.site.toNat m.place.block.toNat
      rw [hpoison, boundary_inProgress (by exact hstep)]
      exact ⟨_, rfl, fun h => ((h.elim (absurd hcode.1) fun h => by omega)), fun x _ _ _ hx => hpoisoned x hx,
        ⟨x, hx, hlane x hfields⟩, rfl⟩
    case isFalse hcode =>
      rw [boundary_inProgress (by exact hstep)]
      exact ⟨_, rfl, fun _ => rfl, fun x h hlo hhi => absurd ⟨h, hlo, hhi⟩ hcode, ⟨x, hx, hlane x hfields⟩, rfl⟩
  · have hdet : detectionCodes.contains m.code.toNat = true := by rw [hcode]; decide
    obtain ⟨hmild, h9, hA, -⟩ := severityOf_detection s.step.inProgress m.place m.detail.toNat hdet
    obtain ⟨h, f, l, ts, tr, ho, hnoted, -⟩ := detectionNoted_eq (s.raise m.code m.place m.cid m.detail.toNat m.detail2) m
    obtain ⟨fh, tr', ho', hretry, hfew, hmany⟩ := hopRetries_eq (detectionNoted (s.raise m.code m.place m.cid m.detail.toNat m.detail2) m)
      m.place.site (BitVec.ofNat 8 m.detail.toNat)
    rw [hnoted, State.raise_minor hmild h9 hA] at hretry hfew hmany
    rw [hexec hruns, noteStatus_detection hdet, if_pos hcode, hnoted, State.raise_minor hmild h9 hA, hretry,
      boundary_inProgress (by exact hstep)]
    intro hop k
    have hget : smGet 0 (retryCounted s k).rill.failures k =
      if smGet 0 s.rill.failures k + 1 < 16 then smGet 0 s.rill.failures k + 1 else 0 := smGet_smPut_same hwf
    exact ⟨_, rfl, fun hlt => ⟨hget.trans (if_pos hlt), hfew hlt⟩,
      fun hge => ⟨hget.trans (if_neg (Nat.not_lt.mpr hge)), hmany hge⟩⟩
  · have hsev : severityOf s.step.inProgress m.place m.detail.toNat m.code = 3 := by rw [hcode]; rfl
    obtain ⟨tr, ho, ds, hraise⟩ := raise_discards_any (i := m.cid) (e := m.detail2) hsev hd
    have hnote (v : State) (hv : v.repair = s.repair) := noteStatus_page (s := v) hcode hsite (hv ▸ hu)
    rw [hexec hruns, hraise, hnote]
    swap
    · rfl
    generalize hv : State.hopsPass _ _ = v
    have hphase : v.step.phase = .discarding := by rw [← hv]; rfl
    have hkept : v.pages = s.pages := by rw [← hv]; rfl
    have hstep := (KeepsRest.losePages hphase u [m.detail.toNat] false).step
    have hbusy : (v.losePages u [m.detail.toNat] false).step.inProgress = true := by rw [hstep, Step.inProgress, hphase]; rfl
    rw [boundary_inProgress hbusy]
    exact ⟨_, rfl, (losePages_lost ..).2 (by simp [pageKey]), fun k hk => (losePages_lost ..).1 (hkept ▸ hk), hstep ▸ hphase⟩

end Sys2Proof.Laws
end

section
/-! Programs and long commands: the loading of a program, traces, long commands and self-tests (O26, O29 to O31) -/

namespace Sys2Proof.Laws

open Sys2Proof.Machine Sys2Proof.Safety

/-! ### Programs (O26) -/

section
variable {s : State} {h : Hdr} {x : Session}

/-! ### PROGRAM_BEGIN (R301) -/

/-- The same range of several tiles cleared. -/
theorem foldl_tileClear {a n : Nat} (han : a + n ≤ 2 ^ 40) (l : List Nat) : ∀ {s : State}, MemoryWf s → ∃ m c,
    l.foldl (fun s p => s.tileClear p a n) s = { s with
      mem := m
      checks := c } ∧
    ∀ k, rdByte m k = if k / 2 ^ 40 ∈ l ∧ a ≤ k % 2 ^ 40 ∧ k % 2 ^ 40 < a + n then 0 else rdByte s.mem k := by
  induction l with
  | nil => exact fun _ => ⟨_, _, rfl, fun k => by simp⟩
  | cons p r ih =>
    intro s hm
    obtain ⟨m, c, hfold, hmem⟩ := ih (s := s.tileClear p a n) (clearRange_wf _ _ hm)
    refine ⟨m, c, by rw [List.foldl_cons, hfold]; rfl, fun k => ?_⟩
    have hread : rdByte (s.tileClear p a n).mem k = _ := rdByte_clearRange (lo' := 0) (memKey p a) (memKey p (a + n)) k hm
    have hkey : memKey p a ≤ k ∧ k < memKey p (a + n) ↔ k / 2 ^ 40 = p ∧ a ≤ k % 2 ^ 40 ∧ k % 2 ^ 40 < a + n := by
      unfold memKey
      omega
    rw [hmem, hread]
    simp only [hkey, List.mem_cons]
    grind

/-- The program and its tables go; the program area of every tile reads 0. -/
theorem unloadProgram_eq (hm : MemoryWf s) : ∃ m c, s.unloadProgram = { s with
      mem := m
      checks := c
      program := none
      mesh := {}
      sync := { syncInstall [] with
        dump := s.sync.dump
        armed := s.sync.armed }
      host := { s.host with
        programImage := []
        programOpen := false
        installing := none
        kelletImage := [] } } ∧
    ∀ k, rdByte m k = if k / 2 ^ 40 < 2688 ∧ programBase ≤ k % 2 ^ 40 ∧ k % 2 ^ 40 < programBase + 0x100000 then 0
      else rdByte s.mem k := by
  obtain ⟨m, c, hfold, hmem⟩ := foldl_tileClear (a := programBase) (n := 0x100000) (by decide) (List.range physicalTiles) hm
  unfold State.unloadProgram
  rw [hfold]
  refine ⟨m, c, rfl, fun k => ?_⟩
  exact (hmem k).trans (if_congr (and_congr_left fun _ => List.mem_range) rfl rfl)

/-- The end of a program, whatever waited for it: the module is in STANDBY and PROGRAM may be written. -/
theorem beginProgram_eq (hm : MemoryWf s) : ∃ m c mesh sync ho, s.beginProgram = { s with
      mem := m
      checks := c
      program := none
      mesh := mesh
      sync := sync
      power := s.toStandby.power
      host := ho } ∧ ho.programOpen = true ∧ ho.programImage = [] ∧ ho.installing = none ∧
    ∀ k, rdByte m k = if k / 2 ^ 40 < 2688 ∧ programBase ≤ k % 2 ^ 40 ∧ k % 2 ^ 40 < programBase + 0x100000 then 0
      else rdByte s.mem k := by
  unfold State.beginProgram
  extract_lets told unloaded
  have htold : Tells s told := by
    unfold told
    split
    · exact .commandDone ..
    · exact .refl s
  obtain ⟨ho, htold, -⟩ := htold
  obtain ⟨m, c, hunload, hmem⟩ := unloadProgram_eq (s := told) (by rw [htold]; exact hm)
  unfold unloaded
  rw [hunload, htold]
  rw [htold] at hmem
  exact ⟨m, c, _, _, _, rfl, rfl, rfl, rfl, hmem⟩

theorem regionOf_toStandby (hw : smWf {} 0 s.power.regions = true) (i : Nat) : regionOf s.toStandby.power i =
    if i < 56 ∧ (regionOf s.power i).state = .active then (regionOf s.power i).enter .retention else regionOf s.power i := by
  have hregions : s.toStandby.power.regions = (s.power.fieldRegions .active .retention).regions := by
    unfold State.toStandby
    generalize s.power.fieldRegions .active .retention = w
    rfl
  exact (regionOf_congr hregions i).trans (regionOf_fieldRegions hw .active .retention i)

/-- A response leaves PROGRAM as it is. -/
theorem answered_program (h : Hdr) (t : State) (st : Code) (b : Bytes) :
    (answered h t st b).host.programOpen = t.host.programOpen ∧ (answered h t st b).host.programImage = t.host.programImage ∧
    (answered h t st b).host.installing = t.host.installing := ⟨rfl, rfl, rfl⟩

/-! ### PROGRAM_LOAD (R301, R336) -/

/-- The field regions that a program needs start: those that are neither ACTIVE nor in a dark field. -/
def rampRegions (r : Repair) (w : Power) : Power := (List.range 56).foldl (fun w i =>
  if fieldState r i = 2 ∨ (regionOf w i).state = .active then w else w.updRegion i (·.enter .ramp)) w

theorem regionOf_rampRegions {w : Power} (r : Repair) (hw : smWf {} 0 w.regions = true) {j : Nat} (hj : j < 56) :
    (regionOf (rampRegions r w) j).state = if fieldState r j = 2 ∨ (regionOf w j).state = .active ∨ (regionOf w j).state = .broken
      then (regionOf w j).state else .ramp := by
  suffices hall : ∀ (l : List Nat) {w : Power}, smWf {} 0 w.regions = true → l.Nodup →
      regionOf (l.foldl (fun w i =>
        if fieldState r i = 2 ∨ (regionOf w i).state = .active then w else w.updRegion i (·.enter .ramp)) w) j =
        if j ∈ l ∧ ¬ (fieldState r j = 2 ∨ (regionOf w j).state = .active) then (regionOf w j).enter .ramp else regionOf w j by
    have hone := hall (List.range 56) hw List.nodup_range
    rw [rampRegions, hone]
    simp only [List.mem_range, hj, true_and, Region.enter]
    grind
  intro l
  induction l with
  | nil => simp
  | cons i l ih =>
    intro w hw hnodup
    obtain ⟨hi, hl⟩ := List.nodup_cons.mp hnodup
    rw [List.foldl_cons]
    by_cases ha : fieldState r i = 2 ∨ (regionOf w i).state = .active
    · rw [if_pos ha, ih hw hl]
      by_cases hj : j = i
      · subst hj
        rw [if_neg fun h => h.2 ha, if_neg fun h => h.2 ha]
      · simp [hj]
    · rw [if_neg ha, ih (regionsWf_updRegion hw i _) hl, regionOf_updRegion hw]
      by_cases hj : j = i
      · subst hj
        rw [if_neg fun h => hi h.1, if_pos rfl, if_pos ⟨List.mem_cons_self, ha⟩]
      · simp [hj]

/-- PROGRAM_LOAD of the program in PROGRAM, on a module that has not been too hot: the answer of its checks, or its acceptance. -/
theorem loadProgram_eq (hcool : s.power.tooHot = none) (hopen : s.host.programOpen = true) (b : Bindings) (o : Owed) :
    let r := readProgram s.host.programImage (programDigest s.host.programImage) b (slabPages s.variant) (fieldMapValue s.repair)
    s.loadProgram (programDigest s.host.programImage) b o = match rejectOf r.2 with
      | some c => (s, c)
      | none => ({ s with
          power := rampRegions s.repair s.power
          host := { s.host with
            programOpen := false
            installing := some (o, r.1) } }, 1) := by
  intro r
  have hsame : ({ s with power := { s.power with tooHot := none } } : State) = s := by rw [← hcool]
  have hhot : (s.power.tooHot.isSome && decide (s.now.toNat < s.power.hotAt.toNat + coolDown)) = false := by
    rw [hcool]
    rfl
  unfold State.loadProgram
  rw [hhot]
  simp only [Bool.false_eq_true, if_false, hsame, hopen, Bool.not_true, ne_eq, not_true_eq_false]
  rfl

/-! ### The installation (R301, R43) -/

theorem tileWrite_eq (s : State) (p a : Nat) (b : Bytes) : ∃ mem c, s.tileWrite p a b = { s with
    mem := mem
    checks := c } := ⟨_, _, rfl⟩

theorem installTile_eq (s : State) (m : Image) (t : Nat) (g : TileProg) : ∃ mem c ts, s.installTile m t g = { s with
    mem := mem
    checks := c
    tiles := ts } := by
  unfold State.installTile
  extract_lets q pal s1 s2
  obtain ⟨mem, c, h1⟩ := tileWrite_eq s q programBase (imgBytes m t 0 0x100000)
  have h2 : ∃ mem c, s2 = { s with
      mem := mem
      checks := c } := by
    unfold s2
    split
    · obtain ⟨mem', c', h2⟩ := tileWrite_eq s1 q paletteBase (imgBytes m t pal 0x10000)
      exact ⟨mem', c', h2.trans (by rw [show s1 = _ from h1])⟩
    · exact ⟨mem, c, h1⟩
  obtain ⟨mem', c', h2⟩ := h2
  rw [h2]
  exact ⟨_, _, _, rfl⟩

theorem foldl_installTile (l : List (Nat × TileProg)) (s : State) : ∃ mem c ts,
    l.foldl (fun s x => s.installTile s.host.programImage x.1 x.2) s = { s with
      mem := mem
      checks := c
      tiles := ts } := by
  induction l generalizing s with
  | nil => exact ⟨_, _, _, rfl⟩
  | cons x r ih =>
    obtain ⟨_, _, _, hone⟩ := installTile_eq s s.host.programImage x.1 x.2
    obtain ⟨_, _, _, hrest⟩ := ih (s.installTile s.host.programImage x.1 x.2)
    exact ⟨_, _, _, by rw [List.foldl_cons, hrest, hone]⟩

theorem placePage_eq (s : State) (x : Nat × Nat) : ∃ mem c pg, s.placePage x = { s with
    mem := mem
    checks := c
    pages := pg } := by
  unfold State.placePage
  dsimp only
  split
  · exact ⟨_, _, _, rfl⟩
  · split
    · obtain ⟨mem, c, h⟩ := tileWrite_eq s (physOf s.repair (x.2 / 1024)) (pageAddr _ 0)
        (tileRead s (physOf s.repair (x.1 / 1024)) (pageAddr _ 0) pageBytes)
      rw [h]
      exact ⟨_, _, _, rfl⟩
    · exact ⟨_, _, _, rfl⟩

theorem foldl_placePage (l : List (Nat × Nat)) (s : State) : ∃ mem c pg, l.foldl State.placePage s = { s with
    mem := mem
    checks := c
    pages := pg } ∧ (l = [] → pg = s.pages) := by
  cases l with
  | nil => exact ⟨_, _, _, rfl, fun _ => rfl⟩
  | cons x r =>
    suffices h : ∀ (l : List (Nat × Nat)) (s : State), ∃ mem c pg, l.foldl State.placePage s = { s with
        mem := mem
        checks := c
        pages := pg } by
      obtain ⟨mem, c, pg, hall⟩ := h (x :: r) s
      exact ⟨mem, c, pg, hall, nofun⟩
    intro l
    induction l with
    | nil => exact fun s => ⟨_, _, _, rfl⟩
    | cons x r ih =>
      intro s
      obtain ⟨_, _, _, hone⟩ := placePage_eq s x
      obtain ⟨_, _, _, hrest⟩ := ih (s.placePage x)
      exact ⟨_, _, _, by rw [List.foldl_cons, hrest, hone]⟩

theorem activate_eq (s : State) : ∃ w sm, s.activate = { s with
    power := w
    seam := sm } ∧ w.state = .active ∧ w.meshRun = true := ⟨_, _, rfl, rfl, rfl⟩

/-- An installed program: the module is ACTIVE, and what belonged to the program before is gone. -/
theorem installProgram_eq (s : State) (p : Program) : ∃ mem c ts pbs pg w sm rings y image, s.installProgram p = { s with
      mem := mem
      checks := c
      tiles := ts
      program := some p
      sync := y
      pbs := pbs
      reduce := {}
      step := { s.step with anyNumber := true }
      mesh := {}
      host := { s.host with
        programImage := []
        installing := none
        kelletImage := image }
      pages := pg
      power := w
      seam := sm
      trace := { s.trace with rings := rings } } ∧
    w.state = .active ∧ w.meshRun = true ∧ y.waiters = [] ∧ (p.bindings.moves = [] → pg = s.pages) := by
  unfold State.installProgram
  obtain ⟨mem, c, ts, htiles⟩ := foldl_installTile p.tiles s
  rw [htiles]
  dsimp only
  generalize List.foldl _ s.trace.rings _ = rings
  generalize hv : State.activate _ = v
  obtain ⟨w, sm, hactive, hstate, hrun⟩ := activate_eq _
  rw [hv] at hactive
  rw [hactive]
  obtain ⟨mem', c', pg, hplaced, hsame⟩ := foldl_placePage p.bindings.moves _
  rw [hplaced]
  exact ⟨mem', c', _, _, pg, w, sm, rings, _, _, rfl, hstate, hrun, rfl, hsame⟩

/-- A COMMAND_DONE changes the sessions and what has been sent only. -/
theorem commandDone_keeps {β : Type} (g : State → β) (hupd : ∀ u id f, g (State.updSession u id f) = g u)
    (hsend : ∀ u m, g (State.sendHost u m) = g u) (s : State) (o : Owed) (c : Code) : g (s.commandDone o c) = g s := by
  refine foldl_keeps g _ (fun u x => ?_) _ s
  unfold State.eventTo
  split
  · rfl
  · dsimp only
    rw [show (decide (3 ≤ (s.mkEvent 4 c 1 moduleWide o.cid 0 0).severity) || decide ((s.mkEvent 4 c 1 moduleWide o.cid 0 0).type = 2) ||
      decide ((s.mkEvent 4 c 1 moduleWide o.cid 0 0).type = 3)) = false from rfl, if_neg Bool.false_ne_true]
    split
    · exact hupd ..
    · exact (hsend ..).trans (hupd ..)

theorem programLoadComplete_eq {o : Owed} {p : Program} (hload : s.host.installing = some (o, p)) (hend : s.boundary = s)
    (hmap : p.fieldMap.toNat = fieldMapValue s.repair) :
    exec (.programLoadComplete []) s = .next ((s.installProgram p).commandDone o 0) := by
  change execProgramLoadComplete [] s = _
  unfold execProgramLoadComplete
  rw [List.any_nil, if_neg Bool.false_ne_true, hload]
  dsimp only
  rw [List.filter_nil, List.foldl_nil, hend, if_neg (not_not.mpr hmap)]

/-- Bytes copied from one place to another read there as they read where they came from. -/
theorem rdBytes_copy {m : List Host.Cell} (hm : Memory.wf m = true) (a b n : Nat) :
    rdBytes (wrBytes m a (rdBytes m b n)) a n = rdBytes m b n := by
  have hread := rdBytes_wrBytes_same (a := a) (rdBytes m b n) hm
  rwa [length_rdBytes] at hread

/-- A committed page of a fenced field's slice becomes that of the slice that takes it over (R43). -/
theorem tileRead_placePage (hm : MemoryWf s) {a b lp lq src dst : Nat} (hlp : lp < 1024) (hlq : lq < 1024)
    (hfenced : fieldState s.repair (fieldOfLogical a) = 1) (hused : fieldState s.repair (fieldOfLogical b) = 0)
    (hsrc : s.pageOf false a lp = some src) (hdst : s.pageOf false b lq = some dst) :
    tileRead (s.placePage (1024 * a + lp, 1024 * b + lq)) (physOf s.repair b) (pageAddr dst 0) pageBytes =
      tileRead s (physOf s.repair a) (pageAddr src 0) pageBytes := by
  have ha : (1024 * a + lp) / 1024 = a ∧ (1024 * a + lp) % 1024 = lp := by omega
  have hb : (1024 * b + lq) / 1024 = b ∧ (1024 * b + lq) % 1024 = lq := by omega
  obtain ⟨ha, ha'⟩ := ha
  obtain ⟨hb, hb'⟩ := hb
  have hplaces : ¬ (fieldState s.repair (fieldOfLogical a) ≠ 1 ∨ fieldState s.repair (fieldOfLogical b) ≠ 0) := by
    rw [hfenced, hused]
    decide
  unfold State.placePage
  dsimp only
  rw [ha, ha', hb, hb', if_neg hplaces, hsrc, hdst, Option.some_or]
  generalize pageBytes = n
  exact rdBytes_copy hm ..

end

/-- Settles O26. -/
theorem programLoads : Obligations.ProgramLoads := by
  unfold Obligations.ProgramLoads
  intro h x s
  refine ⟨fun r ⟨hmem, _, _, _, _, hregions⟩ => ?_, fun off data r hshort hopen hfits => ?_, fun off data r hshort hstep hfits => ?_,
    fun b r ⟨_, _, _, _, _, hregions⟩ hcool hopen => ?_, fun o p hload hend hmap => ?_,
    fun a lp b lq src dst hlp hlq hm hfenced hused hsrc hdst => tileRead_placePage hm hlp hlq hfenced hused hsrc hdst⟩
  · obtain ⟨m, c, mesh, y, ho, hbegin, hprog, himage, hinst, hread⟩ := beginProgram_eq (s := heard h s) hmem
    have hwork : performOp h .programBegin (heard h s) = ((heard h s).beginProgram, 0, []) := rfl
    rw [hbegin] at hwork
    refine ⟨_, congrArg Host.Outcome.next (delit_answered (op := .programBegin) r.1.1 (by nofun) (.inr r.1.2) (.inr r.2) (fun _ => rfl)
      hwork), rfl, (toStandby_power (heard h s)).1, (answered_program ..).1.trans hprog, (answered_program ..).2.1.trans himage,
      (answered_program ..).2.2.trans hinst, hread, fun i hi => ?_⟩
    refine (congrArg Machine.Region.state (regionOf_toStandby (s := heard h s) hregions i)).trans ?_
    change (if i < 56 ∧ (regionOf s.power i).state = .active then (regionOf s.power i).enter .retention else regionOf s.power i).state = _
    by_cases ha : (regionOf s.power i).state = .active
    · rw [if_pos ⟨hi, ha⟩, if_pos ha, Region.enter, if_neg (by rw [ha]; decide)]
    · rw [if_neg fun h => ha h.2, if_neg ha]
  · refine congrArg Host.Outcome.next (State.delit_ok (op := .bulkWrite 1 off data) r.1 (by nofun) (.inr r.2) (.inl rfl) (fun _ => rfl) ?_)
    have hregion : (heard h s).writeRegion 1 off.toNat data = (heard h { s with host := { s.host with
        programImage := wrBytes s.host.programImage off.toNat data } }, 0) :=
      (if_neg (by rw [show (heard h s).host.programOpen = true from hopen]; decide)).trans (if_neg (Nat.not_lt.mpr hfits))
    change doBulkWrite 1 off data (heard h s) = _
    rw [doBulkWrite, if_neg (Nat.not_lt.mpr hshort), hregion]
  · refine congrArg Host.Outcome.next (State.delit_ok (op := .bulkWrite 2 off data) r.1 (by nofun) (.inr r.2) (.inl rfl) (fun _ => rfl) ?_)
    have hregion : (heard h s).writeRegion 2 off.toNat data = (heard h { s with host := { s.host with
        batch := wrBytes s.host.batch off.toNat data } }, 0) :=
      (if_neg (Nat.not_lt.mpr hfits)).trans (if_neg fun hbusy => Bool.false_ne_true (hstep.symm.trans hbusy.1))
    change doBulkWrite 2 off data (heard h s) = _
    rw [doBulkWrite, if_neg (Nat.not_lt.mpr hshort), hregion]
  · have hload : performOp h (.programLoad (programDigest s.host.programImage) b) (heard h s) =
        (((heard h s).loadProgram (programDigest (heard h s).host.programImage) b (owed h)).1,
          ((heard h s).loadProgram (programDigest (heard h s).host.programImage) b (owed h)).2, []) := rfl
    rw [loadProgram_eq (s := heard h s) hcool hopen] at hload
    refine ⟨_, rfl, ?_⟩
    cases hr : rejectOf (readProgram s.host.programImage (programDigest s.host.programImage) b (slabPages s.variant)
        (fieldMapValue s.repair)).2 with
    | some c =>
      have hreject : rejectOf (readProgram (heard h s).host.programImage (programDigest (heard h s).host.programImage) b
        (slabPages (heard h s).variant) (fieldMapValue (heard h s).repair)).2 = some c := hr
      rw [hreject] at hload
      exact fun hc => delit_unset r (by nofun) hc hload
    | none =>
      have haccept : rejectOf (readProgram (heard h s).host.programImage (programDigest (heard h s).host.programImage) b
        (slabPages (heard h s).variant) (fieldMapValue (heard h s).repair)).2 = none := hr
      rw [haccept] at hload
      have hdelit : s.delit h (.programLoad (programDigest s.host.programImage) b) = replied h 1 [] { s with
          power := rampRegions s.repair s.power
          host := { s.host with
            programOpen := false
            installing := some (owed h, (readProgram s.host.programImage (programDigest s.host.programImage) b
              (slabPages s.variant) (fieldMapValue s.repair)).1) } } :=
        State.delit_accepted r.1.1 (by nofun) (.inr r.1.2) (.inr r.2) hload
      refine ⟨⟨_, hdelit, rfl⟩, fun i hi => ?_⟩
      rw [hdelit]
      exact regionOf_rampRegions s.repair hregions hi
  · obtain ⟨mem, c, ts, pbs, pg, w, sm, rings, y, image, hinst, hstate, hrun, hwaiters, hpages⟩ := installProgram_eq s p
    have hdone {β : Type} (g : State → β) (hupd : ∀ u id f, g (State.updSession u id f) = g u)
        (hsend : ∀ u m, g (State.sendHost u m) = g u) : g ((s.installProgram p).commandDone o 0) = g (s.installProgram p) :=
      commandDone_keeps g hupd hsend ..
    have hload' := hdone (fun u => u.host.installing) (fun _ _ _ => rfl) (fun _ _ => rfl)
    have himage := hdone (fun u => u.host.programImage) (fun _ _ _ => rfl) (fun _ _ => rfl)
    refine ⟨_, programLoadComplete_eq hload hend hmap, ?_⟩
    simp only [State.commandDone_program, State.commandDone_power, State.commandDone_step, State.commandDone_reduce,
      State.commandDone_sync, State.commandDone_repair, State.commandDone_mesh, State.commandDone_pages]
    rw [hload', himage, hinst]
    exact ⟨rfl, hstate, hrun, rfl, rfl, rfl, rfl, hwaiters, rfl, rfl, hpages⟩

/-! ### Trace rings (O29) -/

section
variable {s : State} {k : Nat}

/-- A ring as TRACE_CONFIG arms it: its records kept, or the ring emptied. -/
def armedRing (empty : Bool) (r : Machine.Ring) : Machine.Ring := { state := 0, general := if empty then [] else r.general }

theorem armedRing_idem (empty : Bool) (r : Machine.Ring) : armedRing empty (armedRing empty r) = armedRing empty r := by
  cases empty <;> rfl

theorem mem_allRings (hk : k ≤ 2688) (hcap : 0 < ringCapacity s k) : k ∈ s.allRings :=
  List.mem_filter.mpr ⟨List.mem_range.mpr (Nat.lt_succ_of_le hk), decide_eq_true hcap⟩

/-- Arming sets the condition and arms every ring of the module. -/
theorem armTrace_eq (s : State) (c : TraceCfg) (empty : Bool) : ∃ tr, s.armTrace c empty = { s with trace := tr } ∧
    tr.config = some c ∧ tr.armed = true ∧ tr.fired = none ∧
    tr.rings = s.allRings.foldl (fun m k => smUpd {} k (armedRing empty) m) s.trace.rings := by
  unfold State.armTrace State.updTrace
  dsimp only
  rw [show (fun r : Machine.Ring => ({ state := 0, general := if empty = true then [] else r.general } : Machine.Ring)) =
    armedRing empty from rfl]
  generalize List.foldl _ s.trace.rings _ = rings
  exact ⟨_, rfl, rfl, rfl, rfl, rfl⟩

theorem ringAt_armTrace (hw : smWf ({} : Machine.Ring) 0 s.trace.rings = true) (hk : k ≤ 2688) (hcap : 0 < ringCapacity s k)
    {tr : Trace} {empty : Bool} (htr : tr.rings = s.allRings.foldl (fun m k => smUpd {} k (armedRing empty) m) s.trace.rings) :
    smGet {} tr.rings k = armedRing empty (ringAt s k) := by
  rw [htr, smGet_foldl_smUpd (armedRing_idem empty) _ hw, if_pos (mem_allRings hk hcap), ringAt]

/-- Frozen rings keep their records. -/
theorem ringAt_freezeRings (hw : smWf ({} : Machine.Ring) 0 s.trace.rings = true) (k : Nat) :
    ringAt s.freezeRings k = { ringAt s k with state := 2 } :=
  smGet_map_filter (d := ({} : Machine.Ring)) (e := ({} : Machine.Ring)) (g := fun r : Machine.Ring => { r with state := 2 }) rfl k hw

theorem ringCapacity_pos (h : 0 < ringCapacity s k) : 0 < 15 * ringCapacity s k / 16 := by
  revert h
  unfold ringCapacity
  split
  · decide
  · split <;> omega

/-- The record appended last stands last, whatever it has overwritten. -/
theorem append_last {cap : Nat} (hcap : 0 < 15 * cap / 16) (r : Machine.Ring) (x : TraceRec) :
    (r.append cap x).general.getLast? = some x := by
  unfold Machine.Ring.append
  dsimp only
  rw [List.getLast?_drop, if_neg (by rw [List.length_append, List.length_singleton]; omega), List.getLast?_concat]

/-- What a record does to a frozen ring: it goes to the reserve, or is counted as dropped (R391). -/
theorem write_frozen {r : Machine.Ring} (hr : r.state = 2) (cap : Nat) (fired : Bool) (x : TraceRec) :
    r.write cap fired x = if x.keep = true ∧ r.reserve.length + 1 < cap / 16 then { r with reserve := r.reserve ++ [x] }
      else r.drop x := by
  unfold Machine.Ring.write
  rw [if_neg (by rw [hr]; decide), if_neg (by rw [hr]; simp)]

theorem execTraceTrigger_captures {c : TraceCfg} {m : BitVec 64 × BitVec 12} (hk : k ≤ 2688) (hc : s.trace.config = some c)
    (hm : s.trace.fired = some m) (harmed : s.trace.armed = true) (hstate : (ringAt s k).state = 0) (hcap : 0 < ringCapacity s k) :
    exec (.traceTrigger k) s = .next (s.setRing k { (ringAt s k).append (ringCapacity s k) (triggerRec s k m c) with
      state := 1
      postLeft := min c.postCount.toNat (15 * ringCapacity s k / 16 - 1) - (ringAt s k).since
      since := 0 }) := by
  have hno : ¬ (ringCapacity s k = 0 ∨ (ringAt s k).state ≠ 0 ∨ (!s.trace.armed) = true) := by
    rw [hstate, harmed]
    simp only [ne_eq, not_true_eq_false, Bool.not_true, Bool.false_eq_true, or_false]
    omega
  refine (if_neg (Nat.not_lt.mpr hk)).trans ?_
  dsimp only
  rw [hc, hm]
  exact if_neg hno

end

/-- Settles O29. -/
theorem tracesConfiguredAndCaptured : Obligations.TracesConfiguredAndCaptured := by
  unfold Obligations.TracesConfiguredAndCaptured
  refine ⟨fun h x s r hw => ⟨fun c hc => ?_, fun c hc => ?_, ?_⟩, fun s k hk hw => ⟨fun c m hc hm harmed hstate hcap => ?_,
    fun hstate hleft => ?_, fun cap fired x hstate => ?_⟩⟩
  · obtain ⟨tr, harm, hconfig, harmed, hfired, hrings⟩ := armTrace_eq (heard h s) c false
    have hwork : performOp h (.traceSetAndArm c) (heard h s) = ((heard h s).armTrace c false, 0, []) :=
      if_neg (by rw [r.1.1.2, hc]; decide)
    rw [harm] at hwork
    refine ⟨_, congrArg Host.Outcome.next (delit_answered r.1.1 (by nofun) (.inr r.1.2) (.inr r.2) (fun _ => rfl) hwork),
      hconfig, harmed, hfired, fun k hk hcap => ?_, rfl⟩
    have hring := ringAt_armTrace (s := heard h s) hw hk hcap hrings
    exact ⟨congrArg Machine.Ring.state hring, (congrArg Machine.Ring.general hring).trans rfl⟩
  · obtain ⟨tr, harm, hconfig, harmed, hfired, hrings⟩ := armTrace_eq (heard h s) c true
    have hwork : performOp h (.traceEmptyAndArm c) (heard h s) = ((heard h s).armTrace c true, 0, []) :=
      if_neg (by rw [r.1.1.2, hc]; decide)
    rw [harm] at hwork
    refine ⟨_, congrArg Host.Outcome.next (delit_answered r.1.1 (by nofun) (.inr r.1.2) (.inr r.2) (fun _ => rfl) hwork),
      hconfig, harmed, hfired, fun k hk hcap => ?_, rfl⟩
    have hring := ringAt_armTrace (s := heard h s) hw hk hcap hrings
    exact ⟨congrArg Machine.Ring.state hring, (congrArg Machine.Ring.general hring).trans rfl, (congrArg Machine.Ring.reserve hring).trans rfl⟩
  · have hwork : performOp h .traceDisarm (heard h s) = ((heard h s).freezeRings, 0, []) :=
      if_neg (by rw [r.1.1.2]; decide)
    have hring := ringAt_freezeRings (s := heard h s) hw
    exact ⟨_, congrArg Host.Outcome.next (delit_answered r.1.1 (by nofun) (.inr r.1.2) (.inr r.2) (fun _ => rfl) hwork), rfl,
      fun k => congrArg Machine.Ring.state (hring k), fun k => (congrArg Machine.Ring.general (hring k)).trans rfl, rfl⟩
  · refine ⟨_, execTraceTrigger_captures hk hc hm harmed hstate hcap, ?_, ?_, ?_, fun j hj => smGet_smPut_other hj hw, rfl⟩
    · exact congrArg Machine.Ring.state (smGet_smPut_same hw)
    · exact (congrArg (fun r : Machine.Ring => r.general.getLast?) (smGet_smPut_same hw)).trans
        (append_last (ringCapacity_pos hcap) ..)
    · exact congrArg Machine.Ring.postLeft (smGet_smPut_same hw)
  · refine ⟨_, (if_neg (Nat.not_lt.mpr hk)).trans (congrArg Host.Outcome.next (if_pos ⟨hstate, hleft⟩)), smGet_smPut_same hw,
      fun j hj => smGet_smPut_other hj hw, rfl⟩
  · rw [write_frozen hstate]
    refine ⟨?_, fun hkeep hroom => ?_, fun hfull => ?_⟩
    · split
      · exact ⟨rfl, hstate⟩
      · exact ⟨rfl, hstate⟩
    · rw [if_pos ⟨hkeep, hroom⟩]
    · rw [if_neg]
      · exact ⟨rfl, rfl⟩
      · rintro ⟨hkeep, hroom⟩
        obtain hno | hge := hfull
        · exact Bool.false_ne_true (hno.symm.trans hkeep)
        · omega

/-! ### Long commands end (O30) -/

section
variable {s : State} {h : Hdr} {x : Session}

/-- A long command accepted with 0x0001, whose work behind the response is done at once. -/
theorem delit_begun {op : DelitOp} {t : State} (r : Ready h x s) (no : ∀ p, op ≠ .stepOpen p)
    (c : needsControl op = false ∨ x.control = true) (w : betweenSteps op = false ∨ s.step.inProgress = false)
    (f : ∀ u, followOp h op u = u) (a : performOp h op (heard h s) = (t, 1, [])) : s.delit h op = answered h t 1 [] := by
  obtain ⟨hord, hresv⟩ := r
  rw [State.delit_inOrder hord]
  simp [State.execute, mustWait_other no, answerOp_perform (s := heard h s) c w hresv, a, f]

theorem sends_sendImage (s : State) (store : BitVec 16) (address : Nat) (step : BitVec 64) (image : Bytes) :
    Sends s (s.sendImage store address step image) := .foldl (fun _ _ => .sendBulk ..) ..

/-- The pages that an export of the last sealed generation owes. -/
def owedPages (s : State) : List Nat :=
  (s.sliceTiles.flatMap (fun u => (List.range (s.slicePages u)).map (pageKey u))).filter (fun k => smGet 1024 s.pages.prior k = 1024)

/-- An export that begins holds its image; beside it, messages to the store are the only change. -/
theorem startExport_eq (s : State) (r : ExportReq) (o : Owed) : ∃ e w sm l z p tr ho pg, s.startExport r o = { s with
      survival := { s.survival with exporting := some e }
      pages := pg
      power := w
      seam := sm
      links := l
      zOut := z
      pbs := p
      trace := tr
      host := ho } ∧ e.req = r ∧ e.owed = o ∧ e.ranges = [] ∧ pg.owed = if r.which = 1 then [] else owedPages s := by
  obtain ⟨w, sm, hwake⟩ := wake_eq s
  unfold State.startExport
  rw [hwake]
  extract_lets u base step bundle image all pages0 survival0 v
  have howed : v.pages.owed = if r.which = 1 then [] else owedPages s := by
    change (List.filter _ (if base = true then [] else _)) = _
    by_cases hbase : r.which = 1
    · rw [if_pos (by simpa [base] using hbase), if_pos hbase]
      rfl
    · rw [if_neg (by simpa [base] using hbase), if_neg hbase]
      rfl
  split
  · obtain ⟨_, _, _, _, _, hsent, -⟩ := sends_sendImage v r.storeId r.storeAddress.toNat step image
    rw [hsent]
    exact ⟨_, _, _, _, _, _, _, _, _, rfl, rfl, rfl, rfl, howed⟩
  · exact ⟨_, _, _, _, _, _, _, _, _, rfl, rfl, rfl, rfl, howed⟩

/-! ### The parity configuration (R370, R371) -/

theorem judgeJoin_eq (s : State) (c : ParityCfg) (m : JoinMsg) : ∃ tr ho b, s.judgeJoin c m = { s with
    trace := tr
    host := ho
    survival := { s.survival with correlated := b } } := by
  have hjudged : ∃ tr ho, (if joinAgrees s c m then s else s.raise 0x3204 moduleWide noCmd m.sender.toNat) = { s with
      trace := tr
      host := ho } := by
    split
    · exact ⟨_, _, rfl⟩
    · exact ⟨_, _, raise_frame (n := 1) rfl (by decide) (by decide) (by decide)⟩
  obtain ⟨tr, ho, hjudged⟩ := hjudged
  unfold State.judgeJoin
  dsimp only
  rw [hjudged]
  split
  · rw [raise_frame (c := 0x3205) (n := 1) rfl (by decide) (by decide) (by decide)]
    exact ⟨_, _, _, rfl⟩
  · exact ⟨_, _, _, rfl⟩

theorem foldl_judgeJoin (c : ParityCfg) (l : List JoinMsg) (s : State) : ∃ tr ho b, l.foldl (fun s j => s.judgeJoin c j) s = { s with
    trace := tr
    host := ho
    survival := { s.survival with correlated := b } } := by
  induction l generalizing s with
  | nil => exact ⟨_, _, _, rfl⟩
  | cons j r ih =>
    obtain ⟨_, _, _, hone⟩ := judgeJoin_eq s c j
    obtain ⟨_, _, _, hrest⟩ := ih (s.judgeJoin c j)
    rw [List.foldl_cons, hrest, hone]
    exact ⟨_, _, _, rfl⟩

/-- A configuration replaces the one before; the joins that have come are kept, and the group is formed when each peer's agrees. -/
theorem configureParity_eq (s : State) (c : ParityCfg) : ∃ v w sm l z p tr ho, s.configureParity c = { s with
      survival := v
      pages := { s.pages with
        base := []
        nextBase := [] }
      power := w
      seam := sm
      links := l
      zOut := z
      pbs := p
      trace := tr
      host := ho } ∧
    v.config = (if c.size = 0 then none else some c) ∧ v.joins = s.survival.joins ∧ v.exporting = s.survival.exporting ∧
    v.formed = (c.size != 0 && (s.configureParity c).peersInGroup.all (fun y =>
      s.survival.joins.any (fun j => j.sender.toNat == y.1 && joinAgrees s c j))) := by
  unfold State.configureParity
  extract_lets pages0 survival0 u v held
  by_cases hsize : c.size = 0
  · rw [if_pos hsize]
    exact ⟨_, _, _, _, _, _, _, _, rfl, rfl, rfl, rfl, by rw [hsize]; rfl⟩
  · rw [if_neg hsize]
    obtain ⟨w, sm, hwake⟩ := wake_eq u
    obtain ⟨_, _, _, _, _, hsent, -⟩ : Sends u.wake v := .foldl (fun _ _ => .sendBulk ..) ..
    obtain ⟨_, _, _, hjudged⟩ := foldl_judgeJoin c held v
    rw [hjudged, hsent, hwake]
    refine ⟨_, _, _, _, _, _, _, _, rfl, rfl, rfl, rfl, ?_⟩
    rw [bne_iff_ne.mpr hsize]
    rfl

/-! ### Fetches and samples (R311, R395) -/

/-- The bytes of a session's RESULT. -/
def resultOf (s : State) (id : Nat) : Option Bytes := (s.sessionOf id).map (·.result)

theorem resultOf_updSession {f : Session → Session} (hid : ∀ y, (f y).id = y.id) (hres : ∀ y, (f y).result = y.result) (s : State)
    (id k : Nat) : resultOf (s.updSession id f) k = resultOf s k := by
  unfold resultOf State.sessionOf State.updSession
  dsimp only
  rw [List.find?_map, Option.map_map]
  have hfind : ((fun y : Session => decide (y.id = k)) ∘ fun y => if y.id = id then f y else y) = fun y => decide (y.id = k) := by
    funext y
    dsimp only [Function.comp]
    split
    · rw [hid]
    · rfl
  rw [hfind]
  refine congrArg (fun g => Option.map g _) (funext fun y => ?_)
  dsimp only [Function.comp]
  split
  · exact hres y
  · rfl

theorem resultOf_sendHost (s : State) (m : HostMsg) (k : Nat) : resultOf (s.sendHost m) k = resultOf s k := rfl

/-- A COMMAND_DONE leaves every session's RESULT. -/
theorem resultOf_commandDone (s : State) (o : Owed) (c : Code) (k : Nat) : resultOf (s.commandDone o c) k = resultOf s k := by
  refine foldl_keeps (fun u => resultOf u k) _ (fun u x => ?_) _ s
  unfold State.eventTo
  split
  · rfl
  · dsimp only
    rw [show (decide (3 ≤ (s.mkEvent 4 c 1 moduleWide o.cid 0 0).severity) || decide ((s.mkEvent 4 c 1 moduleWide o.cid 0 0).type = 2) ||
      decide ((s.mkEvent 4 c 1 moduleWide o.cid 0 0).type = 3)) = false from rfl, if_neg Bool.false_ne_true]
    split
    · refine resultOf_updSession ?_ ?_ .. <;> exact fun _ => rfl
    · refine (resultOf_sendHost ..).trans (resultOf_updSession ?_ ?_ ..) <;> exact fun _ => rfl

theorem resultOf_set {id : Nat} {y : Session} (hy : s.sessionOf id = some y) (b : Bytes) :
    resultOf (s.updSession id (fun x => { x with result := b })) id = some b := by
  rw [resultOf, sessionOf_updSession (f := fun x => { x with result := b }) (fun _ => rfl), hy]
  rfl

/-- A tile's samples draw free values and change nothing else. -/
theorem sampleTile_eq (s : State) (t : Nat) (mask : BitVec 16) : ∃ n, (s.sampleTile t mask).1 = { s with draws := n } := by
  suffices h : ∀ (l : List Nat) (p : Nat) (r : State × Bytes), ∃ n, (l.foldl (fun (r : State × Bytes) i =>
      let e := counterEntry r.1 (smGet ({} : Counter) (tileOf r.1 p).counters i) i
      (e.1, r.2 ++ e.2)) r).1 = { r.1 with draws := n } from h _ _ (s, [])
  intro l p
  induction l with
  | nil => exact fun r => ⟨_, rfl⟩
  | cons i l ih =>
    intro r
    obtain ⟨n, hrest⟩ := ih ((counterEntry r.1 (smGet ({} : Counter) (tileOf r.1 p).counters i) i).1,
      r.2 ++ (counterEntry r.1 (smGet ({} : Counter) (tileOf r.1 p).counters i) i).2)
    have hone : ∃ n, (counterEntry r.1 (smGet ({} : Counter) (tileOf r.1 p).counters i) i).1 = { r.1 with draws := n } := by
      unfold counterEntry
      dsimp only
      split <;> exact ⟨_, rfl⟩
    obtain ⟨m, hone⟩ := hone
    exact ⟨n, by rw [List.foldl_cons, hrest, hone]⟩

end

/-- Settles O30. -/
theorem longCommandsEnd : Obligations.LongCommandsEnd := by
  unfold Obligations.LongCommandsEnd
  intro h x s
  refine ⟨fun r hr hdest hwhich hstore hfree hprog => ?_, fun e he hdone => ?_, fun c r hvalid haddr hmembers => ?_,
    fun f rest hf => ?_, fun u sa hu hsamplings htiles hdue => ?_⟩
  · obtain ⟨e, w, sm, l, z, p, tr, ho, pg, hstart, hreq, howed, hranges, hpages⟩ := startExport_eq (heard h s) r (owed h)
    have hwork : performOp h (.snapshotExport r) (heard h s) = ((heard h s).startExport r (owed h), 1, []) := by
      change doSnapshotExport h r (heard h s) = _
      rw [doSnapshotExport, hstore, if_neg (by simp only [Bool.false_eq_true, or_false]; omega)]
      rw [if_neg (by rw [show (heard h s).survival.exporting = none from hfree]; decide),
        if_neg (by rw [show (heard h s).program = s.program from rfl, Option.isNone_eq_false_iff.mpr hprog]; decide)]
      rfl
    rw [hstart] at hwork
    exact ⟨_, e, congrArg Host.Outcome.next (delit_begun hr.1 (by nofun) (.inr hr.2) (.inl rfl) (fun _ => rfl) hwork), rfl, hreq,
      howed, hranges, rfl, rfl, rfl, hpages⟩
  · have hwork : s.endExport 0 = ({ s with
        survival := { s.survival with exporting := none }
        pages := { s.pages with
          owed := []
          placed := []
          staged := [] } } : State).commandDone e.owed 0 := by rw [State.endExport, he]
    obtain ⟨ho, htells, -⟩ := Tells.commandDone ({ s with
        survival := { s.survival with exporting := none }
        pages := { s.pages with
          owed := []
          placed := []
          staged := [] } } : State) e.owed 0
    have hexec : exec .exportComplete s = .next (s.endExport 0) := by
      change execExportComplete s = _
      rw [execExportComplete, he]
      refine if_neg fun ⟨hone, hshort⟩ => ?_
      obtain hzero | hlen := hdone
      · exact absurd (hone.symm.trans hzero) (by decide)
      · omega
    rw [hwork, htells] at hexec
    exact ⟨_, hexec, rfl, rfl, rfl⟩
  · obtain ⟨v, w, sm, l, z, p, tr, ho, hconf, hconfig, hjoins, hexp, hformed⟩ := configureParity_eq (heard h s) c
    have hwork : performOp h (.parityConfig c) (heard h s) = ((heard h s).configureParity c, 0, []) := by
      change doParityConfig c (heard h s) = _
      have hstray : (c.members.drop c.size.toNat).any (· ≠ 0xFFFF) = false := by
        rw [List.any_eq_false]
        intro m hm
        rw [hmembers m hm]
        decide
      rw [doParityConfig, show parityInvalid (heard h s) c = false from hvalid, if_neg Bool.false_ne_true, hstray,
        if_neg (by rw [haddr]; decide)]
      rfl
    rw [hconf] at hwork hformed
    exact ⟨_, congrArg Host.Outcome.next (delit_answered r.1.1 (by nofun) (.inr r.1.2) (.inr r.2) (fun _ => rfl) hwork),
      hconfig, hjoins, hformed, rfl, hexp, rfl, rfl⟩
  · have hexec : exec .fetchComplete s = .next (State.commandDone (if f.status = 0 then
        ({ s with host := { s.host with fetches := rest } } : State).updSession f.owed.session (fun x => { x with result := f.data })
        else { s with host := { s.host with fetches := rest } }) f.owed f.status) := by
      change execFetchComplete s = _
      rw [execFetchComplete, hf]
    generalize hu : (if f.status = 0 then ({ s with host := { s.host with fetches := rest } } : State).updSession f.owed.session
      (fun x => { x with result := f.data }) else { s with host := { s.host with fetches := rest } }) = u at hexec
    have hhost : ∃ ss, u = { s with host := { s.host with
        fetches := rest
        sessions := ss } } := by
      rw [← hu]
      split <;> exact ⟨_, rfl⟩
    obtain ⟨ss, hhost⟩ := hhost
    have hfetches := commandDone_keeps (fun u => u.host.fetches) (fun _ _ _ => rfl) (fun _ _ => rfl) u f.owed f.status
    obtain ⟨ho, htells, -⟩ := Tells.commandDone u f.owed f.status
    refine ⟨_, hexec, hfetches.trans (by rw [hhost]), by rw [htells, hhost], fun y hstatus hy => ?_⟩
    refine (resultOf_commandDone u f.owed f.status f.owed.session).trans ?_
    rw [← hu, if_pos hstatus]
    exact resultOf_set (s := { s with host := { s.host with fetches := rest } }) hy f.data
  · obtain ⟨n, hsample⟩ := sampleTile_eq s u sa.mask
    have hmine : (sa.tiles.contains u && decide (sa.time.toNat ≤ s.now.toNat)) = true := by
      rw [htiles, decide_eq_true hdue]
      simp
    have hall : (sa.tiles.filter (· ≠ u)).isEmpty = true := by
      rw [htiles]
      simp
    have hexec : exec (.counterSample u) s = .next (({ (s.sampleTile u sa.mask).1 with host := { (s.sampleTile u sa.mask).1.host with
        samplings := [] } } : State).startFetch sa.owed
          ((smPut [] u (s.sampleTile u sa.mask).2 sa.got).flatMap (fun g => g.2)) 0) := by
      have hreal : ¬ logicalTiles ≤ u := Nat.not_le.mpr hu
      change execCounterSample u s = _
      unfold execCounterSample
      rw [if_neg hreal]
      dsimp only
      rw [hsamplings, List.find?_cons_of_pos (p := fun x : Sampling => x.tiles.contains u && decide (x.time.toNat ≤ s.now.toNat)) hmine,
        List.eraseP_cons_of_pos (p := fun x : Sampling => x.tiles.contains u && decide (x.time.toNat ≤ s.now.toNat)) hmine]
      exact if_pos hall
    obtain ⟨w, sm, hwake⟩ := wake_eq ({ (s.sampleTile u sa.mask).1 with host := { (s.sampleTile u sa.mask).1.host with
      samplings := [] } } : State)
    rw [State.startFetch, hwake, hsample] at hexec
    exact ⟨_, _, hexec, rfl, rfl, rfl, rfl, rfl, rfl, rfl⟩

/-! ### The end of a self-test (O31) -/

section
variable {s : State} {p : Nat}

/-- What a test of a block may leave of the stores: bytes of the tile cleared. -/
structure Scrubs (p : Nat) (s u : State) : Prop where
  rest : ∃ m c, u = { s with
    mem := m
    checks := c }
  memWf : MemoryWf u
  mem : ∀ q a, a < 2 ^ 40 → rdByte u.mem (memKey q a) = rdByte s.mem (memKey q a) ∨
    q = p ∧ rdByte u.mem (memKey q a) = 0

theorem scrubs_refl (hm : MemoryWf s) : Scrubs p s s := ⟨⟨_, _, rfl⟩, hm, fun _ _ _ => .inl rfl⟩

theorem Scrubs.trans {u v : State} (h : Scrubs p s u) (k : Scrubs p u v) : Scrubs p s v where
  rest := by
    obtain ⟨_, _, rfl⟩ := h.rest
    obtain ⟨_, _, rfl⟩ := k.rest
    exact ⟨_, _, rfl⟩
  memWf := k.memWf
  mem q a ha := by
    obtain hk | hk := k.mem q a ha
    · exact (h.mem q a ha).imp hk.trans (fun ⟨hq, hz⟩ => ⟨hq, hk.trans hz⟩)
    · exact .inr hk

theorem rdByte_tileClear (hm : MemoryWf s) {a n q b : Nat} (hb : b < 2 ^ 40) (han : a + n ≤ 2 ^ 40) :
    rdByte (s.tileClear p a n).mem (memKey q b) = if q = p ∧ a ≤ b ∧ b < a + n then 0 else rdByte s.mem (memKey q b) := by
  refine (rdByte_clearRange (lo' := 0) (memKey p a) (memKey p (a + n)) (memKey q b) hm).trans (if_congr ?_ rfl rfl)
  unfold memKey
  omega

theorem scrubs_tileClear (hm : MemoryWf s) {a n : Nat} (han : a + n ≤ 2 ^ 40) : Scrubs p s (s.tileClear p a n) where
  rest := ⟨_, _, rfl⟩
  memWf := clearRange_wf _ _ hm
  mem q b hb := by
    rw [rdByte_tileClear hm hb han]
    split
    case isTrue h => exact .inr ⟨h.1, rfl⟩
    case isFalse h => exact .inl rfl

theorem scrubs_ite {b : Bool} (hm : MemoryWf s) {a n : Nat} (han : a + n ≤ 2 ^ 40) :
    Scrubs p s (if b = true then s.tileClear p a n else s) := by
  split
  · exact scrubs_tileClear hm han
  · exact scrubs_refl hm

/-- R357: which stores of a tile a test of a block leaves zeroed. -/
def testedStores (block : Nat) (t : Tile) : Tile :=
  let hit (b : Nat) : Bool := block == 0 || block == b
  { t with
    canvasA := if hit 1 || hit 2 then {} else t.canvasA
    canvasB := if hit 1 || hit 2 then {} else t.canvasB
    sieve0 := if hit 3 then {} else t.sieve0
    sieve1 := if hit 3 then {} else t.sieve1
    sieveCheck := if hit 3 then [] else t.sieveCheck }

theorem testScrub_eq (hm : MemoryWf s) (block : Nat) :
    ∃ u, Scrubs p s u ∧ s.testScrub p block = u.updTile p (testedStores block) ∧
      (block = 6 → ∀ a, a < tileMemBytes → rdByte u.mem (memKey p a) = 0) := by
  have hmem := scrubs_ite (p := p) (b := block == 0 || block == 6) hm (a := 0) (n := tileMemBytes) (by decide)
  have hsieve := hmem.trans (scrubs_ite (b := block == 0 || block == 3) hmem.memWf (a := sieveBase) (n := 0x100000) (by decide))
  have hbuffer := hsieve.trans
    (scrubs_ite (b := block == 0 || block == 4) hsieve.memWf (a := bufferBase) (n := 0x10000) (by decide))
  refine ⟨_, hbuffer, rfl, ?_⟩
  rintro rfl a ha
  refine (rdByte_tileClear hm (ha.trans (by decide)) (by decide)).trans (if_pos ⟨rfl, Nat.zero_le a, ?_⟩)
  rwa [Nat.zero_add]

end

/-! #### What a failure enters into the history -/

section
variable {s : State} {site block lane : Nat}

/-- The history with a failed test of a site in it. -/
def failureEntered (s : State) (site block lane : Nat) (f : List (BitVec 64)) : State := s.updRepair (fun r => { r with
  history := smPut {} (siteKey site block lane)
    { smGet ({} : SiteHistory) s.repair.history (siteKey site block lane) with failures := f } r.history
  fullPassed := if site < physicalTiles then r.fullPassed.filter (· ≠ fieldOfPhys site) else r.fullPassed })

/-- The place and the lane that the codes of a failed test name. -/
def failedPlace (site block : Nat) : Place := ⟨BitVec.ofNat 12 site, BitVec.ofNat 8 block⟩

theorem noteFailure_eq {f : List (BitVec 64)}
    (hf : (s.age :: (smGet ({} : SiteHistory) s.repair.history (siteKey site block lane)).failures).take 2 = f) :
    s.noteFailure site block lane =
      if (f.length = 2 ∧ s.age.toNat < (f.getD 1 0).toNat + dayCycles) ∧ ¬ s.repair.lasting.contains (siteKey site block lane) then
        (((failureEntered s site block lane f).raise 0x2107 (failedPlace site block) noCmd lane).updRepair (fun r => { r with
          lasting := r.lasting ++ [siteKey site block lane] })).raise 0x2108 (failedPlace site block) noCmd lane
      else (failureEntered s site block lane f).raise 0x2107 (failedPlace site block) noCmd lane := by
  subst hf
  rfl

/-- The first failure of a site enters its history and is not lasting (R250). -/
theorem noteFailure_first (hnone : (smGet ({} : SiteHistory) s.repair.history (siteKey site block lane)).failures = []) :
    ∃ tr ho, s.noteFailure site block lane = { failureEntered s site block lane [s.age] with
      trace := tr
      host := ho } := by
  rw [noteFailure_eq (congrArg (fun l => (s.age :: l).take 2) hnone), if_neg (by simp),
    raise_frame (n := 1) rfl (by decide) (by decide) (by decide)]
  exact ⟨_, _, rfl⟩

/-- A second failure within 24 hours makes the site lasting (R250). -/
theorem noteFailure_again {before : BitVec 64}
    (hone : (smGet ({} : SiteHistory) s.repair.history (siteKey site block lane)).failures = [before])
    (hday : s.age.toNat < before.toNat + dayCycles) (hnew : siteKey site block lane ∉ s.repair.lasting) :
    ∃ tr ho, s.noteFailure site block lane = { failureEntered s site block lane [s.age, before] with
      repair := { (failureEntered s site block lane [s.age, before]).repair with
        lasting := s.repair.lasting ++ [siteKey site block lane] }
      trace := tr
      host := ho } := by
  rw [noteFailure_eq (congrArg (fun l => (s.age :: l).take 2) hone),
    if_pos ⟨⟨rfl, hday⟩, fun hc => hnew (List.contains_iff_mem.mp hc)⟩,
    raise_frame (n := 1) (c := 0x2107) rfl (by decide) (by decide) (by decide),
    raise_frame (n := 1) rfl (by decide) (by decide) (by decide)]
  exact ⟨_, _, rfl⟩

end

/-! #### The end of a test -/

section
variable {s : State}

theorem losePages_none (t : Nat) (dark : Bool) : s.losePages t [] dark = s := by
  unfold State.losePages
  simp

theorem spareLasting_none (h : s.repair.lasting = []) : s.spareLasting = s := by
  unfold State.spareLasting
  rw [h]
  rfl

theorem resumeOpen_none (h : s.host.waitingOpen = none) : s.resumeOpen = s := by
  unfold State.resumeOpen
  rw [h]

theorem resumeOpen_busy (h : s.step.inProgress = true) : s.resumeOpen = s := by
  unfold State.resumeOpen
  split
  · rfl
  · exact if_pos (.inr h)

/-- The end of the one test that runs, of a block of one tile, which found no bad page. -/
theorem testDone_eq {site : BitVec 16} {block : BitVec 8} {o : Owed} {failed : List (BitVec 8)} {v : State}
    (hone : s.repair.tests = [⟨site, block, 0, false, false, true, [o]⟩]) (hsite : site.toNat < 2688)
    (hv : failed.foldl (fun u b => u.noteFailure site.toNat b.toNat 0)
      ((s.updRepair (fun x => { x with tests := [] })).testScrub site.toNat block.toNat) = v)
    (hdead : v.arbiter.deadTiles = []) (hend : v.step.inProgress = true ∨ v.repair.lasting = []) :
    s.testDone site.toNat block.toNat 0 ⟨failed, []⟩ = v.commandDone o (if failed = [] then 0 else 0x2107) := by
  have hphys : site.toNat < physicalTiles := hsite
  have hwide : ¬ site.toNat = 0xFFF := fun hc => absurd (hc ▸ hsite) (by decide)
  have hlink : ¬ (0xB00 ≤ site.toNat ∧ block.toNat = 16) := fun hc => absurd (hc.1.trans_lt hsite) (by decide)
  have hlast (c : Code) : (if (v.commandDone o c).step.inProgress = true then v.commandDone o c
      else (v.commandDone o c).spareLasting) = v.commandDone o c := by
    refine ite_eq_left_iff.mpr fun hidle => spareLasting_none ?_
    rw [State.commandDone_step] at hidle
    rw [State.commandDone_repair]
    exact hend.resolve_left hidle
  have hcleared : s.updRepair (fun x => { x with tests := x.tests.filter (fun y => !(y.site.toNat == site.toNat &&
      y.block.toNat == block.toNat && y.lane.toNat == 0 && y.running)) }) = s.updRepair (fun x => { x with tests := [] }) := by
    unfold State.updRepair
    dsimp only
    rw [hone]
    simp
  unfold State.testDone
  rw [hone]
  simp only [List.find?_cons, beq_self_eq_true, Bool.and_self, BitVec.toNat_zero, BitVec.ofNat_eq_ofNat, if_neg hwide,
    if_neg hlink, Bool.false_eq_true, if_false, if_pos hphys, false_and, List.foldl_cons, List.foldl_nil, losePages_none,
    List.isEmpty_nil, Bool.not_true, Bool.or_false, Bool.and_false]
  rw [hcleared]
  rcases logicalOf s.repair site.toNat
  all_goals
    dsimp only
    simp only [hv, State.commandDone_arbiter, hdead, List.contains_nil, Bool.false_eq_true, if_false, hlast]
    cases failed <;> rfl

/-- During a step the failure of the one test that runs is what its end leaves in the repair data. -/
theorem testFailed_repair {site : BitVec 16} {block : BitVec 8} {o : Owed} {b : BitVec 8} {u v : State}
    (hone : s.repair.tests = [⟨site, block, 0, false, false, true, [o]⟩]) (hsite : site.toNat < 2688)
    (hu : (s.updRepair (fun x => { x with tests := [] })).testScrub site.toNat block.toNat = u)
    (hv : u.noteFailure site.toNat b.toNat 0 = v) (hdead : v.arbiter.deadTiles = []) (hbusy : v.step.inProgress = true) :
    (s.testDone site.toNat block.toNat 0 ⟨[b], []⟩).resumeOpen.repair = v.repair := by
  rw [testDone_eq (failed := [b]) hone hsite ((congrArg (State.noteFailure · _ _ _) hu).trans hv) hdead (.inl hbusy),
    resumeOpen_busy ((congrArg Step.inProgress (State.commandDone_step ..)).trans hbusy), State.commandDone_repair]

end

/-- Settles O31: the end of the one test that runs. -/
theorem selftestEnds : Obligations.SelftestEnds := by
  unfold Obligations.SelftestEnds
  intro s site block o hone hsite hdead hopen hlasting hcan
  obtain ⟨u, hscrubs, hscrub, hzero⟩ := testScrub_eq (p := site.toNat) (s := s.updRepair (fun x => { x with tests := [] }))
    hcan.1 block.toNat
  obtain ⟨m, c, hu⟩ := hscrubs.rest
  have htiles : smWf ({} : Tile) 0 u.tiles = true := hu ▸ hcan.2.1
  have hexec (f : List (BitVec 8)) : exec (.selftestDone site block 0 ⟨f, []⟩) s =
      .next (s.testDone site.toNat block.toNat 0 ⟨f, []⟩).resumeOpen := rfl
  refine ⟨?_, fun b hnone hwf hbusy => ?_, fun b before hbefore hwf hbusy hday => ?_⟩
  · have hdone := testDone_eq (failed := []) hone hsite hscrub (by subst hu; exact hdead) (.inr (by subst hu; exact hlasting))
    have hwaits := (commandDone_keeps (fun u => u.host.waitingOpen) (fun _ _ _ => rfl) (fun _ _ => rfl)
      (u.updTile site.toNat (testedStores block.toNat)) o 0).trans ((congrArg (fun w => w.host.waitingOpen) hu).trans hopen)
    obtain ⟨ho, htold, -⟩ := Tells.commandDone (u.updTile site.toNat (testedStores block.toNat)) o 0
    refine ⟨_, (hexec []).trans (congrArg _ ((congrArg State.resumeOpen hdone).trans (resumeOpen_none hwaits))), ?_⟩
    rw [if_pos rfl, htold]
    subst hu
    refine ⟨rfl, fun p a ha hp => (hscrubs.mem p a ha).resolve_right fun hc => hp hc.1,
      fun p hp => tileOf_updTile_other _ htiles hp, fun h6 a ha => hzero (congrArg BitVec.toNat h6) a ha, rfl⟩
  · have hnone' := (congrArg (fun w => (smGet ({} : SiteHistory) w.repair.history (siteKey site.toNat b.toNat 0)).failures) hu).trans
      hnone
    obtain ⟨tr, ho, hnote⟩ := noteFailure_first (s := u.updTile site.toNat (testedStores block.toNat)) hnone'
    refine ⟨_, hexec [b], ?_⟩
    rw [testFailed_repair hone hsite hscrub hnote (hu ▸ hdead) (hu ▸ hbusy)]
    subst hu
    exact ⟨rfl, hlasting, (congrArg SiteHistory.failures (smGet_smPut_same hwf)).trans rfl⟩
  · have hone' := (congrArg (fun w => (smGet ({} : SiteHistory) w.repair.history (siteKey site.toNat b.toNat 0)).failures) hu).trans
      hbefore
    obtain ⟨tr, ho, hnote⟩ := noteFailure_again (s := u.updTile site.toNat (testedStores block.toNat)) hone' (hu ▸ hday)
      (hu ▸ by simp [State.updRepair, hlasting])
    refine ⟨_, hexec [b], ?_⟩
    rw [testFailed_repair hone hsite hscrub hnote (hu ▸ hdead) (hu ▸ hbusy)]
    subst hu
    exact congrArg (· ++ _) hlasting

end Sys2Proof.Laws
end

section
/-! The course of a step, column totals, blocks and votes (O39 to O41, O43) -/

namespace Sys2Proof.Laws

open Sys2Proof.Machine Sys2Proof.Safety

/-! ### The phases of a step (O39)

What a step boundary tells the sessions when it leaves a field map without an entry: nothing. -/

section
variable {s : State}

theorem Sends.variant {u : State} (h : Sends s u) : u.variant = s.variant := by
  obtain ⟨_, _, _, _, _, rfl, _⟩ := h
  rfl

theorem Sends.repair {u : State} (h : Sends s u) : u.repair = s.repair := by
  obtain ⟨_, _, _, _, _, rfl, _⟩ := h
  rfl

theorem endExport_repair (c : Code) : (s.endExport c).repair = s.repair := by
  unfold State.endExport
  split
  · rfl
  · exact State.commandDone_repair ..

theorem requestPage_repair (t i : Nat) (l : Option Nat) (st : BitVec 32) : (s.requestPage t i l st).repair = s.repair := by
  unfold State.requestPage
  split
  · rfl
  · dsimp only
    split
    · exact State.raise_repair ..
    · exact foldl_keeps State.repair _ (fun u _ => (Sends.sendBulk u ..).repair) _ _

theorem handleLost_repair (t page : Nat) (dark : Bool) : (s.handleLost t page dark).repair = s.repair := by
  unfold State.handleLost
  extract_lets from' mine v hasParity u
  have hu : u.repair = s.repair := by
    unfold u
    split
    · exact endExport_repair _
    · rfl
  split
  · exact (requestPage_repair ..).trans hu
  · exact (requestPage_repair ..).trans hu
  · split
    · exact hu
    · dsimp only
      split
      · exact (requestPage_repair ..).trans hu
      · split
        · exact (requestPage_repair ..).trans hu
        · exact (State.raise_repair ..).trans hu

theorem losePages_repair (t : Nat) (pages : List Nat) (dark : Bool) : (s.losePages t pages dark).repair = s.repair :=
  foldl_keeps State.repair _ (fun _ _ => handleLost_repair ..) _ _

theorem loseSlab_repair (t : Nat) (dark : Bool) : (s.loseSlab t dark).repair = s.repair := by
  simp [State.loseSlab, losePages_repair]

theorem withPages_repair (s : State) (p : Pages) (v : Survival) : ({ s with
    pages := p
    survival := v } : State).repair = s.repair := rfl

theorem rescueDark_repair : s.rescueDark.repair = s.repair := by
  rw [State.rescueDark]
  split
  · split
    · exact (withPages_repair ..).trans (sends_sendImage ..).repair
    · rfl
  · rfl

/-- A field that goes dark has state 0b10 in the map, and nothing else of the repair data but the FULL tests passed changes. -/
theorem darken_repair (i : Nat) : (s.darken i).repair = { s.repair with
    fieldMap := smPut 0 i 2 s.repair.fieldMap
    fullPassed := s.repair.fullPassed.filter (· ≠ i) } := by
  unfold State.darken
  rw [rescueDark_repair, State.stopField_repair]
  dsimp only
  rw [foldl_keeps State.repair State.clearVolatile fun u p => u.clearVolatile_repair p,
    foldl_keeps State.repair (fun u t => State.loseSlab u t true) fun u t => loseSlab_repair t true, moveRecord_repair]
  rfl

theorem smPut_ne_nil {α : Type} [DecidableEq α] {d v : α} {k : Nat} (hv : v ≠ d) (m : SMap α) : smPut d k v m ≠ [] := by
  intro h
  have hread := smGet_smPut_ne (k := k) hv m
  rw [h] at hread
  exact hv hread.symm

theorem fieldMap_ne_nil {r : Repair} {i : Nat} (h : fieldState r i = 2) : r.fieldMap ≠ [] := by
  intro hnil
  rw [fieldState, hnil] at h
  have hzero : (0 : BitVec 2) = 2 := h
  exact absurd hzero (by decide)

/-- Fields that go dark stay in the field map. -/
theorem foldl_darken_fieldMap : ∀ (l : List Nat) (s : State), l ≠ [] ∨ s.repair.fieldMap ≠ [] →
    (l.foldl (fun s i => if fieldState s.repair i = 2 then s else s.darken i) s).repair.fieldMap ≠ []
  | [], _, h => h.resolve_left (fun hne => hne rfl)
  | i :: l, s, _ => by
    refine foldl_darken_fieldMap l _ (.inr ?_)
    dsimp only
    split
    case isTrue h => exact fieldMap_ne_nil h
    case isFalse =>
      rw [darken_repair]
      exact smPut_ne_nil (by decide) _

theorem foldl_darken_lasting (l : List Nat) (s : State) :
    (l.foldl (fun s i => if fieldState s.repair i = 2 then s else s.darken i) s).repair.lasting = s.repair.lasting := by
  refine foldl_keeps (fun u => u.repair.lasting) _ (fun u i => ?_) l s
  split
  · rfl
  · rw [darken_repair]

theorem raise_darkFields (c : Code) (p : Place) (i : BitVec 64) (d : Nat) (e : BitVec 64) :
    (s.raise c p i d e).arbiter.darkFields = s.arbiter.darkFields := by
  have hdeath (u : State) : (u.noteDeath c p).arbiter.darkFields = u.arbiter.darkFields := by
    unfold State.noteDeath
    split <;> rfl
  have hlatch (u : State) : (u.latch c p).arbiter.darkFields = u.arbiter.darkFields := by
    unfold State.latch
    dsimp only
    split
    · rfl
    · split
      · rw [State.traceAt_arbiter]
        rfl
      · rfl
  have hfatal (u : State) : (u.startFatal c).arbiter.darkFields = u.arbiter.darkFields := by
    unfold State.startFatal
    split <;> rfl
  unfold State.raise
  extract_lets sev u v w
  have hw : w.arbiter.darkFields = s.arbiter.darkFields := by
    refine (hdeath v).trans ?_
    unfold v
    split
    · exact congrArg Arbiter.darkFields (State.traceAt_arbiter ..)
    · rw [State.sendEvent_arbiter, State.traceAt_arbiter]
  split
  · rfl
  · split
    · exact (hlatch w).trans hw
    · split
      · exact (hfatal w).trans hw
      · exact hw

theorem loseLock_darkFields (k : Nat) : (s.loseLock k).arbiter.darkFields = s.arbiter.darkFields := by
  unfold State.loseLock
  split
  · rfl
  · dsimp only
    split
    · exact (raise_darkFields ..).trans (raise_darkFields ..)
    · exact raise_darkFields ..

/-- A breaker that opens leaves a dark field to the boundary. -/
theorem openBreaker_darkFields (i : Nat) : (s.openBreaker i).arbiter.darkFields ≠ [] := by
  have hstop (u : State) : (u.stopField i).arbiter.darkFields = u.arbiter.darkFields :=
    foldl_keeps (fun u => u.arbiter.darkFields) _ (fun _ _ => loseLock_darkFields _) _ _
  unfold State.openBreaker
  rw [hstop]
  dsimp only
  split
  case isTrue h => exact fun hnil => by simp [hnil] at h
  case isFalse => exact List.append_ne_nil_of_right_ne_nil _ (List.cons_ne_nil i [])

/-- Breakers that open at a boundary, one by one. -/
theorem foldl_openBreaker_darkFields : ∀ (l : List Nat) (s : State), l ≠ [] ∨ s.arbiter.darkFields ≠ [] →
    (l.foldl (fun s i => (s.openBreaker i).raise 0x7006 moduleWide noCmd i) s).arbiter.darkFields ≠ []
  | [], _, h => h.resolve_left (fun hne => hne rfl)
  | i :: l, s, _ => foldl_openBreaker_darkFields l _ (.inr (by rw [raise_darkFields]; exact openBreaker_darkFields i))

theorem sends_setTakeovers (s : State) : Sends s s.setTakeovers := by
  unfold State.setTakeovers
  split
  · exact .refl s
  · refine .foldl (fun u n => ?_) _ s
    unfold State.setTakeover
    dsimp only
    split
    · exact ((Sends.updLink ..).trans (.updLink ..)).trans (.linkRecord ..)
    · split
      · exact (((Sends.updLink ..).trans (.updLink ..)).trans (.linkRecord ..)).trans (.linkRecord ..)
      · exact .refl u

/-- What a boundary does after its repairs: it queues and starts tests, sets takeovers, and ends a program that a reset took. -/
def boundaryEnd (s : State) : State :=
  let s2 := s.arbiter.deadTiles.foldl (fun s p => s.queueTest p 0 0 false false []) s
  let s2w := if s2.repair.tests.isEmpty then s2 else s2.wake
  let s3 := (s2w.updRepair (fun r => { r with tests := r.tests.map (fun t => { t with running := true }) })).setTakeovers
  if s3.arbiter.unload then
    { s3.unloadProgram.toStandby with arbiter := { s3.arbiter with unload := false } }
  else s3

/-- What the end of a boundary leaves where no link can be taken over. -/
def boundaryLeaves (s : State) : SMap (BitVec 2) × Variant × List HostMsg := (s.repair.fieldMap, s.variant, s.host.sent)

theorem boundaryLeaves_queueTest (p : Nat) : boundaryLeaves (s.queueTest p 0 0 false false []) = boundaryLeaves s := by
  unfold State.queueTest
  dsimp only
  split <;> rfl

theorem boundaryLeaves_wake : boundaryLeaves s.wake = boundaryLeaves s := by
  unfold boundaryLeaves
  rw [State.wake_repair, State.wake_variant, State.wake_host]

theorem boundaryLeaves_with {u : State} {p : Option Program} {m : Mesh} {y : Sync} {h : HostSide} (hsent : h.sent = u.host.sent) :
    boundaryLeaves { u with
      program := p
      mesh := m
      sync := y
      host := h } = boundaryLeaves u := by
  unfold boundaryLeaves
  rw [hsent]

theorem boundaryLeaves_unload : boundaryLeaves s.unloadProgram = boundaryLeaves s := by
  have hclear (u : State) (p : Nat) : boundaryLeaves (u.tileClear p programBase 0x100000) = boundaryLeaves u := by
    unfold boundaryLeaves
    rw [State.tileClear_repair, State.tileClear_variant, State.tileClear_host]
  rw [State.unloadProgram]
  refine (boundaryLeaves_with ?_).trans (foldl_keeps boundaryLeaves _ hclear _ _)
  dsimp only

theorem boundaryLeaves_standby (u : State) (a : Arbiter) : boundaryLeaves { u.toStandby with arbiter := a } = boundaryLeaves u := rfl

theorem boundaryEnd_takeovers : ∃ u, boundaryLeaves u = boundaryLeaves s ∧
    boundaryLeaves (boundaryEnd s) = boundaryLeaves u.setTakeovers := by
  unfold boundaryEnd
  extract_lets t w u
  have ht : boundaryLeaves t = boundaryLeaves s := foldl_keeps boundaryLeaves _ (fun _ _ => boundaryLeaves_queueTest _) _ _
  have hw : boundaryLeaves w = boundaryLeaves t := by
    unfold w
    split
    · rfl
    · exact boundaryLeaves_wake
  refine ⟨w.updRepair (fun r => { r with tests := r.tests.map (fun t => { t with running := true }) }), hw.trans ht, ?_⟩
  split
  · exact (boundaryLeaves_standby ..).trans boundaryLeaves_unload
  · rfl

/-- The end of a boundary leaves the field map and the variant, and where no link can be taken over what the sessions were told. -/
theorem boundaryEnd_keeps : (boundaryEnd s).repair.fieldMap = s.repair.fieldMap ∧ (boundaryEnd s).variant = s.variant ∧
    (s.variant = .c → (boundaryEnd s).host.sent = s.host.sent) := by
  obtain ⟨u, hu, hend⟩ := boundaryEnd_takeovers (s := s)
  simp only [boundaryLeaves, Prod.mk.injEq] at hu hend
  obtain ⟨humap, huvar, husent⟩ := hu
  obtain ⟨hmap, hvar, hsent⟩ := hend
  have htaken := sends_setTakeovers u
  refine ⟨(hmap.trans (congrArg Repair.fieldMap htaken.repair)).trans humap, (hvar.trans htaken.variant).trans huvar,
    fun hc => (hsent.trans ?_).trans husent⟩
  rw [State.setTakeovers, if_pos (huvar.trans hc)]

/-- A boundary that leaves a field map without an entry, and no link that can be taken over, has told the sessions nothing. -/
theorem boundary_sent (hmap : s.boundary.repair.fieldMap = []) (hv : s.boundary.variant = .c) (hlasting : s.repair.lasting = []) :
    s.boundary.host.sent = s.host.sent := by
  by_cases hbusy : s.step.inProgress = true
  · rw [boundary_inProgress hbusy]
  have hb : s.boundary = boundaryEnd (((((List.range 56).filter (fun i =>
      (regionOf s.power i).lasting && (regionOf s.power i).state != .broken)).foldl (fun s i =>
      (s.openBreaker i).raise 0x7006 moduleWide noCmd i) s).darkRepairs).spareLasting) := if_neg hbusy
  generalize hl : (List.range 56).filter (fun i => (regionOf s.power i).lasting && (regionOf s.power i).state != .broken) = l at hb
  generalize hu : l.foldl (fun s i => (s.openBreaker i).raise 0x7006 moduleWide noCmd i) s = u at hb
  have hrep : u.repair = s.repair := by
    rw [← hu]
    exact foldl_keeps State.repair _ (fun v i => (State.raise_repair ..).trans (v.openBreaker_repair i)) _ _
  have hspare : u.darkRepairs.spareLasting = u.darkRepairs :=
    spareLasting_none ((foldl_darken_lasting u.arbiter.darkFields u).trans (hrep ▸ hlasting))
  rw [hspare] at hb
  obtain ⟨hemap, hevar, hesent⟩ := boundaryEnd_keeps (s := u.darkRepairs)
  have hdark : u.arbiter.darkFields = [] := by
    by_contra hne
    exact foldl_darken_fieldMap u.arbiter.darkFields u (.inl hne) (hemap.symm.trans ((congrArg (·.repair.fieldMap) hb).symm.trans hmap))
  have hnone : l = [] := by
    by_contra hne
    exact foldl_openBreaker_darkFields l s (.inl hne) (hu ▸ hdark)
  subst hnone
  have hus : u = s := hu.symm
  have hrepairs : u.darkRepairs.host.sent = s.host.sent := by
    unfold State.darkRepairs
    rw [hdark, hus]
    rfl
  rw [hb, hesent (hevar.symm.trans ((congrArg State.variant hb).symm.trans hv)), hrepairs]

end

/-- A module of a parity group of two about to end SEAL: link 0 has named the flit after its next for the switch of a lane to the
spare (R266), and the PARITY_READY of the refresh is the flit before it (R373). -/
def sealingWithSwapDue : State := { State.reset with
  variant := .c
  step := { State.reset.step with phase := .sealing }
  boot := { State.reset.boot with positionId := 0 }
  host := { State.reset.host with sessions := [{ id := 0, control := true, keyId := 0 }] }
  links := [(0, ({
    state := .upSwap
    lanes := 0xF
    retiring := some 0
    switchAt := some (0, 1, true)
    credits := [(3, 8)] } : Link))]
  survival := { State.reset.survival with
    config := some ⟨2, 0, 1, 0, 0, 0, 0, [0, 1]⟩
    formed := true
    doneEarly := [(0, 0)] } }

/-- The TYPE of the event that a message to a host is (Table 13-9). -/
def eventType : HostMsg → Option Nat
  | .event _ _ e => some e.type
  | _ => none

/-- The state that a step ends in. -/
def stateAfter : Host.Outcome State Fault Refusal → Option State
  | .next t => some t
  | _ => none

/-- Refutes O39: PARITY_READY, which follows the receipt, completes the switch that its link has due, and 0x5002 follows the
receipt's event; the boundary cannot have told it, for a dark field would stand in the field map. -/
theorem not_stepPhases : ¬ Obligations.StepPhases := by
  unfold Obligations.StepPhases
  intro h
  obtain ⟨-, -, -, -, -, -, hseal⟩ := h sealingWithSwapDue
  obtain ⟨t, u, hexec, hbound, -, -, -, -, -, -, -, -, -, -, -, -, -, hrepair, htold⟩ := hseal rfl rfl
  obtain ⟨e, hhead, htype, -⟩ := htold { id := 0, control := true, keyId := 0 } rfl rfl (by decide)
  have ht : stateAfter (exec .sealEnd sealingWithSwapDue) = some u.boundary := (congrArg stateAfter hexec).trans (congrArg some hbound)
  have hmap : (stateAfter (exec .sealEnd sealingWithSwapDue)).map (·.repair.fieldMap) = some [] := by decide +kernel
  have hvar : (stateAfter (exec .sealEnd sealingWithSwapDue)).map (·.variant) = some .c := by decide +kernel
  have hlast : (stateAfter (exec .sealEnd sealingWithSwapDue)).bind (fun v => v.host.sent.head?.bind eventType) = some 1 := by
    decide +kernel
  rw [ht] at hmap hvar hlast
  rw [Option.bind_some, boundary_sent (Option.some.inj hmap) (Option.some.inj hvar) (hrepair ▸ rfl), hhead] at hlast
  exact absurd (hlast.symm.trans (congrArg some htype)) (by decide)

/-! ### What the running schedule leaves (R60 to R67)

Flits that move change the mesh, tiles, memories and links, and report; they leave the reductions, the program, the pages and the
settings, and of a port block they change only which verified frames wait for the schedule. -/

/-- The parts of a state that the schedule does not reach. -/
def beyondMesh (s : State) : Reduce × Option Program × Pages × Repair × Survival × Boot × Variant × BitVec 64 :=
  (s.reduce, s.program, s.pages, s.repair, s.survival, s.boot, s.variant, s.now)

/-- Two states between which the schedule may have run. -/
structure Runs (s u : State) : Prop where
  beyond : beyondMesh u = beyondMesh s
  pbs : smWf {} 0 s.pbs = true → smWf {} 0 u.pbs = true ∧ ∀ n, ∃ r, pbOf u n = { pbOf s n with ready := r }

namespace Runs

variable {s u v : State}

theorem refl (s : State) : Runs s s := ⟨rfl, fun w => ⟨w, fun _ => ⟨_, rfl⟩⟩⟩

theorem trans (h : Runs s u) (k : Runs u v) : Runs s v where
  beyond := k.beyond.trans h.beyond
  pbs w := by
    obtain ⟨wu, hu⟩ := h.pbs w
    obtain ⟨wv, hv⟩ := k.pbs wu
    refine ⟨wv, fun n => ?_⟩
    obtain ⟨r, hr⟩ := hu n
    obtain ⟨r', hr'⟩ := hv n
    exact ⟨r', hr'.trans (by rw [hr])⟩

theorem of_eq (hb : beyondMesh u = beyondMesh s) (hp : u.pbs = s.pbs) : Runs s u :=
  ⟨hb, fun w => ⟨hp ▸ w, fun n => ⟨(pbOf s n).ready, by rw [pbOf, hp, pbOf]⟩⟩⟩

theorem foldl {α : Type} {f : State → α → State} (hf : ∀ u x, Runs u (f u x)) : ∀ (l : List α) (s : State), Runs s (l.foldl f s)
  | [], s => refl s
  | x :: l, s => (hf s x).trans (foldl hf l _)

theorem ite {c : Prop} [Decidable c] {a b : State} (h : Runs s a) (k : Runs s b) : Runs s (if c then a else b) := by
  split
  · exact h
  · exact k

theorem ite_fst {α : Type} {c : Prop} [Decidable c] {a b : State × α} (h : Runs s a.1) (k : Runs s b.1) :
    Runs s (if c then a else b).1 := by
  split
  · exact h
  · exact k

theorem pair {α : Type} {a : State} {x : α} (h : Runs s a) : Runs s (a, x).1 := h

theorem updMesh (s : State) (f : Mesh → Mesh) : Runs s (s.updMesh f) := of_eq rfl rfl

theorem updTile (s : State) (p : Nat) (f : Tile → Tile) : Runs s (s.updTile p f) := of_eq rfl rfl

theorem tileWrite (s : State) (p a : Nat) (b : Bytes) : Runs s (s.tileWrite p a b) := of_eq rfl rfl

theorem poisonWrite (s : State) (p a : Nat) (b : Bytes) : Runs s (s.poisonWrite p a b) := by
  unfold State.poisonWrite
  exact of_eq rfl rfl

theorem raise (s : State) (c : Code) (p : Place) (i : BitVec 64) (d : Nat) (e : BitVec 64) : Runs s (s.raise c p i d e) := by
  refine of_eq ?_ (State.raise_pbs ..)
  unfold beyondMesh
  rw [State.raise_reduce, State.raise_program, State.raise_pages, State.raise_repair, State.raise_survival, State.raise_boot,
    State.raise_variant, State.raise_now]

theorem traceAt (s : State) (k : Nat) (b : Bool) (p : BitVec 12) (c : BitVec 64) (d : Nat) : Runs s (s.traceAt k b p c d) := by
  obtain ⟨tr, h⟩ := traceAt_eq s k b p c d
  rw [h]
  exact of_eq rfl rfl

theorem updLink (s : State) (n : Nat) (f : Link → Link) : Runs s (s.updLink n f) := of_eq rfl rfl

theorem flushLink (s : State) (n : Nat) : Runs s (s.flushLink n) := by
  refine (updLink s n Link.flush).trans ?_
  change Runs _ ((s.updLink n Link.flush).trySwitch n)
  unfold State.trySwitch
  split
  · exact (updLink ..).trans (raise ..)
  · exact refl _

theorem freeIntake (s : State) (pb n : Nat) : Runs s (s.freeIntake pb n) := by
  refine Runs.trans (u := s.giveCredit ((linkFor s pb).getD pb) 2 (frameFlits n)) ?_ (of_eq rfl rfl)
  unfold State.giveCredit
  exact ite (refl s) (((updLink ..).trans (updLink ..)).trans (flushLink ..))

theorem updPb {f : PbState → PbState} (hf : ∀ p, ∃ r, f p = { p with ready := r }) (s : State) (pb : Nat) :
    Runs s (s.updPb pb f) where
  beyond := rfl
  pbs w := by
    refine ⟨smPut_wf (Nat.zero_le _) w, fun n => ?_⟩
    by_cases hn : n = pb
    · subst hn
      obtain ⟨r, hr⟩ := hf (pbOf s n)
      exact ⟨r, (smGet_smPut_same w).trans hr⟩
    · exact ⟨(pbOf s n).ready, smGet_smPut_other hn w⟩

theorem freeFrame (s : State) (pb q : Nat) : Runs s (s.freeFrame pb q) := by
  unfold State.freeFrame
  split
  · exact (updPb (fun p => ⟨_, rfl⟩) s pb).trans (freeIntake ..)
  · exact refl s

theorem deliverFlit (s : State) (site : Nat) (f : MeshFlit) : Runs s (s.deliverFlit site f) := by
  have hcount : Runs s (s.count (physOf s.repair site) 14 1) := updTile ..
  unfold State.deliverFlit
  refine ite (refl s) ?_
  extract_lets p counted
  split
  · split
    · split
      · exact ite (hcount.trans (updMesh ..)) hcount
      · exact hcount
    · exact hcount
  · extract_lets u
    have hu : Runs s u := hcount.trans (by unfold u; split; exacts [updMesh .., refl _])
    refine ite (hu.trans (updTile ..)) ?_
    split
    · exact hu.trans (raise ..)
    · exact ite (hu.trans (poisonWrite ..)) (hu.trans (tileWrite ..))

theorem receiveFlit (s : State) (site port : Nat) (f : MeshFlit) : Runs s (s.receiveFlit site port f).1 := by
  unfold State.receiveFlit
  exact ite_fst (pair (updMesh s _)) (ite_fst (pair (raise s ..)) (refl s))

theorem emitFlit (s : State) (n site out : Nat) (f : MeshFlit) : Runs s (s.emitFlit n site out f) := by
  unfold State.emitFlit
  refine ite (deliverFlit ..) ?_
  split
  · exact refl s
  · refine ite (refl s) ?_
    split
    · exact updMesh ..
    · exact updMesh ..

theorem resolveInput (s : State) (n site : Nat) (e : BitVec 64) (port : Nat) : Runs s (s.resolveInput n site e port).1 := by
  unfold State.resolveInput
  extract_lets taken here arriving cleared kept
  have hkept : Runs s kept := (updMesh ..).trans (ite (ite (raise ..) (updMesh ..)) (refl _))
  have hfault (code : Code) (port : Nat) : Runs s (kept.meshFault site port code) := hkept.trans (raise ..)
  clear_value kept here
  split
  · exact ite_fst (pair (hfault ..)) hkept
  · refine ite_fst (ite_fst (pair ((hkept.trans (receiveFlit ..)).trans (raise ..))) (hkept.trans (receiveFlit ..))) ?_
    exact ite_fst (pair (ite hkept (hfault ..))) (ite_fst (pair (hfault ..)) (pair (hfault ..)))

theorem ownOutgoing (s : State) (n site : Nat) (e : BitVec 64) : Runs s (s.ownOutgoing n site e).1 := by
  unfold State.ownOutgoing
  refine ite_fst (refl s) ?_
  split
  · exact refl s
  · split
    · exact pair (raise s ..)
    · extract_lets b last tag u v
      have hu : Runs s u := updMesh ..
      have hv : Runs s v := hu.trans (by unfold v; split; exacts [ite (freeFrame ..) (refl _), refl _])
      exact ite (hv.trans (updTile ..)) hv

theorem routerCycle (n : Nat) (s : State) (site : Nat) : Runs s (State.routerCycle n s site) := by
  have hinputs (e : BitVec 64) : ∀ (l : List Nat) (acc : State × List (Nat × MeshFlit)), Runs acc.1 (l.foldl (fun acc p =>
      let r := acc.1.resolveInput n site e p
      (r.1, match r.2 with | some f => acc.2 ++ [(p, f)] | none => acc.2)) acc).1 := by
    intro l
    induction l with
    | nil => exact fun acc => refl acc.1
    | cons p l ih => exact fun acc => (resolveInput acc.1 n site e p).trans (ih (_, _))
  unfold State.routerCycle
  extract_lets e ins own flits
  refine ((hinputs e _ (s, [])).trans (ownOutgoing ..)).trans (foldl (fun u out => ?_) _ _)
  split
  · exact emitFlit ..
  · exact refl u

theorem halfCycle (s : State) (west : Bool) : Runs s (s.halfCycle west) := (foldl (routerCycle _) _ s).trans (updMesh ..)

theorem tryHalf (s : State) (west : Bool) : Runs s (s.tryHalf west).1 := by
  unfold State.tryHalf
  split
  · exact halfCycle ..
  · exact refl s

theorem meshCycle (s : State) : Runs s s.meshCycle.1 := by
  unfold State.meshCycle
  split
  · exact (tryHalf ..).trans (tryHalf ..)
  · split
    · exact (halfCycle s true).trans (ite (halfCycle ..) (refl _))
    · exact refl s

theorem noteHold (s : State) : Runs s s.noteHold := by
  unfold State.noteHold
  refine ite (updMesh ..) (ite (refl s) ((foldl (fun u x => ?_) _ s).trans (updMesh ..)))
  exact Runs.trans (of_eq (u := u.draw.2) rfl rfl) (traceAt ..)

theorem runMesh : ∀ (fuel : Nat) (s : State), Runs s (State.runMesh fuel s)
  | 0, s => refl s
  | n + 1, s => ite ((meshCycle s).trans (runMesh n _)) ((meshCycle s).trans (noteHold _))

/-- Whatever the schedule does, it leaves what lies beyond the mesh. -/
theorem pumpMesh (s : State) : Runs s s.pumpMesh := ite (refl s) (runMesh ..)

end Runs

/-! ### Column totals and stragglers (O40) -/

/-- A value that is no default is written without a word about the order of the table: what other keys read stays. -/
theorem smGet_smPut_ne_other {α : Type} [DecidableEq α] {d v : α} {k j : Nat} (hv : v ≠ d) (hj : j ≠ k) :
    ∀ m : SMap α, smGet d (smPut d k v m) j = smGet d m j
  | [] => by
    unfold smPut
    rw [if_neg hv]
    unfold smGet smGet
    rw [if_neg hj, ite_self]
  | (a, w) :: r => by
    have ih := smGet_smPut_ne_other hv hj r
    unfold smPut
    rw [if_neg hv, if_neg hv]
    split
    · simp only [smGet]
      grind
    · split
      · simp only [smGet]
        grind
      · simp only [smGet, ih]

section
variable {s u v : State}

/-- Of the step, a status code can change the phase only. -/
theorem raise_step (s : State) (c : Code) (p : Place) (i : BitVec 64) (d : Nat) (e : BitVec 64) :
    ∃ ph, (s.raise c p i d e).step = { s.step with phase := ph } := by
  have hlatch (u : State) : ∃ ph, (u.latch c p).step = { u.step with phase := ph } := by
    unfold State.latch
    dsimp only
    split
    · exact ⟨_, rfl⟩
    · split
      · rw [State.traceAt_step]
        exact ⟨_, rfl⟩
      · exact ⟨_, rfl⟩
  unfold State.raise
  extract_lets sev u v w
  have hw : w.step = s.step := by
    refine (State.noteDeath_step ..).trans ?_
    unfold v
    split
    · exact State.traceAt_step ..
    · exact (State.sendEvent_step ..).trans (State.traceAt_step ..)
  split
  · exact ⟨_, rfl⟩
  · split
    · obtain ⟨ph, h⟩ := hlatch w
      exact ⟨ph, h.trans (by rw [hw])⟩
    · split
      · exact ⟨_, (State.startFatal_step ..).trans hw⟩
      · exact ⟨_, hw⟩

theorem flushLink_pbs (n : Nat) : (s.flushLink n).pbs = s.pbs := by
  change ((s.updLink n Link.flush).trySwitch n).pbs = s.pbs
  unfold State.trySwitch
  split
  · exact State.raise_pbs ..
  · rfl

theorem zSend_pbs (pb : Nat) (m : ZMsg) : (s.zSend pb m).pbs = s.pbs := by
  unfold State.zSend
  split
  · rfl
  · split
    · exact flushLink_pbs ..
    · rfl

end

/-! #### What handing blocks over leaves -/

/-- Two states between which blocks may have been handed over. -/
structure Hands (s u : State) : Prop where
  mem : u.mem = s.mem
  pages : u.pages = s.pages
  program : u.program = s.program
  nfLocal : u.step.nfLocal = s.step.nfLocal
  current : u.step.current = s.step.current
  pbs : smWf {} 0 s.pbs = true → smWf {} 0 u.pbs = true ∧
    ∀ n, (pbOf u n).kilnPos = (pbOf s n).kilnPos ∧ (pbOf u n).outChain = (pbOf s n).outChain

namespace Hands

variable {s u v : State}

theorem refl (s : State) : Hands s s := ⟨rfl, rfl, rfl, rfl, rfl, fun w => ⟨w, fun _ => ⟨rfl, rfl⟩⟩⟩

theorem trans (h : Hands s u) (k : Hands u v) : Hands s v where
  mem := k.mem.trans h.mem
  pages := k.pages.trans h.pages
  program := k.program.trans h.program
  nfLocal := k.nfLocal.trans h.nfLocal
  current := k.current.trans h.current
  pbs w := by
    obtain ⟨wu, hu⟩ := h.pbs w
    obtain ⟨wv, hv⟩ := k.pbs wu
    exact ⟨wv, fun n => ⟨(hv n).1.trans (hu n).1, (hv n).2.trans (hu n).2⟩⟩

theorem foldl {α : Type} {f : State → α → State} (hf : ∀ u x, Hands u (f u x)) : ∀ (l : List α) (s : State),
    Hands s (l.foldl f s)
  | [], s => refl s
  | x :: l, s => (hf s x).trans (foldl hf l _)

/-- The port blocks as they are, or one of them with its converted entries and its chain. -/
theorem samePbs (hp : u.pbs = s.pbs) : smWf {} 0 s.pbs = true → smWf {} 0 u.pbs = true ∧
    ∀ n, (pbOf u n).kilnPos = (pbOf s n).kilnPos ∧ (pbOf u n).outChain = (pbOf s n).outChain := by
  unfold pbOf
  rw [hp]
  exact fun w => ⟨w, fun _ => ⟨rfl, rfl⟩⟩

theorem updPb {f : PbState → PbState} (hf : ∀ p, (f p).kilnPos = p.kilnPos ∧ (f p).outChain = p.outChain) (s : State) (pb : Nat) :
    Hands s (s.updPb pb f) where
  mem := rfl
  pages := rfl
  program := rfl
  nfLocal := rfl
  current := rfl
  pbs w := by
    refine ⟨smPut_wf (Nat.zero_le _) w, fun n => ?_⟩
    by_cases hn : n = pb
    · subst hn
      rw [pbOf, show smGet {} (s.updPb n f).pbs n = f (pbOf s n) from smGet_smPut_same w]
      exact hf _
    · rw [pbOf, show smGet {} (s.updPb pb f).pbs n = pbOf s n from smGet_smPut_other hn w]
      exact ⟨rfl, rfl⟩

theorem raise (s : State) (c : Code) (p : Place) (i : BitVec 64) (d : Nat) (e : BitVec 64) : Hands s (s.raise c p i d e) where
  mem := State.raise_mem ..
  pages := State.raise_pages ..
  program := State.raise_program ..
  nfLocal := by
    obtain ⟨ph, h⟩ := raise_step s c p i d e
    rw [h]
  current := by
    obtain ⟨ph, h⟩ := raise_step s c p i d e
    rw [h]
  pbs := samePbs (State.raise_pbs ..)

theorem updLink (s : State) (n : Nat) (f : Link → Link) : Hands s (s.updLink n f) :=
  ⟨rfl, rfl, rfl, rfl, rfl, samePbs rfl⟩

theorem zSendCounted (s : State) (pb channel : Nat) (m : ZMsg) : Hands s (s.zSendCounted pb channel m) := by
  unfold State.zSendCounted
  refine Hands.trans (u := s.zSend pb m) ?_ (updPb ?_ ..)
  case refine_2 => exact fun _ => ⟨rfl, rfl⟩
  have hpbs := zSend_pbs (s := s) pb m
  obtain ⟨l, z, p, tr, ho, h, -⟩ := Sends.zSend s pb m
  rw [h] at hpbs ⊢
  exact ⟨rfl, rfl, rfl, rfl, rfl, samePbs hpbs⟩

theorem kilnSend (s : State) (pb : Nat) (m : ZMsg) : Hands s (s.kilnSend pb m) := by
  unfold State.kilnSend
  extract_lets u
  have hu : Hands s u := by
    unfold u
    split
    · exact ⟨rfl, rfl, rfl, rfl, rfl, samePbs rfl⟩
    · exact zSendCounted ..
  split
  · exact hu.trans ⟨rfl, rfl, rfl, rfl, rfl, samePbs rfl⟩
  · exact hu

theorem beginPhase (s : State) (ph : Phase) : Hands s (s.beginPhase ph) := by
  have hstep : (s.beginPhase ph).step.nfLocal = s.step.nfLocal ∧ (s.beginPhase ph).step.current = s.step.current := by
    unfold State.beginPhase
    rw [State.traceAt_step]
    dsimp only
    split
    · exact ⟨rfl, rfl⟩
    · exact ⟨rfl, rfl⟩
  exact ⟨State.beginPhase_mem .., State.beginPhase_pages .., State.beginPhase_program .., hstep.1, hstep.2,
    samePbs (State.beginPhase_pbs ..)⟩

theorem updReduce (s : State) (f : Reduce → Reduce) : Hands s (s.updReduce f) := ⟨rfl, rfl, rfl, rfl, rfl, samePbs rfl⟩

theorem beginReduce (s : State) : Hands s s.beginReduce := by
  refine (beginPhase s .reduce).trans ?_
  change Hands _ (s.beginPhase .reduce).writeRecords
  unfold State.writeRecords
  split
  · exact updReduce ..
  · exact refl _

theorem tryVote (s : State) : Hands s s.tryVote := by
  unfold State.tryVote
  split
  · split
    · exact raise ..
    · exact Hands.trans (u := s.endPhase .reduce) ⟨rfl, rfl, rfl, rfl, rfl, samePbs rfl⟩ (beginPhase ..)
  · exact refl s

theorem handOver : ∀ (n : Nat) (s : State), Hands s (s.handOver n)
  | 0, s => refl s
  | n + 1, s => by
    unfold State.handOver
    extract_lets ready
    split
    · exact refl s
    · extract_lets k u v
      have hv : Hands u v := by
        unfold v
        split
        · exact beginReduce u
        · exact refl u
      exact (((updReduce ..).trans hv).trans (kilnSend ..)).trans (handOver n _)

theorem acknowledge (s : State) (pb k : Nat) (tiles : List Nat) : Hands s (s.acknowledge pb k tiles) := by
  unfold State.acknowledge
  refine foldl (fun _ _ => ?_) _ s
  exact ⟨rfl, rfl, rfl, rfl, rfl, samePbs rfl⟩

end Hands

/-! #### A block that waits or is kept -/

/-- A block is among those that wait, or is kept and its stream has passed its seq. -/
def Held (x : Retained) (r : Reduce) : Prop :=
  x ∈ r.outWait ∨ x ∈ r.retention ∧ x.block.seq.toNat < smGet 0 r.nextOut (outKey x.destId.toNat x.block.group.toNat)

theorem Held.mem {x : Retained} {r : Reduce} (h : Held x r) : x ∈ r.outWait ++ r.retention := by
  rw [List.mem_append]
  exact h.imp_right And.left

section
variable {s u : State} {x y : Retained}

/-- Handing over a ready block keeps every block that waits or is kept. -/
theorem Held.handed {r : Reduce} (h : Held x r)
    (hready : (y.block.seq.toNat == smGet 0 r.nextOut (outKey y.destId.toNat y.block.group.toNat)) = true) :
    Held x { r with
      outWait := r.outWait.filter (fun z => z != y)
      nextOut := smPut 0 (outKey y.destId.toNat y.block.group.toNat) (y.block.seq.toNat + 1) r.nextOut
      retention := y :: r.retention.filter (fun z => !(z.step == y.step && z.destId == y.destId &&
        z.block.group == y.block.group && z.block.seq == y.block.seq)) } := by
  have hdue := eq_of_beq hready
  have hput := smGet_smPut_ne (d := 0) (k := outKey y.destId.toNat y.block.group.toNat) (Nat.succ_ne_zero y.block.seq.toNat) r.nextOut
  by_cases hxy : x = y
  · subst hxy
    exact .inr ⟨List.mem_cons_self, by rw [hput]; exact Nat.lt_succ_self _⟩
  · obtain hwait | ⟨hkept, hpast⟩ := h
    · exact .inl (List.mem_filter.mpr ⟨hwait, by simpa using hxy⟩)
    · refine .inr ⟨List.mem_cons_of_mem _ (List.mem_filter.mpr ⟨hkept, ?_⟩), ?_⟩
      · rw [Bool.not_eq_true', Bool.eq_false_iff]
        intro hsame
        simp only [Bool.and_eq_true, beq_iff_eq] at hsame
        obtain ⟨⟨⟨-, hdest⟩, hgroup⟩, hseq⟩ := hsame
        rw [hdest, hgroup, ← hdue, hseq] at hpast
        exact absurd hpast (Nat.lt_irrefl _)
      · by_cases hk : outKey x.destId.toNat x.block.group.toNat = outKey y.destId.toNat y.block.group.toNat
        · rw [hk] at hpast ⊢
          rw [hput, hdue]
          exact hpast.trans (Nat.lt_succ_self _)
        · exact (smGet_smPut_ne_other (Nat.succ_ne_zero _) hk _).symm ▸ hpast

theorem kilnSend_reduce (pb : Nat) (m : ZMsg) : (s.kilnSend pb m).reduce = s.reduce := by
  have hsent (u : State) : (u.zSendCounted pb 1 m).reduce = u.reduce := by
    obtain ⟨_, _, _, _, _, h, -⟩ := Sends.zSendCounted u pb 1 m
    rw [h]
  unfold State.kilnSend
  dsimp only
  split
  · split
    · rfl
    · exact hsent s
  · split
    · rfl
    · exact hsent s

theorem beginReduce_reduce : ∃ rec', s.beginReduce.reduce = { s.reduce with records := rec' } := by
  unfold State.beginReduce State.writeRecords
  split
  · exact ⟨_, congrArg (fun r : Reduce => { r with records := r.planned }) (State.beginPhase_reduce ..)⟩
  · exact ⟨_, State.beginPhase_reduce ..⟩

theorem Held.handOver : ∀ (n : Nat) {s : State}, Held x s.reduce → Held x (s.handOver n).reduce
  | 0, _, h => h
  | n + 1, s, h => by
    unfold State.handOver
    extract_lets ready
    split
    · exact h
    case h_2 y hfound =>
      extract_lets k u v
      refine Held.handOver n ?_
      have hu : Held x u.reduce := h.handed (List.find?_some (p := fun x => ready x s.reduce) hfound)
      have hv : Held x v.reduce := by
        unfold v
        split
        · obtain ⟨r, hr⟩ := beginReduce_reduce (s := u)
          rw [hr]
          exact hu
        · exact hu
      unfold State.sendBlock
      rw [kilnSend_reduce]
      exact hv

/-- The blocks of an entry are chained, and each waits or is kept. -/
theorem emitBlocks_eq (w : smWf {} 0 s.pbs = true) (pb : Nat) (e : KilnEntry) (bs : List Block) :
    (smWf {} 0 (s.emitBlocks pb e bs).pbs = true) ∧ (pbOf (s.emitBlocks pb e bs) pb).kilnPos = (pbOf s pb).kilnPos ∧
      (pbOf (s.emitBlocks pb e bs) pb).outChain = bs.foldl (fun h b => sha256 (digestBytes h ++ digestBytes (sha256 (blockBytes b))))
        (pbOf s pb).outChain ∧
      (∀ b ∈ bs, Held ⟨s.step.current.stepNumber, BitVec.ofNat 16 ((s.group e.group).member e.owner).1,
        ((s.group e.group).member e.owner).2, pb, b⟩ (s.emitBlocks pb e bs).reduce) ∧
      (s.emitBlocks pb e bs).mem = s.mem ∧ (s.emitBlocks pb e bs).pages = s.pages ∧ (s.emitBlocks pb e bs).program = s.program ∧
      (s.emitBlocks pb e bs).step.nfLocal = s.step.nfLocal := by
  unfold State.emitBlocks
  extract_lets dest u v
  have hout := Hands.handOver v.reduce.outWait.length v
  have wv : smWf {} 0 v.pbs = true := smPut_wf (Nat.zero_le _) w
  have hpb : pbOf v pb = { pbOf s pb with
      outChain := bs.foldl (fun h b => sha256 (digestBytes h ++ digestBytes (sha256 (blockBytes b)))) (pbOf s pb).outChain } :=
    smGet_smPut_same w
  obtain ⟨wout, hpbs⟩ := hout.pbs wv
  obtain ⟨hpos, hchain⟩ := hpbs pb
  rw [hpb] at hpos hchain
  refine ⟨wout, hpos, hchain, fun b hb => Held.handOver _ (.inl ?_), hout.mem, hout.pages, hout.program, hout.nfLocal⟩
  exact List.mem_append_right _ (List.mem_map_of_mem hb)

theorem tryVote_reduce : s.tryVote.reduce = s.reduce := by
  unfold State.tryVote
  split
  · split
    · exact State.raise_reduce ..
    · exact State.beginPhase_reduce ..
  · rfl

/-- The conversion of the next entry of a port block. -/
theorem convertEntry_eq (w : smWf {} 0 s.pbs = true) (pb : Nat) (e : KilnEntry) (total : List (BitVec 36)) :
    ∃ p nf, s.convertEntry pb e total = ({ s with
      pbs := p
      step := { s.step with nfLocal := nf } }, convertTotal s e total) ∧ smWf {} 0 p = true ∧
      (smGet {} p pb).kilnPos = (pbOf s pb).kilnPos + 1 ∧ (smGet {} p pb).outChain = (pbOf s pb).outChain ∧
      nf = (s.step.nfLocal || (convertTotal s e total).any (fun b => b.nf != 0 || b.ovf)) := by
  unfold State.convertEntry
  extract_lets w' bs st u
  have hu : ∃ p, u = { s with pbs := p } ∧ smWf {} 0 p = true ∧ (smGet {} p pb).kilnPos = (pbOf s pb).kilnPos + 1 ∧
      (smGet {} p pb).outChain = (pbOf s pb).outChain := by
    refine ⟨_, rfl, smPut_wf (Nat.zero_le _) w, ?_⟩
    rw [smGet_smPut_same w]
    exact ⟨rfl, rfl⟩
  obtain ⟨p, hu, hrest⟩ := hu
  rw [hu]
  cases hany : bs.any (fun b => b.nf != 0 || b.ovf)
  · exact ⟨p, s.step.nfLocal, rfl, hrest.1, hrest.2.1, hrest.2.2, (Bool.or_false _).symm⟩
  · exact ⟨p, true, rfl, hrest.1, hrest.2.1, hrest.2.2, (Bool.or_true _).symm⟩

theorem acknowledge_reduce (pb k : Nat) (tiles : List Nat) : (s.acknowledge pb k tiles).reduce = s.reduce := by
  unfold State.acknowledge
  refine foldl_keeps State.reduce _ (fun _ _ => ?_) _ s
  rfl

end

section
variable {s : State}

/-- A column total that is ready and not poisoned: converted, acknowledged and handed over (R209). -/
theorem columnTotal_eq {pb : Nat} {e : KilnEntry} (hpb : pb < 24) (hfatal : s.arbiter.fatal = none)
    (hphase : s.step.phase = .drain ∨ s.step.phase = .reduce) (hentry : (s.pbProg pb).kilnMap[(pbOf s pb).kilnPos]? = some e)
    {tiles : List Nat} (htiles : columnTiles s (2 * pb + e.column) = tiles) {k : Nat}
    (hk : (((s.pbProg pb).kilnMap.take (pbOf s pb).kilnPos).filter (fun x => x.column == e.column)).length = k)
    (hready : totalReady s tiles k = true) (hpoison : poisonedParts s (2 * pb + e.column) k = []) :
    ∃ r c, c = ({ s with step := { s.step with refires := r } } : State).convertEntry pb e
        (chainTotal ((tiles.filterMap (fun t => heldFor s t k)).map (·.cells))) ∧
      exec (.columnTotal pb []) s = .next ((c.1.acknowledge pb k tiles).emitBlocks pb e c.2).tryVote := by
  have hguard : ¬ (24 ≤ pb ∨ ¬ (s.step.phase = .drain ∨ s.step.phase = .reduce) ∨ s.arbiter.fatal.isSome = true) := by
    rw [hfatal]
    rintro (h | h | h)
    · exact absurd h (Nat.not_le.mpr hpb)
    · exact h hphase
    · exact Bool.false_ne_true h
  have hrefires : ∃ r, (if (tiles.filterMap (fun t => heldFor s t k)).any (·.suspect) = true then s.countRefire true else s) =
      { s with step := { s.step with refires := r } } := by
    split
    · exact ⟨_, rfl⟩
    · exact ⟨_, rfl⟩
  obtain ⟨r, hr⟩ := hrefires
  refine ⟨r, _, rfl, ?_⟩
  change execColumnTotal pb [] s = _
  unfold execColumnTotal
  rw [if_neg hguard, hentry]
  simp only
  rw [htiles, hk, hready, hpoison]
  have hchain : s.refireChain pb k 0 tiles ([] ++ []) = (s, true) := rfl
  simp only [hchain, Bool.not_true, Bool.false_eq_true, if_false]
  rw [hr]

end

/-! #### What settling and releasing blocks leaves -/

/-- Two states between which blocks may have become final and been released: the contributions counted stay. -/
structure Advances (s u : State) : Prop where
  program : u.program = s.program
  pages : u.pages = s.pages
  reduce : ∃ nf, u.reduce = { s.reduce with nfTotal := nf }
  pbs : smWf {} 0 s.pbs = true → smWf {} 0 u.pbs = true ∧ ∀ n i, (accOf (pbOf u n) i).got = (accOf (pbOf s n) i).got ∧
    (accOf (pbOf u n) i).lateClosed = (accOf (pbOf s n) i).lateClosed

namespace Advances

variable {s u v : State}

theorem samePbs (hp : u.pbs = s.pbs) : smWf {} 0 s.pbs = true → smWf {} 0 u.pbs = true ∧
    ∀ n i, (accOf (pbOf u n) i).got = (accOf (pbOf s n) i).got ∧
      (accOf (pbOf u n) i).lateClosed = (accOf (pbOf s n) i).lateClosed := by
  unfold pbOf
  rw [hp]
  exact fun w => ⟨w, fun _ _ => ⟨rfl, rfl⟩⟩

theorem of_eq (hprogram : u.program = s.program) (hpages : u.pages = s.pages) (hreduce : u.reduce = s.reduce)
    (hpbs : u.pbs = s.pbs) : Advances s u := ⟨hprogram, hpages, ⟨_, hreduce⟩, samePbs hpbs⟩

theorem refl (s : State) : Advances s s := of_eq rfl rfl rfl rfl

theorem trans (h : Advances s u) (k : Advances u v) : Advances s v where
  program := k.program.trans h.program
  pages := k.pages.trans h.pages
  reduce := by
    obtain ⟨_, hu⟩ := h.reduce
    obtain ⟨_, hv⟩ := k.reduce
    exact ⟨_, hv.trans (by rw [hu])⟩
  pbs w := by
    obtain ⟨wu, hu⟩ := h.pbs w
    obtain ⟨wv, hv⟩ := k.pbs wu
    exact ⟨wv, fun n i => ⟨(hv n i).1.trans (hu n i).1, (hv n i).2.trans (hu n i).2⟩⟩

theorem foldl {α : Type} {f : State → α → State} (hf : ∀ u x, Advances u (f u x)) :
    ∀ (l : List α) (s : State), Advances s (l.foldl f s)
  | [], s => refl s
  | x :: l, s => (hf s x).trans (foldl hf l _)

theorem updPb {f : PbState → PbState} (s : State) (pb : Nat) (hf : ∀ i, (accOf (f (pbOf s pb)) i).got = (accOf (pbOf s pb) i).got ∧
    (accOf (f (pbOf s pb)) i).lateClosed = (accOf (pbOf s pb) i).lateClosed) : Advances s (s.updPb pb f) where
  program := rfl
  pages := rfl
  reduce := ⟨_, rfl⟩
  pbs w := by
    refine ⟨smPut_wf (Nat.zero_le _) w, fun n i => ?_⟩
    by_cases hn : n = pb
    · subst hn
      rw [show pbOf (s.updPb n f) n = f (pbOf s n) from smGet_smPut_same w]
      exact hf i
    · rw [show pbOf (s.updPb pb f) n = pbOf s n from smGet_smPut_other hn w]
      exact ⟨rfl, rfl⟩

theorem of_runs (h : Runs s u) : Advances s u := by
  obtain ⟨hbeyond, hpbs⟩ := h
  simp only [beyondMesh, Prod.mk.injEq] at hbeyond
  obtain ⟨hreduce, hprogram, hpages, -⟩ := hbeyond
  refine ⟨hprogram, hpages, ⟨_, hreduce⟩, fun w => ⟨(hpbs w).1, fun n i => ?_⟩⟩
  obtain ⟨r, hr⟩ := (hpbs w).2 n
  rw [hr]
  exact ⟨rfl, rfl⟩

theorem settleEntry (s : State) (pb e : Nat) : Advances s (s.settleEntry pb e) := by
  unfold State.settleEntry
  extract_lets a f u
  split
  case isFalse => exact refl s
  case isTrue =>
    have hfinal : f.isFinal = true ∧ f.got = a.got ∧ f.lateClosed = a.lateClosed := by
      unfold f SumAcc.finalize
      split
      · exact ⟨rfl, rfl, rfl⟩
      · exact ⟨rfl, rfl, rfl⟩
    have hne : f ≠ {} := fun hc => absurd ((congrArg SumAcc.isFinal hc).symm.trans hfinal.1) Bool.false_ne_true
    refine Advances.trans (u := u) (updPb s pb fun i => ?_) (of_eq rfl rfl rfl rfl)
    by_cases hi : i = e
    · subst hi
      rw [show accOf { pbOf s pb with accs := smPut {} i f (pbOf s pb).accs } i = f from smGet_smPut_ne hne _]
      exact hfinal.2
    · rw [show accOf { pbOf s pb with accs := smPut {} e f (pbOf s pb).accs } i = accOf (pbOf s pb) i from
        smGet_smPut_ne_other hne hi _]
      exact ⟨rfl, rfl⟩

theorem deliverBatch (s : State) (pb : Nat) : Advances s (s.deliverBatch pb) := by
  unfold State.deliverBatch
  extract_lets p x ids
  refine (foldl (fun _ _ => ?_) _ s).trans (updPb _ pb ?_)
  · exact of_eq rfl rfl rfl rfl
  · exact fun _ => ⟨rfl, rfl⟩

theorem release : ∀ (n : Nat) (s : State) (pb : Nat), Advances s (s.release pb n)
  | 0, s, _ => refl s
  | n + 1, s, pb => by
    unfold State.release
    extract_lets p x e a img u v w
    split
    · exact refl s
    · have hu : Advances s u := updPb s pb fun _ => ⟨rfl, rfl⟩
      have hv : Advances u v := ⟨rfl, rfl, ⟨_, rfl⟩, samePbs rfl⟩
      have hw : Advances v w := by
        unfold w
        split
        · exact deliverBatch ..
        · exact refl v
      exact ((hu.trans hv).trans hw).trans (release n w pb)

theorem advance (s : State) (pb : Nat) : Advances s (s.advance pb) :=
  ((foldl (fun u e => settleEntry u pb e) _ s).trans (release _ _ pb)).trans (of_runs (.pumpMesh _))

theorem raise (s : State) (c : Code) (p : Place) (i : BitVec 64) (d : Nat) (e : BitVec 64) : Advances s (s.raise c p i d e) :=
  of_runs (.raise ..)

theorem tryVote (s : State) : Advances s s.tryVote := by
  unfold State.tryVote
  split
  · split
    · exact raise ..
    · exact of_eq (State.beginPhase_program ..) (State.beginPhase_pages ..) (State.beginPhase_reduce ..) (State.beginPhase_pbs ..)
  · exact refl s

end Advances

/-! #### Marks of a straggler -/

/-- Two states between which members may have been marked late: the records follow the marks while REDUCE runs. -/
def Marks (s u : State) : Prop := ∃ pl rec' tr ho, u = { s with
  trace := tr
  host := ho
  reduce := { s.reduce with
    planned := pl
    records := rec' } } ∧ (s.step.phase = .reduce → s.reduce.records = s.reduce.planned → rec' = pl)

/-- A stream is marked from a seq or an earlier one. -/
def Marked (r : Reduce) (k lim : Nat) : Prop := recState (recordOf r.planned k) ≠ 0 ∧ recFrom (recordOf r.planned k) ≤ lim

section
variable {s u v : State}

theorem Marks.refl (s : State) : Marks s s := ⟨_, _, _, _, rfl, fun _ h => h⟩

theorem Marks.trans (h : Marks s u) (k : Marks u v) : Marks s v := by
  obtain ⟨_, _, _, _, rfl, hu⟩ := h
  obtain ⟨_, _, _, _, rfl, hv⟩ := k
  exact ⟨_, _, _, _, rfl, fun hphase hrec => hv hphase (hu hphase hrec)⟩

theorem Marks.raise {c : Code} {p : Place} {i : BitVec 64} {d : Nat} {e : BitVec 64}
    (hs : ∀ b, severityOf b p d c = 1) (h9 : c ≠ 0x4009) (hA : c ≠ 0x400A) : Marks s (s.raise c p i d e) := by
  rw [raise_frame (hs _) (by decide) h9 hA]
  exact ⟨_, _, _, _, rfl, fun _ h => h⟩

theorem Marks.planned (s : State) (pl : SMap (BitVec 64)) : Marks s (s.updReduce (fun r => { r with planned := pl })).writeRecords := by
  unfold State.writeRecords
  split
  case isTrue h => exact ⟨pl, pl, _, _, rfl, fun _ _ => rfl⟩
  case isFalse h => exact ⟨pl, _, _, _, rfl, fun hphase => absurd hphase h⟩

theorem writeRecords_planned : s.writeRecords.reduce.planned = s.reduce.planned := by
  unfold State.writeRecords
  split
  · rfl
  · rfl

/-- The value that a mark writes. -/
def markValue (drop : Prop) [Decidable drop] (old f : Nat) : BitVec 64 :=
  BitVec.ofNat 64 ((if drop then 2 else 1) + 4 * bitsOf old 3 2 + 2 ^ 32 * f)

theorem markValue_toNat (drop : Prop) [Decidable drop] (old : Nat) {f : Nat} (hf : f < 2 ^ 32) :
    (markValue drop old f).toNat = (if drop then 2 else 1) + 4 * bitsOf old 3 2 + 2 ^ 32 * f := by
  have hbits : bitsOf old 3 2 < 4 := Nat.mod_lt _ (by decide)
  rw [markValue, BitVec.toNat_ofNat]
  refine Nat.mod_eq_of_lt ?_
  split <;> omega

theorem recState_markValue (drop : Prop) [Decidable drop] (old : Nat) {f : Nat} (hf : f < 2 ^ 32) :
    recState (markValue drop old f) ≠ 0 := by
  rw [recState, markValue_toNat drop old hf]
  split <;> omega

theorem recFrom_markValue (drop : Prop) [Decidable drop] (old : Nat) {f : Nat} (hf : f < 2 ^ 32) : recFrom (markValue drop old f) = f := by
  have hbits : bitsOf old 3 2 < 4 := Nat.mod_lt _ (by decide)
  rw [recFrom, markValue_toNat drop old hf]
  split <;> omega

theorem markLate_eq (s : State) (pb g m fromSeq : Nat) : ∃ pl, Marks s (s.markLate pb g m fromSeq) ∧
    (s.markLate pb g m fromSeq).reduce.planned = pl ∧
    pl = smPut 0xFFFFFFFF00000000 (reduceKey g m) (markValue ((s.group g).late = 2) (recordOf s.reduce.planned (reduceKey g m)).toNat
      (if recState (recordOf s.reduce.planned (reduceKey g m)) = 0 then fromSeq
        else min fromSeq (recFrom (recordOf s.reduce.planned (reduceKey g m))))) s.reduce.planned := by
  unfold State.markLate
  extract_lets k old drop f v u
  have hu : Marks s u ∧ u.reduce.planned = smPut 0xFFFFFFFF00000000 k v s.reduce.planned :=
    ⟨(Marks.planned s _).trans (Marks.raise (c := 0x2307) (fun _ => rfl) (by decide) (by decide)),
      (congrArg Reduce.planned (State.raise_reduce ..)).trans writeRecords_planned⟩
  refine ⟨_, ?_, rfl, ?_⟩
  · split
    · exact hu.1.trans (Marks.raise (c := 0x2308) (fun _ => rfl) (by decide) (by decide))
    · exact hu.1
  · split
    · rw [State.raise_reduce]
      exact hu.2
    · exact hu.2

theorem markLate_marks (pb g m : Nat) {fromSeq : Nat} (hf : fromSeq < 2 ^ 32) :
    Marked (s.markLate pb g m fromSeq).reduce (reduceKey g m) fromSeq ∧
      ∀ k lim, Marked s.reduce k lim → Marked (s.markLate pb g m fromSeq).reduce k lim := by
  obtain ⟨pl, -, hpl, hval⟩ := markLate_eq s pb g m fromSeq
  generalize hold : recordOf s.reduce.planned (reduceKey g m) = old at hval
  generalize hlim : (if recState old = 0 then fromSeq else min fromSeq (recFrom old)) = f at hval
  have hle : f ≤ fromSeq := by
    rw [← hlim]
    split
    · exact Nat.le_refl _
    · exact Nat.min_le_left ..
  have hstate := recState_markValue ((s.group g).late = 2) old.toNat (hle.trans_lt hf)
  have hfrom := recFrom_markValue ((s.group g).late = 2) old.toNat (hle.trans_lt hf)
  have hne : markValue ((s.group g).late = 2) old.toNat f ≠ 0xFFFFFFFF00000000 := fun hc => absurd (hc ▸ hstate) (by decide)
  have hown : recordOf pl (reduceKey g m) = markValue ((s.group g).late = 2) old.toNat f := by
    rw [hval]
    exact smGet_smPut_ne hne _
  unfold Marked
  rw [hpl]
  refine ⟨⟨hown ▸ hstate, hown ▸ hfrom.trans_le hle⟩, fun k lim ⟨hk, hkl⟩ => ?_⟩
  by_cases hkey : k = reduceKey g m
  · subst hkey
    rw [hold] at hk hkl
    rw [if_neg hk] at hlim
    exact ⟨hown ▸ hstate, hown ▸ hfrom.trans_le (hlim ▸ (Nat.min_le_right ..).trans hkl)⟩
  · rw [hval, show recordOf (smPut _ _ _ _) k = recordOf s.reduce.planned k from smGet_smPut_ne_other hne hkey _]
    exact ⟨hk, hkl⟩

theorem or_eight (v : BitVec 64) :
    recState (v ||| 8) = recState v ∧ recFrom (v ||| 8) = recFrom v ∧ v ||| 8 ≠ 0xFFFFFFFF00000000 := by
  refine ⟨?_, ?_, fun hc => ?_⟩
  · unfold recState
    rw [BitVec.toNat_or, show (4 : Nat) = 2 ^ 2 from rfl, Nat.or_mod_two_pow]
    exact Nat.or_zero _
  · unfold recFrom
    rw [BitVec.toNat_or, Nat.or_div_two_pow]
    exact Nat.or_zero _
  · have hbit := congrArg (fun x : BitVec 64 => x.getLsbD 3) hc
    simp at hbit

theorem dropLate_marks (pb g m : Nat) : Marks s (s.dropLate pb g m) ∧
    ∀ k lim, Marked s.reduce k lim → Marked (s.dropLate pb g m).reduce k lim := by
  have hplanned : (s.dropLate pb g m).reduce.planned = smUpd 0xFFFFFFFF00000000 (reduceKey g m) (· ||| 8) s.reduce.planned :=
    (congrArg Reduce.planned (State.raise_reduce ..)).trans writeRecords_planned
  refine ⟨(Marks.planned s _).trans (Marks.raise (c := 0x2308) (fun _ => rfl) (by decide) (by decide)), fun k lim ⟨hk, hkl⟩ => ?_⟩
  obtain ⟨hstate, hfrom, hne⟩ := or_eight (recordOf s.reduce.planned (reduceKey g m))
  unfold Marked
  rw [hplanned]
  by_cases hkey : k = reduceKey g m
  · subst hkey
    rw [show recordOf (smUpd 0xFFFFFFFF00000000 (reduceKey g m) (· ||| 8) s.reduce.planned) (reduceKey g m) =
      recordOf s.reduce.planned (reduceKey g m) ||| 8 from smGet_smPut_ne hne _]
    exact ⟨hstate ▸ hk, hfrom ▸ hkl⟩
  · rw [show recordOf (smUpd 0xFFFFFFFF00000000 (reduceKey g m) (· ||| 8) s.reduce.planned) k =
      recordOf s.reduce.planned k from smGet_smPut_ne_other hne hkey _]
    exact ⟨hk, hkl⟩

/-- Marks made that leave those made before. -/
def Marking (s u : State) : Prop := Marks s u ∧ ∀ k lim, Marked s.reduce k lim → Marked u.reduce k lim

theorem Marking.refl (s : State) : Marking s s := ⟨.refl s, fun _ _ h => h⟩

theorem Marking.trans (h : Marking s u) (k : Marking u v) : Marking s v := ⟨h.1.trans k.1, fun i lim hi => k.2 i lim (h.2 i lim hi)⟩

theorem Marking.ite {c : Prop} [Decidable c] (h : Marking s u) (k : Marking s v) : Marking s (if c then u else v) := by
  split
  · exact h
  · exact k

theorem Marking.foldl {f : State → Nat → State} (hf : ∀ u m, Marking u (f u m)) : ∀ (l : List Nat) (s : State),
    Marking s (l.foldl f s)
  | [], s => refl s
  | m :: l, s => (hf s m).trans (foldl hf l _)

/-- R226: a member whose contribution is missing is marked from its first missing seq, unless it is marked from there or before. -/
def markMissing (pb g base per : Nat) (got : SMap Nat) (s : State) (m : Nat) : State :=
  let n := smGet 0 got m
  let marked := match s.mark (reduceKey g m) with | some f => decide (f ≤ base + n) | none => false
  if n < per && !marked then s.markLate pb g m (base + n) else s

theorem markMissing_marking {pb g base per : Nat} {got : SMap Nat} (hseq : base + per < 2 ^ 32) (s : State) (m : Nat) :
    Marking s (markMissing pb g base per got s m) ∧
      (smGet 0 got m < per → Marked (markMissing pb g base per got s m).reduce (reduceKey g m) (base + smGet 0 got m)) := by
  unfold markMissing
  extract_lets n marked
  split
  case isTrue h =>
    have hn : n < per := of_decide_eq_true (Bool.and_eq_true_iff.mp h).1
    obtain ⟨_, hmarks, -⟩ := markLate_eq s pb g m (base + n)
    obtain ⟨hown, hkept⟩ := markLate_marks (s := s) pb g m (fromSeq := base + n) (by omega)
    exact ⟨⟨hmarks, hkept⟩, fun _ => hown⟩
  case isFalse h =>
    refine ⟨.refl s, fun hn => ?_⟩
    have hmarked : marked = true := by
      cases hm : marked
      · exact absurd (by rw [hm, Bool.and_eq_true_iff]; exact ⟨decide_eq_true hn, rfl⟩) h
      · rfl
    unfold marked State.mark at hmarked
    unfold Marked
    by_cases hz : recState (recordOf s.reduce.planned (reduceKey g m)) = 0
    · simp [hz] at hmarked
    · simp only [hz, if_false, decide_eq_true_eq] at hmarked
      exact ⟨hz, hmarked⟩

theorem foldl_markMissing {pb g base per : Nat} {got : SMap Nat} (hseq : base + per < 2 ^ 32) : ∀ (l : List Nat) (s : State),
    Marking s (l.foldl (markMissing pb g base per got) s) ∧ ∀ m ∈ l, smGet 0 got m < per →
      Marked (l.foldl (markMissing pb g base per got) s).reduce (reduceKey g m) (base + smGet 0 got m)
  | [], s => ⟨.refl s, fun _ h => absurd h List.not_mem_nil⟩
  | m :: l, s => by
    obtain ⟨hone, hmark⟩ := markMissing_marking (pb := pb) (g := g) (got := got) hseq s m
    obtain ⟨hrest, hmarks⟩ := foldl_markMissing (pb := pb) (g := g) (got := got) hseq l (markMissing pb g base per got s m)
    refine ⟨hone.trans hrest, fun m' hm' hn => ?_⟩
    obtain rfl | hm' := List.mem_cons.mp hm'
    · exact hrest.2 _ _ (hmark hn)
    · exact hmarks m' hm' hn

/-- The deadline of a block whose timer runs: every missing member is marked, and the block is closed for LATE contributions. -/
theorem stragglerDeadline_eq {pb i : Nat} (hpb : pb < 24) (hi : i < (s.pbProg pb).sumMap.length)
    (hstarted : (accOf (pbOf s pb) i).started = true) (hopen : (accOf (pbOf s pb) i).isFinal = false)
    (hlate : (s.group ((s.pbProg pb).sumAt i).group).late ≠ 0) (hfree : s.directed ((s.pbProg pb).sumAt i).group = false)
    (hphase : s.step.phase ≠ .discarding) (hseq : seqBase (s.pbProg pb) i + ((s.pbProg pb).sumAt i).perMember < 2 ^ 32) :
    ∃ v, Marking s v ∧ (∀ m, m < (s.group ((s.pbProg pb).sumAt i).group).members →
        smGet 0 (accOf (pbOf s pb) i).got m < ((s.pbProg pb).sumAt i).perMember →
        Marked v.reduce (reduceKey ((s.pbProg pb).sumAt i).group m) (seqBase (s.pbProg pb) i + smGet 0 (accOf (pbOf s pb) i).got m)) ∧
      exec (.stragglerDeadline pb i) s = .next ((v.updPb pb (fun y => { y with
        accs := smUpd {} i (fun b => { b with lateClosed := true }) y.accs })).advance pb).tryVote := by
  obtain ⟨hmarking, hmarked⟩ := foldl_markMissing (pb := pb) (g := ((s.pbProg pb).sumAt i).group) (got := (accOf (pbOf s pb) i).got)
    hseq (List.range (s.group ((s.pbProg pb).sumAt i).group).members) s
  have hdrop (u : State) : Marking u ((List.range (s.group ((s.pbProg pb).sumAt i).group).members).foldl (fun s' m =>
      let first := smGet 0 s'.reduce.lateIn (reduceKey ((s.pbProg pb).sumAt i).group m)
      let owed := if first = 0 then 0 else
        seqBase (s.pbProg pb) i + ((s.pbProg pb).sumAt i).perMember - max (seqBase (s.pbProg pb) i) (first - 1)
      if smGet 0 (accOf (pbOf s pb) i).lateGot m < owed ∧ ¬ (accOf (pbOf s pb) i).lateClosed then
        s'.dropLate pb ((s.pbProg pb).sumAt i).group m else s') u) :=
    Marking.foldl (fun v m => .ite (dropLate_marks ..) (.refl v)) _ _
  refine ⟨_, hmarking.trans (hdrop _), fun m hm hn => (hdrop _).2 _ _ (hmarked m (List.mem_range.mpr hm) hn),
    (if_neg (Nat.not_le.mpr hpb)).trans (if_neg ?_)⟩
  rintro (h | h | h | h | h | h)
  · exact absurd h (Nat.not_le.mpr hi)
  · exact h hstarted
  · exact Bool.false_ne_true (hopen.symm.trans h)
  · exact hlate h
  · exact Bool.false_ne_true (hfree.symm.trans h)
  · exact hphase h

end

/-- Settles O40. -/
theorem totalsAndStragglers : Obligations.TotalsAndStragglers := by
  unfold Obligations.TotalsAndStragglers
  intro s hcan
  obtain ⟨-, htiles, hpbs, -⟩ := hcan
  refine ⟨?_, ?_, ?_⟩
  · intro pb e hpb hfatal hphase hentry col tiles k total bs dest hready hpoison
    obtain ⟨r, c, hc, hexec⟩ := columnTotal_eq hpb hfatal hphase hentry rfl rfl hready hpoison
    obtain ⟨p, nf, hconv, wp, hpos, hchain, hnf⟩ :=
      convertEntry_eq (s := { s with step := { s.step with refires := r } }) hpbs pb e total
    have hack := Hands.acknowledge c.1 pb k tiles
    rw [hc.trans hconv] at hack hexec
    obtain ⟨wack, hackpbs⟩ := hack.pbs wp
    generalize hA : (State.acknowledge _ pb k tiles) = A at hack hexec wack hackpbs
    obtain ⟨wemit, hpos', hchain', hheld, hmem, hpages, hprogram, hnf'⟩ := emitBlocks_eq wack pb e bs
    have hvote := Hands.tryVote (A.emitBlocks pb e bs)
    obtain ⟨hvpos, hvchain⟩ := (hvote.pbs wemit).2 pb
    obtain ⟨hapos, hachain⟩ := hackpbs pb
    refine ⟨_, hexec, hvpos.trans (hpos'.trans (hapos.trans hpos)), hvchain.trans (hchain'.trans (congrArg (bs.foldl _)
      (hachain.trans hchain))), fun b hb => ⟨_, ?_, rfl⟩, hvote.nfLocal.trans (hnf'.trans (hack.nfLocal.trans hnf)),
      hvote.mem.trans (hmem.trans hack.mem), hvote.pages.trans (hpages.trans hack.pages),
      hvote.program.trans (hprogram.trans hack.program)⟩
    have hb' := (hheld b hb).mem
    rw [hack.current, State.group, State.prog, hack.program] at hb'
    rw [tryVote_reduce]
    exact hb'
  · intro p before h after hp hheld hsent hnone
    refine ⟨_, if_neg (Nat.not_le.mpr hp), ?_, fun q hq => tileOf_updTile_other _ htiles hq, rfl⟩
    rw [tileOf_updTile_same _ htiles]
    have hindex : (tileOf s p).heldCanvases.findIdx (·.sent) = before.length := by
      rw [hheld, List.findIdx_append, List.findIdx_eq_length.mpr hnone, if_neg (Nat.lt_irrefl _), List.findIdx_cons, hsent]
      exact Nat.zero_add _
    rw [hindex, hheld, List.eraseIdx_append_of_length_le (Nat.le_refl _), Nat.sub_self, List.eraseIdx_cons_zero]
  · intro pb i hpb hi x a base hstarted hopen hlate hfree hphase hseq
    obtain ⟨v, hmarks, hmarked, hexec⟩ := stragglerDeadline_eq hpb hi hstarted hopen hlate hfree hphase hseq
    obtain ⟨⟨pl, rec', tr, ho, hv, hrec⟩, -⟩ := hmarks
    have hvpbs : v.pbs = s.pbs := by rw [hv]
    have hput : accOf (pbOf (v.updPb pb (fun y => { y with
        accs := smUpd {} i (fun b => { b with lateClosed := true }) y.accs })) pb) i =
        { accOf (pbOf v pb) i with lateClosed := true } := by
      rw [show pbOf (v.updPb pb _) pb = _ from smGet_smPut_same (hvpbs ▸ hpbs)]
      refine smGet_smPut_ne (fun hc => ?_) _
      have hclosed : true = false := congrArg SumAcc.lateClosed hc
      exact Bool.false_ne_true hclosed.symm
    generalize hw : v.updPb pb (fun y => { y with accs := smUpd {} i (fun b => { b with lateClosed := true }) y.accs }) = w
      at hexec hput
    have wpbs : smWf {} 0 w.pbs = true := hw ▸ smPut_wf (Nat.zero_le _) (hvpbs ▸ hpbs)
    have hend := (Advances.advance w pb).trans (.tryVote _)
    obtain ⟨nf, hreduce⟩ := hend.reduce
    have hwr : w.reduce = v.reduce := hw ▸ rfl
    refine ⟨_, hexec, ((hend.pbs wpbs).2 pb i).2.trans (congrArg SumAcc.lateClosed hput), fun m hm hn => ?_, fun hred hrec0 => ?_,
      hend.program.trans ?_, hend.pages.trans ?_⟩
    · rw [hreduce, hwr]
      exact hmarked m hm hn
    · rw [hreduce, hwr, hv]
      exact hrec hred hrec0
    · rw [← hw, hv]
      rfl
    · rw [← hw, hv]
      rfl

/-! ### Blocks that arrive (O41) -/

/-- A block of the step in progress that the sum map of its port block expects at its seq. -/
structure Fits (s : State) (pb : Nat) (b : Block) (e : Nat) : Prop where
  entry : (expected (s.pbProg pb) b.group.toNat)[b.seq.toNat]? = some e
  onTime : b.isLate = false
  step : b.stepLow = low32 s.step.current.stepNumber
  member : b.bitmapIndex.toNat < (s.group b.group.toNat).members
  key : ((s.pbProg pb).sumAt e).key = b.key
  windowId : b.windowId.toNat = ((s.pbProg pb).sumAt e).windowId
  window : b.w = (s.window ((s.pbProg pb).sumAt e).windowId).setWidth 8

section
variable {s : State} {pb : Nat} {sender : BitVec 16} {b : Block} {e : Nat}

/-- The stream of a block. -/
def streamOf (b : Block) : Nat := reduceKey b.group.toNat b.bitmapIndex.toNat

/-- A block that fits: a duplicate, one not waited for, one ahead of its stream, or the next (R222, R224, R226). -/
theorem takeBlock_eq (h : Fits s pb b e) : s.takeBlock pb sender b =
    if b.seq.toNat < smGet 0 s.reduce.nextIn (streamOf b) then ((s.traceBlock pb b true).foldDuplicate pb (streamOf b) b, false)
    else if (match s.mark (streamOf b) with | some f => decide (f ≤ b.seq.toNat) | none => false) = true then (s, false)
    else if smGet 0 s.reduce.nextIn (streamOf b) < b.seq.toNat then
      (s.updReduce (fun r => { r with early := r.early ++ [⟨pb, sender, b⟩] }), false)
    else
      (((((s.updReduce (fun r => { r with nextIn := smPut 0 (streamOf b) (smGet 0 s.reduce.nextIn (streamOf b) + 1) r.nextIn
        })).traceBlock pb b false).addBlock pb e (streamOf b) b).advance pb).noteLast pb e sender, true) := by
  obtain ⟨hentry, hlate, hstep, hmember, hkey, hid, hw⟩ := h
  unfold State.takeBlock
  dsimp only
  rw [hentry]
  dsimp only
  rw [if_neg, if_neg, hlate]
  · simp only [Bool.false_eq_true, if_false]
    rfl
  · rintro (h | h)
    · exact h hid
    · exact h hw
  · rintro (h | h | h)
    · rw [hlate] at h
      exact h hstep
    · exact absurd h (Nat.not_le.mpr hmember)
    · exact h hkey

theorem mark_none (h : recState (recordOf s.reduce.planned (streamOf b)) = 0) : s.mark (streamOf b) = none := if_pos h

/-- A block of the step in progress reaches the Kiln unit of its owner. -/
theorem xs96Block_eq (hpb : pb < 24) (hresv : b.resv = false) (hbusy : s.wake.step.inProgress = true)
    (hphase : s.wake.step.phase ≠ .discarding) (hvote : s.wake.reduce.voteSent = false) (hcrc : blockCrc b = b.crc) :
    exec (.xs96Block pb sender b) s = .next (if (s.wake.takeBlock pb sender b).2 = true then
      (s.wake.takeBlock pb sender b).1.drainEarly (s.wake.takeBlock pb sender b).1.reduce.early.length
      else (s.wake.takeBlock pb sender b).1).tryVote := by
  refine (if_neg ?_).trans ((if_neg ?_).trans ((if_neg ?_).trans (if_neg ?_)))
  · rintro (h | h)
    · exact absurd h (Nat.not_le.mpr hpb)
    · exact Bool.false_ne_true (hresv.symm.trans h)
  · rintro (h | h)
    · exact hphase h
    · exact h.1 hbusy
  · exact fun h => h hcrc
  · rintro ⟨h | h, -⟩
    · exact Bool.false_ne_true (h.symm.trans hbusy)
    · exact Bool.false_ne_true (hvote.symm.trans h)

theorem blockBytes_ne_nil (b : Block) : blockBytes b ≠ [] := by
  unfold blockBytes blockHeader
  simp [leBytes]

theorem traceBlock_eq (s : State) (pb : Nat) (b : Block) (dup : Bool) : ∃ tr, s.traceBlock pb b dup = { s with trace := tr } :=
  traceAt_eq ..

/-- A contribution counts into its accumulator and its image is kept; nothing else of the reductions changes. -/
theorem addBlock_eq (s : State) (pb e k : Nat) (b : Block) : ∃ p sy, s.addBlock pb e k b = { s with
    pbs := p
    sync := sy
    reduce := { s.reduce with firstImages := smPut [] (imageKey k b) (blockBytes b) s.reduce.firstImages } } ∧
    (smWf {} 0 s.pbs = true → smWf {} 0 p = true) := ⟨_, _, rfl, fun w => smPut_wf (Nat.zero_le _) w⟩

theorem noteLast_advances (s : State) (pb e : Nat) (sender : BitVec 16) : Advances s (s.noteLast pb e sender) := by
  unfold State.noteLast
  split
  · exact .of_eq rfl rfl rfl rfl
  · exact .refl s

theorem foldDuplicate_eq (s : State) (pb k : Nat) (b : Block) : (s.foldDuplicate pb k b).pbs = s.pbs ∧
    (s.foldDuplicate pb k b).reduce = { s.reduce with
      secondImages := smPut [] (imageKey k b) (blockBytes b) s.reduce.secondImages } := by
  unfold State.foldDuplicate
  extract_lets u r mine
  split
  · exact ⟨State.raise_pbs .., State.raise_reduce ..⟩
  · exact ⟨rfl, rfl⟩

theorem tryVote_pbs : s.tryVote.pbs = s.pbs := by
  unfold State.tryVote
  split
  · split
    · exact State.raise_pbs ..
    · exact State.beginPhase_pbs ..
  · rfl

/-- The next block of a stream: it counts once, its image is kept, and the stream goes on. -/
theorem takeNext (hpbs : smWf {} 0 s.pbs = true) (hfit : Fits s pb b e) (hnext : b.seq.toNat = smGet 0 s.reduce.nextIn (streamOf b))
    (hmark : recState (recordOf s.reduce.planned (streamOf b)) = 0) (hearly : s.reduce.early = []) :
    ∃ v t, (if (s.takeBlock pb sender b).2 = true then
        (s.takeBlock pb sender b).1.drainEarly (s.takeBlock pb sender b).1.reduce.early.length
      else (s.takeBlock pb sender b).1).tryVote = t ∧ Advances v t ∧
          smWf {} 0 v.pbs = true ∧ v.program = s.program ∧ v.pages = s.pages ∧
      smGet 0 v.reduce.nextIn (streamOf b) = b.seq.toNat + 1 ∧
      smGet [] v.reduce.firstImages (imageKey (streamOf b) b) = blockBytes b ∧
      accOf (pbOf v pb) e = SumAcc.addTo (accOf (pbOf s pb) e) b := by
  have htake := takeBlock_eq (sender := sender) hfit
  rw [if_neg (by rw [hnext]; exact Nat.lt_irrefl _), mark_none hmark, if_neg Bool.false_ne_true,
    if_neg (by rw [hnext]; exact Nat.lt_irrefl _), ← hnext] at htake
  obtain ⟨tr, htrace⟩ := traceBlock_eq (s.updReduce (fun r => { r with
    nextIn := smPut 0 (streamOf b) (b.seq.toNat + 1) r.nextIn })) pb b false
  obtain ⟨p, sy, hadd, wp⟩ := addBlock_eq ({ s.updReduce (fun r => { r with
    nextIn := smPut 0 (streamOf b) (b.seq.toNat + 1) r.nextIn }) with trace := tr } : State) pb e (streamOf b) b
  rw [htrace] at htake
  have hacc := accOf_addBlock ({ s.updReduce (fun r => { r with
    nextIn := smPut 0 (streamOf b) (b.seq.toNat + 1) r.nextIn }) with trace := tr } : State) pb e (streamOf b) b
  generalize hv : State.addBlock _ pb e (streamOf b) b = v at htake hadd hacc
  have hadvance := (Advances.advance v pb).trans (noteLast_advances _ pb e sender)
  obtain ⟨nf, hreduce⟩ := hadvance.reduce
  have hnone : ((v.advance pb).noteLast pb e sender).reduce.early = [] := by
    rw [hreduce, hadd]
    exact hearly
  rw [htake, if_pos rfl]
  dsimp only
  rw [hnone]
  refine ⟨v, _, rfl, hadvance.trans (.tryVote _), ?_⟩
  rw [hadd] at hacc ⊢
  exact ⟨wp hpbs, rfl, rfl, smGet_smPut_ne (Nat.succ_ne_zero _) _, smGet_smPut_ne (blockBytes_ne_nil b) _, hacc⟩

end

/-! #### Asking and answering over the links -/

section
variable {s : State}

/-- A message that leaves by a link. -/
theorem zSend_eq {pb n : Nat} {m : ZMsg} (hassigned : s.boot.positionId ≠ 0xFFFF) (hlink : linkFor s pb = some n) :
    ∃ l tr ho, s.zSend pb m = { s with
      links := l
      zOut := (n, m) :: s.zOut
      trace := tr
      host := ho } := by
  have hflush (u : State) : ∃ l tr ho, u.flushLink n = { u with
      links := l
      trace := tr
      host := ho } := by
    change ∃ l tr ho, (u.updLink n Link.flush).trySwitch n = _
    unfold State.trySwitch
    split
    · refine ⟨_, _, _, (raise_frame (n := 2) ?_ ?_ ?_ ?_).trans rfl⟩
      · rfl
      all_goals decide
    · exact ⟨_, _, _, rfl⟩
  unfold State.zSend
  rw [if_neg hassigned, hlink]
  dsimp only
  obtain ⟨l, tr, ho, h⟩ := hflush { s.updLink n (fun l => l.queue (channelOf m.type.toNat) (zMsgBytes s.boot.positionId m)) with
    zOut := (n, m) :: s.zOut }
  exact ⟨l, tr, ho, h⟩

/-- A KILN message to another module leaves by a link. -/
theorem kilnSend_eq {pb n : Nat} {m : ZMsg} (hother : m.dest ≠ s.boot.positionId) (hassigned : s.boot.positionId ≠ 0xFFFF)
    (hlink : linkFor s pb = some n) : ∃ l p sy tr ho, s.kilnSend pb m = { s with
      links := l
      zOut := (n, m) :: s.zOut
      pbs := p
      sync := sy
      trace := tr
      host := ho } := by
  obtain ⟨l, tr, ho, h⟩ := zSend_eq (m := m) hassigned hlink
  unfold State.kilnSend State.zSendCounted
  rw [if_neg hother, if_pos (.inr (hlink ▸ rfl)), h]
  exact ⟨_, _, _, _, _, rfl⟩

/-- A resend request leaves every accumulator. -/
theorem askResend_eq (hpbs : smWf {} 0 s.pbs = true) (pb group member fromSeq toSeq : Nat) (stepLow : BitVec 32) (late : Bool) :
    ∃ l z p tr ho, s.askResend pb group member fromSeq toSeq stepLow late = { s with
      links := l
      zOut := z
      pbs := p
      trace := tr
      host := ho } ∧ ∀ n i, accOf (smGet {} p n) i = accOf (pbOf s n) i := by
  unfold State.askResend
  extract_lets d m
  split
  · exact ⟨_, _, _, _, _, rfl, fun _ _ => rfl⟩
  · obtain ⟨l, z, p, tr, ho, h, -⟩ := Sends.zSend s pb m
    have hp : p = s.pbs := (congrArg State.pbs h).symm.trans (zSend_pbs pb m)
    subst hp
    unfold State.zSendCounted
    rw [h]
    refine ⟨l, z, _, tr, ho, rfl, fun n i => ?_⟩
    by_cases hn : n = pb
    · subst hn
      rw [smGet_smPut_same hpbs]
      rfl
    · rw [smGet_smPut_other hn hpbs]
      rfl

/-- A detection queues a test of its site and leaves everything but the repair data and the reports. -/
theorem detect_eq {c : Code} {site block lane : Nat} (hc : detectionCodes.contains c.toNat = true) (hsite : site < 65536)
    (hblock : block < 256) (hlane : lane < 256) (cid : BitVec 64) (d : Nat) :
    ∃ re tr ho, s.detect c site block lane cid d = { s with
      repair := re
      trace := tr
      host := ho } ∧ ∃ x ∈ re.tests, x.site.toNat = site ∧ x.block.toNat = block ∧ x.lane.toNat = lane := by
  unfold State.detect
  obtain ⟨hsev, h9, hA, -⟩ := severityOf_detection s.step.inProgress ⟨BitVec.ofNat 12 site, BitVec.ofNat 8 block⟩ d hc
  rw [raise_frame rfl hsev h9 hA]
  obtain ⟨h, f, l, ts, tr, ho, heq, htest⟩ := detected_eq ({ s with
    trace := (s.raise c ⟨BitVec.ofNat 12 site, BitVec.ofNat 8 block⟩ cid d).trace
    host := (s.raise c ⟨BitVec.ofNat 12 site, BitVec.ofNat 8 block⟩ cid d).host } : State) hsite hblock hlane
  exact ⟨_, _, _, heq, htest⟩

/-- The one block asked for is in retention, and has been sent: it is sent again (R222, R347). -/
theorem resendRequest_eq {pb : Nat} {requester : BitVec 16} {group : BitVec 8} {x : Retained} (hpb : pb < 24)
    (hbusy : s.step.inProgress = true) (honly : s.reduce.retention.filter (fun y => y.destId == requester && y.block.group == group &&
      low32 y.step == low32 s.step.current.stepNumber && y.block.seq == x.block.seq) = [x])
    (hsent : x.block.seq.toNat < smGet 0 s.reduce.nextOut (outKey requester.toNat group.toNat)) :
    exec (.resendRequest requester pb group x.block.seq x.block.seq ⟨low32 s.step.current.stepNumber, false⟩) s =
      .next (s.wake.sendBlock x) := by
  obtain ⟨w, sm, hwake⟩ := wake_eq s
  have hfound : s.reduce.retention.filter (fun y => y.destId == requester && y.block.group == group &&
      low32 y.step == low32 s.step.current.stepNumber && decide (x.block.seq.toNat ≤ y.block.seq.toNat) &&
      decide (y.block.seq.toNat ≤ x.block.seq.toNat)) = [x] := by
    refine (List.filter_congr fun y _ => ?_).trans honly
    rw [Bool.and_assoc, ← Bool.decide_and]
    congr 1
    rw [Bool.eq_iff_iff, decide_eq_true_iff, beq_iff_eq, ← BitVec.toNat_inj]
    omega
  have hone : min (x.block.seq.toNat + 1) (smGet 0 s.reduce.nextOut (outKey requester.toNat group.toNat)) - x.block.seq.toNat = 1 := by
    omega
  change execResendRequest _ _ _ _ _ _ s = _
  unfold execResendRequest
  rw [if_neg (Nat.not_le.mpr hpb), hwake]
  simp only [hfound, if_pos hbusy, if_true, hone]
  rw [if_neg (by simp)]
  simp

end

/-- Settles O41. -/
theorem blocksArrive : Obligations.BlocksArrive := by
  unfold Obligations.BlocksArrive
  intro pb sender b s e hpb hcan p k next good
  obtain ⟨-, -, hpbs, -⟩ := hcan
  obtain ⟨w, sm, hwake⟩ := wake_eq s
  have hgood : good → Fits s.wake pb b e ∧ exec (.xs96Block pb sender b) s = .next (if (s.wake.takeBlock pb sender b).2 = true then
      (s.wake.takeBlock pb sender b).1.drainEarly (s.wake.takeBlock pb sender b).1.reduce.early.length
      else (s.wake.takeBlock pb sender b).1).tryVote := by
    rintro ⟨hresv, hbusy, hphase, hvote, hcrc, hentry, hlate, hstep, hmember, hkey, hid, hw⟩
    refine ⟨hwake ▸ ⟨hentry, hlate, hstep, hmember, hkey, hid, hw⟩, xs96Block_eq hpb hresv ?_ ?_ ?_ hcrc⟩
    all_goals rw [hwake]; assumption
  refine ⟨?_, ?_, ?_, ?_, ?_, ?_, ?_⟩
  · intro hg hnext hmark hearly
    obtain ⟨hfit, hexec⟩ := hgood hg
    obtain ⟨v, t, ht, hadv, wv, hprogram, hpages, hnextIn, himage, hacc⟩ := takeNext (sender := sender) (by rw [hwake]; exact hpbs) hfit
      (by rw [hwake]; exact hnext) (by rw [hwake]; exact hmark) (by rw [hwake]; exact hearly)
    obtain ⟨nf, hreduce⟩ := hadv.reduce
    refine ⟨t, hexec.trans (congrArg _ ht), ?_, ?_, ?_, hadv.program.trans (hprogram.trans (by rw [hwake])),
      hadv.pages.trans (hpages.trans (by rw [hwake]))⟩
    · rw [hreduce]
      exact hnextIn
    · rw [hreduce]
      exact himage
    · rw [((hadv.pbs wv).2 pb e).1, hacc, hwake]
      unfold SumAcc.addTo
      dsimp only
      rw [hg.2.2.2.2.2.2.1, if_neg Bool.false_ne_true]
      exact smGet_smPut_ne (Nat.succ_ne_zero _) _
  · intro hg hnext hmark
    obtain ⟨hfit, hexec⟩ := hgood hg
    have htake := takeBlock_eq (sender := sender) hfit
    rw [mark_none (by rw [hwake]; exact hmark), if_neg (by rw [hwake]; exact Nat.lt_asymm hnext), if_neg Bool.false_ne_true,
      if_pos (by rw [hwake]; exact hnext)] at htake
    rw [htake, if_neg Bool.false_ne_true] at hexec
    refine ⟨_, hexec, ?_, ?_, ?_⟩
    · rw [tryVote_reduce, hwake]
      rfl
    · rw [tryVote_reduce, hwake]
      rfl
    · rw [tryVote_pbs, hwake]
      rfl
  · intro hg hnext
    obtain ⟨hfit, hexec⟩ := hgood hg
    have htake := takeBlock_eq (sender := sender) hfit
    rw [if_pos (by rw [hwake]; exact hnext)] at htake
    rw [htake, if_neg Bool.false_ne_true] at hexec
    obtain ⟨hdpbs, hdreduce⟩ := foldDuplicate_eq (s.wake.traceBlock pb b true) pb (streamOf b) b
    obtain ⟨tr, htrace⟩ := traceBlock_eq s.wake pb b true
    refine ⟨_, hexec, ?_, ?_⟩
    · rw [tryVote_pbs, hdpbs, htrace, hwake]
    · rw [tryVote_reduce, hdreduce, htrace, hwake]
      rfl
  · intro hresv hbusy hphase hcrc
    obtain ⟨re, tr, ho, hdetect, x, hx, hsite, hblock, -⟩ := detect_eq (s := s.wake) (c := 0x2302) (site := 0xB00 + pb) (block := 17)
      (lane := 0) (by decide) (by omega) (by decide) (by decide) noCmd b.seq.toNat
    obtain ⟨l, z, p', tr', ho', hask, haccs⟩ := askResend_eq (s := s.wake.detect 0x2302 (0xB00 + pb) 17 0 noCmd b.seq.toNat)
      (by rw [hdetect, hwake]; exact hpbs) pb b.group.toNat b.bitmapIndex.toNat b.seq.toNat b.seq.toNat b.stepLow b.isLate
    have hexec : exec (.xs96Block pb sender b) s = .next ((s.wake.detect 0x2302 (0xB00 + pb) 17 0 noCmd b.seq.toNat).askResend pb
        b.group.toNat b.bitmapIndex.toNat b.seq.toNat b.seq.toNat b.stepLow b.isLate) := by
      refine (if_neg ?_).trans ((if_neg ?_).trans (if_pos hcrc))
      · rintro (h | h)
        · exact absurd h (Nat.not_le.mpr hpb)
        · exact Bool.false_ne_true (hresv.symm.trans h)
      · rw [hwake]
        rintro (h | h)
        · exact hphase h
        · exact h.1 hbusy
    rw [hask] at hexec
    rw [hdetect, hwake] at hexec haccs
    exact ⟨_, hexec, haccs, rfl, rfl, rfl, x, hx, hsite, BitVec.eq_of_toNat_eq hblock⟩
  · rintro (hphase | hresv)
    · by_cases hbad : 24 ≤ pb ∨ b.resv = true
      · exact if_pos hbad
      · refine (if_neg hbad).trans (if_pos (.inl ?_))
        rw [hwake]
        exact hphase
    · exact if_pos (.inr hresv)
  · intro x n requester group hbusy hphase hme hassigned hlink hdest hstep honly hsent
    have hexec : exec (.resendRequest requester pb group x.block.seq x.block.seq ⟨low32 s.step.current.stepNumber, false⟩) s =
        .next (s.wake.sendBlock x) := resendRequest_eq hpb hbusy honly hsent
    obtain ⟨l, p', sy, tr, ho, hsend⟩ := kilnSend_eq (s := s.wake) (pb := x.pb) (n := n)
      (m := ⟨x.destId, 0x10, BitVec.ofNat 8 x.destPb, blockBytes x.block⟩) (by rw [hwake, hdest]; exact hme)
      (by rw [hwake]; exact hassigned) (by rw [hwake]; exact hlink)
    rw [State.sendBlock, hsend, hwake, hdest] at hexec
    exact ⟨_, hexec, rfl, rfl, rfl, rfl⟩
  · intro requester group f u st late hcan hcur hprev
    have hexec : exec (.resendRequest requester pb group f u ⟨st, late⟩) s =
        .next (s.wake.raise 0x2306 ⟨pbCode pb, 17⟩ noCmd f.toNat) := by
      refine (if_neg (Nat.not_le.mpr hpb)).trans (if_pos (.inl ?_))
      rw [hwake]
      dsimp only
      rw [if_pos hcan.1]
      exact not_or.mpr ⟨hcur, hprev⟩
    obtain ⟨hdiscards, -⟩ := raise_discard
        (s := s.wake) (c := 0x2306) (p := ⟨pbCode pb, 17⟩) (i := noCmd) (d := f.toNat) (e := 0) rfl
      (by rw [hwake]; exact hcan) (by decide) (by decide)
    refine ⟨_, hexec, ?_⟩
    unfold Discards at hdiscards ⊢
    rwa [State.wake_step, State.wake_now, State.wake_rillOut] at hdiscards

/-! ### Votes (O43) -/

/-- Two states between which KILN messages may have left. -/
def Leaves (s u : State) : Prop := ∃ l z p sy tr ho, u = { s with
  links := l
  zOut := z
  pbs := p
  sync := sy
  trace := tr
  host := ho }

namespace Leaves

variable {s u v : State}

theorem refl (s : State) : Leaves s s := ⟨_, _, _, _, _, _, rfl⟩

theorem trans (h : Leaves s u) (k : Leaves u v) : Leaves s v := by
  obtain ⟨_, _, _, _, _, _, rfl⟩ := h
  obtain ⟨_, _, _, _, _, _, rfl⟩ := k
  exact ⟨_, _, _, _, _, _, rfl⟩

theorem foldl {α : Type} {f : State → α → State} (hf : ∀ u x, Leaves u (f u x)) : ∀ (l : List α) (s : State),
    Leaves s (l.foldl f s)
  | [], s => refl s
  | x :: l, s => (hf s x).trans (foldl hf l _)

theorem of_sends (h : Sends s u) : Leaves s u := by
  obtain ⟨_, _, _, _, _, rfl, -⟩ := h
  exact ⟨_, _, _, _, _, _, rfl⟩

theorem kilnSend (s : State) (pb : Nat) (m : ZMsg) : Leaves s (s.kilnSend pb m) := by
  unfold State.kilnSend
  extract_lets u
  have hu : Leaves s u := by
    unfold u
    split
    · exact ⟨_, _, _, _, _, _, rfl⟩
    · exact of_sends (.zSendCounted ..)
  split
  · exact hu.trans ⟨_, _, _, _, _, _, rfl⟩
  · exact hu

end Leaves

section
variable {s : State}

theorem isSome_find?_eq_any (l : List VoteMsg) (id : Nat) :
    (l.find? (fun v => v.positionId.toNat == id)).isSome = l.any (fun v => v.positionId.toNat == id) := List.isSome_find?

theorem missing_vote {ids : List Nat} {votes : List VoteMsg}
    (h : ¬ ids.all (fun id => votes.any (fun v => v.positionId.toNat == id)) = true) :
    ∃ id ∈ ids, votes.any (fun v => v.positionId.toNat == id) = false := by
  simpa only [List.all_eq_true, not_forall, exists_prop, Bool.not_eq_true] using h

/-- The votes are not complete: they are held (R230). -/
theorem judge_waits (h : s.step.phase ≠ .vote ∨ s.reduce.voteSent = false ∨
    ∃ id ∈ s.voters, s.reduce.votes.any (fun v => v.positionId.toNat == id) = false) : s.judge = s := by
  refine if_neg fun hall => ?_
  simp only [Bool.and_eq_true, beq_iff_eq, List.all_eq_true, isSome_find?_eq_any] at hall
  obtain ⟨⟨hphase, hsent⟩, hvotes⟩ := hall
  obtain h | h | ⟨id, hid, hnone⟩ := h
  · exact h hphase
  · exact Bool.false_ne_true (h.symm.trans hsent)
  · exact Bool.false_ne_true (hnone.symm.trans (hvotes id hid))

theorem beginPhase_eq (s : State) (ph : Phase) : ∃ tm tr, s.beginPhase ph = { s with
    step := { s.step with
      phase := ph
      timers := tm }
    trace := tr } := by
  have hstep : ∃ tm, (if ph.code - 1 < 7 then ({ s.step with phase := ph } : Step).setTimer (ph.code - 1) (s.now, s.now)
      else { s.step with phase := ph }) = { s.step with
        phase := ph
        timers := tm } := by
    split
    · exact ⟨_, rfl⟩
    · exact ⟨_, rfl⟩
  obtain ⟨tm, hstep⟩ := hstep
  obtain ⟨tr, h⟩ := traceAt_eq ({ s with step := { s.step with
    phase := ph
    timers := tm } } : State) 6 false 0xF00 noCmd ph.code
  refine ⟨tm, tr, Eq.trans ?_ h⟩
  unfold State.beginPhase
  dsimp only
  rw [hstep]

/-- The last vote that was missing begins COMMIT with its verdict (R230). -/
theorem judge_decides (hphase : s.step.phase = .vote) (hsent : s.reduce.voteSent = true)
    (hall : s.voters.all (fun id => s.reduce.votes.any (fun v => v.positionId.toNat == id)) = true) :
    ∃ tm tr, s.judge = { s with
      step := { s.step with
        phase := .commit
        timers := tm
        voteSkip := s.reduce.votes.any (fun v => v.flags.getLsbD 0) }
      trace := tr
      reduce := { s.reduce with verdict := some (s.reduce.votes.any (fun v => v.flags.getLsbD 0)) } } := by
  have hcond : (s.step.phase == .vote && s.reduce.voteSent && s.voters.all (fun id =>
      (s.reduce.votes.find? (fun v => v.positionId.toNat == id)).isSome)) = true := by
    simp only [isSome_find?_eq_any]
    rw [hphase, hsent, hall]
    rfl
  unfold State.judge
  dsimp only
  rw [if_pos hcond]
  obtain ⟨tm, tr, h⟩ := beginPhase_eq (s.endPhase .vote) .commit
  rw [h]
  exact ⟨_, _, rfl⟩

/-- A vote leaves for the other members, and this module's own is held (R229). -/
theorem voteSend_eq (hfatal : s.arbiter.fatal = none) (hphase : s.step.phase = .vote) (hunsent : s.reduce.voteSent = false)
    (hgate : s.parityGate = true) (hclean : s.sync.stepHandSet = false) : ∃ u, Leaves s u ∧
    exec .voteSend s = .next (u.updReduce (fun r => { r with
      votes := r.votes ++ [s.ownVote]
      voteSent := true
      recordDigest := s.ownVote.recordDigest })).judge := by
  refine ⟨_, Leaves.foldl ?_ _ s, (if_pos ?_).trans (if_neg ?_)⟩
  · exact fun _ _ => Leaves.kilnSend ..
  · rw [hphase, hunsent, hgate, hfatal]
    rfl
  · rw [hclean]
    exact Bool.false_ne_true

/-- A vote of a member that has none held is held (R230). -/
theorem vote_eq {v : VoteMsg} (hresv : v.resv = false) (hstep : v.step = s.step.number)
    (hvoter : s.voters.contains v.positionId.toNat = true) (hnew : s.reduce.votes.any (fun x => x.positionId == v.positionId) = false) :
    ∃ w sm late, exec (.vote v) s = .next ({ s with
      power := w
      seam := sm
      reduce := { s.reduce with
        lateOwed := late
        votes := s.reduce.votes ++ [v] }
      step := { s.step with
        voteLast := v.positionId
        voteLastTime := s.now } } : State).judge := by
  obtain ⟨w, sm, hwake⟩ := wake_eq s
  have hvoter' : s.wake.voters.contains v.positionId.toNat = true := hwake ▸ hvoter
  have hnew' : s.wake.reduce.votes.any (fun x => x.positionId == v.positionId) = false := hwake ▸ hnew
  change ∃ w sm late, execVote v s = _
  unfold execVote
  rw [if_neg (by rw [hresv]; exact Bool.false_ne_true), if_neg (by rw [State.wake_step]; exact not_not.mpr hstep)]
  simp only [hvoter', hnew', Bool.false_eq_true, not_false_eq_true, and_self, if_true, if_false]
  rw [hwake]
  exact ⟨w, sm, _, rfl⟩

end

/-- Settles O43. -/
theorem votesDecide : Obligations.VotesDecide := by
  unfold Obligations.VotesDecide
  intro s
  refine ⟨?_, ?_, ?_, ?_, ?_, ?_⟩
  · intro hfatal hphase hunsent hgate hclean
    obtain ⟨u, ⟨l, z, p, sy, tr, ho, hu⟩, hexec⟩ := voteSend_eq hfatal hphase hunsent hgate hclean
    generalize hx : u.updReduce _ = x at hexec
    have hstep : x.step = s.step := by rw [← hx, hu]; rfl
    have hvoters : x.voters = s.voters := by rw [← hx, hu]; rfl
    have hreduce : x.reduce = { s.reduce with
        votes := s.reduce.votes ++ [s.ownVote]
        voteSent := true
        recordDigest := s.ownVote.recordDigest } := by rw [← hx, hu]; rfl
    have hmem : x.mem = s.mem ∧ x.pages = s.pages := by rw [← hx, hu]; exact ⟨rfl, rfl⟩
    by_cases hall : x.voters.all (fun id => x.reduce.votes.any (fun v => v.positionId.toNat == id)) = true
    · obtain ⟨tm, tr', hjudge⟩ := judge_decides (hstep ▸ hphase) (by rw [hreduce]) hall
      rw [hjudge] at hexec
      refine ⟨_, hexec, by rw [hreduce], by rw [hreduce], by rw [hreduce], by rw [hreduce], hmem.1, hmem.2, fun _ =>
        ⟨rfl, by rw [hreduce], rfl⟩, fun id hid hother hnone => ?_⟩
      have hheld := List.all_eq_true.mp hall id (hvoters ▸ hid)
      rw [hreduce, List.any_append, hnone, Bool.false_or, List.any_cons, List.any_nil, Bool.or_false] at hheld
      exact absurd (eq_of_beq hheld).symm hother
    · have hmissing := missing_vote hall
      rw [judge_waits (.inr (.inr hmissing))] at hexec
      refine ⟨x, hexec, by rw [hreduce], by rw [hreduce], by rw [hreduce], by rw [hreduce], hmem.1, hmem.2, fun honly => ?_,
        fun _ _ _ _ => ⟨hstep, by rw [hreduce]⟩⟩
      obtain ⟨id, hid, hnone⟩ := hmissing
      rw [hvoters, honly, List.mem_singleton] at hid
      rw [hreduce, List.any_append, List.any_cons, hid] at hnone
      simp [State.ownVote] at hnone
  · intro hcan hfatal hphase hunsent hgate hset
    have hexec : exec .voteSend s = .next (s.raise 0x6009 moduleWide) := by
      refine (if_pos ?_).trans (if_pos hset)
      rw [hphase, hunsent, hgate, hfatal]
      rfl
    exact ⟨_, hexec, (raise_discard (c := 0x6009) rfl hcan (by decide) (by decide)).1, State.raise_reduce ..⟩
  · intro hphase hgate
    refine if_neg ?_
    rw [hgate, Bool.and_false, Bool.false_and]
    exact Bool.false_ne_true
  · intro v hresv hstep hvoter hnew
    obtain ⟨w, sm, late, hexec⟩ := vote_eq hresv hstep hvoter hnew
    by_cases hall : s.step.phase = .vote ∧ s.reduce.voteSent = true ∧
        s.voters.all (fun id => (s.reduce.votes ++ [v]).any (fun x => x.positionId.toNat == id)) = true
    · obtain ⟨hphase, hsent, hvotes⟩ := hall
      obtain ⟨tm, tr, hjudge⟩ := judge_decides (s := { s with
        power := w
        seam := sm
        reduce := { s.reduce with
          lateOwed := late
          votes := s.reduce.votes ++ [v] }
        step := { s.step with
          voteLast := v.positionId
          voteLastTime := s.now } }) hphase hsent hvotes
      rw [hjudge] at hexec
      refine ⟨_, hexec, rfl, rfl, rfl, rfl, rfl, fun hc => ?_, fun _ _ _ => ⟨rfl, rfl, rfl⟩⟩
      obtain hc | hc := hc
      · exact absurd hphase hc
      · exact absurd (hc.symm.trans hsent) Bool.false_ne_true
    · rw [judge_waits] at hexec
      · exact ⟨_, hexec, rfl, rfl, rfl, rfl, rfl, fun _ => rfl, fun hphase hsent hvotes => absurd ⟨hphase, hsent, hvotes⟩ hall⟩
      · by_cases hphase : s.step.phase = .vote
        · by_cases hsent : s.reduce.voteSent = true
          · exact .inr (.inr (missing_vote fun hvotes => hall ⟨hphase, hsent, hvotes⟩))
          · exact .inr (.inl (Bool.eq_false_iff.mpr hsent))
        · exact .inl hphase
  · intro v hresv hstep hcan
    have hexec : exec (.vote v) s = .next (s.wake.raise 0x2305 ⟨0xF00, 0⟩ noCmd v.positionId.toNat) := by
      refine (if_neg ?_).trans (if_pos ?_)
      · rw [hresv]
        exact Bool.false_ne_true
      · rw [State.wake_step]
        exact hstep
    obtain ⟨hdiscards, -⟩ := raise_discard (s := s.wake) (c := 0x2305) (p := ⟨0xF00, 0⟩) (i := noCmd)
        (d := v.positionId.toNat) (e := 0)
      rfl (by unfold CanDiscard; rw [State.wake_step]; exact hcan) (by decide) (by decide)
    unfold Discards at hdiscards
    rw [State.wake_step, State.wake_now, State.wake_rillOut] at hdiscards
    exact ⟨_, hexec, hdiscards, (State.raise_reduce ..).trans (State.wake_reduce ..)⟩
  · intro v hresv
    exact if_pos hresv

end Sys2Proof.Laws
end

section
/-! Links, flits, weight frames, time and the parity group (O44 to O48) -/

namespace Sys2Proof.Laws

open Sys2Proof.Machine Sys2Proof.Safety

/-! ### One link at a time -/

section OneLink

variable {s u v : State} {n k : Nat}

/-- The module has the link: odd links of ZW1-C are ABSENT whatever their table says (R4). -/
def HasLink (s : State) (n : Nat) : Prop := ¬ (s.variant = .c ∧ n % 2 = 1)

theorem hasLink_of_present (h : (linkOf s n).state ≠ .absent) : HasLink s n := fun habsent => h (by simp [linkOf, habsent])

theorem linkOf_eq (h : HasLink s n) : linkOf s n = smGet {} s.links n := if_neg h

theorem linkOf_congr (hv : u.variant = s.variant) (hl : smGet {} u.links n = smGet {} s.links n) : linkOf u n = linkOf s n := by
  unfold linkOf
  rw [hv, hl]

/-- What an update that leaves an absent link absent makes of a link, whether the module has it or not. -/
theorem linkOf_updLink_any (hw : smWf {} 0 s.links = true) (f : Link → Link) (hf : (f (linkOf s n)).state = (linkOf s n).state) :
    linkOf (s.updLink n f) n = f (linkOf s n) := by
  have hget : smGet {} (s.updLink n f).links n = f (linkOf s n) := smGet_smPut_same hw
  by_cases h : HasLink s n
  · exact (linkOf_eq (s := s.updLink n f) h).trans hget
  · have habsent : s.variant = .c ∧ n % 2 = 1 := not_not.mp h
    have hnew : linkOf (s.updLink n f) n = { smGet {} (s.updLink n f).links n with state := .absent } := if_pos habsent
    have hold : (linkOf s n).state = .absent := congrArg Link.state (show linkOf s n = { smGet {} s.links n with
      state := .absent } from if_pos habsent)
    rw [hnew, hget, ← hold, ← hf]

theorem linkOf_updLink_same (hw : smWf {} 0 s.links = true) (h : HasLink s n) (f : Link → Link) :
    linkOf (s.updLink n f) n = f (linkOf s n) := (linkOf_eq (s := s.updLink n f) h).trans (smGet_smPut_same hw)

theorem linkOf_updLink_other (hw : smWf {} 0 s.links = true) (h : k ≠ n) (f : Link → Link) :
    linkOf (s.updLink n f) k = linkOf s k := linkOf_congr rfl (smGet_smPut_other h hw)

/-- From `s` only link `n`, the trace and what sessions are told have changed. -/
def TellsOfLink (s : State) (n : Nat) (u : State) : Prop :=
  (∀ k, k ≠ n → linkOf u k = linkOf s k) ∧ u = { s with
    links := u.links
    trace := u.trace
    host := u.host }

/-- From `s` only link `n` has changed. -/
def OnlyLink (s : State) (n : Nat) (u : State) : Prop := (∀ k, k ≠ n → linkOf u k = linkOf s k) ∧ u = { s with links := u.links }

theorem OnlyLink.updLink (hw : smWf {} 0 s.links = true) (f : Link → Link) : OnlyLink s n (s.updLink n f) :=
  ⟨fun _ hk => linkOf_updLink_other hw hk f, rfl⟩

theorem OnlyLink.trans (h : OnlyLink s n u) (g : OnlyLink u n v) : OnlyLink s n v := by
  refine ⟨fun k hk => (g.1 k hk).trans (h.1 k hk), ?_⟩
  rw [g.2, h.2]

theorem OnlyLink.told (h : OnlyLink s n u) : TellsOfLink s n u := by
  refine ⟨h.1, ?_⟩
  rw [h.2]

theorem TellsOfLink.trans (h : TellsOfLink s n u) (g : TellsOfLink u n v) : TellsOfLink s n v := by
  refine ⟨fun k hk => (g.1 k hk).trans (h.1 k hk), ?_⟩
  rw [g.2, h.2]

theorem linkOf_raise (s : State) (c : Code) (p : Place) (i : BitVec 64) (d : Nat) (e : BitVec 64) :
    linkOf (s.raise c p i d e) n = linkOf s n := linkOf_congr (by simp) (by simp)

theorem TellsOfLink.raise {c : Code} {p : Place} {i : BitVec 64} {d : Nat} {e : BitVec 64} {sev : Nat}
    (hs : severityOf s.step.inProgress p d c = sev) (hn : sev < 3) (h9 : c ≠ 0x4009) (hA : c ≠ 0x400A) :
    TellsOfLink s n (s.raise c p i d e) := by
  refine ⟨fun k _ => linkOf_raise .., ?_⟩
  rw [raise_frame hs hn h9 hA]

theorem updLink_links_wf (hw : smWf {} 0 s.links = true) (f : Link → Link) : smWf {} 0 (s.updLink n f).links = true :=
  smPut_wf (Nat.zero_le n) hw

/-! ### What a link sends -/

/-- Sending touches the queues, the credits and the numbers of a link, and nothing of its state. -/
def SendsOnly (l m : Link) : Prop := ∃ b c r w q t k, m = { l with
  blocked := b
  credits := c
  replay := r
  wire := w
  txSeq := q
  lastTurn := t
  bulkTurns := k }

theorem SendsOnly.refl (l : Link) : SendsOnly l l := ⟨_, _, _, _, _, _, _, rfl⟩

theorem SendsOnly.trans {l m o : Link} (h : SendsOnly l m) (g : SendsOnly m o) : SendsOnly l o := by
  obtain ⟨_, _, _, _, _, _, _, rfl⟩ := h
  obtain ⟨_, _, _, _, _, _, _, rfl⟩ := g
  exact ⟨_, _, _, _, _, _, _, rfl⟩

theorem SendsOnly.emit (l : Link) (f : Flit) : SendsOnly l (l.emit f) := ⟨_, _, _, _, _, _, _, rfl⟩

theorem SendsOnly.of_some {l m : Link} {b : List Flit} {c : SMap Nat} {r w : List Flit} {q : BitVec 16} {t k : Nat}
    (h : some { l with
      blocked := b
      credits := c
      replay := r
      wire := w
      txSeq := q
      lastTurn := t
      bulkTurns := k } = some m) : SendsOnly l m := ⟨b, c, r, w, q, t, k, (Option.some.inj h).symm⟩

theorem SendsOnly.turn {l m : Link} (h : l.turn = some m) : SendsOnly l m := by
  unfold Link.turn at h
  extract_lets waits order at h
  split at h
  · nomatch h
  · split at h
    · exact of_some h
    · split at h
      · nomatch h
      · split at h
        · exact of_some h
        · split at h
          · exact of_some h
          · split at h
            · obtain ⟨f, -, rfl⟩ := Option.map_eq_some_iff.mp h
              exact ⟨_, _, _, _, _, _, _, rfl⟩
            · split at h
              · exact of_some h
              · nomatch h

theorem SendsOnly.pump : ∀ (fuel : Nat) (l : Link), SendsOnly l (l.pump fuel)
  | 0, l => refl l
  | fuel + 1, l => by
    unfold Link.pump
    split
    next m h => exact (turn h).trans (pump fuel m)
    · exact refl l

theorem SendsOnly.flush (l : Link) : SendsOnly l l.flush := pump ..

theorem trySwitch_none (h : (linkOf s n).switchDue = none) : s.trySwitch n = s := by
  unfold State.trySwitch
  rw [h]

/-- Only a link in UP_SWAP has a switch to make. -/
theorem switchDue_none {l : Link} (h : l.state ≠ .upSwap) : l.switchDue = none := by
  unfold Link.switchDue
  split
  · exact if_neg fun hdue => h hdue.1
  · rfl

/-- A record joins a link's records and its queue, and the link sends what it can. -/
def Link.recorded (l : Link) (r : LinkRecord) : Link :=
  Link.flush { l with
    records := l.records ++ [r]
    blocked := l.blocked ++ [linkFlit r] }

theorem recorded_eq (l : Link) (r : LinkRecord) : ∃ b c p w q t k, Link.recorded l r = { l with
    records := l.records ++ [r]
    blocked := b
    credits := c
    replay := p
    wire := w
    txSeq := q
    lastTurn := t
    bulkTurns := k } := by
  obtain ⟨b, c, p, w, q, t, k, h⟩ := SendsOnly.flush { l with
    records := l.records ++ [r]
    blocked := l.blocked ++ [linkFlit r] }
  exact ⟨b, c, p, w, q, t, k, h⟩

/-- R266: a record is sent, and a switch that it brings due is made. -/
theorem linkRecord_eq (hw : smWf {} 0 s.links = true) (h : HasLink s n) (r : LinkRecord) : ∃ u, OnlyLink s n u ∧
    smWf {} 0 u.links = true ∧ HasLink u n ∧ linkOf u n = Link.recorded (linkOf s n) r ∧ s.linkRecord n r = u.trySwitch n := by
  have hw' := updLink_links_wf (n := n) hw (fun l => { l with
    records := l.records ++ [r]
    blocked := l.blocked ++ [linkFlit r] })
  refine ⟨_, (OnlyLink.updLink hw _).trans (.updLink hw' Link.flush), updLink_links_wf hw' _, h, ?_, rfl⟩
  exact (linkOf_updLink_same hw' h _).trans (congrArg Link.flush (linkOf_updLink_same hw h _))

/-- A link that is not in UP_SWAP sends a record and does nothing else. -/
theorem linkRecord_sent (hw : smWf {} 0 s.links = true) (h : HasLink s n) (r : LinkRecord) (hst : (linkOf s n).state ≠ .upSwap) :
    OnlyLink s n (s.linkRecord n r) ∧ smWf {} 0 (s.linkRecord n r).links = true ∧ HasLink (s.linkRecord n r) n ∧
      linkOf (s.linkRecord n r) n = Link.recorded (linkOf s n) r := by
  obtain ⟨u, honly, hwf, hhas, hlink, hrec⟩ := linkRecord_eq hw h r
  have hdue : (linkOf u n).switchDue = none := by
    refine switchDue_none ?_
    rw [hlink]
    obtain ⟨b, c, p, w, q, t, k, heq⟩ := recorded_eq (linkOf s n) r
    rw [heq]
    exact hst
  rw [hrec, trySwitch_none hdue]
  exact ⟨honly, hwf, hhas, hlink⟩

end OneLink

/-! ### A link that leaves service (R267 to R269) -/

section LinkStops

variable {s u v : State} {n k : Nat} {st : LinkState}

theorem partnerOf_ne (n : Nat) : partnerOf n ≠ n := by
  unfold partnerOf
  split <;> omega

/-- What a link that has stopped keeps while takeovers change around it. -/
def SameStop (l m : Link) : Prop :=
  m.state = l.state ∧ m.lanes = l.lanes ∧ m.miswired = l.miswired ∧ m.lastAttempt = l.lastAttempt

/-- Links that carry no traffic keep their state. -/
structure StopsStay (s u : State) : Prop where
  stay : smWf {} 0 s.links = true → smWf {} 0 u.links = true ∧
    ∀ n, (linkOf s n).carries = false → SameStop (linkOf s n) (linkOf u n)

namespace StopsStay

theorem refl (s : State) : StopsStay s s := ⟨fun hw => ⟨hw, fun _ _ => ⟨rfl, rfl, rfl, rfl⟩⟩⟩

theorem trans (h : StopsStay s u) (g : StopsStay u v) : StopsStay s v := by
  refine ⟨fun hw => ?_⟩
  obtain ⟨hu, hsame⟩ := h.stay hw
  obtain ⟨hv, hsame'⟩ := g.stay hu
  refine ⟨hv, fun n hn => ?_⟩
  obtain ⟨h1, h2, h3, h4⟩ := hsame n hn
  obtain ⟨g1, g2, g3, g4⟩ := hsame' n (by rw [← hn, Link.carries, Link.carries, h1])
  exact ⟨g1.trans h1, g2.trans h2, g3.trans h3, g4.trans h4⟩

theorem ite {c : Prop} [Decidable c] (h : StopsStay s u) (g : StopsStay s v) : StopsStay s (if c then u else v) := by
  split
  · exact h
  · exact g

theorem foldl {α : Type} {f : State → α → State} (hf : ∀ u x, StopsStay u (f u x)) : ∀ (l : List α) (s : State),
    StopsStay s (l.foldl f s)
  | [], s => refl s
  | x :: xs, s => (hf s x).trans (foldl hf xs (f s x))

theorem updLink (s : State) (n : Nat) {f : Link → Link} (hf : ∀ l : Link, l.carries = false → SameStop l (f l)) :
    StopsStay s (s.updLink n f) := by
  refine ⟨fun hw => ⟨updLink_links_wf hw f, fun k hk => ?_⟩⟩
  by_cases hkn : k = n
  · subst hkn
    rw [linkOf_updLink_any hw f (hf _ hk).1]
    exact hf _ hk
  · rw [linkOf_updLink_other hw hkn f]
    exact ⟨rfl, rfl, rfl, rfl⟩

theorem raise (s : State) (c : Code) (p : Place) (i : BitVec 64) (d : Nat) (e : BitVec 64) : StopsStay s (s.raise c p i d e) := by
  refine ⟨fun hw => ⟨by simpa using hw, fun _ _ => ?_⟩⟩
  rw [linkOf_raise]
  exact ⟨rfl, rfl, rfl, rfl⟩

theorem trySwitch (s : State) (n : Nat) : StopsStay s (s.trySwitch n) := by
  by_cases hst : (linkOf s n).state = .upSwap
  · unfold State.trySwitch
    split
    · refine StopsStay.trans ⟨fun hw => ⟨updLink_links_wf hw _, fun k hk => ?_⟩⟩ (raise ..)
      have hkn : k ≠ n := by
        rintro rfl
        simp [Link.carries, hst] at hk
      rw [linkOf_updLink_other hw hkn]
      exact ⟨rfl, rfl, rfl, rfl⟩
    · exact refl s
  · rw [trySwitch_none (switchDue_none hst)]
    exact refl s

theorem flush (s : State) (n : Nat) : StopsStay s (s.updLink n Link.flush) := updLink s n fun l _ => by
  obtain ⟨_, _, _, _, _, _, _, h⟩ := SendsOnly.flush l
  rw [h]
  exact ⟨rfl, rfl, rfl, rfl⟩

theorem linkRecord (s : State) (n : Nat) (r : LinkRecord) : StopsStay s (s.linkRecord n r) := by
  have hqueued : StopsStay s (s.updLink n (fun l => { l with
    records := l.records ++ [r]
    blocked := l.blocked ++ [linkFlit r] })) := updLink s n fun _ _ => ⟨rfl, rfl, rfl, rfl⟩
  exact hqueued.trans ((flush _ n).trans (trySwitch _ n))

/-- A takeover between two links begins or ends. -/
theorem takes (s : State) (a b : Nat) (c : Bool) : StopsStay s ((s.updLink a (fun l => { l with takeover := c })).updLink b
    (fun l => { l with takenOver := c })) := by
  have ha : StopsStay s (s.updLink a (fun l => { l with takeover := c })) := updLink s a fun _ _ => ⟨rfl, rfl, rfl, rfl⟩
  exact ha.trans (updLink _ b fun _ _ => ⟨rfl, rfl, rfl, rfl⟩)

theorem setTakeover (s : State) (a b : Nat) : StopsStay s (s.setTakeover a b) := by
  unfold State.setTakeover
  extract_lets la lb
  split
  · exact (takes s a b true).trans (linkRecord ..)
  · split
    · exact ((takes s a b false).trans (linkRecord ..)).trans (linkRecord ..)
    · exact refl s

theorem setTakeovers (s : State) : StopsStay s s.setTakeovers := ite (refl s) (foldl (fun _ _ => setTakeover ..) _ s)

end StopsStay

/-- The memories, the tiles and the program are what they were. -/
def SameMemories (s u : State) : Prop := u.mem = s.mem ∧ u.tiles = s.tiles ∧ u.program = s.program

theorem SameMemories.trans (h : SameMemories s u) (g : SameMemories u v) : SameMemories s v :=
  ⟨g.1.trans h.1, g.2.1.trans h.2.1, g.2.2.trans h.2.2⟩

theorem SameMemories.refl (s : State) : SameMemories s s := ⟨rfl, rfl, rfl⟩

theorem SameMemories.ite {c : Prop} [Decidable c] (h : SameMemories s u) (g : SameMemories s v) :
    SameMemories s (if c then u else v) := by
  split
  · exact h
  · exact g

theorem SameMemories.of_sends (h : Sends s u) : SameMemories s u := by
  obtain ⟨_, _, _, _, _, rfl, -⟩ := h
  exact ⟨rfl, rfl, rfl⟩

theorem SameMemories.raise (s : State) (c : Code) (p : Place) (i : BitVec 64) (d : Nat) (e : BitVec 64) :
    SameMemories s (s.raise c p i d e) := ⟨by simp, by simp, by simp⟩

/-- A link as it goes to DOWN or DISABLED (R268). -/
def Link.stopped (l : Link) (st : LinkState) (now : BitVec 64) : Link := { l with
  state := st
  lanes := 0
  lost := 0
  retiring := none
  switchAt := none
  takeover := false
  lastAttempt := now }

/-- The links as link `n` leaves service: a takeover of its own ends with it. -/
def linkOut (s : State) (n : Nat) (st : LinkState) : State :=
  if (linkOf s n).takeover then
    (s.updLink n (fun l => Link.stopped l st s.now)).updLink (partnerOf n) (fun q => { q with takenOver := false })
  else s.updLink n (fun l => Link.stopped l st s.now)

/-- The codes of a link that leaves service (R268, R269). -/
def linkOutTold (s : State) (n : Nat) (st : LinkState) : State :=
  let u := if (linkOf s n).carries then (linkOut s n st).raise 0x5004 (linkPlace n) noCmd n else linkOut s n st
  if pairLost (linkOut s n st) n && !pairLost s n then u.raise 0x5005 (linkPlace n) noCmd n else u

theorem linkStop_eq (s : State) (n : Nat) (st : LinkState) :
    s.linkStop n st = if s.step.inProgress then linkOutTold s n st else (linkOutTold s n st).setTakeovers := rfl

theorem sends_linkOut (s : State) (n : Nat) (st : LinkState) : Sends s (linkOut s n st) := by
  unfold linkOut
  split
  · exact (Sends.updLink ..).trans (.updLink ..)
  · exact .updLink ..

theorem linkStop_memories (s : State) (n : Nat) (st : LinkState) : SameMemories s (s.linkStop n st) := by
  have hout : SameMemories s (linkOut s n st) := .of_sends (sends_linkOut ..)
  have htold : SameMemories s (linkOutTold s n st) :=
    .ite (.trans (.ite (hout.trans (.raise ..)) hout) (.raise ..)) (.ite (hout.trans (.raise ..)) hout)
  rw [linkStop_eq]
  exact .ite htold (htold.trans (.of_sends (sends_setTakeovers _)))

theorem linkOut_link (hw : smWf {} 0 s.links = true) (h : HasLink s n) (st : LinkState) :
    smWf {} 0 (linkOut s n st).links = true ∧ linkOf (linkOut s n st) n = Link.stopped (linkOf s n) st s.now := by
  have hstop := linkOf_updLink_same hw h (fun l => Link.stopped l st s.now)
  have hwf := updLink_links_wf (n := n) hw (fun l => Link.stopped l st s.now)
  unfold linkOut
  split
  · exact ⟨updLink_links_wf hwf _, (linkOf_updLink_other hwf (partnerOf_ne n).symm _).trans hstop⟩
  · exact ⟨hwf, hstop⟩

/-- R268: whatever takeovers change with it, the link has stopped. -/
theorem linkStop_link (hw : smWf {} 0 s.links = true) (h : HasLink s n) (hst : st = .down ∨ st = .disabled) :
    SameStop (Link.stopped (linkOf s n) st s.now) (linkOf (s.linkStop n st) n) := by
  obtain ⟨hwf, hlink⟩ := linkOut_link hw h st
  have htold : StopsStay (linkOut s n st) (linkOutTold s n st) :=
    .ite (.trans (.ite (.raise ..) (.refl _)) (.raise ..)) (.ite (.raise ..) (.refl _))
  have hall : StopsStay (linkOut s n st) (s.linkStop n st) := by
    rw [linkStop_eq]
    exact .ite htold (htold.trans (.setTakeovers _))
  rw [← hlink]
  refine (hall.stay hwf).2 n ?_
  rw [hlink]
  rcases hst with rfl | rfl <;> rfl

/-- A link that carried nothing, and whose partner carries traffic, stops during a step without a word. -/
theorem linkStop_alone (hw : smWf {} 0 s.links = true) (hbusy : s.step.inProgress = true) (htake : (linkOf s n).takeover = false)
    (hidle : (linkOf s n).carries = false) (hpartner : (linkOf s (partnerOf n)).carries = true) :
    s.linkStop n st = s.updLink n (fun l => Link.stopped l st s.now) := by
  have hout : linkOut s n st = s.updLink n (fun l => Link.stopped l st s.now) := if_neg (by rw [htake]; decide)
  have hserved : pairLost (linkOut s n st) n = false := by
    have hother : linkOf (linkOut s n st) (partnerOf n) = linkOf s (partnerOf n) := by
      rw [hout]
      exact linkOf_updLink_other hw (partnerOf_ne n) _
    unfold pairLost
    rw [List.all_cons, List.all_cons, hother]
    generalize linkOf s (partnerOf n) = q at hpartner ⊢
    cases hq : q.state <;> simp_all [Link.carries]
  rw [linkStop_eq, if_pos hbusy]
  unfold linkOutTold
  rw [hidle, hserved, hout]
  rfl

/-- R268: a link that leaves service during a step ends it. -/
theorem linkStop_discards (hd : CanDiscard s) (hcarries : (linkOf s n).carries = true) : ∃ tr ho ar,
    s.linkStop n st = { s with
      links := (linkOut s n st).links
      trace := tr
      host := ho
      arbiter := ar
      step := { s.step with phase := .discarding }
      rillOut := haltMsg :: s.rillOut } ∧ ar.latched.head? = some ⟨0x5004, linkPlace n, s.now⟩ := by
  obtain ⟨ls, hout⟩ : ∃ ls, linkOut s n st = { s with links := ls } := by
    unfold linkOut
    split <;> exact ⟨_, rfl⟩
  have hcan : CanDiscard (linkOut s n st) := by
    rw [hout]
    exact hd
  have hsev : severityOf (linkOut s n st).step.inProgress (linkPlace n) n 0x5004 = 3 := by
    rw [hcan.1]
    rfl
  obtain ⟨tr, ho, hraise⟩ := raise_discard_eq (i := noCmd) (e := 0) hsev hcan (by decide) (by decide)
  rw [linkStop_eq, if_pos hd.1]
  unfold linkOutTold
  rw [if_pos hcarries]
  split
  · obtain ⟨tr', ho', hsecond⟩ := raise_secondary (s := (linkOut s n st).raise 0x5004 (linkPlace n) noCmd n) (c := 0x5005)
      (p := linkPlace n) (i := noCmd) (d := n) (e := 0) rfl (by rw [hraise]) (by decide) (by decide)
    rw [hsecond, hraise, hout]
    exact ⟨_, _, _, rfl, rfl⟩
  · rw [hraise, hout]
    exact ⟨_, _, _, rfl, rfl⟩

/-- Where the link serves no other port block, no other link changes as it leaves service. -/
theorem linkOut_others (hw : smWf {} 0 s.links = true) (htake : (linkOf s n).takeover = false) (hk : k ≠ n) :
    linkOf (linkOut s n st) k = linkOf s k := by
  have hout : linkOut s n st = s.updLink n (fun l => Link.stopped l st s.now) := if_neg (by rw [htake]; decide)
  rw [hout]
  exact linkOf_updLink_other hw hk _

end LinkStops

/-! ### The states of a link (O44, R266 to R269) -/

section LinkStates

variable {s u : State} {n : Nat}

theorem onLink_present (hn : n < 24) (hst : (linkOf s n).state ≠ .absent) (f : Link → State) :
    onLink n s f = .next (f (linkOf s n)) := by
  unfold onLink
  rw [if_neg (by omega), if_neg hst]

theorem linkUp_eq (hw : smWf {} 0 s.links = true) (h : HasLink s n) : OnlyLink s n (s.linkUp n) ∧
    linkOf (s.linkUp n) n = Link.recorded { linkOf s n with
      state := .up
      lanes := 0xF
      spare := 4
      lost := 0
      replays := 0
      miswired := false
      credits := []
      granted := (List.range 4).foldl (fun m c => smPut 0 c (bufferFlits c) m) [] }
      (.credit ((List.range 4).map (fun c => BitVec.ofNat 16 (bufferFlits c)))) := by
  unfold State.linkUp
  generalize hf : (fun l : Link => ({ l with
      state := .up
      lanes := 0xF
      spare := 4
      lost := 0
      replays := 0
      miswired := false
      credits := []
      granted := (List.range 4).foldl (fun m c => smPut 0 c (bufferFlits c) m) [] } : Link)) = f
  have hlink := linkOf_updLink_same hw h f
  have hup : (linkOf (s.updLink n f) n).state ≠ .upSwap := by
    rw [hlink, ← hf]
    exact nofun
  obtain ⟨honly, -, -, hrec⟩ := linkRecord_sent (s := s.updLink n f) (n := n) (updLink_links_wf hw f) h
    (.credit ((List.range 4).map (fun c => BitVec.ofNat 16 (bufferFlits c)))) hup
  refine ⟨(OnlyLink.updLink hw f).trans honly, hrec.trans ?_⟩
  rw [hlink, ← hf]

/-- A link's IDENT has gone out, and what the peer's said is kept (R267). -/
def identTaken (s : State) (n : Nat) (kind : BitVec 8) (id : BitVec 16) : State :=
  (s.linkRecord n (.ident s.boot.positionId n (BitVec.ofNat 64 (s.boot.measurement.toNat / 2 ^ 192)))).updLink n (fun l => { l with
    peerId := id
    peerStore := kind == 2 })

theorem identTaken_eq (hw : smWf {} 0 s.links = true) (h : HasLink s n) (hst : (linkOf s n).state = .train) (kind : BitVec 8)
    (id : BitVec 16) : OnlyLink s n (identTaken s n kind id) ∧ smWf {} 0 (identTaken s n kind id).links = true ∧
      linkOf (identTaken s n kind id) n = { Link.recorded (linkOf s n)
        (.ident s.boot.positionId n (BitVec.ofNat 64 (s.boot.measurement.toNat / 2 ^ 192))) with
          peerId := id
          peerStore := kind == 2 } := by
  obtain ⟨honly, hwf, hhas, hrec⟩ := linkRecord_sent hw h
    (.ident s.boot.positionId n (BitVec.ofNat 64 (s.boot.measurement.toNat / 2 ^ 192))) (by rw [hst]; exact nofun)
  refine ⟨honly.trans (.updLink hwf _), updLink_links_wf hwf _, ?_⟩
  exact (linkOf_updLink_same hwf hhas _).trans (congrArg (fun l : Link => { l with
    peerId := id
    peerStore := kind == 2 }) hrec)

/-- R266: where the switch is due, it is made and told. -/
theorem trySwitch_due {r : Nat} (hw : smWf {} 0 s.links = true) (h : HasLink s n) (hdue : (linkOf s n).switchDue = some r) :
    TellsOfLink s n (s.trySwitch n) ∧ linkOf (s.trySwitch n) n = { linkOf s n with
      state := .up
      lanes := (linkOf s n).swapped r
      lost := 0
      retiring := none
      switchAt := none } := by
  unfold State.trySwitch
  rw [hdue]
  dsimp only
  rw [linkOf_raise]
  exact ⟨(OnlyLink.updLink hw _).told.trans (.raise (sev := 2) rfl (by decide) (by decide) (by decide)), linkOf_updLink_same hw h _⟩

theorem switchDue_some {l : Link} {r : Nat} {q : BitVec 16} {own : Bool} (hat : l.switchAt = some (r, q, own)) (hst : l.state = .upSwap)
    (hseq : ((if own then l.txSeq else l.rxNext) - q).toNat < 32768) : l.switchDue = some r := by
  unfold Link.switchDue
  rw [hat]
  exact if_pos ⟨hst, hseq⟩

theorem switchDue_waits {l : Link} {r : Nat} {q : BitVec 16} {own : Bool} (hat : l.switchAt = some (r, q, own))
    (hseq : ¬ ((if own then l.txSeq else l.rxNext) - q).toNat < 32768) : l.switchDue = none := by
  unfold Link.switchDue
  rw [hat]
  exact if_neg fun hdue => hseq hdue.2

theorem train_idle {l : Link} (h : l.state = .train) : l.carries = false := by
  simp [Link.carries, h]

theorem present_of_carries (h : (linkOf s n).carries = true) : (linkOf s n).state ≠ .absent := fun habsent => by
  simp [Link.carries, habsent] at h

/-- R266: a lane that is lost from UP is restriped away, and swapped for the spare where it is free. -/
theorem laneLost_restripes {lane : Nat} (hn : n < 24) (hw : smWf {} 0 s.links = true) (hhas : HasLink s n)
    (hst : (linkOf s n).state = .up) (hlane : (linkOf s n).lanes.getLsbD lane = true)
    (hleft : 3 ≤ laneCount ((linkOf s n).lanes &&& ~~~((1 : BitVec 5) <<< lane))) : ∃ t, exec (.laneLost n lane) s = .next t ∧
      TellsOfLink s n t ∧ (linkOf t n).state = (if (linkOf s n).spareFree then .upSwap else .up3) ∧
      (linkOf t n).retiring = (if (linkOf s n).spareFree then some lane else (linkOf s n).retiring) ∧
      (linkOf t n).lanes = (linkOf s n).lanes &&& ~~~((1 : BitVec 5) <<< lane) ∧ (linkOf t n).lost = (linkOf s n).lost + 1 ∧
      (linkOf t n).records = (linkOf s n).records ++ [.restripe ((linkOf s n).lanes &&& ~~~((1 : BitVec 5) <<< lane))] := by
  have hcarries : (linkOf s n).carries = true := by simp [Link.carries, hst]
  generalize hm : (linkOf s n).lanes &&& ~~~((1 : BitVec 5) <<< lane) = left at hleft ⊢
  have hwf := updLink_links_wf (n := n) hw (fun l => { l with
    lanes := left
    lost := l.lost + 1 })
  have hlink := linkOf_updLink_same hw hhas (fun l => { l with
    lanes := left
    lost := l.lost + 1 })
  obtain ⟨honly, hwf', hhas', hrec⟩ := linkRecord_sent (s := s.updLink n (fun l => { l with
    lanes := left
    lost := l.lost + 1 })) hwf hhas (.restripe left) (by rw [hlink]; simp [hst])
  obtain ⟨_, _, _, _, _, _, _, hsent⟩ := recorded_eq (linkOf (s.updLink n (fun l => { l with
    lanes := left
    lost := l.lost + 1 })) n) (.restripe left)
  rw [hlink] at hsent
  rw [hlink, hsent] at hrec
  generalize hv : (s.updLink n (fun l => { l with
    lanes := left
    lost := l.lost + 1 })).linkRecord n (.restripe left) = v at honly hwf' hhas' hrec
  have hexec : exec (.laneLost n lane) s = .next (if (linkOf s n).spareFree then v.updLink n (fun l => { l with
        state := .upSwap
        retiring := some lane })
      else (v.updLink n (fun l => { l with state := .up3 })).raise 0x5003 (linkPlace n) noCmd lane) := by
    change execLaneLost n lane s = _
    unfold execLaneLost
    rw [onLink_present hn (present_of_carries hcarries)]
    refine congrArg Host.Outcome.next ((if_neg (by rw [hcarries]; decide)).trans ((if_neg (by rw [hlane]; decide)).trans ?_))
    dsimp only
    rw [hm, hv, if_neg (by omega), if_neg (by rw [hst]; exact nofun)]
  have htold := ((OnlyLink.updLink hw _).trans honly)
  refine ⟨_, hexec, ?_⟩
  split
  next hspare =>
    refine ⟨(htold.trans (.updLink hwf' _)).told, ?_⟩
    rw [linkOf_updLink_same hwf' hhas', hrec]
    exact ⟨rfl, rfl, rfl, rfl, rfl⟩
  next hspare =>
    refine ⟨(htold.trans (.updLink hwf' _)).told.trans (.raise (sev := 2) rfl (by decide) (by decide) (by decide)), ?_⟩
    rw [linkOf_raise, linkOf_updLink_same hwf' hhas', hrec]
    exact ⟨rfl, rfl, rfl, rfl, rfl⟩

/-- R266: LANE_SWAP names the seq of the switch, which is made when the flit of that seq is the next. -/
theorem spareTrained_names (hn : n < 24) (hw : smWf {} 0 s.links = true) (hhas : HasLink s n) (hst : (linkOf s n).state = .upSwap)
    (q : BitVec 16) : ∃ t, exec (.spareTrained n true q) s = .next t ∧ TellsOfLink s n t ∧
      ((linkOf t n).state = .up ↔ ((linkOf t n).txSeq - q).toNat < 32768) ∧
      ((linkOf t n).state = .up → (linkOf t n).lanes = (linkOf s n).swapped ((linkOf s n).retiring.getD (linkOf s n).spare) ∧
        (linkOf t n).lost = 0 ∧ (linkOf t n).retiring = none ∧ (linkOf t n).switchAt = none) ∧
      ((linkOf t n).state ≠ .up → (linkOf t n).state = .upSwap ∧ (linkOf t n).lanes = (linkOf s n).lanes ∧
        (linkOf t n).switchAt = some ((linkOf s n).retiring.getD (linkOf s n).spare, q, true)) ∧
      (linkOf t n).records = (linkOf s n).records ++ [.laneSwap ((linkOf s n).retiring.getD (linkOf s n).spare) q] := by
  generalize hr : (linkOf s n).retiring.getD (linkOf s n).spare = r
  generalize hf : (fun l : Link => ({ l with switchAt := some (r, q, true) } : Link)) = f
  have hlink := linkOf_updLink_same hw hhas f
  obtain ⟨u, honly, hwf, hhas', hrec, hswitch⟩ := linkRecord_eq (s := s.updLink n f) (n := n) (updLink_links_wf hw f) hhas
    (.laneSwap r q)
  have hexec : exec (.spareTrained n true q) s = .next (u.trySwitch n) := by
    change execSpareTrained n true q s = _
    unfold execSpareTrained
    rw [onLink_present hn (by rw [hst]; exact nofun)]
    refine congrArg Host.Outcome.next ((if_neg (not_not.mpr hst)).trans ?_)
    dsimp only
    rw [if_pos rfl, hr, hf, hswitch]
  obtain ⟨_, _, _, _, _, _, _, hsent⟩ := recorded_eq (linkOf (s.updLink n f) n) (.laneSwap r q)
  rw [hsent, hlink, ← hf] at hrec
  have htold := (OnlyLink.updLink hw f).trans honly
  refine ⟨_, hexec, ?_⟩
  have hat : (linkOf u n).switchAt = some (r, q, true) := by rw [hrec]
  have hstate : (linkOf u n).state = .upSwap := by rw [hrec]; exact hst
  by_cases hseq : ((linkOf u n).txSeq - q).toNat < 32768
  · obtain ⟨htell, hdone⟩ := trySwitch_due hwf hhas' (switchDue_some hat hstate hseq)
    refine ⟨htold.told.trans htell, ?_⟩
    rw [hdone]
    refine ⟨⟨fun _ => hseq, fun _ => rfl⟩, fun _ => ⟨?_, rfl, rfl, rfl⟩, fun hne => absurd rfl hne, ?_⟩
    · rw [hrec]
      rfl
    · rw [hrec]
  · rw [trySwitch_none (switchDue_waits hat hseq)]
    refine ⟨htold.told, ⟨fun hup => (nomatch hstate.symm.trans hup), fun hlt => absurd hlt hseq⟩,
      fun hup => (nomatch hstate.symm.trans hup), fun _ => ⟨hstate, ?_, hat⟩, ?_⟩
    · rw [hrec]
    · rw [hrec]

/-- Table 11-8: a spare lane that does not train leaves UP where no lane is lost, and UP_3 where one is. -/
theorem spareTrained_failed (hn : n < 24) (hw : smWf {} 0 s.links = true) (hhas : HasLink s n) (hst : (linkOf s n).state = .upSwap)
    (q : BitVec 16) : ∃ t, exec (.spareTrained n false q) s = .next t ∧ TellsOfLink s n t ∧ linkOf t n = { linkOf s n with
      state := if (linkOf s n).lost = 0 then .up else .up3
      spareFailed := true
      retiring := none } := by
  have hexec : exec (.spareTrained n false q) s = .next (if (linkOf s n).lost = 0 then s.updLink n (fun l => { l with
        state := .up
        spareFailed := true
        retiring := none })
      else (s.updLink n (fun l => { l with
        state := .up3
        spareFailed := true
        retiring := none })).raise 0x5003 (linkPlace n) noCmd ((linkOf s n).retiring.getD (linkOf s n).spare)) := by
    change execSpareTrained n false q s = _
    unfold execSpareTrained
    rw [onLink_present hn (by rw [hst]; exact nofun)]
    exact congrArg Host.Outcome.next ((if_neg (not_not.mpr hst)).trans (if_neg (by decide)))
  refine ⟨_, hexec, ?_⟩
  split
  · exact ⟨(OnlyLink.updLink hw _).told, linkOf_updLink_same hw hhas _⟩
  · refine ⟨(OnlyLink.updLink hw _).told.trans (.raise (sev := 2) rfl (by decide) (by decide) (by decide)), ?_⟩
    rw [linkOf_raise]
    exact linkOf_updLink_same hw hhas _

/-- R266: the peer's LANE_SWAP names the seq at which this end takes the spare. -/
theorem laneSwap_switches {r : BitVec 8} (hn : n < 24) (hw : smWf {} 0 s.links = true) (hhas : HasLink s n)
    (hst : (linkOf s n).state = .upSwap) (hr : r.toNat < 5) (q : BitVec 16) : ∃ t, exec (.laneSwap n r q) s = .next t ∧
      TellsOfLink s n t ∧ linkOf t n = if ((linkOf s n).rxNext - q).toNat < 32768 then { linkOf s n with
          state := .up
          lanes := (linkOf s n).swapped r.toNat
          lost := 0
          retiring := none
          switchAt := none }
        else { linkOf s n with
          retiring := some r.toNat
          switchAt := some (r.toNat, q, false) } := by
  have hlink := linkOf_updLink_same hw hhas (fun l => { l with
    retiring := some r.toNat
    switchAt := some (r.toNat, q, false) })
  have hwf := updLink_links_wf (n := n) hw (fun l => { l with
    retiring := some r.toNat
    switchAt := some (r.toNat, q, false) })
  have honly : OnlyLink s n (s.updLink n (fun l => { l with
    retiring := some r.toNat
    switchAt := some (r.toNat, q, false) })) := .updLink hw _
  have hexec : exec (.laneSwap n r q) s = .next ((s.updLink n (fun l => { l with
      retiring := some r.toNat
      switchAt := some (r.toNat, q, false) })).trySwitch n) := by
    change execLaneSwap n r q s = _
    unfold execLaneSwap
    rw [onLink_present hn (by rw [hst]; exact nofun)]
    exact congrArg Host.Outcome.next (if_neg (by simp [hst]; omega))
  generalize s.updLink n _ = v at hlink hwf honly hexec
  have hhas' : HasLink v n := by
    unfold HasLink
    rw [honly.2]
    exact hhas
  have hat : (linkOf v n).switchAt = some (r.toNat, q, false) := by rw [hlink]
  refine ⟨_, hexec, ?_⟩
  split
  next hseq =>
    obtain ⟨htell, hdone⟩ := trySwitch_due hwf hhas' (switchDue_some hat (by rw [hlink]; exact hst) (by rw [hlink]; exact hseq))
    refine ⟨honly.told.trans htell, ?_⟩
    rw [hdone, hlink]
    rfl
  next hseq =>
    rw [trySwitch_none (switchDue_waits hat (by rw [hlink]; exact hseq))]
    exact ⟨honly.told, hlink⟩

/-- Table 11-8: the peer's RESTRIPE names the lanes that remain. -/
theorem restripe_follows {m : BitVec 8} (hn : n < 24) (hw : smWf {} 0 s.links = true) (hhas : HasLink s n)
    (hcarries : (linkOf s n).carries = true) (hleft : 3 ≤ laneCount (m.setWidth 5)) : ∃ t, exec (.restripe n m) s = .next t ∧
      TellsOfLink s n t ∧ (linkOf t n).lanes = m.setWidth 5 ∧
      (linkOf t n).lost = (linkOf s n).lost + (laneCount (linkOf s n).lanes - laneCount (m.setWidth 5)) ∧
      (laneCount (m.setWidth 5) = 3 → (linkOf s n).state = .up →
        (linkOf t n).state = if (linkOf s n).spareFree then .upSwap else .up3) := by
  have hlink := linkOf_updLink_same hw hhas (fun l => { l with
    lanes := m.setWidth 5
    lost := l.lost + (laneCount l.lanes - laneCount (m.setWidth 5)) })
  have hwf := updLink_links_wf (n := n) hw (fun l => { l with
    lanes := m.setWidth 5
    lost := l.lost + (laneCount l.lanes - laneCount (m.setWidth 5)) })
  have honly : OnlyLink s n (s.updLink n (fun l => { l with
    lanes := m.setWidth 5
    lost := l.lost + (laneCount l.lanes - laneCount (m.setWidth 5)) })) := .updLink hw _
  generalize hv : s.updLink n (fun l => { l with
    lanes := m.setWidth 5
    lost := l.lost + (laneCount l.lanes - laneCount (m.setWidth 5)) }) = v at hlink hwf honly
  have hhas' : HasLink v n := by
    unfold HasLink
    rw [honly.2]
    exact hhas
  have hexec : exec (.restripe n m) s = .next (if laneCount (m.setWidth 5) = 3 ∧ (linkOf s n).state = .up then
        (if (linkOf s n).spareFree then v.updLink n (fun l => { l with
          state := .upSwap
          retiring := (List.range 4).find? (fun i => !(m.setWidth 5).getLsbD i) })
        else (v.updLink n (fun l => { l with state := .up3 })).raise 0x5003 (linkPlace n) noCmd)
      else v) := by
    change execRestripe n m s = _
    unfold execRestripe
    rw [onLink_present hn (present_of_carries hcarries), ← hv]
    exact congrArg Host.Outcome.next ((if_neg (by rw [hcarries]; decide)).trans (if_neg (by omega)))
  refine ⟨_, hexec, ?_⟩
  split
  next hthree =>
    split
    · refine ⟨(honly.trans (.updLink hwf _)).told, ?_⟩
      rw [linkOf_updLink_same hwf hhas', hlink]
      exact ⟨rfl, rfl, fun _ _ => rfl⟩
    · refine ⟨(honly.trans (.updLink hwf _)).told.trans (.raise (sev := 2) rfl (by decide) (by decide) (by decide)), ?_⟩
      rw [linkOf_raise, linkOf_updLink_same hwf hhas', hlink]
      exact ⟨rfl, rfl, fun _ _ => rfl⟩
  next hnot =>
    rw [hlink]
    exact ⟨honly.told, rfl, rfl, fun hthree hup => absurd ⟨hthree, hup⟩ hnot⟩

/-- R268: ROUTE names the port blocks that the link serves. -/
theorem route_follows (hn : n < 24) (hw : smWf {} 0 s.links = true) (hhas : HasLink s n) (hcarries : (linkOf s n).carries = true)
    (pbs : BitVec 24) : ∃ t, exec (.route n pbs) s = .next t ∧ t = { s with links := t.links } ∧
      linkOf t n = { linkOf s n with takeover := pbs.getLsbD (partnerOf n) } ∧
      linkOf t (partnerOf n) = { linkOf s (partnerOf n) with takenOver := pbs.getLsbD (partnerOf n) } ∧
      ∀ k, k ≠ n → k ≠ partnerOf n → linkOf t k = linkOf s k := by
  have hexec : exec (.route n pbs) s = .next ((s.updLink n (fun l => { l with takeover := pbs.getLsbD (partnerOf n) })).updLink
      (partnerOf n) (fun l => { l with takenOver := pbs.getLsbD (partnerOf n) })) := by
    change execRoute n pbs s = _
    unfold execRoute
    rw [onLink_present hn (present_of_carries hcarries)]
    exact congrArg Host.Outcome.next (if_neg (by rw [hcarries]; decide))
  have hwf := updLink_links_wf (n := n) hw (fun l => { l with takeover := pbs.getLsbD (partnerOf n) })
  refine ⟨_, hexec, rfl, ?_, ?_, fun k hk hk' => ?_⟩
  · rw [linkOf_updLink_other hwf (partnerOf_ne n).symm]
    exact linkOf_updLink_same hw hhas _
  · rw [linkOf_updLink_any hwf _ rfl, linkOf_updLink_other hw (partnerOf_ne n)]
  · rw [linkOf_updLink_other hwf hk', linkOf_updLink_other hw hk]

/-- Settles O44. -/
theorem linkStates : Obligations.LinkStates := by
  unfold Obligations.LinkStates
  intro s n hn hcan hpresent
  obtain ⟨-, -, -, hw, -, -⟩ := hcan
  have hhas := hasLink_of_present hpresent
  have hon := onLink_present hn hpresent
  extract_lets l others quiet told agrees alone left
  refine ⟨?_, ?_, ?_, ?_, ?_, ?_, ?_, ?_, ?_, ?_, ?_, ?_, ?_, ?_⟩
  · intro kind id pb fw hst hagree
    obtain ⟨honly, hwf, hlink⟩ := identTaken_eq hw hhas hst kind id
    have hhas' : HasLink (identTaken s n kind id) n := by
      unfold HasLink
      rw [honly.2]
      exact hhas
    obtain ⟨hup, hrec⟩ := linkUp_eq hwf hhas'
    have hexec : exec (.ident n kind id pb fw) s = .next ((identTaken s n kind id).linkUp n) := by
      change execIdent n kind id pb fw s = _
      unfold execIdent
      rw [hon]
      exact congrArg Host.Outcome.next ((if_neg (not_not.mpr hst)).trans (if_pos hagree))
    refine ⟨_, hexec, honly.trans hup, ?_⟩
    obtain ⟨_, _, _, _, _, _, _, h1⟩ := recorded_eq (linkOf s n)
      (.ident s.boot.positionId n (BitVec.ofNat 64 (s.boot.measurement.toNat / 2 ^ 192)))
    obtain ⟨_, _, _, _, _, _, _, h2⟩ := recorded_eq { linkOf (identTaken s n kind id) n with
      state := .up
      lanes := 0xF
      spare := 4
      lost := 0
      replays := 0
      miswired := false
      credits := []
      granted := (List.range 4).foldl (fun m c => smPut 0 c (bufferFlits c) m) [] }
      (.credit ((List.range 4).map (fun c => BitVec.ofNat 16 (bufferFlits c))))
    rw [hrec, h2, hlink, h1]
    refine ⟨rfl, rfl, rfl, rfl, rfl, rfl, rfl, ?_⟩
    exact List.append_assoc ..
  · intro kind id pb fw hst hdiffers
    obtain ⟨honly, hwf, hlink⟩ := identTaken_eq hw hhas hst kind id
    generalize hv : ((identTaken s n kind id).updLink n (fun l => { l with miswired := true })).raise 0x5006 (linkPlace n) noCmd
      id.toNat = v
    have hexec : exec (.ident n kind id pb fw) s = .next (v.linkStop n .down) := by
      change execIdent n kind id pb fw s = _
      unfold execIdent
      rw [hon, ← hv]
      exact congrArg Host.Outcome.next ((if_neg (not_not.mpr hst)).trans (if_neg hdiffers))
    have hwf' := updLink_links_wf (n := n) hwf (fun l => { l with miswired := true })
    have hwv : smWf {} 0 v.links = true := by
      rw [← hv]
      simpa using hwf'
    have htold : TellsOfLink s n v := by
      rw [← hv]
      exact (honly.trans (.updLink hwf _)).told.trans (.raise (sev := 2) rfl (by decide) (by decide) (by decide))
    have hhas' : HasLink v n := by
      unfold HasLink
      rw [htold.2]
      exact hhas
    have hhas'' : HasLink (identTaken s n kind id) n := by
      unfold HasLink
      rw [honly.2]
      exact hhas
    have hlinkv : linkOf v n = { linkOf (identTaken s n kind id) n with miswired := true } := by
      rw [← hv, linkOf_raise]
      exact linkOf_updLink_same hwf hhas'' _
    obtain ⟨_, _, _, _, _, _, _, h1⟩ := recorded_eq (linkOf s n)
      (.ident s.boot.positionId n (BitVec.ofNat 64 (s.boot.measurement.toNat / 2 ^ 192)))
    rw [h1] at hlink
    obtain ⟨hdown, hlanes, hmiswired, -⟩ := linkStop_link hwv hhas' (.inl rfl)
    obtain ⟨hmem, htiles, hprogram⟩ := linkStop_memories v n .down
    have hframe := htold.2
    refine ⟨_, hexec, hdown, hmiswired.trans (by rw [hlinkv]; rfl), hlanes, hmem.trans (by rw [hframe]), htiles.trans (by rw [hframe]),
      hprogram.trans (by rw [hframe]), ?_⟩
    rintro ⟨hbusy, htake, hpartner⟩
    rw [linkStop_alone hwv (by rw [hframe]; exact hbusy) (by rw [hlinkv, hlink]; exact htake)
      (by rw [hlinkv, hlink]; exact train_idle hst)
      (by rw [htold.1 _ (partnerOf_ne n)]; exact hpartner)]
    exact htold.trans (OnlyLink.updLink hwv _).told
  · intro kind id pb fw hst
    change execIdent n kind id pb fw s = _
    unfold execIdent
    rw [hon]
    exact congrArg Host.Outcome.next (if_pos hst)
  · intro hst
    have hexec : exec (.trainTimeout n) s = .next (s.linkStop n .down) := by
      change execTrainTimeout n s = _
      unfold execTrainTimeout
      rw [hon]
      exact congrArg Host.Outcome.next (if_pos hst)
    obtain ⟨hdown, -, -, htime⟩ := linkStop_link hw hhas (.inl rfl)
    obtain ⟨hmem, htiles, hprogram⟩ := linkStop_memories s n .down
    refine ⟨_, hexec, hdown, htime, hmem, htiles, hprogram, ?_⟩
    rintro ⟨hbusy, htake, hpartner⟩
    rw [linkStop_alone hw hbusy htake (train_idle hst) hpartner]
    exact OnlyLink.updLink hw _
  · intro hst
    have hexec : exec (.downRetry n) s = .next (s.startTraining n) := by
      change execDownRetry n s = _
      unfold execDownRetry
      rw [hon]
      exact congrArg Host.Outcome.next (if_pos hst)
    exact ⟨_, hexec, OnlyLink.updLink hw _, linkOf_updLink_same hw hhas _⟩
  · intro lane hst hlane hspare
    have hexec : exec (.laneDegrading n lane) s = .next (s.updLink n (fun l => { l with
        state := .upSwap
        retiring := some lane })) := by
      change execLaneDegrading n lane s = _
      unfold execLaneDegrading
      rw [hon]
      exact congrArg Host.Outcome.next (if_pos ⟨hst, hlane, hspare⟩)
    exact ⟨_, hexec, OnlyLink.updLink hw _, linkOf_updLink_same hw hhas _⟩
  · exact fun lane hst hlane hleft => laneLost_restripes hn hw hhas hst hlane hleft
  · intro lane hcarries hlane hleft hd
    have hexec : exec (.laneLost n lane) s = .next (s.linkStop n .down) := by
      change execLaneLost n lane s = _
      unfold execLaneLost
      rw [hon]
      exact congrArg Host.Outcome.next ((if_neg (by rw [hcarries]; decide)).trans
        ((if_neg (by simpa using hlane)).trans (if_pos hleft)))
    obtain ⟨hdown, hlanes, -, -⟩ := linkStop_link hw hhas (.inl rfl)
    obtain ⟨tr, ho, ar, hstop, hlatched⟩ := linkStop_discards (st := .down) hd hcarries
    refine ⟨_, hexec, hdown, hlanes, fun htake k hk => ?_, by rw [hstop], by rw [hstop]; exact hlatched⟩
    have hsame : linkOf (s.linkStop n .down) k = linkOf (linkOut s n .down) k := by
      obtain ⟨_, _, _, _, _, hout, -⟩ := sends_linkOut s n .down
      exact linkOf_congr (by rw [hstop, hout]) (by rw [hstop])
    exact hsame.trans (linkOut_others hw htake hk)
  · exact fun q hst => spareTrained_names hn hw hhas hst q
  · exact fun q hst => spareTrained_failed hn hw hhas hst q
  · exact fun r q hst hr => laneSwap_switches hn hw hhas hst hr q
  · intro r q hne
    have hexec : exec (.laneSwap n r q) s = .next s := by
      change execLaneSwap n r q s = _
      unfold execLaneSwap
      rw [hon]
      exact congrArg Host.Outcome.next (if_pos hne)
    exact hexec
  · exact fun m hcarries hleft => restripe_follows hn hw hhas hcarries hleft
  · exact fun pbs hcarries => route_follows hn hw hhas hcarries pbs

end LinkStates

/-! ### What the traffic of a link makes of the link (R258 to R263) -/

section LinkTraffic

variable {s u v : State} {n : Nat} {l m : Link}

/-- From `s` only link `n` has changed, and it is `l` now. -/
structure LinkBecomes (s : State) (n : Nat) (l : Link) (u : State) : Prop where
  only : OnlyLink s n u
  wf : smWf {} 0 u.links = true
  has : HasLink u n
  link : linkOf u n = l

namespace LinkBecomes

theorem start (hw : smWf {} 0 s.links = true) (h : HasLink s n) : LinkBecomes s n (linkOf s n) s :=
  ⟨⟨fun _ _ => rfl, rfl⟩, hw, h, rfl⟩

theorem updLink (h : LinkBecomes s n l u) (f : Link → Link) : LinkBecomes s n (f l) (u.updLink n f) :=
  ⟨h.only.trans (.updLink h.wf f), updLink_links_wf h.wf f, h.has, (linkOf_updLink_same h.wf h.has f).trans (congrArg f h.link)⟩

theorem trySwitch_eq (h : LinkBecomes s n l u) (hat : l.switchAt = none) : u.trySwitch n = u := by
  refine trySwitch_none ?_
  rw [h.link, Link.switchDue, hat]

theorem flushLink (h : LinkBecomes s n l u) (hat : l.switchAt = none) : LinkBecomes s n l.flush (u.flushLink n) := by
  have hflush := h.updLink Link.flush
  have hkept : l.flush.switchAt = none := by
    obtain ⟨_, _, _, _, _, _, _, hsent⟩ := SendsOnly.flush l
    rw [hsent]
    exact hat
  change LinkBecomes s n l.flush ((u.updLink n Link.flush).trySwitch n)
  rw [hflush.trySwitch_eq hkept]
  exact hflush

theorem linkRecord (h : LinkBecomes s n l u) (hat : l.switchAt = none) (r : LinkRecord) :
    LinkBecomes s n (Link.recorded l r) (u.linkRecord n r) := by
  have hqueued := h.updLink (fun l => { l with
    records := l.records ++ [r]
    blocked := l.blocked ++ [linkFlit r] })
  exact hqueued.flushLink hat

/-- A credit goes back in a record of its own (R262). -/
theorem giveCredit (h : LinkBecomes s n l u) (hat : l.switchAt = none) (c : Nat) {flits : Nat} (hf : flits ≠ 0) :
    LinkBecomes s n (Link.recorded { l with granted := smUpd 0 c (· + flits) l.granted }
      (.credit ((List.range 4).map (fun i => if i = c then BitVec.ofNat 16 flits else 0)))) (u.giveCredit n c flits) := by
  have hgranted := h.updLink (fun l => { l with granted := smUpd 0 c (· + flits) l.granted })
  unfold State.giveCredit
  rw [if_neg hf]
  exact hgranted.linkRecord hat _

/-- What wakes the module leaves its links alone. -/
theorem wake (h : LinkBecomes s n l u) : LinkBecomes s.wake n l u.wake := by
  have hwake : u.wake = { s.wake with links := u.links } := by
    rw [h.only.2]
    unfold State.wake
    dsimp only
    split <;> rfl
  have hlinks (k : Nat) : linkOf u.wake k = linkOf u k := by
    obtain ⟨w, sm, hw⟩ := wake_eq u
    rw [hw]
    rfl
  have hbefore (k : Nat) : linkOf s.wake k = linkOf s k := by
    obtain ⟨w, sm, hw⟩ := wake_eq s
    rw [hw]
    rfl
  refine ⟨⟨fun k hk => ?_, ?_⟩, ?_, ?_, (hlinks n).trans h.link⟩
  · rw [hlinks, hbefore, h.only.1 k hk]
  · rw [hwake]
  · rw [hwake]
    exact h.wf
  · obtain ⟨w, sm, hw⟩ := wake_eq u
    unfold HasLink
    rw [hw]
    exact h.has

end LinkBecomes

/-- Acks and what a link sends touch its queues, credits, numbers and NAK counts, and nothing else. -/
def AcksAndSends (l m : Link) : Prop := ∃ b c r w q t k nk, m = { l with
  blocked := b
  credits := c
  replay := r
  wire := w
  txSeq := q
  lastTurn := t
  bulkTurns := k
  nakCounts := nk }

theorem AcksAndSends.flush (l : Link) (r : List Flit) (nk : SMap Nat) : AcksAndSends l (Link.flush { l with
    replay := r
    nakCounts := nk }) := by
  obtain ⟨b, c, p, w, q, t, k, h⟩ := SendsOnly.flush { l with
    replay := r
    nakCounts := nk }
  exact ⟨b, c, p, w, q, t, k, nk, h⟩

/-- R260: the peer's ack is taken, and the link sends what it can. -/
theorem takeAck_becomes (h : LinkBecomes s n l u) (hat : l.switchAt = none) (ack : BitVec 16) :
    ∃ m, LinkBecomes s n m (u.takeAck n ack) ∧ AcksAndSends l m := by
  have hacked := h.updLink (fun l => { l with
    replay := l.replay.filter (fun f => !seqBelow f.seq ack)
    nakCounts := l.nakCounts.filter (fun x => decide (65536 ≤ x.1) || !seqBelow (BitVec.ofNat 16 x.1) ack) })
  exact ⟨_, hacked.flushLink hat, AcksAndSends.flush ..⟩

theorem seqRange_self (q : BitVec 16) : seqRange q q = [] := by simp [seqRange]

/-- With nothing to name, no NAK goes out. -/
theorem nameMissing_nil (u : State) (n : Nat) : u.nameMissing n [] = u.updLink n (fun l => { l with nakCounts := l.nakCounts }) := rfl

/-- A flit that comes for the first time, and what has come after it without a gap (R260). -/
def Link.taken (l : Link) (f : Flit) : Link :=
  Link.advanceRx (f.seq :: l.rxSeen).length { l with
    rxSeen := f.seq :: l.rxSeen
    nakCounts := smPut 0 (65536 + f.seq.toNat) 0 l.nakCounts }

theorem taken_inTurn {f : Flit} (hseen : l.rxSeen = []) (hseq : f.seq = l.rxNext) : Link.taken l f = { l with
    rxSeen := []
    nakCounts := smPut 0 (65536 + f.seq.toNat) 0 l.nakCounts
    rxNext := f.seq + 1 } := by
  simp [Link.taken, Link.advanceRx, hseen, hseq]

/-- A flit waits for its turn in its channel, and has used a credit (R261, R262). -/
def Link.waits (l : Link) (f : Flit) : Link := { l with
  granted := smUpd 0 f.channel.toNat (· - 1) l.granted
  reorder := l.reorder ++ [f] }

/-- On CONTROL the credit goes back at once (R262). -/
def creditedControl (u : State) (n : Nat) (f : Flit) : State := if f.channel = 0 then u.giveCredit n 0 1 else u

theorem acceptFlit_eq (u : State) (n : Nat) (f : Flit) : u.acceptFlit n f =
    (let s1 := (u.updLink n (fun l => Link.taken l f)).nameMissing n ((seqRange (linkOf u n).rxNext f.seq).filter (fun q =>
      !(linkOf u n).rxSeen.contains q && smGet 0 (linkOf u n).nakCounts (65536 + q.toNat) == 0))
     let s3 := creditedControl (s1.updLink n (fun l => Link.waits l f)) n f
     if !(linkOf s1 n).carries ∨ f.kind = 2 then s1.trySwitch n
     else (s3.deliverChannel n f.channel.toNat (linkOf s3 n).reorder.length).trySwitch n) := rfl

theorem creditedControl_becomes (h : LinkBecomes s n l u) (hat : l.switchAt = none) (f : Flit) :
    ∃ b c r w q t k g, LinkBecomes s n { l with
      blocked := b
      credits := c
      replay := r
      wire := w
      txSeq := q
      lastTurn := t
      bulkTurns := k
      granted := g
      records := l.records ++ (if f.channel = 0 then [.credit [1, 0, 0, 0]] else []) } (creditedControl u n f) := by
  unfold creditedControl
  split
  · obtain ⟨b, c, r, w, q, t, k, hrec⟩ := recorded_eq { l with granted := smUpd 0 0 (· + 1) l.granted } (.credit [1, 0, 0, 0])
    have hcredit := h.giveCredit hat 0 (flits := 1) (by decide)
    rw [show (LinkRecord.credit ((List.range 4).map (fun i => if i = 0 then BitVec.ofNat 16 1 else 0))) = .credit [1, 0, 0, 0] from rfl,
      hrec] at hcredit
    exact ⟨b, c, r, w, q, t, k, _, hcredit⟩
  · refine ⟨l.blocked, l.credits, l.replay, l.wire, l.txSeq, l.lastTurn, l.bulkTurns, l.granted, ?_⟩
    rw [List.append_nil]
    exact h

/-- R261: the one flit that waits on its channel, and is the next there, leaves the link layer. -/
theorem deliverChannel_one {f : Flit} (h : LinkBecomes s n l u) (hone : l.reorder = [f])
    (hch : f.chseq = smGet 0 l.rxChseq f.channel.toNat) : ∃ v, LinkBecomes s n { l with
      reorder := []
      rxChseq := smUpd 0 f.channel.toNat (· + 1) l.rxChseq } v ∧
      u.deliverChannel n f.channel.toNat (linkOf u n).reorder.length = v.leaveLink n f := by
  have hout := h.updLink (fun l => { l with
    reorder := l.reorder.eraseP (fun g => g == f)
    rxChseq := smUpd 0 f.channel.toNat (· + 1) l.rxChseq })
  have herase : l.reorder.eraseP (fun g => g == f) = [] := by
    rw [hone]
    simp
  rw [herase] at hout
  refine ⟨_, hout, ?_⟩
  have hfind : l.reorder.find? (fun g => g.channel.toNat == f.channel.toNat && g.chseq == smGet 0 l.rxChseq f.channel.toNat) =
      some f := by
    rw [hone]
    exact List.find?_cons_of_pos (by simp [hch])
  rw [h.link, hone]
  change State.deliverChannel u n f.channel.toNat 1 = _
  unfold State.deliverChannel
  rw [h.link]
  dsimp only
  rw [hfind]
  rfl

/-- R260, R261: the DATA flit that is due on its link and on its channel leaves the link layer at once. -/
theorem acceptFlit_inTurn {f : Flit} (h : LinkBecomes s n l u) (hat : l.switchAt = none) (hcarries : l.carries = true)
    (hkind : f.kind = 1) (hseen : l.rxSeen = []) (hseq : f.seq = l.rxNext) (horder : l.reorder = [])
    (hch : f.chseq = smGet 0 l.rxChseq f.channel.toNat) : ∃ v m, LinkBecomes s n m v ∧
      u.acceptFlit n f = (v.leaveLink n f).trySwitch n ∧ m.switchAt = none ∧ m.rxNext = f.seq + 1 ∧ m.rxSeen = [] ∧
      m.reorder = [] ∧
      m.rxChseq = smUpd 0 f.channel.toNat (· + 1) l.rxChseq ∧ m.assembling = l.assembling ∧ m.delivered = l.delivered ∧
      m.records = l.records ++ (if f.channel = 0 then [.credit [1, 0, 0, 0]] else []) := by
  have hskipped : (seqRange (linkOf u n).rxNext f.seq).filter (fun q =>
      !(linkOf u n).rxSeen.contains q && smGet 0 (linkOf u n).nakCounts (65536 + q.toNat) == 0) = [] := by
    rw [h.link, hseq, seqRange_self]
    rfl
  have hseen' := (h.updLink (fun l => Link.taken l f)).updLink (fun l => { l with nakCounts := l.nakCounts })
  rw [taken_inTurn hseen hseq] at hseen'
  obtain ⟨b, c, r, w, q, t, k, g, hwaits⟩ := creditedControl_becomes (hseen'.updLink (fun l => Link.waits l f)) hat f
  obtain ⟨v, hout, hdeliver⟩ := deliverChannel_one (f := f) hwaits (by simp [Link.waits, horder]) hch
  refine ⟨v, _, hout, ?_, hat, rfl, rfl, rfl, rfl, rfl, rfl, rfl⟩
  have hgo : ¬ ((!(linkOf ((u.updLink n (fun l => Link.taken l f)).updLink n (fun l => { l with nakCounts := l.nakCounts })) n).carries) =
      true ∨ f.kind = 2) := by
    rw [hseen'.link, hkind]
    rintro (hidle | hlink)
    · have hnot : (!l.carries) = true := hidle
      rw [hcarries] at hnot
      exact absurd hnot (by decide)
    · exact absurd hlink (by decide)
  rw [acceptFlit_eq, hskipped, nameMissing_nil]
  exact (if_neg hgo).trans (congrArg (State.trySwitch · n) hdeliver)

end LinkTraffic

/-! ### Flits, NAKs and credits (O45) -/

section LinkTraffic

variable {s u v : State} {n : Nat} {l m : Link} {f : Flit}

/-- A flit in its turn: sound, the next of its link and of its channel, with nothing held before it and a credit for it. -/
def InTurn (l : Link) (f : Flit) : Prop :=
  flitFailed f = false ∧ flitIllegal f = false ∧ f.kind = 1 ∧ l.rxSeen = [] ∧ f.seq = l.rxNext ∧ l.reorder = [] ∧
    f.chseq = smGet 0 l.rxChseq f.channel.toNat ∧ 0 < smGet 0 l.granted f.channel.toNat ∧ f.som = true

theorem seqBelow_self (q : BitVec 16) : seqBelow q q = false := by simp [seqBelow]

/-- R258 to R262: a flit in its turn leaves the link layer, and the link is as if it had come alone. -/
theorem zlinkFlit_inTurn (hn : n < 24) (hw : smWf {} 0 s.links = true) (hcarries : (linkOf s n).carries = true)
    (hat : (linkOf s n).switchAt = none) (h : InTurn (linkOf s n) f) : ∃ v m, LinkBecomes s.wake n m v ∧
      exec (.zlinkFlit n f) s = .next ((v.leaveLink n f).trySwitch n) ∧ m.switchAt = none ∧ m.rxNext = f.seq + 1 ∧ m.rxSeen = [] ∧
      m.reorder = [] ∧ m.rxChseq = smUpd 0 f.channel.toNat (· + 1) (linkOf s n).rxChseq ∧ m.assembling = (linkOf s n).assembling ∧
      m.delivered = (linkOf s n).delivered ∧
      m.records = (linkOf s n).records ++ (if f.channel = 0 then [.credit [1, 0, 0, 0]] else []) := by
  obtain ⟨hsound, hlegal, hkind, hseen, hseq, horder, hch, hcredit, -⟩ := h
  have hpresent := present_of_carries hcarries
  obtain ⟨m0, hack, b, c, r, w, q, t, k, nk, rfl⟩ := takeAck_becomes (.start hw (hasLink_of_present hpresent)) hat f.ack
  obtain ⟨v, m, hv, haccept, h1, h2, h3, h4, h5, h6, h7, h8⟩ := acceptFlit_inTurn (f := f) hack.wake hat hcarries hkind hseen hseq
    horder hch
  refine ⟨v, m, hv, ?_, h1, h2, h3, h4, h5, h6, h7, h8⟩
  rw [← haccept]
  change execZlinkFlit n f s = _
  unfold execZlinkFlit
  rw [onLink_present hn hpresent]
  refine congrArg Host.Outcome.next ?_
  dsimp only
  rw [if_neg (by rw [hcarries]; decide), if_neg (by rw [hsound]; decide), if_neg (by rw [hlegal]; decide), if_pos hkind,
    if_neg ?_, if_neg (fun hnone => absurd hnone.2 (by omega))]
  rintro (hidle | hold | hdup)
  · rw [hkind] at hidle
    exact absurd hidle (by decide)
  · rw [hseq, seqBelow_self] at hold
    exact absurd hold (by decide)
  · rw [hseen] at hdup
    exact absurd hdup nofun

/-- R261: on CONTROL and WEIGHT a flit joins its message, and a whole one is checked. -/
theorem leaveLink_uncounted (hc : f.channel.toNat = 0 ∨ f.channel.toNat = 2) (hsom : f.som = true) : v.leaveLink n f =
    (let bytes := f.body.take f.len.toNat
     let w := v.updLink n (fun l => { l with
       assembling := smPut [] f.channel.toNat (if f.eom then [] else bytes) l.assembling })
     if f.eom then w.deliverMessage n f.channel.toNat bytes else w) := by
  have huncounted : decide (f.channel.toNat = 1 ∨ f.channel.toNat = 3) = false := by
    rw [decide_eq_false_iff_not]
    omega
  unfold State.leaveLink
  extract_lets c bytes msg key counted fresh s0 s1 s2 s3 w
  have hmsg : msg = bytes := by simp [msg, hsom]
  have hcounted : counted = false := huncounted
  have hs2 : s3 = w := by
    simp [s3, s2, s1, s0, hcounted, w, hmsg, c]
  have hfresh : ¬ (fresh && decide (512 ≤ (pbOf v n).streams.length)) = true := by
    simp [fresh, hcounted]
  rw [if_neg hfresh, hs2, hmsg]

/-- R263, R265: a whole message for this module is handed on. -/
theorem deliverMessage_mine {c : Nat} {msg : Bytes} (h : LinkBecomes s n l u) (hat : l.switchAt = none)
    (hknown : [0x01, 0x02, 0x10, 0x11, 0x12, 0x20, 0x21, 0x30, 0x40, 0x41].contains (fieldAt msg 4 1) = true)
    (hch : channelOf (fieldAt msg 4 1) = c) (h6 : fieldAt msg 6 2 = 0) (h12 : fieldAt msg 12 4 = 0)
    (hmine : fieldAt msg 0 2 = u.boot.positionId.toNat) : ∃ m, LinkBecomes s n m (u.deliverMessage n c msg) ∧
      m.delivered = l.delivered ++ [(c, msg)] ∧ m.rxNext = l.rxNext ∧ m.assembling = l.assembling ∧ m.switchAt = none := by
  have hpos : (BitVec.ofNat 16 (fieldAt msg 0 2) == u.boot.positionId) = true := by
    rw [hmine]
    simp
  unfold State.deliverMessage
  extract_lets type known mine s1
  have hsound : ¬ (!known || channelOf type != c || fieldAt msg 6 2 != 0 || fieldAt msg 12 4 != 0) = true := by
    simp only [known, type, hknown, hch, h6, h12]
    simp
  rw [if_neg hsound, if_pos hpos]
  unfold s1
  split
  · by_cases hlen : (msg.length + 239) / 240 = 0
    · unfold State.giveCredit
      rw [if_pos hlen]
      exact ⟨_, h.updLink _, rfl, rfl, rfl, hat⟩
    · have hgiven := h.giveCredit hat 2 hlen
      generalize LinkRecord.credit _ = rec at hgiven
      obtain ⟨_, _, _, _, _, _, _, hrec⟩ := recorded_eq { l with granted := smUpd 0 2 (· + (msg.length + 239) / 240) l.granted } rec
      rw [hrec] at hgiven
      exact ⟨_, hgiven.updLink _, rfl, rfl, rfl, hat⟩
  · exact ⟨_, h.updLink _, rfl, rfl, rfl, hat⟩

theorem pbOf_updPb_same (hpbs : smWf {} 0 s.pbs = true) (g : PbState → PbState) : pbOf (s.updPb n g) n = g (pbOf s n) :=
  smGet_smPut_same hpbs

theorem giveCredit_pbs (s : State) (n c flits : Nat) : (s.giveCredit n c flits).pbs = s.pbs := by
  unfold State.giveCredit
  split
  · rfl
  · exact (flushLink_pbs ..).trans rfl

theorem releasePending_none (h : (pbOf s n).pendingSignals = []) : ∀ fuel, s.releasePending n fuel = s
  | 0 => rfl
  | fuel + 1 => by
    unfold State.releasePending
    rw [h]
    rfl

/-- R273: on KILN and BULK the bytes of a flit count for their stream. -/
theorem leaveLink_counted (h : LinkBecomes s n l v) (hat : l.switchAt = none) (hpbs : smWf {} 0 v.pbs = true)
    (hc : f.channel.toNat = 1 ∨ f.channel.toNat = 3) (hsom : f.som = true) (heom : f.eom = false)
    (hquiet : (pbOf v n).pendingSignals = [])
    (hstream : (pbOf v n).streams.any (fun x => x.1 ==
      streamKey (BitVec.ofNat 16 (fieldAt (f.body.take f.len.toNat) 2 2)) f.channel.toNat) = true) :
    ∃ g m, LinkBecomes s n m g ∧ m.switchAt = none ∧ m.rxNext = l.rxNext ∧
      v.leaveLink n f = (g.updPb n (fun p => { p with
        streams := smUpd 0 (streamKey (BitVec.ofNat 16 (fieldAt (f.body.take f.len.toNat) 2 2)) f.channel.toNat)
          (· + (f.body.take f.len.toNat).length) p.streams })).updLink n (fun l => { l with
            assembling := smPut [] f.channel.toNat (f.body.take f.len.toNat) l.assembling }) := by
  obtain ⟨_, _, _, _, _, _, _, hrec⟩ := recorded_eq { l with granted := smUpd 0 f.channel.toNat (· + 1) l.granted }
    (.credit ((List.range 4).map (fun i => if i = f.channel.toNat then BitVec.ofNat 16 1 else 0)))
  have hgiven := h.giveCredit hat f.channel.toNat (flits := 1) (by decide)
  refine ⟨_, _, hgiven, by rw [hrec]; exact hat, by rw [hrec], ?_⟩
  have hcounted : decide (f.channel.toNat = 1 ∨ f.channel.toNat = 3) = true := by
    rw [decide_eq_true_eq]
    exact hc
  unfold State.leaveLink
  extract_lets c bytes msg key counted fresh s0 s1 s2 s3
  have hmsg : msg = bytes := by simp [msg, hsom]
  have hcounted : counted = true := hcounted
  have hfresh : fresh = false := by
    simp only [fresh, key, hmsg]
    rw [show List.any _ _ = true from hstream]
    simp
  have hgo : ¬ (fresh && decide (512 ≤ (pbOf v n).streams.length)) = true := by simp [hfresh]
  have hs0 : s0 = v.giveCredit n c 1 := if_pos hcounted
  have hs1 : s1 = s0.updPb n (fun p => { p with streams := smUpd 0 key (· + bytes.length) p.streams }) := if_pos hcounted
  have hs3 : s3 = s2 := by
    refine (if_pos hcounted).trans (releasePending_none ?_ 256)
    have hpb : pbOf s2 n = { pbOf v n with streams := smUpd 0 key (· + bytes.length) (pbOf v n).streams } := by
      change pbOf s1 n = _
      rw [hs1, hs0, pbOf_updPb_same (by rw [giveCredit_pbs]; exact hpbs), pbOf, giveCredit_pbs]
      rfl
    rw [hpb]
    exact hquiet
  rw [if_neg hgo, if_neg (by rw [heom]; decide), hs3]
  simp only [s2, hs1, hs0, key, hmsg, heom]
  rfl

end LinkTraffic

section LinkTraffic

variable {s u v : State} {n : Nat} {l m : Link} {f : Flit}

theorem linkOf_wake (s : State) (k : Nat) : linkOf s.wake k = linkOf s k := by
  obtain ⟨w, sm, hw⟩ := wake_eq s
  rw [hw]
  rfl

/-- R261: a flit on CONTROL or WEIGHT joins the message of its channel. -/
theorem zlinkFlit_joins (hn : n < 24) (hw : smWf {} 0 s.links = true) (hcarries : (linkOf s n).carries = true)
    (hat : (linkOf s n).switchAt = none) (hwch : smWf (0 : BitVec 16) 0 (linkOf s n).rxChseq = true)
    (hwmsg : smWf ([] : Bytes) 0 (linkOf s n).assembling = true) (h : InTurn (linkOf s n) f)
    (hc : f.channel.toNat = 0 ∨ f.channel.toNat = 2) (heom : f.eom = false) : ∃ t, exec (.zlinkFlit n f) s = .next t ∧
      (linkOf t n).rxNext = f.seq + 1 ∧ (linkOf t n).rxSeen = [] ∧ (linkOf t n).reorder = [] ∧
      smGet 0 (linkOf t n).rxChseq f.channel.toNat = f.chseq + 1 ∧
      smGet [] (linkOf t n).assembling f.channel.toNat = f.body.take f.len.toNat ∧ (linkOf t n).delivered = (linkOf s n).delivered ∧
      (linkOf t n).records = (linkOf s n).records ++ (if f.channel.toNat = 0 then [.credit [1, 0, 0, 0]] else []) ∧
      (∀ k, k ≠ n → linkOf t k = linkOf s k) ∧ t = { s.wake with links := t.links } := by
  obtain ⟨v, m, hv, hexec, hat', hnext, hseen, horder, hch, hasm, hdelivered, hrecords⟩ := zlinkFlit_inTurn hn hw hcarries hat h
  have hout := hv.updLink (fun l => { l with
    assembling := smPut [] f.channel.toNat (f.body.take f.len.toNat) l.assembling })
  rw [leaveLink_uncounted hc h.2.2.2.2.2.2.2.2, heom] at hexec
  dsimp only at hexec
  rw [if_neg (by decide), if_neg (by decide), hout.trySwitch_eq hat'] at hexec
  refine ⟨_, hexec, ?_⟩
  rw [hout.link]
  refine ⟨hnext, hseen, horder, ?_, ?_, hdelivered, ?_, fun k hk => ?_, hout.only.2⟩
  · change smGet 0 m.rxChseq f.channel.toNat = _
    rw [hch, h.2.2.2.2.2.2.1]
    exact smGet_smPut_same hwch
  · change smGet [] (smPut [] f.channel.toNat (f.body.take f.len.toNat) m.assembling) f.channel.toNat = _
    rw [hasm]
    exact smGet_smPut_same hwmsg
  · refine hrecords.trans ?_
    by_cases hzero : f.channel = 0
    · rw [if_pos hzero, if_pos (by rw [hzero]; rfl)]
    · rw [if_neg hzero, if_neg (c := f.channel.toNat = 0) fun hnat => hzero (BitVec.eq_of_toNat_eq hnat)]
  · exact (hout.only.1 k hk).trans (linkOf_wake ..)

/-- R263, R265: the last flit of a message for this module hands it on. -/
theorem zlinkFlit_delivers (hn : n < 24) (hw : smWf {} 0 s.links = true) (hcarries : (linkOf s n).carries = true)
    (hat : (linkOf s n).switchAt = none) (hwmsg : smWf ([] : Bytes) 0 (linkOf s n).assembling = true) (h : InTurn (linkOf s n) f)
    (hc : f.channel.toNat = 0 ∨ f.channel.toNat = 2) (heom : f.eom = true)
    (hknown : [0x01, 0x02, 0x10, 0x11, 0x12, 0x20, 0x21, 0x30, 0x40, 0x41].contains
      (fieldAt (f.body.take f.len.toNat) 4 1) = true)
    (hch : channelOf (fieldAt (f.body.take f.len.toNat) 4 1) = f.channel.toNat) (h6 : fieldAt (f.body.take f.len.toNat) 6 2 = 0)
    (h12 : fieldAt (f.body.take f.len.toNat) 12 4 = 0)
    (hmine : fieldAt (f.body.take f.len.toNat) 0 2 = s.boot.positionId.toNat) : ∃ t, exec (.zlinkFlit n f) s = .next t ∧
      (linkOf t n).delivered = (linkOf s n).delivered ++ [(f.channel.toNat, f.body.take f.len.toNat)] ∧
      (linkOf t n).rxNext = f.seq + 1 ∧ smGet [] (linkOf t n).assembling f.channel.toNat = [] ∧
      t = { s.wake with links := t.links } := by
  obtain ⟨v, m, hv, hexec, hat', hnext, -, -, -, hasm, hdelivered, -⟩ := zlinkFlit_inTurn hn hw hcarries hat h
  have hout := hv.updLink (fun l => { l with assembling := smPut [] f.channel.toNat [] l.assembling })
  have hmine' : fieldAt (f.body.take f.len.toNat) 0 2 =
      (v.updLink n (fun l => { l with assembling := smPut [] f.channel.toNat [] l.assembling })).boot.positionId.toNat := by
    obtain ⟨w, sm, hwake⟩ := wake_eq s
    rw [hout.only.2, hwake]
    exact hmine
  obtain ⟨m', hm', hgot, hrx, hkept, hat''⟩ := deliverMessage_mine hout hat' hknown hch h6 h12 hmine'
  rw [leaveLink_uncounted hc h.2.2.2.2.2.2.2.2, heom] at hexec
  dsimp only at hexec
  rw [if_pos rfl, if_pos rfl, hm'.trySwitch_eq hat''] at hexec
  refine ⟨_, hexec, ?_⟩
  rw [hm'.link]
  refine ⟨hgot.trans (congrArg (· ++ _) hdelivered), hrx.trans hnext, ?_, hm'.only.2⟩
  rw [hkept]
  change smGet [] (smPut [] f.channel.toNat [] m.assembling) f.channel.toNat = []
  rw [hasm]
  exact smGet_smPut_same hwmsg

theorem pbOf_congr (h : u.pbs = s.pbs) : pbOf u n = pbOf s n := by
  unfold pbOf
  rw [h]

theorem linkOf_counted (hw : smWf {} 0 s.links = true) (h : HasLink s n) (ps : PbState → PbState) (fl : Link → Link) :
    linkOf ((s.updPb n ps).updLink n fl) n = fl (linkOf s n) := linkOf_updLink_same (s := s.updPb n ps) hw h fl

theorem pbOf_counted (hpbs : smWf {} 0 s.pbs = true) (ps : PbState → PbState) (fl : Link → Link) :
    pbOf ((s.updPb n ps).updLink n fl) n = ps (pbOf s n) := pbOf_updPb_same hpbs ps

/-- R273: the bytes of a flit on KILN or BULK count for their stream. -/
theorem zlinkFlit_counts (hn : n < 24) (hw : smWf {} 0 s.links = true) (hpbs : smWf {} 0 s.pbs = true)
    (hcarries : (linkOf s n).carries = true) (hat : (linkOf s n).switchAt = none) (h : InTurn (linkOf s n) f)
    (hc : f.channel.toNat = 1 ∨ f.channel.toNat = 3) (heom : f.eom = false) (hquiet : (pbOf s n).pendingSignals = [])
    (hstream : (pbOf s n).streams.any (fun x => x.1 ==
      streamKey (BitVec.ofNat 16 (fieldAt (f.body.take f.len.toNat) 2 2)) f.channel.toNat) = true)
    (hwst : smWf (0 : Nat) 0 (pbOf s n).streams = true) : ∃ t, exec (.zlinkFlit n f) s = .next t ∧
      smGet 0 (pbOf t n).streams (streamKey (BitVec.ofNat 16 (fieldAt (f.body.take f.len.toNat) 2 2)) f.channel.toNat) =
        smGet 0 (pbOf s n).streams (streamKey (BitVec.ofNat 16 (fieldAt (f.body.take f.len.toNat) 2 2)) f.channel.toNat) +
          (f.body.take f.len.toNat).length ∧
      (linkOf t n).rxNext = f.seq + 1 ∧ t.mem = s.mem ∧ t.step = s.step := by
  obtain ⟨v, m, hv, hexec, hat', hnext, -, -, -, -, -, -⟩ := zlinkFlit_inTurn hn hw hcarries hat h
  obtain ⟨w, sm, hwake⟩ := wake_eq s
  have hsame : v.pbs = s.pbs := by
    rw [hv.only.2, hwake]
  have hpb : pbOf v n = pbOf s n := pbOf_congr hsame
  obtain ⟨g, m', hg, hat'', hrx, hleave⟩ := leaveLink_counted hv hat' (hsame ▸ hpbs) hc h.2.2.2.2.2.2.2.2 heom (hpb ▸ hquiet)
    (hpb ▸ hstream)
  generalize streamKey (BitVec.ofNat 16 (fieldAt (f.body.take f.len.toNat) 2 2)) f.channel.toNat = key at hleave ⊢
  have hgs : g.pbs = s.pbs := by
    rw [hg.only.2, hwake]
  have hlinks : (linkOf ((g.updPb n (fun p => { p with
      streams := smUpd 0 key (· + (f.body.take f.len.toNat).length) p.streams })).updLink n (fun l => { l with
        assembling := smPut [] f.channel.toNat (f.body.take f.len.toNat) l.assembling })) n) = { m' with
          assembling := smPut [] f.channel.toNat (f.body.take f.len.toNat) m'.assembling } := by
    rw [linkOf_counted hg.wf hg.has, hg.link]
  rw [hleave, trySwitch_none (by rw [hlinks, Link.switchDue, hat''])] at hexec
  refine ⟨_, hexec, ?_, ?_, ?_, ?_⟩
  · rw [pbOf_counted (by rw [hgs]; exact hpbs), show pbOf g n = pbOf s n from pbOf_congr hgs]
    exact smGet_smPut_same hwst
  · rw [hlinks]
    exact hrx.trans hnext
  · change g.mem = s.mem
    rw [hg.only.2, hwake]
  · change g.step = s.step
    rw [hg.only.2, hwake]

/-- R260: a flit that fails its check is named in a NAK, and nothing is taken. -/
theorem zlinkFlit_failed (hn : n < 24) (hw : smWf {} 0 s.links = true) (hcarries : (linkOf s n).carries = true)
    (hat : (linkOf s n).switchAt = none) (hwnak : smWf (0 : Nat) 0 (linkOf s n).nakCounts = true) (hfail : flitFailed f = true)
    (hseen : (linkOf s n).rxSeen = []) (hfew : smGet 0 (linkOf s n).nakCounts (65536 + (linkOf s n).rxNext.toNat) < 15) :
    ∃ t, exec (.zlinkFlit n f) s = .next t ∧
      smGet 0 (linkOf t n).nakCounts (65536 + (linkOf s n).rxNext.toNat) =
        smGet 0 (linkOf s n).nakCounts (65536 + (linkOf s n).rxNext.toNat) + 1 ∧
      (linkOf t n).records = (linkOf s n).records ++ [.nak [(linkOf s n).rxNext]] ∧ (linkOf t n).rxNext = (linkOf s n).rxNext ∧
      (linkOf t n).delivered = (linkOf s n).delivered ∧ (linkOf t n).assembling = (linkOf s n).assembling ∧
      (linkOf t n).granted = (linkOf s n).granted ∧ (∀ k, k ≠ n → linkOf t k = linkOf s k) ∧
      t = { s with links := t.links } := by
  have hhas := hasLink_of_present (present_of_carries hcarries)
  generalize hq : (linkOf s n).rxNext = q at hfew ⊢
  have hmissing : (linkOf s n).missing = [] := by simp [Link.missing, hseen, seqRange_self]
  have hnamed := ((LinkBecomes.start hw hhas).updLink (fun l => { l with
    nakCounts := smUpd 0 (65536 + q.toNat) (· + 1) l.nakCounts })).linkRecord hat (.nak [q])
  obtain ⟨_, _, _, _, _, _, _, hrec⟩ := recorded_eq { linkOf s n with
    nakCounts := smUpd 0 (65536 + q.toNat) (· + 1) (linkOf s n).nakCounts } (.nak [q])
  have hcount : smGet 0 (smUpd 0 (65536 + q.toNat) (· + 1) (linkOf s n).nakCounts) (65536 + q.toNat) =
      smGet 0 (linkOf s n).nakCounts (65536 + q.toNat) + 1 := smGet_smPut_same hwnak
  have hexec : exec (.zlinkFlit n f) s = .next ((s.updLink n (fun l => { l with
      nakCounts := smUpd 0 (65536 + q.toNat) (· + 1) l.nakCounts })).linkRecord n (.nak [q])) := by
    change execZlinkFlit n f s = _
    unfold execZlinkFlit
    rw [onLink_present hn (present_of_carries hcarries)]
    dsimp only
    rw [if_neg (by rw [hcarries]; decide), if_pos hfail, hmissing, List.isEmpty_nil, if_pos rfl, hq]
    refine congrArg Host.Outcome.next (if_neg ?_)
    change ¬ [q].any (fun q => decide (16 ≤ smGet 0 (linkOf ((s.updLink n (fun l => { l with
      nakCounts := smUpd 0 (65536 + q.toNat) (· + 1) l.nakCounts })).linkRecord n (.nak [q])) n).nakCounts (65536 + q.toNat))) = true
    rw [List.any_cons, List.any_nil, hnamed.link, hrec, hcount, Bool.or_false, decide_eq_true_eq]
    omega
  refine ⟨_, hexec, ?_⟩
  rw [hnamed.link, hrec]
  exact ⟨hcount, rfl, hq, rfl, rfl, rfl, hnamed.only.1, hnamed.only.2⟩

/-- A code that is only counted is told to no session (Tables 3-10, 11-15). -/
theorem raise_counted {p : Place} {i : BitVec 64} {d : Nat} {e : BitVec 64} :
    s.raise 0x5001 p i d e = { s with trace := (s.raise 0x5001 p i d e).trace } := by
  obtain ⟨tr, htr⟩ := traceAt_eq s 4 (decide (2 ≤ 1)) p.site i ((0x5001 : Code).toNat + 65536 * 1)
  have hraise : s.raise 0x5001 p i d e = s.traceAt 4 (decide (2 ≤ 1)) p.site i ((0x5001 : Code).toNat + 65536 * 1) := by
    have hsev : severityOf s.step.inProgress p d 0x5001 = 1 := rfl
    unfold State.raise
    rw [hsev]
    rfl
  rw [hraise, htr]

/-- The link once a NAK has named a flit of its replay buffer (R260). -/
theorem nak_resends {q : BitVec 16} {g : Flit} (hn : n < 24) (hcarries : (linkOf s n).carries = true)
    (hg : (linkOf s n).replay.find? (fun x => x.seq == q) = some g) : exec (.nak n [q]) s = .next
      (let u := (s.updLink n (fun l => [q].foldl Link.resend { l with
          nakCounts := smUpd 0 q.toNat (· + 1) (linkOf s n).nakCounts })).raise 0x5001 (linkPlace n) noCmd
       if 16 ≤ smGet 0 (smUpd 0 q.toNat (· + 1) (linkOf s n).nakCounts) q.toNat then u.linkStop n .down else u) := by
  have hagain : [q].filter (fun q => (linkOf s n).replay.any (fun f => f.seq == q)) = [q] := by
    refine List.filter_cons_of_pos ?_
    exact List.any_eq_true.mpr ⟨g, List.mem_of_find?_eq_some hg, List.find?_some (p := fun x : Flit => x.seq == q) hg⟩
  change execNak n [q] s = _
  unfold execNak
  rw [onLink_present hn (present_of_carries hcarries)]
  dsimp only
  rw [if_neg (by rw [hcarries]; decide), hagain]
  exact congrArg Host.Outcome.next (if_congr (by rw [List.any_cons, List.any_nil, Bool.or_false, decide_eq_true_eq]; rfl) rfl rfl)

theorem find_of_any {q : BitVec 16} {fs : List Flit} (h : fs.any (fun x => x.seq == q) = true) :
    ∃ g, fs.find? (fun x => x.seq == q) = some g ∧ g ∈ fs ∧ g.seq = q := by
  obtain ⟨g, hg⟩ := Option.isSome_iff_exists.mp ((List.find?_isSome (p := fun x : Flit => x.seq == q)).mpr (List.any_eq_true.mp h))
  exact ⟨g, hg, List.mem_of_find?_eq_some hg, eq_of_beq (List.find?_some (p := fun x : Flit => x.seq == q) hg)⟩

theorem resend_eq {q : BitVec 16} {g : Flit} (nk : SMap Nat) (h : l.replay.find? (fun x => x.seq == q) = some g) :
    Link.resend { l with nakCounts := nk } q = { l with
      nakCounts := nk
      wire := g :: l.wire
      replays := BitVec.ofNat 16 (min (l.replays.toNat + 1) 65535) } := by
  unfold Link.resend
  dsimp only
  rw [h]

/-- A link on which nothing waits has no turn to take (R259). -/
theorem turn_empty (h : l.blocked = []) : l.turn = none := by
  have hready (c : Nat) : l.ready c = none := by simp [Link.ready, h]
  have hwaiting (cs : List Nat) : cs.find? (fun c => (l.ready c).isSome) = none := by simp [hready]
  unfold Link.turn
  extract_lets waits order
  rw [hwaiting, hready 0, hready 3, h]
  simp [waits, hready]

theorem flush_idle (h : l.blocked = []) : l.flush = l := by
  unfold Link.flush Link.turns
  rw [h]
  change Link.pump 4 l = l
  rw [Link.pump, turn_empty h]

/-- Grants add up entry by entry (R262). -/
theorem smGet_grants {i : Nat} : ∀ (gs : List (BitVec 16)) (k : Nat) {m : SMap Nat}, smWf 0 0 m = true →
    smGet 0 ((gs.zipIdx k).foldl (fun m (g : BitVec 16 × Nat) => smUpd 0 g.2 (· + g.1.toNat) m) m) i =
      smGet 0 m i + if k ≤ i then (gs.getD (i - k) 0).toNat else 0
  | [], k, m, _ => by simp
  | g :: gs, k, m, hw => by
    have hrest := smGet_grants (i := i) gs (k + 1) (m := smUpd 0 k (· + g.toNat) m) (smPut_wf (Nat.zero_le k) hw)
    rw [List.zipIdx_cons, List.foldl_cons]
    refine hrest.trans ?_
    by_cases hik : i = k
    · subst hik
      rw [if_neg (by omega), if_pos (le_refl i), Nat.sub_self]
      exact smGet_smPut_same hw
    · rw [show smGet 0 (smUpd 0 k (· + g.toNat) m) i = smGet 0 m i from smGet_smPut_other hik hw]
      by_cases hlt : k ≤ i
      · rw [if_pos (by omega), if_pos hlt, show i - k = (i - (k + 1)) + 1 by omega]
        rfl
      · rw [if_neg (by omega), if_neg hlt]

theorem smGet_credits {m : SMap Nat} {i : Nat} (hw : smWf 0 0 m = true) (gs : List (BitVec 16)) (hi : i < 4) :
    smGet 0 ((gs.take 4).zipIdx.foldl (fun m (g : BitVec 16 × Nat) => smUpd 0 g.2 (· + g.1.toNat) m) m) i =
      smGet 0 m i + (gs.getD i 0).toNat := by
  rw [smGet_grants _ 0 hw, if_pos (Nat.zero_le i), Nat.sub_zero, List.getD_eq_getElem?_getD, List.getElem?_take_of_lt hi,
    List.getD_eq_getElem?_getD]

/-- Settles O45. -/
theorem linkTraffic : Obligations.LinkTraffic := by
  unfold Obligations.LinkTraffic
  intro s n f hn hcan l c bytes hcarries hat hwch hwmsg hwcr hwnak inTurn
  obtain ⟨-, -, hpbs, hw, -, -⟩ := hcan
  have hhas := hasLink_of_present (present_of_carries hcarries)
  refine ⟨?_, ?_, ?_, ?_, ?_, ?_, ?_, ?_, ?_, ?_, ?_⟩
  · exact fun h hc heom => zlinkFlit_joins hn hw hcarries hat hwch hwmsg h hc heom
  · exact fun h hc heom hknown hch h6 h12 hmine => zlinkFlit_delivers hn hw hcarries hat hwmsg h hc heom hknown hch h6 h12 hmine
  · exact fun h hc heom hquiet hstream hwst => zlinkFlit_counts hn hw hpbs hcarries hat h hc heom hquiet hstream hwst
  · exact fun hfail hseen hfew => zlinkFlit_failed hn hw hcarries hat hwnak hfail hseen hfew
  · intro q hreplay hfew
    obtain ⟨g, hfind, hmem, hq⟩ := find_of_any hreplay
    have hexec := nak_resends hn hcarries hfind
    have hresent := resend_eq (q := q) (smUpd 0 q.toNat (· + 1) l.nakCounts) hfind
    have hlink := (LinkBecomes.start hw hhas).updLink (fun k => [q].foldl Link.resend { k with
      nakCounts := smUpd 0 q.toNat (· + 1) l.nakCounts })
    have hcount : smGet 0 (smUpd 0 q.toNat (· + 1) l.nakCounts) q.toNat = smGet 0 l.nakCounts q.toNat + 1 := smGet_smPut_same hwnak
    dsimp only at hexec
    rw [if_neg (by rw [hcount]; omega)] at hexec
    refine ⟨_, hexec, ?_⟩
    rw [linkOf_raise, hlink.link]
    change (∃ g ∈ l.replay, g.seq = q ∧ (Link.resend { l with nakCounts := smUpd 0 q.toNat (· + 1) l.nakCounts } q).wire =
      g :: l.wire) ∧ _
    refine ⟨⟨g, hmem, hq, by rw [hresent]⟩, ?_, ?_⟩
    · refine Eq.trans hresent ?_
      rw [show List.foldl Link.resend _ [q] = _ from hresent]
    · rw [raise_counted, hlink.only.2]
  · intro q hreplay hmany
    obtain ⟨g, hfind, -, -⟩ := find_of_any hreplay
    have hexec := nak_resends hn hcarries hfind
    have hlink := (LinkBecomes.start hw hhas).updLink (fun k => [q].foldl Link.resend { k with
      nakCounts := smUpd 0 q.toNat (· + 1) l.nakCounts })
    have hcount : smGet 0 (smUpd 0 q.toNat (· + 1) l.nakCounts) q.toNat = smGet 0 l.nakCounts q.toNat + 1 := smGet_smPut_same hwnak
    dsimp only at hexec
    rw [if_pos (by rw [hcount]; omega)] at hexec
    refine ⟨_, hexec, (linkStop_link (by simpa using hlink.wf) ?_ (.inl rfl)).1⟩
    unfold HasLink
    rw [State.raise_variant]
    exact hlink.has
  · intro grants hempty
    have hexec : exec (.credit n grants) s = .next ((s.updLink n (fun l => { l with
        credits := (grants.take 4).zipIdx.foldl (fun m (g : BitVec 16 × Nat) => smUpd 0 g.2 (· + g.1.toNat) m) l.credits })).flushLink
          n) := by
      change execCredit n grants s = _
      unfold execCredit
      rw [onLink_present hn (present_of_carries hcarries)]
      exact congrArg Host.Outcome.next (if_neg (by rw [hcarries]; decide))
    have hlink := ((LinkBecomes.start hw hhas).updLink (fun l => { l with
      credits := (grants.take 4).zipIdx.foldl (fun m (g : BitVec 16 × Nat) => smUpd 0 g.2 (· + g.1.toNat) m) l.credits })).flushLink hat
    rw [flush_idle (l := { l with
      credits := (grants.take 4).zipIdx.foldl (fun m (g : BitVec 16 × Nat) => smUpd 0 g.2 (· + g.1.toNat) m) l.credits }) hempty]
        at hlink
    refine ⟨_, hexec, ?_⟩
    rw [hlink.link]
    exact ⟨fun i hi => smGet_credits hwcr grants hi, rfl, hlink.only.2⟩
  · intro g hroom hfirst
    unfold Link.turn
    rw [if_neg (by omega), if_pos (by rw [hcarries]; rfl), hfirst]
  · intro g hroom hnone hready
    unfold Link.turn
    rw [if_neg (by omega), if_pos (by rw [hcarries]; rfl), hnone]
    dsimp only
    rw [if_neg (by rw [hcarries]; decide), hready]
  · exact fun hfull => if_pos hfull
  · exact fun g => ⟨rfl, _, rfl, rfl, rfl, rfl, rfl, rfl⟩

end LinkTraffic

/-! ### Weight frames and remote signals (O46) -/

/-- A ZW1-C in a step, whose port block 1 has every slot for a signal in use; the block's own link is ABSENT (R4). -/
def slotsInUseBesideAbsentLink : State := { State.reset with
  variant := .c
  step := { State.reset.step with phase := .fill }
  pbs := [(1, { pendingSignals := List.replicate 256 ⟨2, 0, 0, 1, 0, 0, 0⟩, streams := [(9, 1)] })] }

/-- Refutes O46: a signal that finds every slot in use at an odd port block of a ZW1-C does not bring the block's link to DOWN, for
that link is ABSENT and stays so. -/
theorem not_framesAndSignals : ¬ Obligations.FramesAndSignals := by
  unfold Obligations.FramesAndSignals
  intro h
  obtain ⟨-, -, -, -, hslots, -⟩ := h slotsInUseBesideAbsentLink 1 (by decide) (by unfold Canonical; decide +kernel)
  obtain ⟨t, hexec, -, -, hdown⟩ := hslots ⟨2, low32 slotsInUseBesideAbsentLink.currentStep, 0, 1, 0, 0, 0⟩ rfl (by decide)
    (.inl rfl)
    (by decide) (by decide +kernel) (by decide +kernel) ⟨rfl, rfl, nofun⟩
  have habsent : (stateAfter (exec (.signal 1 ⟨2, low32 slotsInUseBesideAbsentLink.currentStep, 0, 1, 0, 0, 0⟩)
      slotsInUseBesideAbsentLink)).map (fun t => (linkOf t 1).state) = some .absent := by decide +kernel
  rw [hexec] at habsent
  exact absurd ((Option.some.inj habsent).symm.trans hdown) (by decide)

/-! ### Time messages (O47, R383 to R385) -/

section TimeMessages

variable {s : State} {n : Nat}

/-- R259: a message put on a link with no switch pending leaves the rest of the module alone. -/
theorem sendOn_eq (hw : smWf {} 0 s.links = true) (hhas : HasLink s n)
    (hquiet : (linkOf s n).switchAt = none ∨ (linkOf s n).state ≠ .upSwap) (hid : s.boot.positionId ≠ 0xFFFF) (m : ZMsg) :
    ∃ ls, s.sendOn n m = { s with
      links := ls
      zOut := (n, m) :: s.zOut } := by
  have hqueued := (LinkBecomes.start hw hhas).updLink (fun l => l.queue (channelOf m.type.toNat) (zMsgBytes s.boot.positionId m))
  generalize hu : s.updLink n (fun l => l.queue (channelOf m.type.toNat) (zMsgBytes s.boot.positionId m)) = u at hqueued
  have hsent := linkOf_updLink_same (s := { u with zOut := (n, m) :: s.zOut }) hqueued.wf hqueued.has Link.flush
  have hnone : (linkOf (({ u with zOut := (n, m) :: s.zOut } : State).updLink n Link.flush) n).switchDue = none := by
    obtain ⟨_, _, _, _, _, _, _, hflush⟩ := SendsOnly.flush (linkOf { u with zOut := (n, m) :: s.zOut } n)
    have hlink : linkOf ({ u with zOut := (n, m) :: s.zOut } : State) n = _ := hqueued.link
    rw [hsent, hflush, hlink]
    rcases hquiet with hat | hst
    · simp [Link.switchDue, Link.queue, hat]
    · exact switchDue_none hst
  unfold State.sendOn
  rw [if_neg hid, hu]
  change ∃ ls, (({ u with zOut := (n, m) :: s.zOut } : State).updLink n Link.flush).trySwitch n = _
  rw [trySwitch_none hnone, hqueued.only.2]
  exact ⟨_, rfl⟩

theorem updOffset_one {x : PeerOffset} (h : s.trace.offsets = [x]) (f : PeerOffset → PeerOffset) :
    s.updOffset x.peer f = { s with trace := { s.trace with offsets := [f x] } } := by
  have hmap : s.trace.offsets.map (fun y => if y.peer = x.peer then f y else y) = [f x] := by
    rw [h]
    simp
  unfold State.updOffset State.updTrace
  dsimp only
  rw [hmap]

/-- Settles O47. -/
theorem timeMessages : Obligations.TimeMessages := by
  unfold Obligations.TimeMessages
  intro s n m hn hcan
  obtain ⟨-, -, -, hw, -, -⟩ := hcan
  obtain ⟨w, sm, hwake⟩ := wake_eq s
  have hwwake : smWf {} 0 s.wake.links = true := by rw [hwake]; exact hw
  have hlinks (k : Nat) : linkOf s.wake k = linkOf s k := linkOf_wake s k
  refine ⟨?_, ?_, ?_, ?_, ?_, ?_⟩
  · intro hcarries hat hid
    have hhas : HasLink s.wake n := hasLink_of_present (by rw [hlinks]; exact present_of_carries hcarries)
    obtain ⟨ls, hsent⟩ := sendOn_eq hwwake hhas (.inl (by rw [hlinks]; exact hat)) (by rw [hwake]; exact hid)
      ⟨m.peer, 0x41, BitVec.ofNat 8 n, timeBody { m with
        t2 := s.now
        t3 := s.now }⟩
    have hexec : exec (.timeProbe n m) s = .next (s.wake.sendOn n ⟨m.peer, 0x41, BitVec.ofNat 8 n, timeBody { m with
        t2 := s.now
        t3 := s.now }⟩) := by
      change execTimeProbe n m s = _
      unfold execTimeProbe
      rw [onLink_present hn (present_of_carries hcarries)]
      exact congrArg Host.Outcome.next (if_neg (by rw [hcarries]; decide))
    refine ⟨_, hexec, ?_⟩
    rw [hsent, hwake]
  · intro x hcarries hone hpeer hprobes now trip offset
    change execTimeReply n m s = _
    unfold execTimeReply
    rw [onLink_present hn (present_of_carries hcarries)]
    refine congrArg Host.Outcome.next ((if_neg (by rw [hcarries]; decide)).trans ?_)
    rw [← hpeer]
    refine (updOffset_one (by rw [hwake]; exact hone) _).trans ?_
    rw [hprobes, hwake]
    simp
    rfl
  · intro x k hone hfew hid hup
    have hstate : (linkOf s k).state = .up := by
      simpa using List.find?_some hup
    have hfind : s.trace.offsets.find? (fun y => y.peer == x.peer) = some x := by
      rw [hone]
      exact List.find?_cons_of_pos (by simp)
    generalize hid' : BitVec.ofNat 32 (s.wake.draw).1.toNat = id
    have hasked := updOffset_one (s := (s.wake.draw).2) (x := x) (by rw [hwake]; exact hone) (fun y => { y with
      sentIndex := y.sentIndex + 1
      probes := y.probes ++ [(id, y.sentIndex)] })
    generalize hv : ((s.wake.draw).2).updOffset x.peer (fun y => { y with
      sentIndex := y.sentIndex + 1
      probes := y.probes ++ [(id, y.sentIndex)] }) = v at hasked
    have hlinkv (k : Nat) : linkOf v k = linkOf s k := by
      rw [hasked, hwake]
      rfl
    have hhas : HasLink v k := hasLink_of_present (by rw [hlinkv, hstate]; exact nofun)
    obtain ⟨ls, hsent⟩ := sendOn_eq (s := v) (by rw [hasked]; exact hwwake) hhas (.inr (by rw [hlinkv, hstate]; exact nofun))
      (by rw [hasked, hwake]; exact hid)
      ⟨x.peer, 0x40, BitVec.ofNat 8 k, timeBody ⟨x.peer, id, BitVec.ofNat 8 x.sentIndex, s.now, 0, 0⟩⟩
    have hexec : exec (.peerOffsetExchange x.peer) s = .next (v.sendOn k ⟨x.peer, 0x40, BitVec.ofNat 8 k,
        timeBody ⟨x.peer, id, BitVec.ofNat 8 x.sentIndex, s.now, 0, 0⟩⟩) := by
      change execPeerOffsetExchange x.peer s = _
      unfold execPeerOffsetExchange
      rw [hfind]
      dsimp only
      rw [if_neg (by omega), hid', hv]
      simp only [hlinkv]
      rw [hup]
    refine ⟨_, id, hexec, ?_⟩
    rw [hsent, hasked, hwake]
    rfl
  · intro x i hone hany
    change execTimeProbeTimeout x.peer i s = _
    unfold execTimeProbeTimeout
    rw [updOffset_one hone, if_pos hany]
  · exact fun a c d hnet hruns => if_pos ⟨hnet, hruns⟩
  · intro a c d hnot
    refine if_neg fun hboth => ?_
    rcases hnot with hnet | hruns
    · exact absurd (hnet.symm.trans hboth.1) (by decide)
    · exact absurd (hruns.symm.trans hboth.2) (by decide)

end TimeMessages

/-! ### Messages that leave by the links -/

section Posts

variable {s u v : State} {n k pb : Nat} {l : Link}

/-- What decides which link carries a port block's traffic (R268). -/
def Link.routing (l : Link) : Bool × Bool × Bool × Bool := (l.carries, l.takeover, l.takenOver, l.state == .absent)

theorem linkFor_congr (h : ∀ k, Link.routing (linkOf u k) = Link.routing (linkOf s k)) : linkFor u pb = linkFor s pb := by
  have hown := h pb
  have hpartner := h (partnerOf pb)
  simp only [Link.routing, Prod.mk.injEq] at hown hpartner
  unfold linkFor
  simp only [hown, hpartner]

theorem carries_of_linkFor (h : linkFor s pb = some n) : (linkOf s n).carries = true := by
  unfold linkFor at h
  extract_lets l q at h
  split at h
  next hown =>
    obtain rfl := Option.some.inj h
    simp only [Bool.and_eq_true] at hown
    exact hown.1
  next =>
    split at h
    next hpartner =>
      obtain rfl := Option.some.inj h
      simp only [Bool.and_eq_true] at hpartner
      exact hpartner.1
    · nomatch h

theorem ne_default_of_carries (h : l.carries = true) : l ≠ {} := by
  rintro rfl
  exact absurd h (by decide)

/-- A link in service that an update leaves in service is that link afterwards, whatever the table of links holds beside it. -/
theorem linkOf_updLink_carries {f : Link → Link} (h : (linkOf s n).carries = true) (hf : (f (linkOf s n)).carries = true) :
    linkOf (s.updLink n f) n = f (linkOf s n) ∧ ∀ k, k ≠ n → linkOf (s.updLink n f) k = linkOf s k := by
  have hne := ne_default_of_carries hf
  refine ⟨?_, fun k hk => linkOf_congr rfl (smGet_smPut_ne_other hne hk s.links)⟩
  have hhas : HasLink s n := hasLink_of_present (present_of_carries h)
  exact (linkOf_eq (s := s.updLink n f) hhas).trans (smGet_smPut_ne hne s.links)

/-- Messages to peers have left between two states: the ways they take are the same, and what has been sent stays sent. -/
structure Posts (s u : State) : Prop where
  sends : Sends s u
  route : ∀ k, Link.routing (linkOf u k) = Link.routing (linkOf s k)
  kept : ∀ x ∈ s.zOut, x ∈ u.zOut
  steady : Steady s → Steady u ∧ u.trace = s.trace ∧ u.host = s.host

namespace Posts

theorem refl (s : State) : Posts s s := ⟨.refl s, fun _ => rfl, fun _ h => h, fun h => ⟨h, rfl, rfl⟩⟩

theorem trans (h : Posts s u) (g : Posts u v) : Posts s v where
  sends := h.sends.trans g.sends
  route k := (g.route k).trans (h.route k)
  kept x hx := g.kept x (h.kept x hx)
  steady hs := by
    obtain ⟨hu, htrace, hhost⟩ := h.steady hs
    obtain ⟨hv, htrace', hhost'⟩ := g.steady hu
    exact ⟨hv, htrace'.trans htrace, hhost'.trans hhost⟩

theorem foldl {α : Type} {f : State → α → State} (hf : ∀ u x, Posts u (f u x)) : ∀ (l : List α) (s : State),
    Posts s (l.foldl f s)
  | [], s => refl s
  | x :: xs, s => (hf s x).trans (foldl hf xs (f s x))

/-- What one of many messages puts among those sent stays there. -/
theorem mem_foldl {α : Type} {f : State → α → State} (hf : ∀ u x, Posts u (f u x)) {x : α} {y : Nat × ZMsg}
    {l : List α} {s : State} (hsent : ∀ u, Posts s u → y ∈ (f u x).zOut) (hx : x ∈ l) : y ∈ (l.foldl f s).zOut := by
  induction l generalizing s with
  | nil => nomatch hx
  | cons a xs ih =>
    rw [List.foldl_cons]
    obtain rfl | htail := List.mem_cons.mp hx
    · exact (foldl hf xs _).kept y (hsent s (refl s))
    · exact ih (fun u hu => hsent u ((hf s a).trans hu)) htail

theorem linkFor_eq (h : Posts s u) (pb : Nat) : linkFor u pb = linkFor s pb := linkFor_congr h.route

/-- A link in service is worked on in a way that leaves its part in routing and its switch alone. -/
theorem updLink {f : Link → Link} (hc : (linkOf s n).carries = true) (hr : Link.routing (f (linkOf s n)) = Link.routing (linkOf s n))
    (hat : (f (linkOf s n)).switchAt = (linkOf s n).switchAt) : Posts s (s.updLink n f) := by
  have hcf : (f (linkOf s n)).carries = true := (congrArg Prod.fst hr).trans hc
  obtain ⟨hlink, hother⟩ := linkOf_updLink_carries hc hcf
  refine ⟨.updLink .., fun k => ?_, fun _ h => h, fun hs => ⟨fun k => ?_, rfl, rfl⟩⟩
  · by_cases hk : k = n
    · rw [hk, hlink, hr]
    · rw [hother k hk]
  · by_cases hk : k = n
    · rw [hk, hlink, hat, hs n]
    · rw [hother k hk, hs k]

theorem trySwitch (s : State) (n : Nat) : Posts s (s.trySwitch n) := by
  cases hdue : (linkOf s n).switchDue with
  | none =>
    rw [trySwitch_none hdue]
    exact refl s
  | some r =>
    have hst : (linkOf s n).state = .upSwap := by
      by_contra hne
      exact nomatch (switchDue_none hne).symm.trans hdue
    have hat : (linkOf s n).switchAt ≠ none := by
      intro hnone
      rw [Link.switchDue, hnone] at hdue
      nomatch hdue
    have hroute (k : Nat) : Link.routing (linkOf (s.trySwitch n) k) = Link.routing (linkOf s k) := by
      unfold State.trySwitch
      rw [hdue]
      dsimp only
      rw [linkOf_raise]
      obtain ⟨hlink, hother⟩ := linkOf_updLink_carries (s := s) (n := n) (f := fun l => { l with
        state := .up
        lanes := l.swapped r
        lost := 0
        retiring := none
        switchAt := none }) (by simp [Link.carries, hst]) rfl
      by_cases hk : k = n
      · rw [hk, hlink]
        simp [Link.routing, Link.carries, hst]
      · rw [hother k hk]
    refine ⟨.trySwitch .., hroute, fun x hx => ?_, fun hs => absurd (hs n) hat⟩
    unfold State.trySwitch
    rw [hdue]
    exact (State.raise_zOut ..).symm ▸ hx

theorem flushLink (hc : (linkOf s n).carries = true) : Posts s (s.flushLink n) := by
  obtain ⟨_, _, _, _, _, _, _, hflush⟩ := SendsOnly.flush (linkOf s n)
  exact (updLink (f := Link.flush) hc (by rw [hflush]; rfl) (by rw [hflush])).trans (trySwitch ..)

theorem zOut (s : State) (x : Nat × ZMsg) : Posts s { s with zOut := x :: s.zOut } :=
  ⟨⟨_, _, _, _, _, rfl, rfl, id⟩, fun _ => rfl, fun _ h => List.mem_cons_of_mem _ h, fun h => ⟨h, rfl, rfl⟩⟩

theorem zSend (s : State) (pb : Nat) (m : ZMsg) : Posts s (s.zSend pb m) := by
  unfold State.zSend
  split
  · exact refl s
  · cases hlink : linkFor s pb with
    | none => exact refl s
    | some n =>
      have hc := carries_of_linkFor hlink
      have hqueued : Posts s (s.updLink n (fun l => l.queue (channelOf m.type.toNat) (zMsgBytes s.boot.positionId m))) :=
        updLink hc rfl rfl
      have hout := hqueued.trans (zOut _ (n, m))
      exact hout.trans (flushLink ((congrArg Prod.fst (hout.route n)).trans hc))

theorem updPb (s : State) (n : Nat) (f : PbState → PbState) : Posts s (s.updPb n f) :=
  ⟨.updPb .., fun _ => rfl, fun _ h => h, fun h => ⟨h, rfl, rfl⟩⟩

theorem sendBulk (s : State) (pb : Nat) (dest : BitVec 16) (destPb : Nat) (body : Bytes) :
    Posts s (s.sendBulk pb dest destPb body) := by
  unfold State.sendBulk State.zSendCounted
  exact (zSend ..).trans (updPb ..)

end Posts

/-- A message that a link carries is among those sent (R264). -/
theorem sendBulk_mem (hid : s.boot.positionId ≠ 0xFFFF) (hlink : linkFor s pb = some n) (dest : BitVec 16)
    (destPb : Nat) (body : Bytes) :
    (n, ⟨dest, 0x20, BitVec.ofNat 8 destPb, body⟩) ∈ (s.sendBulk pb dest destPb body).zOut := by
  obtain ⟨l, tr, ho, h⟩ := zSend_eq (m := ⟨dest, 0x20, BitVec.ofNat 8 destPb, body⟩) hid hlink
  unfold State.sendBulk State.zSendCounted
  rw [h]
  exact List.mem_cons_self

/-- The same on the way of other messages. -/
theorem Posts.sendBulk_mem (h : Posts s u) (hid : s.boot.positionId ≠ 0xFFFF) (hlink : linkFor s pb = some n) (dest : BitVec 16)
    (destPb : Nat) (body : Bytes) : (n, ⟨dest, 0x20, BitVec.ofNat 8 destPb, body⟩) ∈ (u.sendBulk pb dest destPb body).zOut := by
  obtain ⟨_, _, _, _, _, hu, -⟩ := h.sends
  exact Laws.sendBulk_mem (by rw [hu]; exact hid) ((h.linkFor_eq pb).trans hlink) ..

end Posts

/-! ### The parity group (O48, R363, R371 to R373) -/

section ParityGroup

variable {s u v : State} {c : ParityCfg}

/-- A join is judged: 0x3204 where it does not agree, 0x3205 where its feed is this module's (R371). -/
theorem judgeJoin_frame (s : State) (c : ParityCfg) (m : JoinMsg) : ∃ b tr ho, s.judgeJoin c m = { s with
    survival := { s.survival with correlated := b }
    trace := tr
    host := ho } ∧
    (m.feedId ≠ s.feedId → b = s.survival.correlated ∧ (joinAgrees s c m = true → tr = s.trace ∧ ho = s.host)) ∧
    (m.feedId = s.feedId → m.feedId ≠ 0xFFFF → b = true) := by
  have htold (v : State) (c' : Code) (hc' : severityOf v.step.inProgress moduleWide m.sender.toNat c' = 1) (h9 : c' ≠ 0x4009)
      (hA : c' ≠ 0x400A) : ∃ tr ho, v.raise c' moduleWide noCmd m.sender.toNat = { v with
      trace := tr
      host := ho } := ⟨_, _, raise_frame hc' (by decide) h9 hA⟩
  have hfirst : ∃ tr ho, (if joinAgrees s c m then s else s.raise 0x3204 moduleWide noCmd m.sender.toNat) = { s with
      trace := tr
      host := ho } ∧ (joinAgrees s c m = true → tr = s.trace ∧ ho = s.host) := by
    split
    next hagree => exact ⟨_, _, rfl, fun _ => ⟨rfl, rfl⟩⟩
    next hdiffers =>
      obtain ⟨tr, ho, h⟩ := htold s 0x3204 rfl (by decide) (by decide)
      exact ⟨tr, ho, h, fun hagree => absurd hagree hdiffers⟩
  obtain ⟨tr, ho, hjudged, hsilent⟩ := hfirst
  unfold State.judgeJoin
  dsimp only
  rw [hjudged]
  split
  next hsame =>
    obtain ⟨tr', ho', h⟩ := htold (({ s with
      trace := tr
      host := ho } : State).updSurvival (fun v => { v with correlated := true })) 0x3205 rfl (by decide) (by decide)
    rw [h]
    exact ⟨true, tr', ho', rfl, fun hne => absurd hsame.1 hne, fun _ _ => rfl⟩
  next hother =>
    exact ⟨s.survival.correlated, tr, ho, rfl, fun _ => ⟨rfl, hsilent⟩, fun h h' => absurd ⟨h, h'⟩ hother⟩

/-- The state in which a join that has come is held (R371). -/
def joined (s : State) (m : JoinMsg) : State :=
  s.wake.updSurvival (fun v => { v with joins := v.joins.filter (fun x => x.sender ≠ m.sender) ++ [m] })

theorem parityJoin_eq (hc : s.survival.config = some c) (m : JoinMsg) :
    exec (.parityJoin m) s = .next (((joined s m).judgeJoin c m).formGroup c) := by
  change execParityJoin m s = _
  unfold execParityJoin
  rw [hc]
  rfl

/-- What is sent changes neither the survival data nor the slices. -/
theorem Sends.slices (h : Sends s u) : u.survival = s.survival ∧ u.boot = s.boot ∧ (∀ t, u.slicePages t = s.slicePages t) ∧
    ∀ t p, u.sealedBytes t p = s.sealedBytes t p := by
  obtain ⟨_, _, _, _, _, rfl, -⟩ := h
  exact ⟨rfl, rfl, fun _ => rfl, fun _ _ => rfl⟩

/-- R363: a generation that every member holds is ready. -/
theorem checkRefresh_eq {st : BitVec 32} (hc : s.survival.config = some c) (hst : s.survival.refresh = some st) : s.checkRefresh =
    if (List.range c.size.toNat).all (fun i => s.survival.doneBy.contains i) then
      s.updSurvival (fun v => { v with
        readyStep := st
        refresh := none })
    else s := by
  unfold State.checkRefresh
  rw [hc, hst]

/-- What this module's own PARITY_DONE changes of the refresh: never the units, nor the pages they are added into. -/
theorem checkOwnParity_eq (s : State) : ∃ d r f, ∃ u, Sends s u ∧ s.checkOwnParity = { u with
    survival := { s.survival with
      doneBy := d
      readyStep := r
      refresh := f } } := by
  have hsame : ∃ d r f, ∃ u, Sends s u ∧ s = { u with
      survival := { s.survival with
        doneBy := d
        readyStep := r
        refresh := f } } :=
    ⟨s.survival.doneBy, s.survival.readyStep, s.survival.refresh, s, .refl s, rfl⟩
  unfold State.checkOwnParity
  split
  next c st hc hst =>
    split
    · have hsent : Sends s (s.sendGroup 4 st []) := by
        unfold State.sendGroup
        exact .foldl (fun _ _ => .sendBulk ..) _ s
      obtain ⟨hsurvival, -, -, -⟩ := hsent.slices
      rw [checkRefresh_eq (c := c) (st := st) (by rw [← hc, ← hsurvival]; rfl) (by rw [← hst, ← hsurvival]; rfl)]
      unfold State.updSurvival
      rw [hsurvival]
      split
      · exact ⟨_, _, _, _, hsent, rfl⟩
      · exact ⟨_, _, _, _, hsent, rfl⟩
    · exact hsame
  · exact hsame

/-- A unit is added into a page that covers it, once (R372, R373). -/
def addUnit (s : State) (m : UnitMsg) (k : Nat × Bool) : State :=
  let key := pageKey m.tile.toNat k.1
  if s.survival.units.contains (key, m.sender.toNat, m.address.toNat) then s
  else s.updSurvival (fun v => { v with
    units := v.units ++ [(key, m.sender.toNat, m.address.toNat)]
    inactive := smUpd (zeros pageBytes) key (fun b => xorBytes b (if k.2 then qTerm m.sender.toNat m.payload else m.payload))
      v.inactive })

theorem parityUnit_eq {m : UnitMsg} {k : Nat × Bool} (hc : s.survival.config = some c) (hresv : m.resv = false)
    (hcrc : crc32c m.payload = m.crc) (hst : s.survival.refresh = some m.stepLow) (hrole : m.role = 0)
    (hmember : m.sender.toNat < c.size.toNat)
    (hone : covering c.code.toNat c.size.toNat c.selfIndex.toNat m.sender.toNat m.address.toNat = [k]) :
    exec (.parityUnit m) s = .next ((addUnit s.wake m k).checkOwnParity) := by
  change execParityUnit m s = _
  unfold execParityUnit
  rw [hc]
  dsimp only
  rw [if_neg ?_, if_neg (not_not.mpr hcrc), hone]
  · rfl
  · rintro (h | h | h | h)
    · exact absurd (hresv.symm.trans h) (by decide)
    · exact h hst
    · exact h hrole
    · omega

/-- R373: a member that is ready gets every unit of the slices that its pages cover. -/
theorem sendUnits_posts (s : State) (h : Nat) (st : BitVec 32) : Posts s (s.sendUnits h st) := by
  unfold State.sendUnits
  split
  · exact .refl s
  · refine Posts.foldl (fun v t => Posts.foldl (fun v p => ?_) _ v) _ s
    split
    · exact .refl v
    · exact .sendBulk ..

/-- R373: every unit of the slices that the member's pages cover goes out. -/
theorem sendUnits_mem {h st n t p : _} (hc : s.survival.config = some c) (hid : s.boot.positionId ≠ 0xFFFF) (ht : t ∈ s.sliceTiles)
    (hp : p < s.slicePages t) (hcovers : covering c.code.toNat c.size.toNat h c.selfIndex.toNat p ≠ [])
    (hlink : linkFor s (colOf t / 2) = some n) :
    (n, ⟨c.members.getD h 0xFFFF, 0x20, BitVec.ofNat 8 (colOf t / 2),
      bulkBody 2 0 t st p c.selfIndex.toNat (s.sealedBytes t p)⟩) ∈ (s.sendUnits h st).zOut := by
  have hinner (v : State) (t p : Nat) : Posts v (if covering c.code.toNat c.size.toNat h c.selfIndex.toNat p = [] then v
      else v.sendBulk (colOf t / 2) (c.members.getD h 0xFFFF) (colOf t / 2)
        (bulkBody 2 0 t st p c.selfIndex.toNat (v.sealedBytes t p))) := by
    split
    · exact .refl v
    · exact .sendBulk ..
  unfold State.sendUnits
  rw [hc]
  refine Posts.mem_foldl (fun v t => Posts.foldl (fun v p => hinner v t p) _ v) (fun u hu => ?_) ht
  refine Posts.mem_foldl (x := p) (fun v p => hinner v t p) (fun v hv => ?_) (List.mem_range.mpr ?_)
  · obtain ⟨-, -, -, hsealed⟩ := (hu.trans hv).sends.slices
    rw [if_neg hcovers, hsealed]
    exact (hu.trans hv).sendBulk_mem hid hlink ..
  · obtain ⟨-, -, hslices, -⟩ := hu.sends.slices
    rw [hslices]
    exact hp

end ParityGroup

section ParityGroup

variable {s u v : State} {c : ParityCfg}

theorem addUnit_held {m : UnitMsg} {k : Nat × Bool}
    (h : s.survival.units.contains (pageKey m.tile.toNat k.1, m.sender.toNat, m.address.toNat) = true) : addUnit s m k = s := if_pos h

theorem addUnit_new {m : UnitMsg} {k : Nat × Bool}
    (h : s.survival.units.contains (pageKey m.tile.toNat k.1, m.sender.toNat, m.address.toNat) = false) : addUnit s m k =
      s.updSurvival (fun v => { v with
        units := v.units ++ [(pageKey m.tile.toNat k.1, m.sender.toNat, m.address.toNat)]
        inactive := smUpd (zeros pageBytes) (pageKey m.tile.toNat k.1)
          (fun b => xorBytes b (if k.2 then qTerm m.sender.toNat m.payload else m.payload)) v.inactive }) :=
  if_neg (by rw [h]; decide)

/-- R372: a join of another feed is held, and the group forms where every join agrees. -/
theorem parityJoin_other (hc : s.survival.config = some c) {m : JoinMsg} (hfeed : m.feedId ≠ s.feedId) :
    ∃ t, exec (.parityJoin m) s = .next t ∧ t = { s.wake with
      survival := { s.survival with
        joins := s.survival.joins.filter (fun x => x.sender ≠ m.sender) ++ [m]
        formed := s.peersInGroup.all (fun x => (s.survival.joins.filter (fun x => x.sender ≠ m.sender) ++ [m]).any
          (fun j => j.sender.toNat == x.1 && joinAgrees s c j)) }
      trace := t.trace
      host := t.host } ∧ (joinAgrees s c m = true → t.host = s.host ∧ t.trace = s.trace) := by
  obtain ⟨w, sm, hwake⟩ := wake_eq s
  have hjoined : joined s m = { s.wake with survival := { s.survival with
      joins := s.survival.joins.filter (fun x => x.sender ≠ m.sender) ++ [m] } } := by
    unfold joined
    rw [hwake]
    rfl
  obtain ⟨b, tr, ho, hjudged, hother, -⟩ := judgeJoin_frame (joined s m) c m
  have hfeed' : (joined s m).feedId = s.feedId := by
    rw [hjoined, hwake]
    rfl
  have hagrees (j : JoinMsg) : joinAgrees (joined s m) c j = joinAgrees s c j := by
    rw [hjoined, hwake]
    rfl
  obtain ⟨hb, hsilent⟩ := hother (hfeed' ▸ hfeed)
  have hexec := parityJoin_eq hc m
  refine ⟨_, hexec, ?_, fun hagree => ?_⟩
  · unfold State.formGroup State.updSurvival
    rw [hjudged, hb, hjoined, hwake]
    rfl
  · obtain ⟨htr, hho⟩ := hsilent ((hagrees m).trans hagree)
    rw [hjudged, htr, hho, hjoined, hwake]
    exact ⟨rfl, rfl⟩

/-- The state in which a member is ready for its units (R373). -/
def readied (s : State) (sender : Nat) (st : BitVec 32) : State := s.wake.updSurvival (fun v => { v with
  ready := if v.ready.contains (sender, st) then v.ready else v.ready ++ [(sender, st)] })

theorem readied_new {sender : Nat} {st : BitVec 32} (h : (sender, st) ∉ s.survival.ready) : readied s sender st = { s.wake with
    survival := { s.survival with ready := s.survival.ready ++ [(sender, st)] } } := by
  obtain ⟨w, sm, hwake⟩ := wake_eq s
  have hnew : ¬ s.survival.ready.contains (sender, st) = true := by simpa using h
  unfold readied State.updSurvival
  rw [hwake]
  dsimp only
  rw [if_neg hnew]

theorem readied_mem (s : State) (sender : Nat) (st : BitVec 32) : (sender, st) ∈ (readied s sender st).survival.ready := by
  change (sender, st) ∈ (if s.wake.survival.ready.contains (sender, st) then s.wake.survival.ready
    else s.wake.survival.ready ++ [(sender, st)])
  split
  next h => simpa using h
  · exact List.mem_append_right _ List.mem_cons_self

/-- Settles O48. -/
theorem parityGroup : Obligations.ParityGroup := by
  unfold Obligations.ParityGroup
  intro s c hc
  obtain ⟨w, sm, hwake⟩ := wake_eq s
  refine ⟨?_, ?_, ?_, ?_, ?_, ?_, ?_, ?_, ?_⟩
  · exact fun m hfeed => parityJoin_other hc hfeed
  · intro m hfeed hgood
    obtain ⟨b, tr, ho, hjudged, -, hsame⟩ := judgeJoin_frame (joined s m) c m
    have hb := hsame (by unfold joined; rw [hwake]; exact hfeed) hgood
    refine ⟨_, parityJoin_eq hc m, ?_, ?_, ?_⟩
    · rw [hjudged]
      exact hb
    · rw [hjudged]
      unfold joined
      rw [hwake]
      rfl
    · rw [hjudged]
      unfold joined
      rw [hwake]
      rfl
  · intro m k hresv hcrc hst hrole hmember hone hwf key held
    obtain ⟨d, r, f, u, hsent, hown⟩ := checkOwnParity_eq (addUnit s.wake m k)
    have hheld : s.wake.survival.units.contains (key, m.sender.toNat, m.address.toNat) = held := by rw [hwake]
    refine ⟨_, parityUnit_eq hc hresv hcrc hst hrole hmember hone, ?_⟩
    obtain ⟨_, _, _, _, _, rfl, -⟩ := hsent
    rw [hown]
    cases hcase : held with
    | true =>
      rw [addUnit_held (hheld.trans hcase), hwake]
      exact ⟨rfl, rfl, rfl, rfl, fun _ => ⟨rfl, rfl⟩, nofun⟩
    | false =>
      rw [addUnit_new (hheld.trans hcase), hwake]
      exact ⟨rfl, rfl, rfl, rfl, nofun, fun _ => ⟨rfl, smGet_smPut_same hwf, fun q hq => smGet_smPut_other hq hwf⟩⟩
  · intro m hskip
    change execParityUnit m s = _
    unfold execParityUnit
    rw [hc]
    exact if_pos (hskip.imp_right .inl)
  · intro m n hresv hcrc hst hrole hmember hid hlink
    obtain ⟨l, tr, ho, hsent⟩ := zSend_eq (s := s.wake) (m := ⟨c.members.getD m.sender.toNat 0xFFFF, 0x20, 0,
      bulkBody 3 0 0xFFFF m.stepLow 0 s.selfMember []⟩) (by rw [hwake]; exact hid) (pb := 0) (n := n) (by rw [hwake]; exact hlink)
    have hexec : exec (.parityUnit m) s = .next (s.wake.sendBulk 0 (c.members.getD m.sender.toNat 0xFFFF) 0
        (bulkBody 3 0 0xFFFF m.stepLow 0 s.selfMember [])) := by
      change execParityUnit m s = _
      unfold execParityUnit
      rw [hc]
      refine (if_neg ?_).trans (if_pos hcrc)
      rintro (h | h | h | h)
      · exact absurd (hresv.symm.trans h) (by decide)
      · exact h hst
      · exact h hrole
      · omega
    refine ⟨_, hexec, ?_⟩
    unfold State.sendBulk State.zSendCounted
    rw [show (BitVec.ofNat 8 0) = 0 from rfl, hsent, hwake]
    exact ⟨rfl, rfl, rfl, rfl, rfl⟩
  · intro sender st hst hnew
    change execParityDone sender st s = _
    unfold execParityDone
    rw [if_pos hst, if_neg (by simpa using hnew)]
    refine congrArg Host.Outcome.next ((checkRefresh_eq (s := s.updSurvival (fun v => { v with
      doneBy := v.doneBy ++ [sender.toNat] })) (c := c) (st := st) hc hst).trans ?_)
    change (if (List.range c.size.toNat).all (fun i => (s.survival.doneBy ++ [sender.toNat]).contains i) = true then _ else _) = _
    by_cases hall : (List.range c.size.toNat).all (fun i => (s.survival.doneBy ++ [sender.toNat]).contains i) = true
    · rw [if_pos hall, if_pos hall, if_pos hall]
      rfl
    · rw [if_neg hall, if_neg hall, if_neg hall, ← hst]
      rfl
  · intro sender st hst hready hnew
    change execParityDone sender st s = _
    unfold execParityDone
    rw [if_neg hst, if_neg (by simpa [hready] using hnew)]
    rfl
  · intro sender st hnew hst hready
    have hready' : exec (.parityReady sender st) s = .next (readied s sender.toNat st) := by
      change execParityReady sender st s = _
      exact congrArg Host.Outcome.next (if_neg (not_or.mpr ⟨hst, hready⟩))
    rw [hready', readied_new hnew, hwake]
  · intro sender st hst hid
    have hexec : exec (.parityReady sender st) s = .next ((readied s sender.toNat st).sendUnits sender.toNat st) := by
      change execParityReady sender st s = _
      exact congrArg Host.Outcome.next (if_pos (.inl hst))
    have hframe : readied s sender.toNat st = { s with
        power := w
        seam := sm
        survival := (readied s sender.toNat st).survival } := by
      unfold readied
      rw [hwake]
      rfl
    have hmem := readied_mem s sender.toNat st
    have hconfig : (readied s sender.toNat st).survival.config = some c := by
      unfold readied
      rw [hwake]
      exact hc
    generalize readied s sender.toNat st = v at *
    obtain ⟨l, z, p, tr, ho, hsent, -⟩ := (sendUnits_posts v sender.toNat st).sends
    refine ⟨_, hexec, ?_, ?_, ?_, ?_, fun u hu p hp hcovers n hlink => ?_⟩
    · rw [hsent]
      exact hmem
    · rw [hsent, hframe]
    · rw [hsent, hframe]
    · rw [hsent, hframe]
    · have hsent := sendUnits_mem (h := sender.toNat) (st := st) (n := n) (t := u) (p := p) hconfig (by rw [hframe]; exact hid)
        (by rw [hframe]; exact hu) (by rw [hframe]; exact hp) hcovers (by rw [hframe]; exact hlink)
      rw [show v.sealedBytes u p = s.sealedBytes u p by rw [hframe]; rfl] at hsent
      exact hsent

end ParityGroup

end Sys2Proof.Laws
end

section
/-! Rebuilds and restores, and the rows of the vector unit (O49 to O51). -/

namespace Sys2Proof.Laws

open Sys2Proof.Machine Sys2Proof.Safety

/-! ### Rebuilds and restores (O49, R376 to R378, R382) -/

section Rebuilds

variable {s u v : State} {c : ParityCfg}

theorem steady_wake (h : Steady s) : Steady s.wake := fun n => by
  rw [linkOf_wake]
  exact h n

/-- Messages that leave a module on which no switch pends change the links, the port blocks and what has been sent. -/
theorem Posts.frame (h : Posts s u) (hs : Steady s) : u = { s with
    links := u.links
    pbs := u.pbs
    zOut := u.zOut } := by
  obtain ⟨-, htrace, hhost⟩ := h.steady hs
  obtain ⟨_, _, _, _, _, rfl, -⟩ := h.sends
  dsimp only at htrace hhost
  rw [htrace, hhost]

/-- A unit of this module's, or its parity page, goes to the member that asks (R376). -/
def sendPart (c : ParityCfg) (s : State) (sender t : Nat) (st : BitVec 32) (role idx : Nat) (b : Bytes) : State :=
  s.sendBulk (colOf t / 2) (c.members.getD sender 0xFFFF) (colOf t / 2) (bulkBody 7 role t st idx c.selfIndex.toNat b)

/-- The units of a stripe that this module holds, sent one after another. -/
def sendStripe (c : ParityCfg) (page : Nat → Option Nat) (l sender t : Nat) (st : BitVec 32) (stripe : Nat × Nat) (v : State) :
    State :=
  (stripeUnits c.code.toNat c.size.toNat stripe).foldl (fun v x =>
    match (if x.1 = c.selfIndex.toNat ∧ x.2 < l then page x.2 else none) with
    | some p => if v.pages.lost.contains (pageKey t p) then v else sendPart c v sender t st 0 x.2 (v.physPage t p)
    | none => v) v

/-- The parity page of a stripe where this module holds it. -/
def sendParity (c : ParityCfg) (set : SMap Bytes) (sender t : Nat) (st : BitVec 32) (v : State) (place : Nat × Nat) (role : Nat) : State :=
  if place.1 = c.selfIndex.toNat then
    match set.find? (fun x => x.1 == pageKey t place.2) with
    | some x => sendPart c v sender t st role place.2 x.2
    | none => v
  else v

/-- What is sent changes neither the pages nor their bytes. -/
theorem Sends.loam (h : Sends s u) : u.pages = s.pages ∧ ∀ t p, u.physPage t p = s.physPage t p := by
  obtain ⟨_, _, _, _, _, rfl, -⟩ := h
  exact ⟨rfl, fun _ _ => rfl⟩

theorem sendStripe_posts (page : Nat → Option Nat) (l sender t : Nat) (st : BitVec 32) (stripe : Nat × Nat) (v : State) :
    Posts v (sendStripe c page l sender t st stripe v) := by
  refine .foldl (fun v x => ?_) _ v
  split
  · split
    · exact .refl v
    · exact .sendBulk ..
  · exact .refl v

theorem sendParity_posts (set : SMap Bytes) (sender t : Nat) (st : BitVec 32) (v : State) (place : Nat × Nat) (role : Nat) :
    Posts v (sendParity c set sender t st v place role) := by
  unfold sendParity
  split
  · split
    · exact .sendBulk ..
    · exact .refl v
  · exact .refl v

/-- R376: a request for a page of the parity generation is answered with the units and the parity pages of its stripe. -/
theorem rebuildRequest_eq {sender : BitVec 8} {tile : BitVec 16} {page : BitVec 64} (hc : s.survival.config = some c)
    (hgen : s.survival.parityStep ≠ 0xFFFFFFFF) (htile : tile.toNat < 2352) (hsender : sender.toNat < c.size.toNat)
    (hpage : page.toNat < s.slicePages tile.toNat) : exec (.rebuildRequest sender tile s.survival.parityStep page) s = .next
      (let t := tile.toNat
       let st := stripeOf c.code.toNat c.size.toNat sender.toNat page.toNat
       let s1 := sendStripe c (s.basePage t) (s.slicePages t) sender.toNat t s.survival.parityStep st s.wake
       let s2 := sendParity c s.survival.activeSet sender.toNat t s.survival.parityStep s1 (pPlace c.code.toNat st) 1
       if c.code.toNat = 0 then s2
       else sendParity c s.survival.activeSet sender.toNat t s.survival.parityStep s2 (qPlace c.size.toNat st) 2) := by
  change execRebuildRequest sender tile s.survival.parityStep page s = _
  unfold execRebuildRequest
  rw [hc]
  dsimp only
  rw [if_neg ?_, if_pos hpage, if_pos rfl]
  · simp only [↓reduceIte]
    rfl
  · rintro (h | h | h | h)
    · exact h (.inr rfl)
    · exact hgen h
    · have : logicalTiles = 2352 := rfl
      omega
    · omega

/-- What a unit of the base holds, where its page is not lost, goes out. -/
theorem sendStripe_mem {page : Nat → Option Nat} {l sender t q p n : Nat} {st : BitVec 32} {stripe : Nat × Nat} (hv : Posts s.wake v)
    (hid : s.boot.positionId ≠ 0xFFFF) (hlink : linkFor s (colOf t / 2) = some n)
    (hunit : (c.selfIndex.toNat, q) ∈ stripeUnits c.code.toNat c.size.toNat stripe) (hq : q < l) (hp : page q = some p)
    (hlost : pageKey t p ∉ s.pages.lost) : (n, ⟨c.members.getD sender 0xFFFF, 0x20, BitVec.ofNat 8 (colOf t / 2),
      bulkBody 7 0 t st q c.selfIndex.toNat (s.physPage t p)⟩) ∈ (sendStripe c page l sender t st stripe v).zOut := by
  obtain ⟨w, sm, hwake⟩ := wake_eq s
  unfold sendStripe
  refine Posts.mem_foldl (x := (c.selfIndex.toNat, q)) (fun v x => ?_) (fun u hu => ?_) hunit
  · split
    · split
      · exact .refl v
      · exact .sendBulk ..
    · exact .refl v
  · obtain ⟨hpages, hphys⟩ := (hv.trans hu).sends.loam
    dsimp only
    rw [if_pos ⟨rfl, hq⟩, hp]
    dsimp only
    rw [if_neg (by rw [hpages, hwake]; simpa using hlost), hphys, hwake]
    exact (hv.trans hu).sendBulk_mem (by rw [hwake]; exact hid) (by rw [hwake]; exact hlink) ..

/-- The parity page of a stripe goes out where this module holds it. -/
theorem sendParity_mem {set : SMap Bytes} {sender t role k n : Nat} {st : BitVec 32} {b : Bytes} (hv : Posts s.wake v)
    (hid : s.boot.positionId ≠ 0xFFFF) (hlink : linkFor s (colOf t / 2) = some n) {place : Nat × Nat}
    (hplace : place.1 = c.selfIndex.toNat) (hset : set.find? (fun x => x.1 == pageKey t place.2) = some (k, b)) :
    (n, ⟨c.members.getD sender 0xFFFF, 0x20, BitVec.ofNat 8 (colOf t / 2),
      bulkBody 7 role t st place.2 c.selfIndex.toNat b⟩) ∈ (sendParity c set sender t st v place role).zOut := by
  obtain ⟨w, sm, hwake⟩ := wake_eq s
  unfold sendParity
  rw [if_pos hplace, hset]
  exact hv.sendBulk_mem (by rw [hwake]; exact hid) (by rw [hwake]; exact hlink) ..

end Rebuilds

section Rebuilds

variable {s u v : State} {c : ParityCfg} {m : UnitMsg} {k page : Nat}

/-- R376: the request for this module's page is answered over the links, and its units and parity page are among what has been sent. -/
theorem rebuildRequest_sends {sender : BitVec 8} {tile : BitVec 16} {page : BitVec 64} (hc : s.survival.config = some c)
    (hgen : s.survival.parityStep ≠ 0xFFFFFFFF) (htile : tile.toNat < 2352) (hsender : sender.toNat < c.size.toNat)
    (hpage : page.toNat < s.slicePages tile.toNat) (hid : s.boot.positionId ≠ 0xFFFF) (hs : Steady s) :
    ∃ t, exec (.rebuildRequest sender tile s.survival.parityStep page) s = .next t ∧ t = { s.wake with
        links := t.links
        pbs := t.pbs
        zOut := t.zOut } ∧
      ∀ n, linkFor s (colOf tile.toNat / 2) = some n →
        (∀ q, (c.selfIndex.toNat, q) ∈ stripeUnits c.code.toNat c.size.toNat
            (stripeOf c.code.toNat c.size.toNat sender.toNat page.toNat) → q < s.slicePages tile.toNat →
          (∀ p, s.basePage tile.toNat q = some p → pageKey tile.toNat p ∉ s.pages.lost) → s.basePage tile.toNat q ≠ none →
          (n, ⟨c.members.getD sender.toNat 0xFFFF, 0x20, BitVec.ofNat 8 (colOf tile.toNat / 2),
            bulkBody 7 0 tile.toNat s.survival.parityStep q c.selfIndex.toNat (s.baseBytes tile.toNat q)⟩) ∈ t.zOut) ∧
        (∀ b, (pPlace c.code.toNat (stripeOf c.code.toNat c.size.toNat sender.toNat page.toNat)).1 = c.selfIndex.toNat →
          s.survival.activeSet.find? (fun x => x.1 == pageKey tile.toNat
              (pPlace c.code.toNat (stripeOf c.code.toNat c.size.toNat sender.toNat page.toNat)).2) =
            some (pageKey tile.toNat (pPlace c.code.toNat (stripeOf c.code.toNat c.size.toNat sender.toNat page.toNat)).2, b) →
          (n, ⟨c.members.getD sender.toNat 0xFFFF, 0x20, BitVec.ofNat 8 (colOf tile.toNat / 2),
            bulkBody 7 1 tile.toNat s.survival.parityStep
              (pPlace c.code.toNat (stripeOf c.code.toNat c.size.toNat sender.toNat page.toNat)).2 c.selfIndex.toNat b⟩) ∈ t.zOut) := by
  have hexec := rebuildRequest_eq hc hgen htile hsender hpage
  dsimp only at hexec
  generalize stripeOf c.code.toNat c.size.toNat sender.toNat page.toNat = st at hexec ⊢
  have hunits := sendStripe_posts (c := c) (s.basePage tile.toNat) (s.slicePages tile.toNat) sender.toNat tile.toNat s.survival.parityStep
    st s.wake
  have hparity := sendParity_posts (c := c) s.survival.activeSet sender.toNat tile.toNat s.survival.parityStep
    (sendStripe c (s.basePage tile.toNat) (s.slicePages tile.toNat) sender.toNat tile.toNat s.survival.parityStep st s.wake)
    (pPlace c.code.toNat st) 1
  have hrest (v : State) : Posts v (if c.code.toNat = 0 then v
      else sendParity c s.survival.activeSet sender.toNat tile.toNat s.survival.parityStep v (qPlace c.size.toNat st) 2) := by
    split
    · exact .refl v
    · exact sendParity_posts ..
  refine ⟨_, hexec, ((hunits.trans hparity).trans (hrest _)).frame (steady_wake hs), fun n hlink => ⟨?_, ?_⟩⟩
  · intro q hunit hq hkept hheld
    obtain ⟨p, hp⟩ := Option.ne_none_iff_exists'.mp hheld
    have hbytes : s.baseBytes tile.toNat q = s.physPage tile.toNat p := by
      unfold State.baseBytes
      rw [hp]
      rfl
    rw [hbytes]
    exact (hparity.trans (hrest _)).kept _ (sendStripe_mem (.refl _) hid hlink hunit hq hp (hkept p hp))
  · intro b hplace hset
    exact (hrest _).kept _ (sendParity_mem hunits hid hlink hplace hset)

/-- Whether a unit or a parity page belongs to the stripe of the page with index `i` (R376). -/
def fitsPage (s : State) (c : ParityCfg) (m : UnitMsg) (i : Nat) : Bool :=
  let st := if i < s.slicePages m.tile.toNat then stripeOf c.code.toNat c.size.toNat c.selfIndex.toNat i
    else (parityContent c.code.toNat c.size.toNat c.selfIndex.toNat (i - s.slicePages m.tile.toNat)).1
  match m.role.toNat with
  | 0 => (stripeUnits c.code.toNat c.size.toNat st).contains (m.sender.toNat, m.address.toNat)
  | 1 => pPlace c.code.toNat st == (m.sender.toNat, m.address.toNat)
  | 2 => c.code.toNat != 0 && qPlace c.size.toNat st == (m.sender.toNat, m.address.toNat)
  | _ => false

/-- The wanted pages that a unit counts for. -/
def unitKeys (s : State) (c : ParityCfg) (m : UnitMsg) : List Nat :=
  (s.survival.wanted.filter (fun w => w.step == m.stepLow && w.key / 1024 == m.tile.toNat && fitsPage s c m (w.key % 1024))).map (·.key)

/-- A unit is gathered for the pages it counts for. -/
def gatherUnit (s : State) (c : ParityCfg) (m : UnitMsg) : State := s.wake.updSurvival (fun v => { v with
  gathered := v.gathered ++ (unitKeys s c m).map (fun k => ⟨k, m.stepLow, m.role.toNat, m.sender.toNat, m.address.toNat, m.payload⟩) })

/-- A wanted page is rebuilt if what is gathered is enough. -/
def solveKey (m : UnitMsg) (s : State) (k : Nat) : State :=
  match s.solve k m.stepLow with
  | none => s
  | some b =>
    let lostFrom := (s.survival.wanted.find? (fun w => w.key == k && w.step == m.stepLow)).bind (·.lostFrom)
    let kept := s.survival.restoring.isSome || m.stepLow == s.survival.parityStep
    let s' := s.updSurvival (fun v => { v with
      wanted := v.wanted.filter (fun w => !(w.key == k && w.step == m.stepLow))
      gathered := v.gathered.filter (fun x => !(x.key == k && x.step == m.stepLow))
      rebuilt := if lostFrom.isNone ∧ kept then smPut [] k b v.rebuilt else v.rebuilt })
    match lostFrom with
    | some page => s'.placeRebuilt m.tile.toNat (k % 1024) page b
    | none => s'

theorem rebuildUnit_eq (hc : s.survival.config = some c) (hresv : m.resv = false) (hcrc : crc32c m.payload = m.crc)
    (hkeys : unitKeys s c m ≠ []) (hnone : ((unitKeys s c m).foldl (solveKey m) (gatherUnit s c m)).survival.restoring = none) :
    exec (.rebuildUnit m) s = .next
      (((unitKeys s c m).foldl (solveKey m) (gatherUnit s c m)).rescueDark.lastMark s.pages.lost.length) := by
  change execRebuildUnit m s = _
  unfold execRebuildUnit
  rw [hc]
  refine (if_neg (by rw [hresv]; decide)).trans ((if_neg (not_not.mpr hcrc)).trans ((if_neg hkeys).trans ?_))
  change (match ((unitKeys s c m).foldl (solveKey m) (gatherUnit s c m)).survival.restoring with
    | some r => _
    | none => _) = _
  rw [hnone]
  rfl

/-- R382: a unit that fails its check is asked for again, and nothing is gathered. -/
theorem rebuildUnit_failed (hc : s.survival.config = some c) (hresv : m.resv = false) (hcrc : crc32c m.payload ≠ m.crc) (hs : Steady s) :
    ∃ t, exec (.rebuildUnit m) s = .next t ∧ t = { s with
      links := t.links
      pbs := t.pbs
      zOut := t.zOut } := by
  have hexec : exec (.rebuildUnit m) s = .next ((unitKeys s c m).foldl (fun s k =>
      s.sendBulk (colOf m.tile.toNat / 2) (c.members.getD m.sender.toNat 0xFFFF) (colOf m.tile.toNat / 2)
        (bulkBody 6 0 m.tile.toNat m.stepLow (k % 1024) c.selfIndex.toNat [])) s) := by
    change execRebuildUnit m s = _
    unfold execRebuildUnit
    rw [hc]
    exact (if_neg (by rw [hresv]; decide)).trans (if_pos hcrc)
  exact ⟨_, hexec, Posts.frame (.foldl (fun _ _ => .sendBulk ..) _ s) hs⟩

/-- The one wanted page of the stripe of a unit is the one that the unit counts for. -/
theorem unitKeys_one (hrole : m.role = 0) (hwanted : s.survival.wanted = [⟨k, some page, m.stepLow⟩]) (htile : k / 1024 = m.tile.toNat)
    (hslice : k % 1024 < s.slicePages m.tile.toNat) (hunit : (m.sender.toNat, m.address.toNat) ∈ stripeUnits c.code.toNat c.size.toNat
      (stripeOf c.code.toNat c.size.toNat c.selfIndex.toNat (k % 1024))) : unitKeys s c m = [k] := by
  have hfits : fitsPage s c m (k % 1024) = true := by
    unfold fitsPage
    dsimp only
    rw [hrole, if_pos hslice]
    simpa using hunit
  unfold unitKeys
  rw [hwanted, List.filter_cons_of_pos (by simp [htile, hfits])]
  rfl

end Rebuilds

section Rebuilds

variable {s u v : State} {c : ParityCfg} {m : UnitMsg} {k page : Nat}

/-- With no page of a dark field lost, there is nothing to rescue (R377). -/
theorem rescueDark_none (h : (s.pages.lost.any (fun x => fieldState s.repair (fieldOfLogical (x / 1024)) == 2)) = false) :
    s.rescueDark = s := by
  refine if_neg ?_
  rw [h]
  simp

theorem lastMark_same {before : Nat} (h : before = s.pages.lost.length) : s.lastMark before = s := by
  refine if_neg fun hlast => hlast.1 ?_
  rw [h, hlast.2]
  rfl

/-- What the rescue of the dark fields leaves: the memories, the step and what is wanted; of the marks it only takes away. -/
theorem rescueDark_keeps (s : State) : s.rescueDark.mem = s.mem ∧ s.rescueDark.step = s.step ∧
    s.rescueDark.survival.wanted = s.survival.wanted ∧ ∀ x ∈ s.rescueDark.pages.lost, x ∈ s.pages.lost := by
  unfold State.rescueDark
  dsimp only
  split
  · split
    next c b _ _ =>
      obtain ⟨_, _, _, _, _, h, -⟩ := sends_sendImage s c.storeId c.rebuildAddress.toNat b.step (s.snapshotImage b.step b s.rescuedBytes)
      rw [h]
      exact ⟨rfl, rfl, rfl, fun x hx => List.mem_of_mem_filter hx⟩
    · exact ⟨rfl, rfl, rfl, fun _ h => h⟩
  · exact ⟨rfl, rfl, rfl, fun _ h => h⟩

theorem lastMark_keeps (s : State) (before : Nat) : (s.lastMark before).mem = s.mem ∧ (s.lastMark before).step = s.step ∧
    (s.lastMark before).survival = s.survival ∧ (s.lastMark before).pages = s.pages := by
  unfold State.lastMark
  split
  · rw [raise_frame (n := 1) rfl (by decide) (by decide) (by decide)]
    exact ⟨rfl, rfl, rfl, rfl⟩
  · exact ⟨rfl, rfl, rfl, rfl⟩

/-- R376: a rebuilt page goes into a free page of the pool, and its mark is cleared. -/
theorem placeRebuilt_keeps (s : State) (t lp page : Nat) (b : Bytes) :
    (s.placeRebuilt t lp page b).mem = wrBytes s.mem (memKey (physOf s.repair t) (pageAddr ((s.freePages t).headD page) 0)) b ∧
      (s.placeRebuilt t lp page b).step = s.step ∧ (s.placeRebuilt t lp page b).survival = s.survival ∧
      pageKey t page ∉ (s.placeRebuilt t lp page b).pages.lost := by
  refine ⟨rfl, rfl, rfl, fun hmark => ?_⟩
  exact absurd rfl (of_decide_eq_true (List.mem_filter.mp hmark).2)

/-- The unit is gathered for the one page it counts for. -/
theorem gatherUnit_one (hrole : m.role = 0) (hkeys : unitKeys s c m = [k]) : gatherUnit s c m = { s.wake with
    survival := { s.survival with gathered := s.survival.gathered ++
      [⟨k, m.stepLow, 0, m.sender.toNat, m.address.toNat, m.payload⟩] } } := by
  obtain ⟨w, sm, hwake⟩ := wake_eq s
  unfold gatherUnit State.updSurvival
  rw [hkeys, hwake, hrole]
  rfl

/-- R376: a unit that is not enough for its page is kept. -/
theorem rebuildUnit_waits (hc : s.survival.config = some c) (hresv : m.resv = false) (hcrc : crc32c m.payload = m.crc)
    (hrestoring : s.survival.restoring = none) (hrole : m.role = 0) (hkeys : unitKeys s c m = [k])
    (hsolve : (gatherUnit s c m).solve k m.stepLow = none)
    (hdark : (s.pages.lost.any (fun x => fieldState s.repair (fieldOfLogical (x / 1024)) == 2)) = false) :
    exec (.rebuildUnit m) s = .next (gatherUnit s c m) := by
  obtain ⟨w, sm, hwake⟩ := wake_eq s
  have hgather := gatherUnit_one hrole hkeys
  have hunsolved : (unitKeys s c m).foldl (solveKey m) (gatherUnit s c m) = gatherUnit s c m := by
    rw [hkeys]
    change solveKey m (gatherUnit s c m) k = _
    unfold solveKey
    rw [hsolve]
  have hexec := rebuildUnit_eq hc hresv hcrc (by rw [hkeys]; exact nofun) (by rw [hunsolved, hgather]; exact hrestoring)
  rw [hexec, hunsolved, rescueDark_none (by rw [hgather, hwake]; exact hdark), lastMark_same (by rw [hgather, hwake])]

/-- A page that is rebuilt is wanted no more, and what was gathered for it goes. -/
def unwanted (m : UnitMsg) (s : State) (k : Nat) : State := s.updSurvival (fun v => { v with
  wanted := v.wanted.filter (fun w => !(w.key == k && w.step == m.stepLow))
  gathered := v.gathered.filter (fun x => !(x.key == k && x.step == m.stepLow)) })

/-- R376: a unit that completes the stripe puts the page into a free page of the pool. -/
theorem rebuildUnit_solves {b : Bytes} (hc : s.survival.config = some c) (hresv : m.resv = false) (hcrc : crc32c m.payload = m.crc)
    (hrestoring : s.survival.restoring = none) (hrole : m.role = 0) (hwanted : s.survival.wanted = [⟨k, some page, m.stepLow⟩])
    (hkeys : unitKeys s c m = [k]) (hsolve : (gatherUnit s c m).solve k m.stepLow = some b) :
    ∃ t, exec (.rebuildUnit m) s = .next t ∧ t.survival.wanted = [] ∧ pageKey m.tile.toNat page ∉ t.pages.lost ∧
      t.mem = wrBytes s.mem (memKey (physOf s.repair m.tile.toNat)
        (pageAddr ((s.freePages m.tile.toNat).headD page) 0)) b ∧ t.step = s.step := by
  obtain ⟨w, sm, hwake⟩ := wake_eq s
  have hgather := gatherUnit_one hrole hkeys
  generalize hg : gatherUnit s c m = g at hsolve hgather
  obtain ⟨v, hv, hsolved⟩ : ∃ v : State, (v.mem = s.mem ∧ v.step = s.step ∧ v.repair = s.repair ∧
      v.freePages m.tile.toNat = s.freePages m.tile.toNat ∧ v.survival.wanted = [] ∧ v.survival.restoring = none) ∧
      solveKey m g k = v.placeRebuilt m.tile.toNat (k % 1024) page b := by
    have hfind : (g.survival.wanted.find? (fun w => w.key == k && w.step == m.stepLow)).bind (·.lostFrom) = some page := by
      rw [hgather, hwake]
      dsimp only
      rw [hwanted, List.find?_cons_of_pos (by simp)]
      rfl
    refine ⟨unwanted m g k, ?_, ?_⟩
    · rw [hgather, hwake]
      refine ⟨rfl, rfl, rfl, rfl, ?_, hrestoring⟩
      change List.filter _ s.survival.wanted = []
      rw [hwanted]
      simp
    · unfold solveKey
      rw [hsolve]
      dsimp only
      rw [hfind]
      rfl
  obtain ⟨hvmem, hvstep, hvrepair, hvfree, hvwanted, hvrestoring⟩ := hv
  obtain ⟨hpmem, hpstep, hpsurvival, hpmark⟩ := placeRebuilt_keeps v m.tile.toNat (k % 1024) page b
  have hfold : (unitKeys s c m).foldl (solveKey m) (gatherUnit s c m) = v.placeRebuilt m.tile.toNat (k % 1024) page b := by
    rw [hkeys, hg]
    exact hsolved
  have hexec := rebuildUnit_eq hc hresv hcrc (by rw [hkeys]; exact nofun) (by rw [hfold, hpsurvival]; exact hvrestoring)
  rw [hfold] at hexec
  obtain ⟨hlmem, hlstep, hlsurvival, hlpages⟩ := lastMark_keeps (v.placeRebuilt m.tile.toNat (k % 1024) page b).rescueDark
    s.pages.lost.length
  obtain ⟨hrmem, hrstep, hrwanted, hrlost⟩ := rescueDark_keeps (v.placeRebuilt m.tile.toNat (k % 1024) page b)
  refine ⟨_, hexec, ?_, ?_, ?_, ?_⟩
  · rw [hlsurvival, hrwanted, hpsurvival, hvwanted]
  · rw [hlpages]
    exact fun hmark => hpmark (hrlost _ hmark)
  · rw [hlmem, hrmem, hpmem, hvmem, hvrepair, hvfree]
  · rw [hlstep, hrstep, hpstep, hvstep]

/-- R378: the next piece of an image is read from its store. -/
theorem readMore_keeps (s : State) (r : Restore) : (s.readMore r).survival = s.survival ∧ (s.readMore r).mem = s.mem ∧
    (s.readMore r).pages = s.pages ∧ (s.readMore r).step = s.step := by
  obtain ⟨_, _, _, _, _, h, -⟩ : Sends s (s.readMore r) := .zSendCounted ..
  rw [h]
  exact ⟨rfl, rfl, rfl, rfl⟩

/-- Settles O49. -/
theorem rebuildsAndRestores : Obligations.RebuildsAndRestores := by
  unfold Obligations.RebuildsAndRestores
  intro s
  refine ⟨?_, ?_, ?_, ?_, ?_⟩
  · intro c sender tile page hc hgen htile hsender hpage hid hs
    exact rebuildRequest_sends hc hgen htile hsender hpage hid hs
  · exact fun c m hc hresv hcrc hs => rebuildUnit_failed hc hresv hcrc hs
  · intro c m k page b hc hresv hcrc hrestoring hrole hwanted htile hslice hunit u
    have hkeys := unitKeys_one (c := c) hrole hwanted htile hslice hunit
    have hu : gatherUnit s c m = u := gatherUnit_one hrole hkeys
    refine ⟨fun hsolve hdark => ?_, fun hsolve => ?_⟩
    · rw [← hu] at hsolve ⊢
      exact rebuildUnit_waits hc hresv hcrc hrestoring hrole hkeys hsolve hdark
    · rw [← hu] at hsolve
      exact rebuildUnit_solves hc hresv hcrc hrestoring hrole hwanted hkeys hsolve
  · intro r address d hr hsource haddress hd hpart
    have hexec : exec (.readData address (crc32c d) d) s = .next
        ((s.updSurvival (fun v => { v with restoring := some { r with image := r.image ++ d } })).readMore
          { r with image := r.image ++ d }) := by
      change execReadData address (crc32c d) d s = _
      unfold execReadData
      rw [hr]
      refine (if_neg ?_).trans ((if_neg ?_).trans (if_neg ?_))
      · rintro (h | h)
        · exact h hsource
        · exact h haddress
      · rintro (h | h)
        · exact h rfl
        · exact hd h
      · rintro ⟨hlen, hwhole⟩
        exact absurd (hpart hlen) (by dsimp only at hwhole; omega)
    obtain ⟨hsurvival, hmem, hpages, hstep⟩ := readMore_keeps (s.updSurvival (fun v => { v with
      restoring := some { r with image := r.image ++ d } })) { r with image := r.image ++ d }
    exact ⟨_, hexec, hsurvival, hmem, hpages, hstep⟩
  · intro r address d crc hr hcrc
    by_cases hturn : r.source ≠ 0 ∨ address.toNat ≠ r.req.storeAddress.toNat + r.image.length
    · have hexec : exec (.readData address crc d) s = .next s := by
        change execReadData address crc d s = _
        unfold execReadData
        rw [hr]
        exact if_pos hturn
      exact ⟨_, hexec, rfl, rfl, rfl⟩
    · have hexec : exec (.readData address crc d) s = .next (s.readMore r) := by
        change execReadData address crc d s = _
        unfold execReadData
        rw [hr]
        exact (if_neg hturn).trans (if_pos (.inl hcrc.symm))
      obtain ⟨hsurvival, hmem, hpages, -⟩ := readMore_keeps s r
      exact ⟨_, hexec, hsurvival, hmem, hpages⟩

end Rebuilds

/-! ### A tile command that its sequencer issues -/

section Issued

variable {s u : State} {t : Site} {p q : Nat} {cid : BitVec 64} {during : List Phase}

/-- A tile command that runs is started, its body's work stands, and it is ended; where it completes, the schedule runs on. -/
theorem tileCmd_issued (htile : t.tile < 2352) (hissues : s.issues t.tile during = true) (hpoison : s.mesh.poisoned = [])
    (hp : physOf s.repair t.tile = p) {opcode unit : Nat} {body : Site → Nat → State → Done} :
    tileCmd t cid opcode unit none body s during = .next
      (let r := body t p (s.cmdStart p unit opcode cid)
       if r.status = 0 then (r.state.cmdEnd p cid r.status r.flags).sendBound t.tile cid else r.state.cmdEnd p cid r.status r.flags) := by
  have hclean : (s.cmdStart p unit opcode cid).consumePoison t cid = (s.cmdStart p unit opcode cid, t) := by
    simp [State.consumePoison, poisonedFor, hpoison]
  simp [tileCmd, show ¬ logicalTiles ≤ t.tile from Nat.not_le.mpr htile, hissues, hp, hclean]

theorem cmdStart_frame (s : State) (p unit opcode : Nat) (cid : BitVec 64) : s.cmdStart p unit opcode cid = { s with
    tiles := (s.cmdStart p unit opcode cid).tiles
    trace := (s.cmdStart p unit opcode cid).trace } := State.eq_of_fields (by simp)

theorem cmdStart_tile (hw : smWf {} 0 s.tiles = true) (unit opcode : Nat) (cid : BitVec 64) :
    tileOf (s.cmdStart p unit opcode cid) p = { tileOf s p with
      issued := (tileOf s p).issued + 1
      counters := (tileOf (s.cmdStart p unit opcode cid) p).counters } := by
  have htile : tileOf (s.cmdStart p unit opcode cid) p = tileOf ((s.updTile p (fun x => { x with
      issued := x.issued + 1 })).startUnit p unit cid) p := tileOf_congr (cmdStart_tiles ..)
  rw [htile]
  unfold State.startUnit
  rw [tileOf_updTile_same _ (tilesWf_updTile _ hw), tileOf_updTile_same _ hw]

theorem cmdEnd_tile (hw : smWf {} 0 s.tiles = true) (cid : BitVec 64) (status : Code) (flags : Nat) :
    tileOf (s.cmdEnd p cid status flags) p = { tileOf s p with strata := (tileOf s p).strata.countRecompute } := by
  unfold State.cmdEnd
  rw [tileOf_congr (State.traceAt_tiles ..)]
  exact tileOf_updTile_same (s := s.draw.2) _ hw

theorem cmdEnd_frame (s : State) (p : Nat) (cid : BitVec 64) (status : Code) (flags : Nat) : s.cmdEnd p cid status flags = { s with
    tiles := (s.cmdEnd p cid status flags).tiles
    trace := (s.cmdEnd p cid status flags).trace
    draws := s.draws + 1 } := State.eq_of_fields (by simp)

/-- What a command's work leaves of the rest, from its start to its end: as little as its body left. -/
theorem ranOn_of_body (hw : smWf {} 0 s.tiles = true) {unit opcode : Nat} (hwu : smWf {} 0 u.tiles = true)
    (hbody : u = { s.cmdStart p unit opcode cid with
      mem := u.mem
      tiles := u.tiles
      trace := u.trace }) (hother : ∀ q, q ≠ p → tileOf u q = tileOf (s.cmdStart p unit opcode cid) q)
      (status : Code) (flags : Nat) :
    RanOn p s (u.cmdEnd p cid status flags) := by
  refine ⟨?_, fun q hq => ?_⟩
  · rw [cmdEnd_frame, hbody, cmdStart_frame]
  · rw [tileOf_cmdEnd_other _ _ _ hwu hq, hother q hq, tileOf_cmdStart_other _ _ _ hw hq]

end Issued

/-! ### Refires (R242, R243) -/

section Refires

variable {s u v : State} {p : Nat}

theorem recoverable_severity (b : Bool) (pl : Place) (d : Nat) {c : Code} (h : recoverableCodes.contains c.toNat = true) :
    severityOf b pl d c = 2 ∧ c ≠ 0x4009 ∧ c ≠ 0x400A := by
  have hmild : ∀ n ∈ recoverableCodes, ¬ (n = 0x5004 ∨ n = 0x5007) ∧ n ≠ 0x4008 ∧ n ≠ 0x7006 ∧ moduleFatalCodes.contains n = false ∧
      stepFatalCodes.contains n = false ∧ n ≠ 0x4009 ∧ n ≠ 0x400A := by decide
  obtain ⟨hlink, hrill, hbreaker, hmodule, hfatal, h9, hA⟩ := hmild _ (List.contains_iff_mem.mp h)
  refine ⟨?_, fun hc => h9 (hc ▸ rfl), fun hc => hA (hc ▸ rfl)⟩
  unfold severityOf
  extract_lets n
  rw [if_neg hlink, if_neg hrill, if_neg hbreaker, hmodule, hfatal, if_neg Bool.false_ne_true, if_neg Bool.false_ne_true, if_pos h]

/-- What refires of a unit change: reports, the site's history and tests, the counters of the tile, and the refires counted. -/
structure Refires (p : Nat) (s u : State) : Prop where
  frame : ∃ re tr ho ts rf, u = { s with
    repair := re
    trace := tr
    host := ho
    tiles := ts
    step := { s.step with refires := rf } }
  tiles : smWf {} 0 s.tiles = true → smWf {} 0 u.tiles = true ∧ (∀ q, q ≠ p → tileOf u q = tileOf s q) ∧
    ∃ cs, tileOf u p = { tileOf s p with counters := cs }

namespace Refires

theorem refl (s : State) : Refires p s s :=
  ⟨⟨s.repair, s.trace, s.host, s.tiles, s.step.refires, rfl⟩, fun w => ⟨w, fun _ _ => rfl, _, rfl⟩⟩

theorem trans (h : Refires p s u) (k : Refires p u v) : Refires p s v where
  frame := by
    obtain ⟨_, _, _, _, _, rfl⟩ := h.frame
    obtain ⟨_, _, _, _, _, rfl⟩ := k.frame
    exact ⟨_, _, _, _, _, rfl⟩
  tiles w := by
    obtain ⟨wu, hother, cs, htile⟩ := h.tiles w
    obtain ⟨wv, kother, cs', ktile⟩ := k.tiles wu
    refine ⟨wv, fun q hq => (kother q hq).trans (hother q hq), cs', ?_⟩
    rw [ktile, htile]

theorem foldl {α : Type} {f : State → α → State} : ∀ {l : List α} {s : State}, (∀ u, ∀ x ∈ l, Refires p u (f u x)) →
    Refires p s (l.foldl f s)
  | [], s, _ => refl s
  | x :: _, s, hf => (hf s x List.mem_cons_self).trans (foldl fun u y hy => hf u y (List.mem_cons_of_mem x hy))

theorem sameTiles (hframe : ∃ re tr ho ts rf, u = { s with
    repair := re
    trace := tr
    host := ho
    tiles := ts
    step := { s.step with refires := rf } }) (htiles : u.tiles = s.tiles) : Refires p s u :=
  ⟨hframe, fun w => ⟨htiles ▸ w, fun _ _ => tileOf_congr htiles, _, tileOf_congr htiles⟩⟩

theorem count (s : State) (p i n : Nat) : Refires p s (s.count p i n) := by
  refine ⟨⟨s.repair, s.trace, s.host, _, s.step.refires, rfl⟩, fun w => ⟨tilesWf_updTile _ w, fun q hq => ?_, ?_⟩⟩
  · exact tileOf_updTile_other _ w hq
  · exact ⟨_, tileOf_updTile_same _ w⟩

theorem detect {c : Code} (hc : recoverableCodes.contains c.toNat = true) (s : State) (site block lane : Nat) (cid : BitVec 64)
    (d : Nat) : Refires p s (s.detect c site block lane cid d) := by
  obtain ⟨hsev, h9, hA⟩ := recoverable_severity s.step.inProgress ⟨BitVec.ofNat 12 site, BitVec.ofNat 8 block⟩ d hc
  unfold State.detect
  rw [raise_frame hsev (by decide) h9 hA]
  obtain ⟨h, f, l, tr, ho, hnoted⟩ := noteDetection_eq ({ s with
    trace := (s.raise c ⟨BitVec.ofNat 12 site, BitVec.ofNat 8 block⟩ cid d).trace
    host := (s.raise c ⟨BitVec.ofNat 12 site, BitVec.ofNat 8 block⟩ cid d).host } : State) site block lane
  rw [hnoted]
  unfold State.queueTest
  extract_lets same now
  split
  · exact sameTiles ⟨_, _, _, s.tiles, s.step.refires, rfl⟩ rfl
  · exact sameTiles ⟨_, _, _, s.tiles, s.step.refires, rfl⟩ rfl

theorem countRefire (s : State) (b : Bool) : Refires p s (s.countRefire b) := sameTiles ⟨_, _, _, s.tiles, _, rfl⟩ rfl

theorem traceAt (s : State) (k : Nat) (b : Bool) (site : BitVec 12) (cid : BitVec 64) (d : Nat) :
    Refires p s (s.traceAt k b site cid d) := by
  obtain ⟨tr, htr⟩ := traceAt_eq s k b site cid d
  rw [htr]
  exact sameTiles ⟨_, _, _, s.tiles, s.step.refires, rfl⟩ rfl

theorem budget (h : Refires p s u) : u.budget = s.budget := by
  obtain ⟨_, _, _, _, _, rfl⟩ := h.frame
  rfl

end Refires

/-- A refire unit's attempt that fails: its codes are raised, and its detections counted. -/
theorem failedAttempt (cs : List Code) (hcs : ∀ c ∈ cs, recoverableCodes.contains c.toNat = true) (s : State) (b : Nat)
    (cid : BitVec 64) : Refires p s (cs.foldl (fun s c => (s.detect c p (blockOfCode b c) 0 cid 0).count p 13 1) s) :=
  .foldl fun _ c hc => (Refires.detect (hcs c hc) ..).trans (.count ..)

/-- R242: attempts that fail within the budget are followed by one that does not. -/
theorem refireAll_within (b : Nat) (cid : BitVec 64) : ∀ (l : List (List Code)) (done : Nat) (s : State),
    (∀ cs ∈ l, ∀ c ∈ cs, recoverableCodes.contains c.toNat = true) → done + l.length ≤ s.budget →
    ∃ u, s.refireAll p b cid done l = (u, done + l.length, 0) ∧ Refires p s u
  | [], done, s, _, _ => ⟨s, rfl, .refl s⟩
  | cs :: r, done, s, hcodes, hbudget => by
    have hfail := failedAttempt (p := p) cs (hcodes cs List.mem_cons_self) s b cid
    unfold State.refireAll
    extract_lets s1 c
    change Refires p s s1 at hfail
    rw [List.length_cons] at hbudget
    rw [if_pos (by omega)]
    have hagain : Refires p s (((s1.countRefire false).count p 12 1).traceAt 3 true (BitVec.ofNat 12 p) cid
        (c.toNat + 65536 * (done + 1))) := hfail.trans ((Refires.countRefire ..).trans ((Refires.count ..).trans (.traceAt ..)))
    obtain ⟨u, hall, hrest⟩ := refireAll_within b cid r (done + 1) _ (fun cs' h => hcodes cs' (List.mem_cons_of_mem cs h))
      (show done + 1 + r.length ≤ State.budget _ by rw [hagain.budget]; omega)
    refine ⟨u, ?_, hagain.trans hrest⟩
    rw [hall, List.length_cons]
    congr 2
    omega

/-- R242: one failed attempt more than the budget allows ends the unit in 0x2104. -/
theorem refireAll_beyond (b : Nat) (cid : BitVec 64) : ∀ (l : List (List Code)) (done : Nat) (s : State),
    (∀ cs ∈ l, ∀ c ∈ cs, recoverableCodes.contains c.toNat = true) → done ≤ s.budget → s.budget < done + l.length →
    ∃ u k d, s.refireAll p b cid done l = (u.raise 0x2104 ⟨BitVec.ofNat 12 p, BitVec.ofNat 8 b⟩ cid d, k, 0x2104) ∧ Refires p s u
  | [], done, s, _, hle, hlt => absurd hlt (by rw [List.length_nil]; omega)
  | cs :: r, done, s, hcodes, hle, hlt => by
    have hfail := failedAttempt (p := p) cs (hcodes cs List.mem_cons_self) s b cid
    unfold State.refireAll
    extract_lets s1 c
    change Refires p s s1 at hfail
    rw [List.length_cons] at hlt
    by_cases hmore : done < s.budget
    · rw [if_pos hmore]
      have hagain : Refires p s (((s1.countRefire false).count p 12 1).traceAt 3 true (BitVec.ofNat 12 p) cid
          (c.toNat + 65536 * (done + 1))) := hfail.trans ((Refires.countRefire ..).trans ((Refires.count ..).trans (.traceAt ..)))
      obtain ⟨u, k, d, hall, hrest⟩ := refireAll_beyond b cid r (done + 1) _ (fun cs' h => hcodes cs' (List.mem_cons_of_mem cs h))
        (show done + 1 ≤ State.budget _ by rw [hagain.budget]; omega)
        (show State.budget _ < done + 1 + r.length by rw [hagain.budget]; omega)
      exact ⟨u, k, d, hall, hagain.trans hrest⟩
    · rw [if_neg hmore]
      exact ⟨s1, done, c.toNat, rfl, hfail⟩

end Refires

/-! ### Vector commands (O50) -/

section VectorRows

variable {s u v : State} {t : Site} {d : VecDesc} {p op : Nat}

theorem firstFail_none : ∀ {l : List (Bool × Code)}, firstFail l = none → ∀ x ∈ l, x.1 = false
  | (b, c) :: r, h, x, hx => by
    unfold firstFail at h
    split at h
    · nomatch h
    next hb =>
      obtain rfl | hr := List.mem_cons.mp hx
      · simpa using hb
      · exact firstFail_none h x hr

/-- R182: a reduction's result is FP32. -/
theorem vecFormat_of_reduces (hcheck : vecCheck op d = none) (hred : vecReduces op = true) : vecFormat d 3 = 2 := by
  have h := firstFail_none hcheck (vecReduces op && vecFormat d 3 != 2, 0x2202) (by simp)
  simpa [hred] using h

/-- The source `j` of element `i` as an operation takes it: nothing beyond the sources it has. -/
def vecTaken (s : State) (p op : Nat) (d : VecDesc) (j i : Nat) : Fp := if j < vecArity op then vecSource s p op d j i else .zero

/-- Element `i` of what an elementwise operation writes. -/
def vecOut (s : State) (p op : Nat) (d : VecDesc) (i : Nat) : Bytes × Flags :=
  vecFinish s d (vecElem s p op (vecPair d) (vecTaken s p op d 0 i) (vecTaken s p op d 1 i) (vecTaken s p op d 2 i))

theorem foldl_append_fst {α : Type} (g : α → Bytes × Flags) : ∀ (l : List α) (acc : Bytes × Flags),
    (l.foldl (fun acc i => (acc.1 ++ (g i).1, acc.2.or (g i).2)) acc).1 = acc.1 ++ l.flatMap (fun i => (g i).1)
  | [], acc => by simp
  | x :: r, acc => by
    rw [List.foldl_cons, foldl_append_fst g r, List.flatMap_cons, List.append_assoc]

/-- R181: the elements of the result lie one after another. -/
theorem vecCompute_elements (h : vecReduces op = false) (s : State) (p : Nat) (d : VecDesc) :
    (vecCompute s p op d).1 = (List.range d.count.toNat).flatMap (fun i => (vecOut s p op d i).1) := by
  unfold vecCompute
  rw [if_neg (by rw [h]; decide)]
  exact (foldl_append_fst (vecOut s p op d) _ _).trans (List.nil_append _)

/-- R182: the result of a reduction is one element. -/
theorem vecCompute_reduced (h : vecReduces op = true) (s : State) (p : Nat) (d : VecDesc) : (vecCompute s p op d).1 =
    (vecFinish s d (vecReduce op ((List.range d.count.toNat).map (vecTaken s p op d 0)))).1 := by
  unfold vecCompute
  rw [if_pos h]
  rfl

theorem length_vecOut (s : State) (p op : Nat) (d : VecDesc) (i : Nat) : (vecOut s p op d i).1.length = vecBytes (vecFormat d 3) :=
  length_leBytes ..

theorem length_vecCompute (hcheck : vecCheck op d = none) (s : State) (p : Nat) : (vecCompute s p op d).1.length = vecDstBytes op d := by
  unfold vecDstBytes
  split
  next hred =>
    rw [vecCompute_reduced hred]
    refine (length_leBytes ..).trans ?_
    rw [vecFormat_of_reduces hcheck hred]
    rfl
  next helem =>
    rw [vecCompute_elements (by simpa using helem), List.length_flatMap]
    simp [length_vecOut]

theorem exec_vecRow {r : Nat × (Site → VecDesc → Instr)} (h : r ∈ vecRows) (t : Site) (d : VecDesc) (s : State) :
    exec (r.2 t d) s = vecOp r.1 t d s := by
  unfold vecRows at h
  simp only [List.mem_cons, List.not_mem_nil, or_false] at h
  rcases h with rfl | rfl | rfl | rfl | rfl | rfl | rfl | rfl | rfl | rfl | rfl | rfl | rfl | rfl | rfl | rfl | rfl | rfl
  all_goals rfl

theorem attempts_none (b : Nat) (det : List (List Code)) : attempts b det [] = det := rfl

/-- A refire unit that no window has marked, within its budget: it is settled, and only its refires show. -/
theorem settle_within {x : RefireUnit} (hdet : ∀ cs ∈ t.det, ∀ c ∈ cs, recoverableCodes.contains c.toNat = true)
    (hsuspect : t.suspect = []) (hmarked : x.marked = false) (hdone : x.done = 0) (hclean : x.computed = [])
    (hbudget : t.det.length ≤ s.budget) : ∃ v, s.settle t p x = (v, t.det.length, 0) ∧ Refires p s v ∧ (t.det = [] → v = s) := by
  obtain ⟨v, hall, hrefires⟩ := refireAll_within (p := p) x.block x.cid t.det 0 s hdet (by omega)
  have hset : s.settle t p x = (v, t.det.length, 0) := by
    unfold State.settle
    rw [hclean, attempts_none, hdone, hall]
    refine (if_pos (.inr ⟨by rw [hsuspect]; rfl, by rw [hmarked]; decide⟩)).trans ?_
    rw [Nat.zero_add]
  refine ⟨v, hset, hrefires, fun hnone => ?_⟩
  rw [hnone] at hall
  exact (congrArg Prod.fst hall).symm

/-- One failed attempt more than the budget allows. -/
theorem settle_beyond {x : RefireUnit} (hdet : ∀ cs ∈ t.det, ∀ c ∈ cs, recoverableCodes.contains c.toNat = true)
    (hdone : x.done = 0) (hclean : x.computed = []) (hbudget : s.budget < t.det.length) :
    ∃ v k d, s.settle t p x = (v.raise 0x2104 ⟨BitVec.ofNat 12 p, BitVec.ofNat 8 x.block⟩ x.cid d, k, 0x2104) ∧ Refires p s v := by
  obtain ⟨v, k, d, hall, hrefires⟩ := refireAll_beyond (p := p) x.block x.cid t.det 0 s hdet (Nat.zero_le _) (by omega)
  refine ⟨v, k, d, ?_, hrefires⟩
  unfold State.settle
  rw [hclean, attempts_none, hdone, hall]
  exact if_pos (.inl (by dsimp only; decide))

end VectorRows

section VectorRows

variable {s u v : State} {t : Site} {d : VecDesc} {p op : Nat}

/-- The state in which a vector command's result stands: written whole, with its flags, and its refires counted. -/
def vecDone (v : State) (p refires dst : Nat) (out : Bytes × Flags) : State :=
  ((v.vecRefired p refires).tileWrite p dst out.1).vecFlag p out.2

theorem vecRefired_frame (v : State) (p n : Nat) : v.vecRefired p n = { v with tiles := (v.vecRefired p n).tiles } := by
  unfold State.vecRefired
  split <;> rfl

theorem vecRefired_tiles (hw : smWf {} 0 v.tiles = true) (n : Nat) : smWf {} 0 (v.vecRefired p n).tiles = true ∧
    (∀ q, q ≠ p → tileOf (v.vecRefired p n) q = tileOf v q) ∧
    ∃ k, tileOf (v.vecRefired p n) p = { tileOf v p with vecRefires := k } ∧ (n = 0 → k = (tileOf v p).vecRefires) := by
  unfold State.vecRefired
  split
  · exact ⟨hw, fun _ _ => rfl, _, rfl, fun _ => rfl⟩
  next hn =>
    exact ⟨tilesWf_updTile _ hw, fun q hq => tileOf_updTile_other _ hw hq, _, tileOf_updTile_same _ hw, fun h => absurd h hn⟩

theorem vecDone_frame (hchecks : v.checks = []) (n dst : Nat) (out : Bytes × Flags) : vecDone v p n dst out = { v with
    mem := wrBytes v.mem (memKey p dst) out.1
    tiles := (vecDone v p n dst out).tiles } := by
  have hclean : (v.vecRefired p n).checks = [] := by
    rw [vecRefired_frame]
    exact hchecks
  unfold vecDone
  rw [tileWrite_clean hclean, vecRefired_frame]
  rfl

/-- R181: the flags of a vector command join those of its tile. -/
theorem vecDone_tiles (hw : smWf {} 0 v.tiles = true) (n dst : Nat) (out : Bytes × Flags) :
    smWf {} 0 (vecDone v p n dst out).tiles = true ∧ (∀ q, q ≠ p → tileOf (vecDone v p n dst out) q = tileOf v q) ∧
    ∃ k, tileOf (vecDone v p n dst out) p = { tileOf v p with
      vecRefires := k
      vecOvf := (tileOf v p).vecOvf || out.2.ovf
      vecNan := (tileOf v p).vecNan || out.2.nan
      vecSat := (tileOf v p).vecSat || out.2.sat } ∧ (n = 0 → k = (tileOf v p).vecRefires) := by
  obtain ⟨hwr, hother, k, htile, hsame⟩ := vecRefired_tiles (p := p) hw n
  have hww : smWf {} 0 ((v.vecRefired p n).tileWrite p dst out.1).tiles = true := hwr
  refine ⟨tilesWf_updTile _ hww, fun q hq => ?_, k, ?_, hsame⟩
  · exact (tileOf_updTile_other _ hww hq).trans (hother q hq)
  · refine (tileOf_updTile_same _ hww).trans ?_
    rw [show tileOf ((v.vecRefired p n).tileWrite p dst out.1) p = tileOf (v.vecRefired p n) p from rfl, htile]

theorem keepFailing_settled (v : State) (t : Site) (p op : Nat) (d : VecDesc) : v.keepFailing t p op d 0 = v :=
  if_neg fun h => absurd h.1 (by decide)

theorem keepFailing_frame (v : State) (t : Site) (p op : Nat) (d : VecDesc) (status : Code) :
    v.keepFailing t p op d status = { v with checks := (v.keepFailing t p op d status).checks } := by
  unfold State.keepFailing
  split <;> rfl

/-- R184, R242: a vector command whose detections the budget allows for writes its result. -/
theorem vecCommit_within {cid : BitVec 64} {dst : Nat} {reads : List Span} {out : Bytes × Flags}
    (hfault : writeFault s p dst out.1.length = none) (hchecks : s.checks = [])
    (hdet : ∀ cs ∈ t.det, ∀ c ∈ cs, recoverableCodes.contains c.toNat = true) (hsuspect : t.suspect = [])
    (hbudget : t.det.length ≤ s.budget) : ∃ v, vecCommit t cid p dst reads out s =
      { state := vecDone v p t.det.length dst out, flags := vecFlagBits out.2 } ∧ Refires p s v ∧ (t.det = [] → v = s) := by
  obtain ⟨v, hset, hrefires, hsame⟩ := settle_within (p := p)
    (x := { block := 5, cid := cid, computed := readDetections s p reads, result := out.1 }) hdet hsuspect
      rfl rfl (readDetections_clean hchecks reads) hbudget
  refine ⟨v, ?_, hrefires, hsame⟩
  unfold vecCommit
  rw [hfault, hset]
  exact if_neg (not_not.mpr rfl)

/-- R243: one failed attempt more ends it in 0x2104. -/
theorem vecCommit_beyond {cid : BitVec 64} {dst : Nat} {reads : List Span} {out : Bytes × Flags}
    (hfault : writeFault s p dst out.1.length = none) (hchecks : s.checks = [])
    (hdet : ∀ cs ∈ t.det, ∀ c ∈ cs, recoverableCodes.contains c.toNat = true) (hbudget : s.budget < t.det.length) :
    ∃ v k e, vecCommit t cid p dst reads out s =
      { state := (v.raise 0x2104 ⟨BitVec.ofNat 12 p, 5⟩ cid e).vecRefired p k, status := 0x2104 } ∧ Refires p s v := by
  obtain ⟨v, k, e, hset, hrefires⟩ := settle_beyond (p := p)
    (x := { block := 5, cid := cid, computed := readDetections s p reads, result := out.1 }) hdet rfl
      (readDetections_clean hchecks reads) hbudget
  refine ⟨v, k, e, ?_, hrefires⟩
  unfold vecCommit
  rw [hfault, hset]
  exact if_pos (by dsimp only; decide)

/-- A vector command that its sequencer issues. -/
theorem vecOp_issued {out : Bytes × Flags} (htile : t.tile < 2352) (hissues : s.issues t.tile = true) (hpoison : s.mesh.poisoned = [])
    (hp : physOf s.repair t.tile = p) (hcheck : vecCheck op d = none) (hu : s.cmdStart p 1 0x40 d.cid = u)
    (hout : vecCompute u p op d = out) {r : Done} (hr : vecCommit t d.cid p d.dst.toNat (vecSpans op d) out u = r) :
    vecOp op t d s = .next (if r.status = 0 then
      ((r.state.keepFailing t p op d r.status).cmdEnd p d.cid r.status r.flags).sendBound t.tile d.cid
    else (r.state.keepFailing t p op d r.status).cmdEnd p d.cid r.status r.flags) := by
  unfold vecOp
  rw [hcheck, ← hr, ← hout, ← hu]
  exact tileCmd_issued htile hissues hpoison hp

/-- What a vector command that writes its result leaves. -/
theorem vecEnd_keeps {out : Bytes × Flags} {n dst flags : Nat} {cid : BitVec 64} (hw : smWf {} 0 s.tiles = true) (hchecks : s.checks = [])
    (hu : s.cmdStart p 1 0x40 cid = u) (hv : Refires p u v) :
    let e := (vecDone v p n dst out).cmdEnd p cid 0 flags
    e.mem = wrBytes s.mem (memKey p dst) out.1 ∧ e.program = s.program ∧ e.pages = s.pages ∧ e.sync = s.sync ∧
      (tileOf e p).vecOvf = ((tileOf s p).vecOvf || out.2.ovf) ∧ (tileOf e p).vecNan = ((tileOf s p).vecNan || out.2.nan) ∧
      (tileOf e p).vecSat = ((tileOf s p).vecSat || out.2.sat) := by
  subst hu
  have hwu : smWf {} 0 (s.cmdStart p 1 0x40 cid).tiles = true := tilesWf_cmdStart _ _ _ hw
  obtain ⟨hwv, -, cs, hvtile⟩ := hv.tiles hwu
  obtain ⟨re, tr, ho, ts, rf, hvframe⟩ := hv.frame
  have hvchecks : v.checks = [] := by
    rw [hvframe, cmdStart_frame]
    exact hchecks
  obtain ⟨hwd, -, k, hdtile, -⟩ := vecDone_tiles (p := p) hwv n dst out
  have hdframe := vecDone_frame (p := p) hvchecks n dst out
  have hetile := cmdEnd_tile (p := p) hwd cid 0 flags
  have heframe := cmdEnd_frame (vecDone v p n dst out) p cid 0 flags
  rw [hdtile, hvtile, cmdStart_tile hw] at hetile
  intro e
  have hmem : v.mem = s.mem ∧ v.program = s.program ∧ v.pages = s.pages ∧ v.sync = s.sync := by
    rw [hvframe, cmdStart_frame]
    exact ⟨rfl, rfl, rfl, rfl⟩
  obtain ⟨hmem, hprogram, hpages, hsync⟩ := hmem
  refine ⟨(State.cmdEnd_mem ..).trans ?_, (State.cmdEnd_program ..).trans ?_, (State.cmdEnd_pages ..).trans ?_,
    (State.cmdEnd_sync ..).trans ?_, congrArg Tile.vecOvf hetile, congrArg Tile.vecNan hetile, congrArg Tile.vecSat hetile⟩
  · rw [hdframe, hmem]
  · rw [hdframe]
    exact hprogram
  · rw [hdframe]
    exact hpages
  · rw [hdframe]
    exact hsync

/-- What a vector command without a detection leaves. -/
theorem vecEnd_ranOn {out : Bytes × Flags} {dst flags : Nat} {cid : BitVec 64} (hw : smWf {} 0 s.tiles = true) (hchecks : s.checks = []) :
    let e := (vecDone (s.cmdStart p 1 0x40 cid) p 0 dst out).cmdEnd p cid 0 flags
    RanOn p s e ∧ tileOf e p = { tileOf s p with
      issued := (tileOf s p).issued + 1
      counters := (tileOf e p).counters
      strata := (tileOf s p).strata.countRecompute
      vecOvf := (tileOf e p).vecOvf
      vecNan := (tileOf e p).vecNan
      vecSat := (tileOf e p).vecSat } := by
  have hwu : smWf {} 0 (s.cmdStart p 1 0x40 cid).tiles = true := tilesWf_cmdStart _ _ _ hw
  have huchecks : (s.cmdStart p 1 0x40 cid).checks = [] := (State.cmdStart_checks ..).trans hchecks
  obtain ⟨hwd, hother, k, hdtile, hk⟩ := vecDone_tiles (p := p) hwu 0 dst out
  have hdframe := vecDone_frame (p := p) huchecks 0 dst out
  have hetile := cmdEnd_tile (p := p) hwd cid 0 flags
  rw [hdtile, hk rfl, cmdStart_tile hw] at hetile
  refine ⟨ranOn_of_body hw hwd ?_ hother 0 flags, ?_⟩
  · rw [hdframe]
  · rw [hetile]

/-- A vector command that exhausts its budget ends in 0x2104, and writes nothing. -/
theorem vecEnd_faulted {k e : Nat} {cid : BitVec 64} (hd : CanDiscard s) (hu : s.cmdStart p 1 0x40 cid = u) (hv : Refires p u v) :
    Faulted s (((((v.raise 0x2104 ⟨BitVec.ofNat 12 p, 5⟩ cid e).vecRefired p k).keepFailing t p op d 0x2104)).cmdEnd p cid 0x2104 0)
      0x2104 := by
  subst hu
  obtain ⟨re, tr, ho, ts, rf, hvframe⟩ := hv.frame
  have hvd : CanDiscard v := by
    rw [hvframe, cmdStart_frame]
    exact hd
  have hvmem : v.mem = s.mem := by
    rw [hvframe, cmdStart_frame]
  obtain ⟨tr', ho', hraise⟩ := raise_discard_eq (p := ⟨BitVec.ofNat 12 p, 5⟩) (i := cid) (d := e) (e := 0) (c := 0x2104)
      rfl hvd (by decide)
    (by decide)
  refine ⟨?_, ?_, ?_⟩
  · rw [State.cmdEnd_step, keepFailing_frame, vecRefired_frame, hraise]
  · rw [State.cmdEnd_arbiter, keepFailing_frame, vecRefired_frame, hraise]
    rfl
  · rw [State.cmdEnd_mem, keepFailing_frame, vecRefired_frame, hraise]
    exact hvmem

/-- Settles O50. -/
theorem vectorRows : Obligations.VectorRows := by
  unfold Obligations.VectorRows
  intro r t d s hr htile hissues hchecks hpoison hcan hcheck p u out dst
  obtain ⟨hmem, hw, -, -, -, -⟩ := hcan
  have hframe : u = { s with
      tiles := u.tiles
      trace := u.trace } := cmdStart_frame s p 1 0x40 d.cid
  have hlen : out.1.length = vecDstBytes r.1 d := length_vecCompute hcheck u p
  have huchecks : u.checks = [] := by rw [hframe]; exact hchecks
  have hubudget : u.budget = s.budget := by rw [hframe]; rfl
  refine ⟨hframe, fun q hq => tileOf_cmdStart_other _ _ _ hw hq, cmdStart_tile hw 1 0x40 d.cid, fun hfault hdet =>
    ⟨fun hsuspect hbudget => ?_, fun hmore hd => ?_⟩⟩
  · obtain ⟨v, hcommit, hrefires, hsame⟩ := vecCommit_within (cid := d.cid) (reads := vecSpans r.1 d) (out := out)
      (by rw [hlen]; exact hfault) huchecks hdet hsuspect (by rw [hubudget]; exact hbudget)
    have hexec := (exec_vecRow hr t d s).trans (vecOp_issued htile hissues hpoison rfl hcheck rfl rfl hcommit)
    rw [if_pos rfl, keepFailing_settled] at hexec
    obtain ⟨hemem, hprogram, hpages, hsync, hovf, hnan, hsat⟩ := vecEnd_keeps (out := out) (n := t.det.length) (dst := d.dst.toNat)
      (flags := vecFlagBits out.2) hw hchecks rfl hrefires
    refine ⟨_, hexec, hemem, hlen, fun a ha => ?_, hprogram, hpages, hsync, hovf, hnan, hsat, fun hnone => ?_⟩
    · rw [hemem]
      exact rdByte_wrBytes_other _ hmem (by rw [hlen]; exact ha)
    · rw [hsame hnone, hnone]
      exact vecEnd_ranOn hw hchecks
  · obtain ⟨v, k, e, hcommit, hrefires⟩ := vecCommit_beyond (cid := d.cid) (reads := vecSpans r.1 d) (out := out)
      (by rw [hlen]; exact hfault) huchecks hdet (by rw [hubudget]; exact hmore)
    have hexec := (exec_vecRow hr t d s).trans (vecOp_issued htile hissues hpoison rfl hcheck rfl rfl hcommit)
    rw [if_neg (by dsimp only; decide)] at hexec
    exact ⟨_, hexec, vecEnd_faulted hd rfl hrefires⟩

end VectorRows

/-! ### Elements of a vector result (O51) -/

section VectorElements

variable {s u v : State} {t : Site} {d : VecDesc} {p op : Nat}

theorem wrBytes_append : ∀ (x y : Bytes) (m : List Host.Cell) (a : Nat), wrBytes m a (x ++ y) = wrBytes (wrBytes m a x) (a + x.length) y
  | [], y, m, a => rfl
  | b :: r, y, m, a => by
    rw [List.cons_append, wrBytes, wrBytes_append r y, List.length_cons, wrBytes, Nat.add_right_comm, Nat.add_assoc a]

/-- A piece of what has been written reads back. -/
theorem rdBytes_wrBytes_piece {m : List Host.Cell} (w : Memory.wf m = true) (a : Nat) (x y z : Bytes) :
    rdBytes (wrBytes m a (x ++ y ++ z)) (a + x.length) y.length = y := by
  rw [wrBytes_append, wrBytes_append, rdBytes_wrBytes_other z (wrBytes_wf _ y (wrBytes_wf a x w)) y.length
    (.inl (by rw [List.length_append]; omega))]
  exact rdBytes_wrBytes_same y (wrBytes_wf a x w)

/-- The pieces before, of and after one number of a range. -/
theorem flatMap_range_split {α : Type} (g : Nat → List α) {i n : Nat} (h : i < n) : ∃ z,
    (List.range n).flatMap g = (List.range i).flatMap g ++ g i ++ z := by
  obtain ⟨k, rfl⟩ : ∃ k, n = i + 1 + k := ⟨n - (i + 1), by omega⟩
  refine ⟨((List.range k).map (fun j => i + 1 + j)).flatMap g, ?_⟩
  rw [List.range_add, List.flatMap_append, List.range_succ, List.flatMap_append, List.flatMap_singleton]

theorem length_flatMap_const {α : Type} {g : Nat → List α} {w : Nat} (hg : ∀ i, (g i).length = w) (i : Nat) :
    ((List.range i).flatMap g).length = i * w := by
  rw [List.length_flatMap]
  simp [hg]

/-- A vector command in which nothing is detected leaves its result at its destination. -/
theorem vecRow_writes {r : Nat × (Site → VecDesc → Instr)} (hr : r ∈ vecRows) (hruns : Safety.Runs t s) (hcan : Canonical s)
    (hp : physOf s.repair t.tile = p) (hcheck : vecCheck r.1 d = none)
    (hfault : writeFault s p d.dst.toNat (vecDstBytes r.1 d) = none)
    : ∃ e : State, exec (r.2 t d) s = .next (e.sendBound t.tile d.cid) ∧
      e.mem = wrBytes s.mem (memKey p d.dst.toNat) (vecCompute (s.cmdStart p 1 0x40 d.cid) p r.1 d).1 := by
  obtain ⟨htile, hissues, hdet, hsuspect, hchecks, hpoison⟩ := hruns
  obtain ⟨-, -, -, hrow⟩ := vectorRows r t d s hr htile hissues hchecks hpoison hcan hcheck
  rw [hp] at hrow
  obtain ⟨e, hexec, hmem, -⟩ := (hrow ((writeFault_cmdStart _ _ _ hcan.2.1 ..).trans hfault) (by rw [hdet]; exact nofun)).1 hsuspect
    (by rw [hdet]; exact Nat.zero_le _)
  exact ⟨e, hexec, hmem⟩

theorem vecSource_cmdStart (unit opcode : Nat) (cid : BitVec 64) (j i : Nat) :
    vecSource (s.cmdStart p unit opcode cid) p op d j i = vecSource s p op d j i := by
  unfold vecSource tileNum
  rw [State.cmdStart_mem]

/-- R181: an operation's value does not look at sources that it does not have. -/
theorem vecElem_rounded {r : Nat × (Site → VecDesc → Instr) × (Fp → Fp → Fp → Fp)} (hr : r ∈ roundedRows) (s : State) (p pair : Nat)
    (a b c : Fp) : (vecElem s p r.1 pair (if 0 < vecArity r.1 then a else .zero) (if 1 < vecArity r.1 then b else .zero)
      (if 2 < vecArity r.1 then c else .zero)).val = r.2.2 a b c := by
  unfold roundedRows at hr
  simp only [List.mem_cons, List.not_mem_nil, or_false] at hr
  rcases hr with rfl | rfl | rfl | rfl | rfl | rfl | rfl | rfl | rfl | rfl | rfl | rfl | rfl
  all_goals rfl

theorem mem_vecRows_of_rounded {r : Nat × (Site → VecDesc → Instr) × (Fp → Fp → Fp → Fp)} (hr : r ∈ roundedRows) :
    (r.1, r.2.1) ∈ vecRows ∧ vecReduces r.1 = false := by
  unfold roundedRows at hr
  simp only [List.mem_cons, List.not_mem_nil, or_false] at hr
  rcases hr with rfl | rfl | rfl | rfl | rfl | rfl | rfl | rfl | rfl | rfl | rfl | rfl | rfl
  all_goals exact ⟨by simp [vecRows], rfl⟩

theorem mem_vecRows_of_reduces {r : Nat × (Site → VecDesc → Instr)}
    (hr : r ∈ [(0x18, Instr.sum), (0x19, Instr.maxred), (0x1A, Instr.sumsq)]) : r ∈ vecRows ∧ vecReduces r.1 = true ∧ vecArity r.1 = 1 := by
  simp only [List.mem_cons, List.not_mem_nil, or_false] at hr
  rcases hr with rfl | rfl | rfl
  all_goals exact ⟨by simp [vecRows], rfl, rfl⟩

/-- Settles O51. -/
theorem vectorElements : Obligations.VectorElements := by
  unfold Obligations.VectorElements
  intro t d s hruns hcan p w scaled
  have hstep : (s.cmdStart p 1 0x40 d.cid).step = s.step := State.cmdStart_step ..
  refine ⟨fun r hr hcheck hfault => ?_, fun r hr hcheck hfault => ?_⟩
  · obtain ⟨hrow, helem⟩ := mem_vecRows_of_rounded hr
    obtain ⟨e, hexec, hmem⟩ := vecRow_writes hrow hruns hcan rfl hcheck hfault
    refine ⟨e, hexec, fun i hi => ?_⟩
    generalize hu : s.cmdStart p 1 0x40 d.cid = u at *
    obtain ⟨z, hsplit⟩ := flatMap_range_split (fun i => (vecOut u p r.1 d i).1) hi
    have hread := rdBytes_wrBytes_piece hcan.1 (memKey p d.dst.toNat) ((List.range i).flatMap (fun i => (vecOut u p r.1 d i).1))
      (vecOut u p r.1 d i).1 z
    rw [← hsplit, ← vecCompute_elements helem, length_vecOut, length_flatMap_const (length_vecOut u p r.1 d) i] at hread
    have hvalue : (vecOut u p r.1 d i).1 = leBytes w (vecEncode (vecFormat d 3) (scaled (r.2.2 (vecSource s p r.1 d 0 i)
        (vecSource s p r.1 d 1 i) (vecSource s p r.1 d 2 i)))).1 := by
      have hsource (j : Nat) : vecSource u p r.1 d j i = vecSource s p r.1 d j i := by
        rw [← hu]
        exact vecSource_cmdStart ..
      unfold vecOut vecTaken vecFinish
      rw [hsource, hsource, hsource, vecElem_rounded hr, hstep]
    rw [← hvalue, ← hread, tileRead, hmem, memKey, memKey, ← Nat.add_assoc]
  · obtain ⟨hrow, hred, harity⟩ := mem_vecRows_of_reduces hr
    have hbytes : vecDstBytes r.1 d = 4 := if_pos hred
    obtain ⟨e, hexec, hmem⟩ := vecRow_writes hrow hruns hcan rfl hcheck (by rw [hbytes]; exact hfault)
    refine ⟨e, hexec, ?_⟩
    generalize hu : s.cmdStart p 1 0x40 d.cid = u at *
    have hlen := length_vecCompute hcheck u p
    have hread := rdBytes_wrBytes_same (a := memKey p d.dst.toNat) (vecCompute u p r.1 d).1 hcan.1
    rw [hlen, hbytes] at hread
    rw [tileRead, hmem, hread, vecCompute_reduced hred]
    have hsource : vecTaken u p r.1 d 0 = vecSource s p r.1 d 0 := by
      funext i
      unfold vecTaken
      rw [if_pos (by rw [harity]; decide), ← hu]
      exact vecSource_cmdStart ..
    unfold vecFinish
    rw [hsource, hstep, vecFormat_of_reduces hcheck hred]
    rfl

end VectorElements

end Sys2Proof.Laws
end

section
/-! Palettes, losses, sync commands, canvas images, the optimizer and RECV_ADD (O53, O58, O59). -/

namespace Sys2Proof.Laws

open Sys2Proof.Machine Sys2Proof.Safety

/-! ### What a tile command in which nothing is detected leaves (R17, R26) -/

section CommandEnds

variable {s u : State} {t : Site} {p : Nat} {cid : BitVec 64} {during : List Phase}

/-- A command whose work on the tiles is one update of its tile's record: that tile's record, and the others. -/
theorem tileOf_ended {unit opcode : Nat} (hw : smWf {} 0 s.tiles = true) (f : Tile → Tile)
    (hu : u.tiles = ((s.cmdStart p unit opcode cid).updTile p f).tiles) (status : Code) (flags : Nat) :
    (tileOf (u.cmdEnd p cid status flags) p = { f (tileOf (s.cmdStart p unit opcode cid) p) with
      strata := (f (tileOf (s.cmdStart p unit opcode cid) p)).strata.countRecompute }) ∧
    ∀ q, q ≠ p → tileOf (u.cmdEnd p cid status flags) q = tileOf s q := by
  have hws := tilesWf_cmdStart (p := p) unit opcode cid hw
  have hwu : smWf {} 0 u.tiles = true := hu ▸ tilesWf_updTile f hws
  refine ⟨?_, fun q hq => ?_⟩
  · rw [cmdEnd_tile hwu, tileOf_congr hu, tileOf_updTile_same f hws]
  · rw [tileOf_cmdEnd_other _ _ _ hwu hq, tileOf_congr hu, tileOf_updTile_other f hws hq, tileOf_cmdStart_other _ _ _ hw hq]

/-- A command whose work on the tiles is one update of its tile's record. -/
theorem ranOn_updTile (hw : smWf {} 0 s.tiles = true) {unit opcode : Nat} (f : Tile → Tile)
    (hbody : u = { s.cmdStart p unit opcode cid with
      mem := u.mem
      tiles := u.tiles
      trace := u.trace }) (htiles : u.tiles = ((s.cmdStart p unit opcode cid).updTile p f).tiles) (status : Code) (flags : Nat) :
    RanOn p s (u.cmdEnd p cid status flags) := by
  have hws := tilesWf_cmdStart (p := p) unit opcode cid hw
  exact ranOn_of_body hw (htiles ▸ tilesWf_updTile f hws) hbody
    (fun q hq => (tileOf_congr htiles).trans (tileOf_updTile_other f hws hq)) status flags

/-- A command that is started and ended. -/
theorem ranOn_started (hw : smWf {} 0 s.tiles = true) (unit opcode : Nat) (status : Code) (flags : Nat) :
    RanOn p s ((s.cmdStart p unit opcode cid).cmdEnd p cid status flags) :=
  ranOn_of_body hw (tilesWf_cmdStart unit opcode cid hw) rfl (fun _ _ => rfl) status flags

/-- A unit that nothing detects anything in is settled as it is. -/
theorem settle_clean (hdet : t.det = []) (hsuspect : t.suspect = []) {x : RefireUnit} (hmarked : x.marked = false)
    (hclean : x.computed = []) : s.settle t p x = (s, x.done, 0) := by
  simp [State.settle, attempts, hdet, hsuspect, hmarked, hclean, State.refireAll]

end CommandEnds

/-! ### PALETTE_LOAD and LOSS_REPORT (R189 to R191) -/

section PaletteAndLoss

variable {s : State} {t : Site} {p : Nat}

theorem bitsOf_eq_extract (v : BitVec 64) (k : Nat) : bitsOf v.toNat (8 * k + 7) (8 * k) = (v.extractLsb' (8 * k) 8).toNat := by
  rw [bitsOf, BitVec.extractLsb'_toNat, show 8 * k + 7 + 1 - 8 * k = 8 by omega]

/-- R189: a byte put into the control register of the palettes is read back, and every other byte as before. -/
theorem bitsOf_putByte (v : BitVec 64) (e : BitVec 8) {i k : Nat} (hi : i < 8) (hk : k < 8) :
    bitsOf ((v &&& ~~~((0xFF : BitVec 64) <<< (8 * i))) ||| (e.setWidth 64 <<< (8 * i))).toNat (8 * k + 7) (8 * k) =
      if k = i then e.toNat else bitsOf v.toNat (8 * k + 7) (8 * k) := by
  rw [bitsOf_eq_extract, bitsOf_eq_extract]
  have hones (j : Nat) : (255#64).getLsbD j = decide (j < 8) := by
    rw [show (255#64) = (BitVec.allOnes 8).setWidth 64 from rfl, BitVec.getLsbD_setWidth, BitVec.getLsbD_allOnes]
    simp only [Bool.and_eq_right_iff_imp, decide_eq_true_eq]
    omega
  split
  · next h =>
    subst h
    congr 1
    refine BitVec.eq_of_getLsbD_eq fun j hj => ?_
    simp [hones, hj, show 8 * k + j < 64 by omega]
  · next h =>
    congr 1
    refine BitVec.eq_of_getLsbD_eq fun j hj => ?_
    obtain hlt | hgt := Nat.lt_or_gt_of_ne h
    · simp [hj, show 8 * k + j < 64 by omega, show 8 * k + j < 8 * i by omega]
    · have hhigh : e.getLsbD (8 * k + j - 8 * i) = false := BitVec.getLsbD_of_ge e _ (by omega)
      simp [-BitVec.getLsbD_eq_getElem, hones, hhigh, hj, show 8 * k + j < 64 by omega, show ¬ 8 * k + j - 8 * i < 8 by omega]

/-- A tile's record with the E_LO of a pair replaced (R189). -/
def putELo (pair : Nat) (eLo : BitVec 8) (x : Tile) : Tile := { x with
  paletteControl := (x.paletteControl &&& ~~~((0xFF : BitVec 64) <<< (8 * pair))) ||| (eLo.setWidth 64 <<< (8 * pair)) }

theorem eLoOf_putELo (x : Tile) (e : BitVec 8) {pair k : Nat} (hpair : pair < 8) (hk : k < 8) :
    eLoOf (putELo pair e x) k = if k = pair then e.toNat else eLoOf x k := bitsOf_putByte x.paletteControl e hpair hk

/-- The work of a PALETTE_LOAD: the tables `b` and the E_LO of a pair. -/
def paletteDone (u : State) (p : Nat) (d : PaletteDesc) (b : Bytes) : State :=
  (u.tileWrite p (paletteTable d.pair.toNat 0) b).updTile p (putELo d.pair.toNat d.eLo)

theorem exec_paletteLoad {d : PaletteDesc} (hr : Safety.Runs t s) (hp : physOf s.repair t.tile = p) (hcheck : paletteCheck d = none) :
    exec (.paletteLoad t d) s = .next (((paletteDone (s.cmdStart p 1 0x44 d.cid) p d
      (tileRead s p d.srcAddr.toNat 0x2000)).cmdEnd p d.cid 0 0).sendBound t.tile d.cid) := by
  have ⟨_, _, hdet, hsuspect, hchecks, _⟩ := hr
  change execPaletteLoad t d s = _
  unfold execPaletteLoad
  rw [hcheck]
  refine tileCmd_ends hr hp ?_
  have hread : tileRead (s.cmdStart p 1 0x44 d.cid) p d.srcAddr.toNat 0x2000 = tileRead s p d.srcAddr.toNat 0x2000 := by
    rw [tileRead, tileRead, State.cmdStart_mem]
  dsimp only
  rw [hread, settle_clean hdet hsuspect rfl (readDetections_clean ((State.cmdStart_checks ..).trans hchecks) _)]
  rfl

theorem paletteCheck_pair {d : PaletteDesc} (h : paletteCheck d = none) : d.pair.toNat < 8 := by
  unfold paletteCheck at h
  exact Nat.lt_of_not_le (of_decide_eq_false (firstFail_none h _ List.mem_cons_self))

/-- What a PALETTE_LOAD of the tables `b` leaves (R189). -/
theorem paletteDone_ended {d : PaletteDesc} (hcan : Canonical s) (hchecks : s.checks = []) (hpair : d.pair.toNat < 8) (b : Bytes) :
    let e := (paletteDone (s.cmdStart p 1 0x44 d.cid) p d b).cmdEnd p d.cid 0 0
    RanOn p s e ∧ e.mem = wrBytes s.mem (memKey p (paletteTable d.pair.toNat 0)) b ∧
      ∀ k, k < 8 → eLoOf (tileOf e p) k = if k = d.pair.toNat then d.eLo.toNat else eLoOf (tileOf s p) k := by
  obtain ⟨-, htiles, -⟩ := hcan
  have hstart := (State.cmdStart_checks s p 1 0x44 d.cid).trans hchecks
  have hdone : paletteDone (s.cmdStart p 1 0x44 d.cid) p d b = { (s.cmdStart p 1 0x44 d.cid).updTile p (putELo d.pair.toNat d.eLo) with
      mem := wrBytes s.mem (memKey p (paletteTable d.pair.toNat 0)) b } := by
    unfold paletteDone
    rw [tileWrite_clean hstart, State.cmdStart_mem]
    rfl
  refine ⟨ranOn_updTile htiles (putELo d.pair.toNat d.eLo) (by rw [hdone]; rfl) (by rw [hdone]) 0 0,
    (State.cmdEnd_mem ..).trans (congrArg State.mem hdone), fun k hk => ?_⟩
  rw [(tileOf_ended (unit := 1) (opcode := 0x44) htiles (putELo d.pair.toNat d.eLo) (by rw [hdone]) 0 0).1]
  refine (eLoOf_putELo _ _ hpair hk).trans ?_
  rw [cmdStart_tile htiles]
  rfl

/-- What a store of `b` leaves to read: `b` where it was put, and every byte elsewhere as before. -/
theorem reads_written {e : State} {a n : Nat} {b : Bytes} (hmem : Memory.wf s.mem = true) (he : e.mem = wrBytes s.mem (memKey p a) b)
    (hlen : b.length = n) : tileRead e p a n = b ∧
      ∀ k, k < memKey p a ∨ memKey p a + n ≤ k → rdByte e.mem k = rdByte s.mem k := by
  subst hlen
  unfold tileRead
  rw [he]
  exact ⟨rdBytes_wrBytes_same b hmem, fun k hk => rdByte_wrBytes_other b hmem hk⟩

theorem length_tileRead (s : State) (p a n : Nat) : (tileRead s p a n).length = n := by
  rw [tileRead, length_rdBytes]

/-- R189. -/
theorem paletteLoad_loads {d : PaletteDesc} (hcan : Canonical s) (hr : Safety.Runs t s) (hp : physOf s.repair t.tile = p)
    (hcheck : paletteCheck d = none) : ∃ e : State, exec (.paletteLoad t d) s = .next (e.sendBound t.tile d.cid) ∧
    RanOn p s e ∧ tileRead e p (paletteTable d.pair.toNat 0) 0x2000 = tileRead s p d.srcAddr.toNat 0x2000 ∧
    eLoOf (tileOf e p) d.pair.toNat = d.eLo.toNat ∧
    (∀ k, k < 8 → k ≠ d.pair.toNat → eLoOf (tileOf e p) k = eLoOf (tileOf s p) k) ∧
    ∀ a, a < memKey p (paletteTable d.pair.toNat 0) ∨ memKey p (paletteTable d.pair.toNat 0) + 0x2000 ≤ a →
      rdByte e.mem a = rdByte s.mem a := by
  have hpair := paletteCheck_pair hcheck
  have ⟨_, _, _, _, hchecks, _⟩ := hr
  obtain ⟨hran, hwritten, hlo⟩ := paletteDone_ended (p := p) hcan hchecks hpair (tileRead s p d.srcAddr.toNat 0x2000)
  obtain ⟨hread, hother⟩ := reads_written hcan.1 hwritten (length_tileRead ..)
  refine ⟨_, exec_paletteLoad hr hp hcheck, hran, hread, ?_, fun k hk hne => ?_, hother⟩
  · rw [hlo _ hpair, if_pos rfl]
  · rw [hlo k hk, if_neg hne]

theorem lossReport_empty {d : LossDesc} (htiles : smWf {} 0 s.tiles = true) (hr : Safety.Runs t s [.fill])
    (hp : physOf s.repair t.tile = p) (hcheck : lossCheck d = none) (hslot : s.step.current.slots.getD d.slot.toNat 0 = 0) :
    ∃ e : State, exec (.lossReport t d) s = .next (e.sendBound t.tile d.cid) ∧ RanOn p s e ∧ e.mem = s.mem := by
  refine ⟨(s.cmdStart p 1 0x43 d.cid).cmdEnd p d.cid 0 0, ?_, ranOn_started htiles .., by simp⟩
  change execLossReport t d s = _
  unfold execLossReport
  rw [hcheck]
  refine tileCmd_ends hr hp ?_
  dsimp only
  rw [State.cmdStart_step]
  exact if_pos hslot

/-- The work of a LOSS_REPORT whose slot is active: the loss `v` as read, in 32 bits (R190, R191). -/
def lossDone (u : State) (p slot v : Nat) : State :=
  { u.vecFlag p { nan := (fp32.decode v).isNan } with
    step := { u.step with
      loss := smPut none slot (some (BitVec.ofNat 32 v)) u.step.loss
      nfLoss := u.step.nfLoss || !(fp32.decode v).isFin
      nfLocal := u.step.nfLocal || !(fp32.decode v).isFin } }

theorem exec_lossReport {d : LossDesc} (hr : Safety.Runs t s [.fill]) (hp : physOf s.repair t.tile = p) (hcheck : lossCheck d = none)
    (hslot : s.step.current.slots.getD d.slot.toNat 0 ≠ 0) : ∃ flags, exec (.lossReport t d) s =
      .next (((lossDone (s.cmdStart p 1 0x43 d.cid) p d.slot.toNat (tileNum s p d.srcAddr.toNat 4)).cmdEnd p d.cid 0 flags).sendBound
        t.tile d.cid) := by
  have ⟨_, _, hdet, hsuspect, hchecks, _⟩ := hr
  refine ⟨vecFlagBits { nan := (fp32.decode (tileNum s p d.srcAddr.toNat 4)).isNan }, ?_⟩
  change execLossReport t d s = _
  unfold execLossReport
  rw [hcheck]
  refine tileCmd_ends hr hp ?_
  have hread : tileNum (s.cmdStart p 1 0x43 d.cid) p d.srcAddr.toNat 4 = tileNum s p d.srcAddr.toNat 4 := by
    rw [tileNum, tileNum, State.cmdStart_mem]
  dsimp only
  rw [hread, settle_clean hdet hsuspect rfl (readDetections_clean ((State.cmdStart_checks ..).trans hchecks) _)]
  refine (if_neg ?_).trans (if_neg fun h => h rfl)
  rw [State.cmdStart_step]
  exact hslot

theorem lossDone_ended (s : State) (p : Nat) (cid : BitVec 64) (slot v flags : Nat) :
    let e := (lossDone (s.cmdStart p 1 0x43 cid) p slot v).cmdEnd p cid 0 flags
    smGet none e.step.loss slot = some (BitVec.ofNat 32 v) ∧ e.mem = s.mem ∧ e = { s with
      tiles := e.tiles
      trace := e.trace
      draws := s.draws + 1
      step := { s.step with
        loss := e.step.loss
        nfLoss := s.step.nfLoss || !(fp32.decode v).isFin
        nfLocal := s.step.nfLocal || !(fp32.decode v).isFin } } := by
  intro e
  have hstep : e.step = { s.step with
      loss := smPut none slot (some (BitVec.ofNat 32 v)) s.step.loss
      nfLoss := s.step.nfLoss || !(fp32.decode v).isFin
      nfLocal := s.step.nfLocal || !(fp32.decode v).isFin } := by
    simp [e, lossDone]
  have hloss := congrArg Step.loss hstep
  refine ⟨?_, by simp [e, lossDone, State.vecFlag], State.eq_of_fields ?_⟩
  · rw [hloss]
    exact smGet_smPut_ne (Option.some_ne_none _) _
  · simp [e, lossDone, State.vecFlag]

end PaletteAndLoss

/-! ### SYNC_SIGNAL and SYNC_WAIT (R273, R282) -/

section SyncCommands

variable {s : State} {t : Site} {p : Nat} {d : SyncDesc}

/-- A message that leaves by a link on which no switch pends changes the links and what has been sent. -/
theorem zSend_steady {pb n : Nat} {m : ZMsg} (hid : s.boot.positionId ≠ 0xFFFF) (hlink : linkFor s pb = some n) (hs : Steady s) :
    ∃ ls, s.zSend pb m = { s with
      links := ls
      zOut := (n, m) :: s.zOut } := by
  obtain ⟨l, tr, ho, hsent⟩ := zSend_eq (m := m) hid hlink
  have hframe := (Posts.zSend s pb m).frame hs
  rw [hsent] at hframe
  exact ⟨l, hsent.trans hframe⟩

/-- The sync commands begin their work with a record of the object and the operation. -/
theorem syncStart_eq (s : State) (p opcode data : Nat) (cid : BitVec 64) : ∃ tr,
    (s.cmdStart p 3 opcode cid).traceAt 7 false (BitVec.ofNat 12 p) cid data = { s with
      tiles := (s.cmdStart p 3 opcode cid).tiles
      trace := tr } := by
  obtain ⟨tr, htrace⟩ := traceAt_eq (s.cmdStart p 3 opcode cid) 7 false (BitVec.ofNat 12 p) cid data
  refine ⟨tr, htrace.trans ?_⟩
  rw [cmdStart_frame]

/-- A SYNC_SIGNAL to a local head-end (R282). -/
theorem syncSignal_local (hr : Safety.Runs t s (.vote :: workPhases)) (hp : physOf s.repair t.tile = p)
    (hcheck : syncCheck true (smGet 0 s.prog.syncTable d.syncId.toNat) d = none) (hdest : d.destId = 0xFFFF) : ∃ e : State,
    exec (.syncSignal t d) s = .next (e.sendBound t.tile d.cid) ∧ e.mem = s.mem ∧ e = { s with
      tiles := e.tiles
      trace := e.trace
      draws := s.draws + 1
      rillOut := syncMsg (BitVec.ofNat 12 p) d.syncId.toNat d.op.toNat (low32 s.currentStep) d.operand :: s.rillOut } := by
  obtain ⟨tr, hstart⟩ := syncStart_eq s p 0x58 (d.syncId.toNat + 65536 * d.op.toNat) d.cid
  refine ⟨({ s with
      tiles := (s.cmdStart p 3 0x58 d.cid).tiles
      trace := tr
      rillOut := syncMsg (BitVec.ofNat 12 p) d.syncId.toNat d.op.toNat (low32 s.currentStep) d.operand :: s.rillOut } : State).cmdEnd
        p d.cid 0 0, ?_, State.cmdEnd_mem .., State.eq_of_fields (by simp)⟩
  change execSyncSignal t d s = _
  unfold execSyncSignal
  rw [hcheck]
  refine tileCmd_ends hr hp ?_
  dsimp only
  rw [hstart]
  refine (if_pos hdest).trans ?_
  rw [cmdStart_frame]
  rfl

/-- A SYNC_SIGNAL to a peer, with the bytes sent on its stream (R273). -/
theorem syncSignal_remote (hr : Safety.Runs t s (.vote :: workPhases)) (hp : physOf s.repair t.tile = p)
    (hcheck : syncCheck true (smGet 0 s.prog.syncTable d.syncId.toNat) d = none) {n : Nat} (hdest : d.destId ≠ 0xFFFF)
    (hs : Steady s) (hid : s.boot.positionId ≠ 0xFFFF) (hlink : linkFor s (colOf t.tile / 2) = some n) : ∃ e : State,
    exec (.syncSignal t d) s = .next (e.sendBound t.tile d.cid) ∧ e = { s with
      tiles := e.tiles
      trace := e.trace
      draws := s.draws + 1
      links := e.links
      sync := (s.progress (signalQueue (colOf t.tile / 2))).sync
      zOut := (n, ⟨d.destId, 0x30, d.destPb, signalBody (low32 s.currentStep) d.syncId d.channel.toNat d.op.toNat
        (smGet 0 (pbOf s (colOf t.tile / 2)).sentBytes (streamKey d.destId d.channel.toNat)) d.operand⟩) :: s.zOut } := by
  obtain ⟨tr, hstart⟩ := syncStart_eq s p 0x58 (d.syncId.toNat + 65536 * d.op.toNat) d.cid
  obtain ⟨ls, hsent⟩ := zSend_steady (s := { s with
      tiles := (s.cmdStart p 3 0x58 d.cid).tiles
      trace := tr }) (m := ⟨d.destId, 0x30, d.destPb, signalBody (low32 s.currentStep) d.syncId d.channel.toNat d.op.toNat
        (smGet 0 (pbOf s (colOf t.tile / 2)).sentBytes (streamKey d.destId d.channel.toNat)) d.operand⟩) hid hlink hs
  refine ⟨({ s with
      tiles := (s.cmdStart p 3 0x58 d.cid).tiles
      trace := tr
      links := ls
      sync := (s.progress (signalQueue (colOf t.tile / 2))).sync
      zOut := (n, ⟨d.destId, 0x30, d.destPb, signalBody (low32 s.currentStep) d.syncId d.channel.toNat d.op.toNat
        (smGet 0 (pbOf s (colOf t.tile / 2)).sentBytes (streamKey d.destId d.channel.toNat)) d.operand⟩) :: s.zOut } : State).cmdEnd
        p d.cid 0 0, ?_, State.eq_of_fields (by simp)⟩
  change execSyncSignal t d s = _
  unfold execSyncSignal
  rw [hcheck]
  refine tileCmd_ends hr hp ?_
  dsimp only
  rw [hstart]
  refine (if_neg hdest).trans ?_
  have hstep : low32 (s.cmdStart p 3 0x58 d.cid).currentStep = low32 s.currentStep := by
    rw [cmdStart_frame]
    rfl
  rw [hstep, pbOf_congr (State.cmdStart_pbs ..), hsent]
  rfl

/-- The work of a SYNC_WAIT, once its record `tr` is written: the sequencer waits, and the operation is sent (R282). -/
def syncWaited (s u : State) (p : Nat) (d : SyncDesc) (tr : Trace) : State := { s with
  tiles := (u.updTile p (fun x => { x with waiting := some d.syncId.toNat })).tiles
  trace := tr
  rillOut := syncMsg (BitVec.ofNat 12 p) d.syncId.toNat d.op.toNat (low32 s.currentStep) d.operand :: s.rillOut }

theorem syncWait_stops (htiles : smWf {} 0 s.tiles = true) (hr : Safety.Runs t s (.vote :: workPhases))
    (hp : physOf s.repair t.tile = p) (hcheck : syncCheck false (smGet 0 s.prog.syncTable d.syncId.toNat) d = none) : ∃ e : State,
    exec (.syncWait t d) s = .next (e.sendBound t.tile d.cid) ∧ (tileOf e p).waiting = some d.syncId.toNat ∧
    (∀ q, q ≠ p → tileOf e q = tileOf s q) ∧ e = { s with
      tiles := e.tiles
      trace := e.trace
      draws := s.draws + 1
      rillOut := syncMsg (BitVec.ofNat 12 p) d.syncId.toNat d.op.toNat (low32 s.currentStep) d.operand :: s.rillOut } := by
  obtain ⟨tr, hstart⟩ := syncStart_eq s p 0x59 (d.syncId.toNat + 65536 * d.op.toNat) d.cid
  have hended := tileOf_ended (unit := 3) (opcode := 0x59) (cid := d.cid) (u := syncWaited s (s.cmdStart p 3 0x59 d.cid) p d tr) htiles
    (fun x => { x with waiting := some d.syncId.toNat }) rfl 0 0
  refine ⟨(syncWaited s (s.cmdStart p 3 0x59 d.cid) p d tr).cmdEnd p d.cid 0 0, ?_, congrArg Tile.waiting hended.1, hended.2,
    State.eq_of_fields (by simp [syncWaited])⟩
  change execSyncWait t d s = _
  unfold execSyncWait
  rw [hcheck]
  refine tileCmd_ends hr hp ?_
  dsimp only
  rw [hstart, cmdStart_frame]
  rfl

end SyncCommands

/-- Settles O59: each body is one store, one entry or one message between the command's start and its end. -/
theorem paletteLossAndSync : Obligations.PaletteLossAndSync := by
  unfold Obligations.PaletteLossAndSync
  intro t s hcan p
  have ⟨_, htiles, _⟩ := hcan
  refine ⟨fun d hr hcheck => paletteLoad_loads hcan hr rfl hcheck, fun d hr hcheck => ?_, fun d hr hcheck => ⟨fun hdest => ?_, ?_⟩,
    fun d hr hcheck => syncWait_stops htiles hr rfl hcheck⟩
  · refine ⟨lossReport_empty htiles hr rfl hcheck, fun hslot => ?_⟩
    obtain ⟨flags, hexec⟩ := exec_lossReport hr rfl hcheck hslot
    exact ⟨_, hexec, lossDone_ended s p d.cid d.slot.toNat _ flags⟩
  · exact syncSignal_local hr rfl hcheck hdest
  · intro n hdest hs hid hlink
    exact syncSignal_remote hr rfl hcheck hdest hs hid hlink

/-! ### A tile command that ends in a Step-fatal code (R342) -/

section Faulting

variable {s u v : State} {t : Site} {p : Nat} {cid : BitVec 64} {c : Code}

/-- The discard of the step runs for `c` alone. -/
def DiscardsFor (c : Code) (v : State) : Prop := v.step.phase = .discarding ∧ v.arbiter.latched.map (·.code) = [c]

theorem DiscardsFor.congr (h : DiscardsFor c u) (hstep : v.step.phase = u.step.phase) (harb : v.arbiter = u.arbiter) :
    DiscardsFor c v := ⟨hstep.trans h.1, harb ▸ h.2⟩

theorem DiscardsFor.cmdEnd (h : DiscardsFor c u) (status : Code) (flags : Nat) : DiscardsFor c (u.cmdEnd p cid status flags) :=
  h.congr (congrArg Step.phase (State.cmdEnd_step ..)) (State.cmdEnd_arbiter ..)

/-- A command's fault begins the discard. -/
theorem discardsFor_tileFault (hd : CanDiscard u) {b : Nat}
    (hs : severityOf u.step.inProgress ⟨BitVec.ofNat 12 p, BitVec.ofNat 8 b⟩ 0 c = 3)
    (h9 : c ≠ 0x4009) (hA : c ≠ 0x400A) : DiscardsFor c (u.tileFault p b cid c) := by
  obtain ⟨tr, ho, hraise⟩ := raise_discard_eq (i := cid) (e := 0) hs hd h9 hA
  unfold State.tileFault
  rw [hraise]
  exact ⟨rfl, rfl⟩

theorem canDiscard_congr (h : CanDiscard s) (hu : u.step = s.step) : CanDiscard u := by
  unfold CanDiscard
  rw [hu]
  exact h

/-- A command whose body ends in a status is ended without its outgoing flits. -/
theorem tileCmd_fails {during : List Phase} (hr : Safety.Runs t s during) (hp : physOf s.repair t.tile = p) {opcode unit flags : Nat}
    {body : Site → Nat → State → Done} (hc : c ≠ 0)
    (hb : body t p (s.cmdStart p unit opcode cid) = { state := u, status := c, flags := flags }) :
    tileCmd t cid opcode unit none body s during = .next (u.cmdEnd p cid c flags) := by
  obtain ⟨htile, hissues, -, -, -, hpoison⟩ := hr
  rw [tileCmd_issued htile hissues hpoison hp, hb]
  exact congrArg Host.Outcome.next (if_neg hc)

/-- A command that does nothing but end in a Step-fatal code. -/
theorem tileCmd_faults {during : List Phase} (hr : Safety.Runs t s during) (hp : physOf s.repair t.tile = p) (hd : CanDiscard s)
    {opcode unit flags b : Nat} {body : Site → Nat → State → Done}
    (hs : severityOf u.step.inProgress ⟨BitVec.ofNat 12 p, BitVec.ofNat 8 b⟩ 0 c = 3) (hc : c ≠ 0 ∧ c ≠ 0x4009 ∧ c ≠ 0x400A)
    (hu : u.step = s.step ∧ u.mem = s.mem)
    (hb : body t p (s.cmdStart p unit opcode cid) = { state := u.tileFault p b cid c, status := c, flags := flags }) :
    ∃ e : State, tileCmd t cid opcode unit none body s during = .next e ∧ Faulted s e c := by
  obtain ⟨hzero, h9, hA⟩ := hc
  obtain ⟨hphase, hlatched⟩ :=
    (discardsFor_tileFault (cid := cid) (canDiscard_congr hd hu.1) hs h9 hA).cmdEnd (p := p) (cid := cid) c flags
  refine ⟨_, tileCmd_fails hr hp hzero hb, hphase, hlatched, ?_⟩
  rw [State.cmdEnd_mem, State.tileFault_mem, hu.2]

end Faulting

/-! ### Canvas images (O53, R96, R97) -/

section CanvasImages

variable {s u : State} {t : Site} {p : Nat} {d : DenseDesc}

theorem length_pairBytes (m : SMap Pair) (k : Nat) : (pairBytes m k).length = 32 := by
  simp [pairBytes]

theorem length_runBytes (r : Run) : (runBytes r).length = 32 := by
  simp [runBytes, zeros]

/-- The size of a canvas image (Table 4-10). -/
theorem length_canvasImage (c : Canvas) : (canvasImage c).length = 139328 := by
  unfold canvasImage
  simp only [List.length_append, length_flatMap_const (fun k => length_leBytes 8 _), length_flatMap_const (length_pairBytes _),
    length_pairBytes, length_runBytes]

theorem canvasOf_setCanvas_same (x : Tile) (b : Bool) (c : Canvas) : canvasOf (x.setCanvas b c) b = c := by
  cases b <;> rfl

theorem canvasOf_setCanvas_other (x : Tile) (b : Bool) (c : Canvas) : canvasOf (x.setCanvas b c) (!b) = canvasOf x (!b) := by
  cases b <;> rfl

/-- A canvas put back where it is. -/
theorem canvasOf_setCanvas_self (x : Tile) (b b' : Bool) : canvasOf (x.setCanvas b (canvasOf x b)) b' = canvasOf x b' := by
  cases b <;> cases b' <;> rfl

theorem canvasOf_strata (x : Tile) (b : Bool) (y : Strata) : canvasOf { x with strata := y } b = canvasOf x b := rfl

/-- The start of a command leaves the canvases. -/
theorem canvasOf_cmdStart (hw : smWf {} 0 s.tiles = true) (unit opcode : Nat) (cid : BitVec 64) (b : Bool) :
    canvasOf (tileOf (s.cmdStart p unit opcode cid) p) b = canvasOf (tileOf s p) b := by
  rw [cmdStart_tile hw]
  rfl

/-- A tile's record changed and bytes stored in it. -/
theorem tileWrite_updTile (h : u.checks = []) (f : Tile → Tile) (a : Nat) (b : Bytes) : (u.updTile p f).tileWrite p a b = { u with
    mem := wrBytes u.mem (memKey p a) b
    tiles := (u.updTile p f).tiles } := tileWrite_clean (s := u.updTile p f) h p a b

/-- CANVAS_SAVE: the image goes to memory, and the canvas stays (R96). -/
theorem canvasSave_saves (hcan : Canonical s) (hr : Safety.Runs t s) (hp : physOf s.repair t.tile = p)
    (hcheck : denseImageCheck d true = none) (hfault : writeFault s p d.dBase.toNat 139328 = none) : ∃ e : State,
    exec (.canvasSave t d) s = .next (e.sendBound t.tile d.cid) ∧ RanOn p s e ∧
    e.mem = wrBytes s.mem (memKey p d.dBase.toNat) (canvasImage (canvasOf (tileOf s p) (d.control.getLsbD 0))) ∧
    ∀ b, canvasOf (tileOf e p) b = canvasOf (tileOf s p) b := by
  obtain ⟨-, hw, -⟩ := hcan
  have ⟨_, _, hdet, hsuspect, hchecks, _⟩ := hr
  generalize hwhich : d.control.getLsbD 0 = which
  generalize hc : canvasOf (tileOf s p) which = c
  have hsame : canvasOf (tileOf (s.cmdStart p 0 0x18 d.cid) p) which = c := (canvasOf_cmdStart hw ..).trans hc
  let v := ((s.cmdStart p 0 0x18 d.cid).updTile p (fun x => x.setCanvas which c)).tileWrite p d.dBase.toNat (canvasImage c)
  have hv : v = { s.cmdStart p 0 0x18 d.cid with
      mem := wrBytes s.mem (memKey p d.dBase.toNat) (canvasImage c)
      tiles := ((s.cmdStart p 0 0x18 d.cid).updTile p (fun x => x.setCanvas which c)).tiles } := by
    rw [← State.cmdStart_mem s p 0 0x18 d.cid]
    exact tileWrite_updTile ((State.cmdStart_checks ..).trans hchecks) ..
  have hended := tileOf_ended (u := v) (unit := 0) (opcode := 0x18) (cid := d.cid) hw (fun x => x.setCanvas which c) (by rw [hv]) 0 0
  refine ⟨v.cmdEnd p d.cid 0 0, ?_, ranOn_updTile hw _ (by rw [hv]) (by rw [hv]) 0 0, ?_, fun b => ?_⟩
  · change execCanvasSave t d s = _
    unfold execCanvasSave
    rw [hcheck]
    refine tileCmd_ends hr hp ?_
    dsimp only
    rw [writeFault_cmdStart _ _ _ hw, hfault, hwhich, hsame]
    dsimp only
    rw [settle_clean hdet hsuspect rfl rfl]
    rfl
  · rw [State.cmdEnd_mem, hv]
  · rw [hended.1, canvasOf_strata]
    subst hsame
    rw [canvasOf_setCanvas_self, canvasOf_cmdStart hw]

/-- Executions in which nothing is detected take no refire. -/
theorem refireAll_clean (hdet : t.det = []) (b : Nat) (cid : BitVec 64) (done : Nat) :
    u.refireAll p b cid done (attempts u.budget t.det []) = (u, done, 0) := by
  rw [attempts_none, hdet]
  rfl

/-- The run that a CANVAS_RESTORE opens: the one its image describes, with what the command has read (R97). -/
def restoredRun (d : DenseDesc) (run : Run) : Run := { run with
  refires := 0
  reads := [⟨d.aBase.toNat, 0, 139328, 1⟩]
  suspect := false }

/-- CANVAS_RESTORE: the canvas becomes the one its image describes (R97). -/
theorem canvasRestore_restores (hcan : Canonical s) (hr : Safety.Runs t s) (hp : physOf s.repair t.tile = p) {run : Run}
    (hcheck : denseImageCheck d false = none)
    (hrun : readRun (s.cmdStart p 0 0x19 d.cid) p (d.aBase.toNat + 0x22020) = some run) : ∃ e : State,
    exec (.canvasRestore t d) s = .next (e.sendBound t.tile d.cid) ∧ RanOn p s e ∧ e.mem = s.mem ∧
    canvasOf (tileOf e p) (d.control.getLsbD 0) = readCanvas (s.cmdStart p 0 0x19 d.cid) p d.aBase.toNat (restoredRun d run) ∧
    canvasOf (tileOf e p) (!d.control.getLsbD 0) = canvasOf (tileOf s p) (!d.control.getLsbD 0) := by
  obtain ⟨-, hw, -⟩ := hcan
  have ⟨_, _, hdet, hsuspect, hchecks, _⟩ := hr
  have hclean := readDetections_clean (p := p) ((State.cmdStart_checks s p 0 0x19 d.cid).trans hchecks)
  let c := readCanvas (s.cmdStart p 0 0x19 d.cid) p d.aBase.toNat (restoredRun d run)
  let v := (s.cmdStart p 0 0x19 d.cid).updTile p (fun x => x.setCanvas (d.control.getLsbD 0) c)
  have hended := tileOf_ended (u := v) (unit := 0) (opcode := 0x19) (cid := d.cid) hw (fun x => x.setCanvas (d.control.getLsbD 0) c)
    rfl 0 0
  refine ⟨v.cmdEnd p d.cid 0 0, ?_, ranOn_updTile hw _ rfl rfl 0 0, ?_, ?_, ?_⟩
  · change execCanvasRestore t d s = _
    unfold execCanvasRestore
    rw [hcheck]
    refine tileCmd_ends hr hp ?_
    dsimp only
    rw [hrun]
    dsimp only
    rw [hclean, refireAll_clean hdet, hsuspect]
    rfl
  · rw [State.cmdEnd_mem, State.updTile_mem, State.cmdStart_mem]
  · rw [hended.1, canvasOf_strata, canvasOf_setCanvas_same]
  · rw [hended.1, canvasOf_strata, canvasOf_setCanvas_other, canvasOf_cmdStart hw]

/-- A run state that breaks Table 4-11 ends a CANVAS_RESTORE in 0x210A (R97). -/
theorem canvasRestore_fails (hr : Safety.Runs t s) (hp : physOf s.repair t.tile = p) (hcheck : denseImageCheck d false = none)
    (hrun : readRun (s.cmdStart p 0 0x19 d.cid) p (d.aBase.toNat + 0x22020) = none) (hd : CanDiscard s) :
    ∃ e : State, exec (.canvasRestore t d) s = .next e ∧ Faulted s e 0x210A := by
  change ∃ e : State, execCanvasRestore t d s = _ ∧ _
  unfold execCanvasRestore
  rw [hcheck]
  refine tileCmd_faults hr hp hd (b := 1) (u := s.cmdStart p 0 0x19 d.cid) rfl (by decide) (by simp) (flags := 0) ?_
  dsimp only
  rw [hrun]

end CanvasImages

/-- Settles O53: a save puts back the canvas that it stores, and a restore replaces one canvas of its tile. -/
theorem canvasImages : Obligations.CanvasImages := by
  unfold Obligations.CanvasImages
  intro t d s hr hcan p which u
  refine ⟨fun hcheck hfault => ?_, fun run hcheck hrun => canvasRestore_restores hcan hr rfl hcheck hrun,
    fun hcheck hrun hd => canvasRestore_fails hr rfl hcheck hrun hd⟩
  obtain ⟨e, hexec, hran, hmem, hsame⟩ := canvasSave_saves hcan hr rfl hcheck hfault
  exact ⟨e, hexec, hran, hmem, length_canvasImage _, hsame⟩

/-! ### RECV_ADD (O58, R210, R211) -/

section RecvAdd

variable {s u v : State} {t : Site} {d : RecvDesc} {p : Nat} {data : Bytes}

theorem Flags.or_assoc (a b c : Flags) : (a.or b).or c = a.or (b.or c) := by
  simp only [Flags.or, Bool.or_assoc]

theorem Flags.or_none (a : Flags) : a.or {} = a := by
  simp only [Flags.or, Bool.or_false]

/-- The bytes that the members of a list give, one after another, and the flags that any of them sets. -/
def gather {α : Type} (g : α → Bytes × Flags) (l : List α) (acc : Bytes × Flags) : Bytes × Flags :=
  l.foldl (fun acc i => (acc.1 ++ (g i).1, acc.2.or (g i).2)) acc

theorem gather_start {α : Type} (g : α → Bytes × Flags) : ∀ (l : List α) (acc : Bytes × Flags),
    gather g l acc = (acc.1 ++ (gather g l ([], {})).1, acc.2.or (gather g l ([], {})).2)
  | [], acc => by
    change acc = (acc.1 ++ [], acc.2.or {})
    rw [List.append_nil, Flags.or_none]
  | x :: r, acc => by
    change gather g r (acc.1 ++ (g x).1, acc.2.or (g x).2) = (acc.1 ++ (gather g r (g x)).1, acc.2.or (gather g r (g x)).2)
    rw [gather_start g r (_, _), gather_start g r (g x), List.append_assoc, Flags.or_assoc]

theorem gather_append {α : Type} (g : α → Bytes × Flags) (l r : List α) : gather g (l ++ r) ([], {}) =
    ((gather g l ([], {})).1 ++ (gather g r ([], {})).1, (gather g l ([], {})).2.or (gather g r ([], {})).2) :=
  List.foldl_append.trans (gather_start g r _)

/-- The sum that element `i` takes, and its flags. -/
def recvElem (s : State) (p : Nat) (d : RecvDesc) (data : Bytes) (i : Nat) : Bytes × Flags :=
  let w := recvBytes d.format.toNat
  let r := recvSum d.format.toNat (d.flags.getLsbD 0) (tileNum s p (d.dst.toNat + i * w) w) (fieldAt data (i * w) w)
  (leBytes w r.1, r.2)

theorem recvCompute_eq (s : State) (p : Nat) (d : RecvDesc) (data : Bytes) (a n : Nat) : recvCompute s p d data a n =
    gather (recvElem s p d data) ((List.range n).map (a + ·)) ([], {}) := rfl

theorem recvCompute_add (s : State) (p : Nat) (d : RecvDesc) (data : Bytes) (a n m : Nat) : recvCompute s p d data a (n + m) =
    ((recvCompute s p d data a n).1 ++ (recvCompute s p d data (a + n) m).1,
      (recvCompute s p d data a n).2.or (recvCompute s p d data (a + n) m).2) := by
  have hlist : (List.range (n + m)).map (a + ·) = (List.range n).map (a + ·) ++ (List.range m).map (a + n + ·) := by
    simp [List.range_add, Function.comp_def, Nat.add_assoc]
  simp only [recvCompute_eq]
  rw [hlist, gather_append]

theorem length_recvCompute (s : State) (p : Nat) (d : RecvDesc) (data : Bytes) (a n : Nat) :
    (recvCompute s p d data a n).1.length = n * recvBytes d.format.toNat := by
  rw [recvCompute_eq, gather, foldl_append_fst (recvElem s p d data), List.nil_append, List.length_flatMap]
  simp [recvElem, Function.comp_def]

/-- Sums look at their own elements only: those before them may have been written. -/
theorem recvCompute_after {x : Bytes} {a n : Nat} (hmem : Memory.wf s.mem = true) (hx : x.length = n * recvBytes d.format.toNat)
    (hu : u.mem = wrBytes s.mem (memKey p (d.dst.toNat + a * recvBytes d.format.toNat)) x) (m : Nat) :
    recvCompute u p d data (a + n) m = recvCompute s p d data (a + n) m := by
  rw [recvCompute_eq, recvCompute_eq]
  refine List.foldl_ext _ _ _ fun acc i hi => ?_
  obtain ⟨j, -, rfl⟩ := List.mem_map.mp hi
  have hread : tileNum u p (d.dst.toNat + (a + n + j) * recvBytes d.format.toNat) (recvBytes d.format.toNat) =
      tileNum s p (d.dst.toNat + (a + n + j) * recvBytes d.format.toNat) (recvBytes d.format.toNat) := by
    unfold tileNum rdLE
    rw [hu, rdBytes_wrBytes_other x hmem _ (.inr ?_)]
    rw [hx]
    simp only [memKey, Nat.add_mul]
    omega
  simp only [recvElem, hread]

/-- From `u` to `v` a tile has written `b` at an address of its own and set flags in its vector status. -/
structure Receives (p a : Nat) (b : Bytes) (f : Flags) (u v : State) : Prop where
  frame : v = { u with
    mem := wrBytes u.mem (memKey p a) b
    tiles := v.tiles }
  wf : smWf {} 0 v.tiles = true
  tile : tileOf v p = { tileOf u p with
    vecOvf := (tileOf u p).vecOvf || f.ovf
    vecNan := (tileOf u p).vecNan || f.nan
    vecSat := (tileOf u p).vecSat || f.sat }
  other : ∀ q, q ≠ p → tileOf v q = tileOf u q

theorem Receives.nothing (hw : smWf {} 0 u.tiles = true) (p a : Nat) : Receives p a [] {} u u where
  frame := rfl
  wf := hw
  tile := by simp
  other _ _ := rfl

theorem Receives.trans {a : Nat} {b b' : Bytes} {f f' : Flags} {w : State} (h : Receives p a b f u v)
    (g : Receives p (a + b.length) b' f' v w) : Receives p a (b ++ b') (f.or f') u w where
  frame := by
    rw [g.frame, h.frame, wrBytes_append]
    simp only [memKey, Nat.add_assoc]
  wf := g.wf
  tile := by
    rw [g.tile, h.tile]
    simp only [Flags.or, Bool.or_assoc]
  other q hq := (g.other q hq).trans (h.other q hq)

/-- A pass in which nothing is detected. -/
theorem recvPass_clean (hdet : t.det = []) (hsuspect : t.suspect = []) (hchecks : u.checks = []) (hw : smWf {} 0 u.tiles = true)
    (k : Nat) : ∃ v f, u.recvPass t p d data k = (0, { state := v, flags := f }) ∧
      Receives p (d.dst.toNat + 256 * k * recvBytes d.format.toNat)
        (recvCompute u p d data (256 * k) (min 256 (d.count.toNat - 256 * k))).1
        (recvCompute u p d data (256 * k) (min 256 (d.count.toNat - 256 * k))).2 u v := by
  unfold State.recvPass
  dsimp only
  rw [settle_clean hdet hsuspect rfl (readDetections_clean hchecks _)]
  generalize recvCompute u p d data (256 * k) (min 256 (d.count.toNat - 256 * k)) = out
  refine ⟨_, _, congrArg (Prod.mk 0) (if_neg fun h => h rfl), ?_, tilesWf_updTile _ hw, ?_, fun q hq => ?_⟩
  · rw [tileWrite_clean hchecks]
    rfl
  · exact tileOf_updTile_same (s := u.tileWrite ..) _ hw
  · exact tileOf_updTile_other (s := u.tileWrite ..) _ hw hq

/-- R211: the passes together add what one pass over all the elements would. -/
theorem recvPasses_clean {site : Nat → Site} {d : RecvDesc} {data : Bytes} {p : Nat}
    (hsite : ∀ k, (site k).det = [] ∧ (site k).suspect = [])
    : ∀ (m k : Nat) (u : State),
    u.checks = [] → Memory.wf u.mem = true → smWf {} 0 u.tiles = true → d.count.toNat - 256 * k ≤ 256 * m →
    ∃ v f, u.recvPasses site p d data (List.range' k m) = (0, { state := v, flags := f }) ∧
      Receives p (d.dst.toNat + 256 * k * recvBytes d.format.toNat) (recvCompute u p d data (256 * k) (d.count.toNat - 256 * k)).1
        (recvCompute u p d data (256 * k) (d.count.toNat - 256 * k)).2 u v
  | 0, k, u, _, _, hw, hrest => by
    rw [show d.count.toNat - 256 * k = 0 by omega]
    exact ⟨u, 0, rfl, .nothing hw ..⟩
  | m + 1, k, u, hchecks, hmem, hw, hrest => by
    obtain ⟨hdet, hsuspect⟩ := hsite k
    obtain ⟨v, f, hpass, hv⟩ := recvPass_clean (p := p) (d := d) (data := data) hdet hsuspect hchecks hw k
    have hlen := length_recvCompute u p d data (256 * k) (min 256 (d.count.toNat - 256 * k))
    have hvmem : v.mem = wrBytes u.mem _ _ := congrArg State.mem hv.frame
    obtain ⟨z, g, hrun, hz⟩ := recvPasses_clean (d := d) (data := data) (p := p) hsite m (k + 1) v
      (by rw [hv.frame]; exact hchecks) (by rw [hvmem]; exact wrBytes_wf _ _ hmem) hv.wf (by omega)
    refine ⟨z, f ||| g, ?_, ?_⟩
    · rw [List.range'_succ]
      unfold State.recvPasses
      rw [hpass]
      refine (if_neg fun h => h rfl).trans ?_
      dsimp only
      rw [hrun]
      rfl
    · obtain hfew | hfull := Nat.lt_or_ge (d.count.toNat - 256 * k) 256
      · rw [show d.count.toNat - 256 * (k + 1) = 0 by omega] at hz
        rw [show min 256 (d.count.toNat - 256 * k) = d.count.toNat - 256 * k by omega] at hv
        have hlast : Receives p (d.dst.toNat + 256 * k * recvBytes d.format.toNat +
            (recvCompute u p d data (256 * k) (d.count.toNat - 256 * k)).1.length) [] {} v z := ⟨hz.frame, hz.wf, hz.tile, hz.other⟩
        have hall := hv.trans hlast
        rwa [List.append_nil, Flags.or_none] at hall
      · rw [show min 256 (d.count.toNat - 256 * k) = 256 by omega] at hv hlen hvmem
        rw [show d.count.toNat - 256 * k = 256 + (d.count.toNat - 256 * (k + 1)) by omega, recvCompute_add]
        rw [show 256 * (k + 1) = 256 * k + 256 by omega, recvCompute_after hmem hlen hvmem] at hz
        refine hv.trans ?_
        rw [hlen, Nat.add_assoc, ← Nat.add_mul]
        exact hz

theorem recvCompute_congr (h : u.mem = s.mem) (d : RecvDesc) (data : Bytes) (a n : Nat) :
    recvCompute u p d data a n = recvCompute s p d data a n := by
  simp only [recvCompute, tileNum, h]

theorem recvFlits_congr (h : u.program = s.program) (tile : Nat) (d : RecvDesc) : recvFlits u tile d = recvFlits s tile d := by
  simp only [recvFlits, State.prog, h]

/-- A RECV_ADD waits for its flits (R210). -/
theorem recvAdd_waits (hr : Safety.Runs t s) (hp : physOf s.repair t.tile = p) (hcheck : recvCheck d = none)
    (hshort : (tileOf s p).inbox.length < 128 * recvFlits s t.tile d) : exec (.recvAdd t ⟨d, []⟩) s = .next s := by
  obtain ⟨-, hissues, -⟩ := hr
  subst hp
  exact if_pos ⟨hissues, hcheck, hshort⟩

/-- A RECV_ADD whose flits have come adds and takes them (R210, R211). -/
theorem recvAdd_adds (hcan : Canonical s) (hr : Safety.Runs t s) (hp : physOf s.repair t.tile = p) (hcheck : recvCheck d = none)
    {n : Nat} (hn : 128 * recvFlits s t.tile d = n) (hthere : n ≤ (tileOf s p).inbox.length)
    (hfault : writeFault s p d.dst.toNat (d.count.toNat * recvBytes d.format.toNat) = none) {out : Bytes × Flags}
    (hout : recvCompute s p d ((tileOf s p).inbox.take n) 0 d.count.toNat = out) : ∃ e : State,
    exec (.recvAdd t ⟨d, []⟩) s = .next (e.sendBound t.tile d.cid) ∧ RanOn p s e ∧
    e.mem = wrBytes s.mem (memKey p d.dst.toNat) out.1 ∧ out.1.length = d.count.toNat * recvBytes d.format.toNat ∧
    (tileOf e p).inbox = (tileOf s p).inbox.drop n ∧ (tileOf e p).vecSat = ((tileOf s p).vecSat || out.2.sat) ∧
    (tileOf e p).vecOvf = ((tileOf s p).vecOvf || out.2.ovf) ∧ (tileOf e p).vecNan = ((tileOf s p).vecNan || out.2.nan) := by
  obtain ⟨hmem, hw, -⟩ := hcan
  have ⟨_, _, hdet, hsuspect, hchecks, _⟩ := hr
  have hws := tilesWf_cmdStart (p := p) 1 0x50 d.cid hw
  have hinbox : (tileOf (s.cmdStart p 1 0x50 d.cid) p).inbox = (tileOf s p).inbox := by
    rw [cmdStart_tile hw]
  have htaken := tileOf_updTile_same (p := p) (fun x => { x with inbox := x.inbox.drop n }) hws
  obtain ⟨v, f, hrun, hv⟩ := recvPasses_clean (site := passSite t []) (d := d) (data := (tileOf s p).inbox.take n) (p := p)
    (fun k => by unfold passSite; split <;> simp [hdet, hsuspect]) ((d.count.toNat + 255) / 256) 0
    ((s.cmdStart p 1 0x50 d.cid).updTile p (fun x => { x with inbox := x.inbox.drop n }))
    ((State.cmdStart_checks ..).trans hchecks) (by rw [State.updTile_mem, State.cmdStart_mem]; exact hmem)
    (tilesWf_updTile _ hws) (by omega)
  rw [recvCompute_congr ((State.updTile_mem ..).trans (State.cmdStart_mem ..)), Nat.mul_zero, Nat.sub_zero, hout, Nat.zero_mul,
    Nat.add_zero] at hv
  have hvmem : v.mem = wrBytes s.mem (memKey p d.dst.toNat) out.1 := by
    rw [hv.frame, State.updTile_mem, State.cmdStart_mem]
  have hetile := cmdEnd_tile (p := p) hv.wf d.cid 0 f
  rw [hv.tile, htaken, cmdStart_tile hw] at hetile
  refine ⟨v.cmdEnd p d.cid 0 f, ?_, ranOn_of_body (unit := 1) (opcode := 0x50) hw hv.wf (by rw [hv.frame]; rfl) (fun q hq => ?_)
    0 f, ?_,
    hout ▸ length_recvCompute .., congrArg Tile.inbox hetile, congrArg Tile.vecSat hetile, congrArg Tile.vecOvf hetile,
    congrArg Tile.vecNan hetile⟩
  · refine (if_neg fun h => Nat.not_lt.mpr hthere ?_).trans ?_
    · rw [← hn, ← hp]
      exact h.2.2
    · rw [hcheck]
      refine tileCmd_ends hr hp ?_
      dsimp only
      rw [writeFault_cmdStart _ _ _ hw, hfault, recvFlits_congr (State.cmdStart_program ..), hn, hinbox]
      dsimp only
      rw [List.range_eq_range', hrun]
      rfl
  · rw [hv.other q hq, tileOf_updTile_other _ hws hq]
  · rw [State.cmdEnd_mem, hvmem]

end RecvAdd

/-! ### OPT_STEP (O58, R197, R201 to R203) -/

section OptStep

variable {s : State} {t : Site} {d : OptDesc} {p : Nat}

/-- The pages that an OPT_STEP touches under the shard of its tile. -/
def optTouches (s : State) (t : Site) (d : OptDesc) : List Nat := optPages (s.tileProg t.tile).shard d

/-- The passes of an OPT_STEP: what each writes, and its flags. -/
def optPasses (s : State) (p : Nat) (t : Site) (d : OptDesc) : List (List (Nat × Bytes) × Flags) :=
  (List.range (d.count.toNat / 256)).map (passWrites s p t.tile d)

def passFlags (l : List (List (Nat × Bytes) × Flags)) : Flags := l.foldl (fun f x => f.or x.2) {}

theorem execOptStep_waits (hr : Safety.Runs t s [.reduce, .commit]) (hcheck : optCheck d = none)
    (hfits : d.paramIndex.toNat + d.count.toNat ≤ (s.tileProg t.tile).shard.params)
    (hwait : s.touchWaits t.tile (optTouches s t d) = true) : execOptStep t d s = .next (s.touchWait t.tile d.cid) := by
  obtain ⟨-, hissues, -⟩ := hr
  refine if_pos ⟨hissues, ?_, hwait⟩
  rw [hcheck]
  exact if_neg (Nat.not_lt.mpr hfits)

/-- The work of an OPT_STEP that touches the pages `lps`, once its wait is over. -/
def optBody (d : OptDesc) (lps : List Nat) (t : Site) (p : Nat) (s : State) : Done :=
  if lps.any (fun lp => (s.pageOf true t.tile lp).isNone) then
    { state := s.tileFault p 10 d.cid 0x2203, status := 0x2203 }
  else
    let r := s.settleShard t p lps
      { block := 5, cid := d.cid, computed := readDetections s p (optSpans s t.tile d)
        result := (optPasses s p t d).flatMap (fun x => x.1.flatMap (·.2)) }
    let s1 := r.1.vecRefired p r.2.1
    if r.2.2 ≠ 0 then { state := s1, status := r.2.2 }
    else
      { state := (shardWrites t.tile ((optPasses s p t d).flatMap (·.1)) s1).vecFlag p (passFlags (optPasses s p t d))
        flags := vecFlagBits (passFlags (optPasses s p t d)) }

theorem execOptStep_issued (hcheck : optCheck d = none)
    (hfits : d.paramIndex.toNat + d.count.toNat ≤ (s.tileProg t.tile).shard.params)
    (hwait : s.touchWaits t.tile (optTouches s t d) = false) : execOptStep t d s =
    tileCmd t d.cid 0x48 1 none (fun t' p u => optBody d (optTouches s t d) t' p (u.updTile p (fun x => { x with touching := false })))
      s [.reduce, .commit] := by
  unfold execOptStep
  dsimp only
  rw [hcheck]
  dsimp only
  rw [if_neg (Nat.not_lt.mpr hfits)]
  refine (if_neg fun h => ?_).trans ?_
  · exact Bool.false_ne_true (hwait.symm.trans h.2.2)
  · rfl

theorem passWrites_retile (ts : SMap Tile) (tr : Trace) (s : State) (p t : Nat) (d : OptDesc) (k : Nat) :
    passWrites (retile ts tr s) p t d k = passWrites s p t d k := rfl

theorem optPasses_retile (ts : SMap Tile) (tr : Trace) (s : State) (p : Nat) (t : Site) (d : OptDesc) :
    optPasses (retile ts tr s) p t d = optPasses s p t d := by
  unfold optPasses
  exact List.map_congr_left fun k _ => passWrites_retile ts tr s p t.tile d k

/-- The pages found, and nothing detected: the writes of the passes, and their flags. -/
theorem optBody_retile {lps : List Nat} (hr : Safety.Runs t s [.reduce, .commit])
    (hpages : lps.any (fun lp => (s.pageOf true t.tile lp).isNone) = false) (ts : SMap Tile) (tr : Trace) :
    optBody d lps t p (retile ts tr s) =
      { state := (retile ts tr (shardWrites t.tile ((optPasses s p t d).flatMap (·.1)) s)).vecFlag p (passFlags (optPasses s p t d))
        flags := vecFlagBits (passFlags (optPasses s p t d)) } := by
  have ⟨_, _, hdet, hsuspect, hchecks, _⟩ := hr
  unfold optBody
  refine (if_neg (by rw [Bool.not_eq_true]; exact hpages)).trans ?_
  rw [readDetections_clean (s := retile ts tr s) hchecks, settleShard_clean hdet hsuspect rfl rfl, optPasses_retile]
  refine (if_neg fun h => h rfl).trans ?_
  rw [← shardWrites_retile]
  rfl

/-- A page that the page table does not yield ends an OPT_STEP in 0x2203. -/
theorem optStep_fails (hr : Safety.Runs t s [.reduce, .commit]) (hp : physOf s.repair t.tile = p) (hcheck : optCheck d = none)
    (hfits : d.paramIndex.toNat + d.count.toNat ≤ (s.tileProg t.tile).shard.params)
    (hwait : s.touchWaits t.tile (optTouches s t d) = false)
    (hpages : (optTouches s t d).any (fun lp => (s.pageOf true t.tile lp).isNone) = true) (hd : CanDiscard s) :
    ∃ e : State, exec (.optStep t d) s = .next e ∧ Faulted s e 0x2203 := by
  obtain ⟨tr, hstart⟩ := startTouched_eq s p 1 0x48 d.cid
  change ∃ e : State, execOptStep t d s = _ ∧ _
  rw [execOptStep_issued hcheck hfits hwait]
  refine tileCmd_faults hr hp hd (b := 10) (u := startTouched p 1 0x48 d.cid s) rfl (by decide) (by rw [hstart]; exact ⟨rfl, rfl⟩)
    (flags := 0) ?_
  change optBody d (optTouches s t d) t p (startTouched p 1 0x48 d.cid s) = _
  rw [hstart]
  exact if_pos hpages

/-- The state that an OPT_STEP leaves whose passes write `l` and set the flags `fl`: generation C + 1 has what they write. -/
def optDone (p : Nat) (t : Site) (d : OptDesc) (tr : Trace) (l : List (Nat × Bytes)) (fl : Flags) (s : State) : State :=
  ((retile (startTouched p 1 0x48 d.cid s).tiles tr (shardWrites t.tile l s)).vecFlag p fl).cmdEnd p d.cid 0 (vecFlagBits fl)

theorem optDone_ended (hw : smWf {} 0 s.tiles = true) (hchecks : s.checks = []) (tr : Trace) (l : List (Nat × Bytes)) (fl : Flags) :
    let e := optDone p t d tr l fl s
    e.mem = (shardWrites t.tile l s).mem ∧ e.pages = (shardWrites t.tile l s).pages ∧
      (tileOf e p).vecOvf = ((tileOf s p).vecOvf || fl.ovf) ∧ (tileOf e p).vecNan = ((tileOf s p).vecNan || fl.nan) ∧
      (tileOf e p).vecSat = ((tileOf s p).vecSat || fl.sat) ∧ (∀ q, q ≠ p → tileOf e q = tileOf s q) ∧ e = { s with
        mem := e.mem
        pages := e.pages
        tiles := e.tiles
        trace := e.trace
        draws := s.draws + 1 } := by
  intro e
  have hstored := storedOnly_shardWrites t.tile l hchecks
  have hws := tilesWf_startTouched (p := p) 1 0x48 d.cid hw
  have hwf : smWf {} 0 ((retile (startTouched p 1 0x48 d.cid s).tiles tr (shardWrites t.tile l s)).vecFlag p fl).tiles = true :=
    tilesWf_updTile _ hws
  have hstart : tileOf (startTouched p 1 0x48 d.cid s) p = { tileOf (s.cmdStart p 1 0x48 d.cid) p with touching := false } :=
    tileOf_updTile_same _ (tilesWf_cmdStart _ _ _ hw)
  have hflag : tileOf ((retile (startTouched p 1 0x48 d.cid s).tiles tr (shardWrites t.tile l s)).vecFlag p fl) p =
      { tileOf (startTouched p 1 0x48 d.cid s) p with
        vecOvf := (tileOf (startTouched p 1 0x48 d.cid s) p).vecOvf || fl.ovf
        vecNan := (tileOf (startTouched p 1 0x48 d.cid s) p).vecNan || fl.nan
        vecSat := (tileOf (startTouched p 1 0x48 d.cid s) p).vecSat || fl.sat } := tileOf_updTile_same _ hws
  have hetile := cmdEnd_tile (p := p) hwf d.cid 0 (vecFlagBits fl)
  rw [hflag, hstart, cmdStart_tile hw] at hetile
  refine ⟨?_, ?_, congrArg Tile.vecOvf hetile, congrArg Tile.vecNan hetile, congrArg Tile.vecSat hetile, fun q hq => ?_,
    State.eq_of_fields ?_⟩
  · simp [e, optDone, State.vecFlag, retile]
  · simp [e, optDone, State.vecFlag, retile]
  · have hsame := tileOf_updTile_other (s := retile (startTouched p 1 0x48 d.cid s).tiles tr (shardWrites t.tile l s)) (p := p)
      (fun x => { x with vecOvf := x.vecOvf || fl.ovf, vecNan := x.vecNan || fl.nan, vecSat := x.vecSat || fl.sat }) hws hq
    exact (tileOf_cmdEnd_other _ _ _ hwf hq).trans (hsame.trans (tileOf_startTouched_other 1 0x48 d.cid hw hq))
  · unfold StoredOnly at hstored
    simp only [e, optDone, State.vecFlag, retile]
    generalize shardWrites t.tile l s = v at hstored
    rw [hstored]
    simp

theorem optStep_writes (hr : Safety.Runs t s [.reduce, .commit]) (hp : physOf s.repair t.tile = p) (hcheck : optCheck d = none)
    (hfits : d.paramIndex.toNat + d.count.toNat ≤ (s.tileProg t.tile).shard.params)
    (hwait : s.touchWaits t.tile (optTouches s t d) = false)
    (hpages : (optTouches s t d).any (fun lp => (s.pageOf true t.tile lp).isNone) = false) : ∃ tr, exec (.optStep t d) s =
    .next ((optDone p t d tr ((optPasses s p t d).flatMap (·.1)) (passFlags (optPasses s p t d)) s).sendBound t.tile d.cid) := by
  obtain ⟨tr, hstart⟩ := startTouched_eq s p 1 0x48 d.cid
  refine ⟨tr, (execOptStep_issued hcheck hfits hwait).trans (tileCmd_ends hr hp ?_)⟩
  change optBody d (optTouches s t d) t p (startTouched p 1 0x48 d.cid s) = _
  rw [hstart]
  exact optBody_retile hr hpages ..

end OptStep

/-- Settles O58: an OPT_STEP waits, fails or writes its passes to generation C + 1, and a RECV_ADD adds pass after pass what one pass
over its elements would add. -/
theorem optimizerAndReceive : Obligations.OptimizerAndReceive := by
  unfold Obligations.OptimizerAndReceive
  intro t s hcan p
  have ⟨_, htiles, _⟩ := hcan
  refine ⟨fun d hr hcheck hfits => ⟨fun hwait => ?_, fun hwait hpages hd => optStep_fails hr rfl hcheck hfits hwait hpages hd,
    fun hwait hpages => ?_⟩, fun d hr hcheck => ⟨fun hshort => recvAdd_waits hr rfl hcheck hshort,
    fun hthere hfault => recvAdd_adds hcan hr rfl hcheck rfl hthere hfault rfl⟩⟩
  · obtain ⟨hself, hothers⟩ := touchWait_tiles t.tile rfl htiles d.cid
    exact ⟨_, execOptStep_waits hr hcheck hfits hwait, hself, hothers, touchWait_frame s t.tile d.cid⟩
  · have ⟨_, _, _, _, hchecks, _⟩ := hr
    obtain ⟨tr, hexec⟩ := optStep_writes hr rfl hcheck hfits hwait hpages
    exact ⟨_, hexec, optDone_ended htiles hchecks tr _ _⟩

end Sys2Proof.Laws
end

section
/-! Drains of dense and sparse runs (O52, O54). -/

namespace Sys2Proof.Laws

open Sys2Proof.Machine Sys2Proof.Safety

/-! ### Drains (O52, R87, R102, R144) -/

/-- A plate array of one plate at 0x2000, with its table at 0x20000 and its slot of 64 bytes at 0x10000. -/
def plateArrayBytes : Bytes :=
  leBytes 8 0x20000 ++ leBytes 8 0x10000 ++ leBytes 8 0 ++ leBytes 8 0 ++ leBytes 4 64 ++ leBytes 4 0 ++ leBytes 2 1 ++ leBytes 2 1 ++
    zeros 20

/-- A step in FILL in which a sparse run of tile 0 is open, whose array's descriptor lies at 0x2000. -/
def sieveOpen : State := { State.reset with
  step := { State.reset.step with phase := .fill }
  program := some { maxTokens := 0, idleUs := 0 }
  power := { State.reset.power with regions := [(0, { state := .active })] }
  mem := wrBytes [] (memKey 0 0x2000) plateArrayBytes
  tiles := [(0, { sieve0 := { isOpen := true, arrays := [0x2000] } })] }

/-- A dense product of one row, one column and one k-step, whose drained row falls on the address of that array's slots; its
completion record goes to address 0. -/
def drainOnDescriptor : DenseDesc where
  cid := 7
  mode := 3
  aFormat := 5
  bFormat := 5
  mMinus1 := 0
  nMinus1 := 0
  control := 6
  kCount := 1
  aBase := 0x4000
  aStride := 0
  bBase := 0x4000
  bStride := 0
  auxBase := 0
  auxStride := 0
  dBase := 0x2008
  dStride := 0
  sBase := 0
  cmplAddr := 0
  dFormat := 5

theorem sendBound_noParts {s : State} (h : s.mesh.parts = []) (t : Nat) (cid : BitVec 64) : s.sendBound t cid = s := by
  unfold State.sendBound
  rw [h]
  rfl

/-- Refutes O52: a drain's row may fall on the descriptor of an open sparse run's array, which is no part of the array. The array then
lies where the completion record goes, and the record ends in 0x9009. -/
theorem not_engineRuns : ¬ Obligations.EngineRuns := by
  unfold Obligations.EngineRuns
  intro h
  obtain ⟨-, hdrain, -⟩ := h false ⟨0, [], []⟩ drainOnDescriptor sieveOpen
    ⟨by decide, by decide +kernel, rfl, rfl, rfl, rfl⟩ (by unfold Canonical; decide +kernel) (by decide +kernel)
  obtain ⟨e, fl, hexec, -, -, -, -, -, -, -, hframe⟩ := hdrain (.inl rfl) rfl (by decide +kernel) (by decide +kernel)
  have hphase : (stateAfter (exec (.denseMm ⟨0, [], []⟩ drainOnDescriptor) sieveOpen)).map (·.step.phase) = some .discarding := by
    decide +kernel
  have hparts : e.mesh.parts = [] := congrArg (fun u => u.mesh.parts) hframe
  rw [show exec (.denseMm ⟨0, [], []⟩ drainOnDescriptor) sieveOpen = _ from hexec, sendBound_noParts hparts] at hphase
  have hfill : e.step.phase = .fill := congrArg (fun u => u.step.phase) hframe
  exact absurd (hfill.symm.trans (Option.some.inj hphase)) (by decide)

/-! ### Sparse runs (O54, R138 to R144) -/

section SparseRuns

variable {s u : State} {p : Nat}

theorem isZeroElem_zero (fmt : Nat) : isZeroElem fmt 0 = true := by
  unfold isZeroElem
  split
  · rfl
  · rw [Nat.zero_mod]
    rfl

/-- An empty plate's elements. -/
theorem plateElem_empty (r c : Nat) : plateElem (List.replicate 16384 0) r c = 0 := by
  unfold plateElem
  rw [List.getD_eq_getElem?_getD, List.getElem?_replicate]
  split <;> rfl

/-- Nothing to take: a column occupies one cycle, and every bank applies what it can. -/
theorem issueColumn_nothing (f : Nat) (q : List Nat) : issueColumn (f + 1) [] q = ([[]], q.map (fun n => n - 4)) := rfl

/-- R138, R139: a k-step of empty plates changes nothing where the banks are empty and the row operand is a number throughout. -/
theorem kStep_empty {x : SieveAcc} (hq : x.queues = List.replicate 32 0) {plates : List BlockPlate}
    (hplates : ∀ q ∈ plates, q.elems = List.replicate 16384 0) {b : List Fp} (hb : b.any Fp.isNan = false) (base fmt c : Nat) :
    x.kStep p base fmt c plates b = x := by
  have hzero : ∀ q ∈ plates, ∀ r, (!isZeroElem fmt (plateElem q.elems r c)) = false := fun q hq r => by
    rw [hplates q hq, plateElem_empty, isZeroElem_zero, Bool.not_true]
  have hresidue : plates.flatMap (fun q => ((List.range 128).filter (fun r => !isZeroElem fmt (plateElem q.elems r c) &&
      !q.strip.contains r)).map (fun r => (128 * q.plateRow + r, plateElem q.elems r c))) = [] := by
    refine List.flatMap_eq_nil_iff.mpr fun q hq => ?_
    simp [hzero q hq]
  have hstrips : plates.flatMap (fun q => (q.strip.filter (fun r => !isZeroElem fmt (plateElem q.elems r c))).map
      (fun r => (128 * q.plateRow + r, plateElem q.elems r c))) = [] := by
    refine List.flatMap_eq_nil_iff.mpr fun q hq => ?_
    simp [hzero q hq]
  unfold SieveAcc.kStep
  dsimp only
  rw [hresidue, hstrips, hb]
  obtain ⟨m, ck, run, queues⟩ := x
  subst hq
  simp only [Bool.or_false]
  rfl

theorem foldl_fixed_of_mem {α β : Type} {f : α → β → α} {a : α} : ∀ {l : List β}, (∀ x ∈ l, f a x = a) → l.foldl f a = a
  | [], _ => rfl
  | x :: r, h => by
    rw [List.foldl_cons, h x List.mem_cons_self]
    exact foldl_fixed_of_mem fun y hy => h y (List.mem_cons_of_mem _ hy)

/-- The row operand of k-step `c` of plate column `kp` (R135). -/
def sparseOperand (s : State) (p : Nat) (d : SparseDesc) (kp c : Nat) : List Fp :=
  (readElems s p (d.bBase.toNat + (128 * kp + c) * d.bStride.toNat) d.bFormat.toNat (d.nMinus1.toNat + 1)).map
    (elemVal d.bFormat.toNat)

/-- The run after a command's plates have gone through the array, where no cell has changed (R142). -/
def sparseRunOn (d : SparseDesc) (run : SieveRun) : SieveRun := { run with
  kDone := run.kDone + 128 * d.kPlates.toNat
  arrays := run.arrays ++ [d.arrayDesc.toNat]
  reads := run.reads ++ sparseSpans d
  slots := run.slots ||| slotsTouched d.bBase.toNat d.bStride.toNat (rowBytes d.bFormat.toNat 128) (128 * d.kPlates.toNat) }

/-- A product of empty plates with numbers changes its run only. -/
theorem sparseFill_empty {a : PlateArray} {d : SparseDesc} (run : SieveRun) (hscratch : d.stripScratch = 0)
    (hplates : ∀ kp ∈ List.range d.kPlates.toNat, ∀ q ∈ blockPlates s p a d (d.plateCol0.toNat + kp),
      q.elems = List.replicate 16384 0)
    (hb : ∀ kp c, (sparseOperand s p d kp c).any Fp.isNan = false) :
    sparseFill s p a d run = ⟨s.mem, (tileOf s p).sieveCheck, sparseRunOn d run, List.replicate 32 0⟩ := by
  have hfill : (List.range d.kPlates.toNat).foldl (fun x kp =>
      let plates := blockPlates s p a d (d.plateCol0.toNat + kp)
      let y := (List.range 128).foldl (fun x c => x.kStep p (partBase d) a.elem c plates (sparseOperand s p d kp c)) x
      if d.stripScratch = 0 then y else writeScratch y p (partBase d) d.stripScratch.toNat plates)
      (⟨s.mem, (tileOf s p).sieveCheck, run, List.replicate 32 0⟩ : SieveAcc) =
        ⟨s.mem, (tileOf s p).sieveCheck, run, List.replicate 32 0⟩ :=
    foldl_fixed_of_mem fun kp hkp => (if_pos hscratch).trans
      (foldl_fixed_of_mem fun c _ => kStep_empty rfl (hplates kp hkp) (hb kp c) ..)
  exact congrArg (fun x : SieveAcc => { x with run := sparseRunOn d x.run }) hfill

end SparseRuns

/-! ### The schedule keeps its parts (R175)

The parts are set when a step begins; a schedule that runs on changes where its halves stand and which flits are on their way. -/

/-- Two states whose schedules have the same parts. -/
def SameParts (s u : State) : Prop := u.mesh.parts = s.mesh.parts

namespace SameParts

variable {s u v : State}

theorem refl (s : State) : SameParts s s := rfl

theorem trans (h : SameParts s u) (k : SameParts u v) : SameParts s v := Eq.trans k h

theorem foldl {α : Type} {f : State → α → State} (hf : ∀ u x, SameParts u (f u x)) : ∀ (l : List α) (s : State),
    SameParts s (l.foldl f s)
  | [], s => refl s
  | x :: l, s => (hf s x).trans (foldl hf l _)

theorem ite {c : Prop} [Decidable c] {a b : State} (h : SameParts s a) (k : SameParts s b) : SameParts s (if c then a else b) := by
  split
  · exact h
  · exact k

theorem ite_fst {α : Type} {c : Prop} [Decidable c] {a b : State × α} (h : SameParts s a.1) (k : SameParts s b.1) :
    SameParts s (if c then a else b).1 := by
  split
  · exact h
  · exact k

theorem pair {α : Type} {a : State} {x : α} (h : SameParts s a) : SameParts s (a, x).1 := h

theorem updMesh {f : Mesh → Mesh} (hf : ∀ m, (f m).parts = m.parts) (s : State) : SameParts s (s.updMesh f) := hf s.mesh

theorem raise (s : State) (c : Code) (p : Place) (i : BitVec 64) (d : Nat) (e : BitVec 64) : SameParts s (s.raise c p i d e) :=
  congrArg Mesh.parts (State.raise_mesh ..)

theorem flushLink (s : State) (n : Nat) : SameParts s (s.flushLink n) := by
  change SameParts s ((s.updLink n Link.flush).trySwitch n)
  unfold State.trySwitch
  split
  · exact raise (State.updLink (s.updLink n Link.flush) n _) ..
  · exact refl s

theorem freeFrame (s : State) (pb q : Nat) : SameParts s (s.freeFrame pb q) := by
  unfold State.freeFrame State.freeIntake State.giveCredit
  split
  · exact ite (refl s) (flushLink (State.updLink (State.updLink (s.updPb pb _) _ _) _ _) _)
  · exact refl s

theorem deliverFlit (s : State) (site : Nat) (f : MeshFlit) : SameParts s (s.deliverFlit site f) := by
  unfold State.deliverFlit
  refine ite (refl s) ?_
  extract_lets p counted
  have hcount : SameParts s counted := refl s
  split
  · split
    · split
      · exact ite hcount hcount
      · exact hcount
    · exact hcount
  · extract_lets u
    have hu : SameParts s u := by unfold u; split <;> exact hcount
    refine ite hu ?_
    split
    · exact hu.trans (raise ..)
    · exact ite hu hu

theorem receiveFlit (s : State) (site port : Nat) (f : MeshFlit) : SameParts s (s.receiveFlit site port f).1 := by
  unfold State.receiveFlit
  exact ite_fst (refl s) (ite_fst (raise s ..) (refl s))

theorem emitFlit (s : State) (n site out : Nat) (f : MeshFlit) : SameParts s (s.emitFlit n site out f) := by
  unfold State.emitFlit
  refine ite (deliverFlit ..) ?_
  split
  · exact refl s
  · refine ite (refl s) ?_
    split <;> exact refl s

theorem resolveInput (s : State) (n site : Nat) (e : BitVec 64) (port : Nat) : SameParts s (s.resolveInput n site e port).1 := by
  unfold State.resolveInput
  extract_lets taken here arriving cleared kept
  have hcleared : SameParts s cleared := updMesh (fun _ => rfl) s
  have hkept : SameParts s kept := by
    unfold kept
    clear_value cleared
    exact hcleared.trans (ite (ite (raise ..) (updMesh (fun _ => rfl) _)) (refl _))
  have hfault (code : Code) (port : Nat) : SameParts s (kept.meshFault site port code) := hkept.trans (raise ..)
  clear_value kept here
  split
  · exact ite_fst (pair (hfault ..)) hkept
  · refine ite_fst (ite_fst (pair ((hkept.trans (receiveFlit ..)).trans (raise ..))) (hkept.trans (receiveFlit ..))) ?_
    exact ite_fst (pair (ite hkept (hfault ..))) (ite_fst (pair (hfault ..)) (pair (hfault ..)))

theorem ownOutgoing (s : State) (n site : Nat) (e : BitVec 64) : SameParts s (s.ownOutgoing n site e).1 := by
  unfold State.ownOutgoing
  refine ite_fst (refl s) ?_
  split
  · exact refl s
  · split
    · exact raise s ..
    · extract_lets b last tag u v
      have hv : SameParts s v := by
        unfold v
        split
        · exact ite (freeFrame u ..) (refl s)
        · exact refl s
      exact ite hv hv

theorem routerCycle (n : Nat) (s : State) (site : Nat) : SameParts s (State.routerCycle n s site) := by
  have hinputs (e : BitVec 64) : ∀ (l : List Nat) (acc : State × List (Nat × MeshFlit)), SameParts acc.1 (l.foldl (fun acc p =>
      let r := acc.1.resolveInput n site e p
      (r.1, match r.2 with | some f => acc.2 ++ [(p, f)] | none => acc.2)) acc).1 := by
    intro l
    induction l with
    | nil => exact fun acc => refl acc.1
    | cons p l ih => exact fun acc => (resolveInput acc.1 n site e p).trans (ih (_, _))
  unfold State.routerCycle
  extract_lets e ins own flits
  refine ((hinputs e _ (s, [])).trans (ownOutgoing ..)).trans (foldl (fun u out => ?_) _ _)
  split
  · exact emitFlit ..
  · exact refl u

theorem halfCycle (s : State) (west : Bool) : SameParts s (s.halfCycle west) :=
  (foldl (routerCycle _) _ s).trans (updMesh (fun _ => by split <;> rfl) _)

theorem tryHalf (s : State) (west : Bool) : SameParts s (s.tryHalf west).1 := by
  unfold State.tryHalf
  exact ite_fst (halfCycle ..) (refl s)

theorem meshCycle (s : State) : SameParts s s.meshCycle.1 := by
  unfold State.meshCycle
  refine ite_fst ((tryHalf ..).trans (tryHalf ..)) (ite_fst ?_ (refl s))
  exact (halfCycle s true).trans (ite (halfCycle ..) (refl _))

theorem noteHold (s : State) : SameParts s s.noteHold := by
  unfold State.noteHold
  refine ite (refl s) (ite (refl s) (foldl (fun u x => ?_) _ s))
  exact congrArg Mesh.parts (State.traceAt_mesh ..)

theorem runMesh : ∀ (fuel : Nat) (s : State), SameParts s (State.runMesh fuel s)
  | 0, s => refl s
  | n + 1, s => ite ((meshCycle s).trans (runMesh n _)) ((meshCycle s).trans (noteHold _))

theorem sendBound (s : State) (t : Nat) (cid : BitVec 64) : SameParts s (s.sendBound t cid) := by
  unfold State.sendBound State.pumpMesh
  exact ite (refl s) (ite (refl s) (runMesh _ (s.updMesh _)))

end SameParts

section SparseRuns

/-- The state after the plates of a sparse command have gone through the array: the Sieve, its check column and the count of its
multiplications. -/
def sparseAfter (u : State) (p : Nat) (d : SparseDesc) (x : SieveAcc) : State :=
  let a := readArray u p d.arrayDesc.toNat
  (({ u with mem := x.mem } : State).updTile p (fun q => { q with sieveCheck := x.check })).count p 2
    ((List.range d.kPlates.toNat).foldl (fun n kp => (blockPlates u p a d (d.plateCol0.toNat + kp)).foldl
      (fun n q => n + nnzOf a.elem q.elems) n) 0 * (d.nMinus1.toNat + 1))

/-- What the first checks of a sparse command find in the state `u`. -/
def sparseEarly (u : State) (p : Nat) (d : SparseDesc) (old : SieveRun) : Option Code :=
  let a := readArray u p d.arrayDesc.toNat
  firstCode [
    if (!d.control.getLsbD 1 && !sieveContinues d old) || halvesConflict (tileOf u p) d then some 0x9006 else none,
    sparseArrayFault u p a d,
    if (scratchWrites u p a d).any (fun x => hitsOpenArray u p x.1 x.2 || a.parts.any (fun y => overlaps x.1 x.2 y.1 y.2))
      then some 0x9009 else none]

/-- A sparse run closed with the flags of its drain. -/
def closedSieve (run : SieveRun) (f : Flags) : SieveRun := { run with
  isOpen := false
  ovf := run.ovf || f.ovf
  nan := run.nan || f.nan }

/-- A SPARSE_MM that continues the run of its part and drains it, in which nothing is detected: it writes its rows, and then its
record (R142, R143). -/
theorem exec_sparseMm_drained {s u v w : State} {t : Site} {p : Nat} {d : SparseDesc} {old : SieveRun} {x : SieveAcc} {cmp : Tally × Bool}
    {o : List (Nat × Bytes) × Flags} (hr : Safety.Runs t s) (hp : physOf s.repair t.tile = p) (hcheck : sparseCheck d = none)
    (hclear : d.control.getLsbD 1 = false) (hdrain : d.control.getLsbD 2 = true) (hu : s.cmdStart p 0 0x11 d.cid = u)
    (hold : sieveOf (tileOf u p) (d.control.getLsbD 0) = old) (hearly : sparseEarly u p d old = none)
    (hfill : sparseFill u p (readArray u p d.arrayDesc.toNat) d old = x)
    (hdet : sparseDetections u p (readArray u p d.arrayDesc.toNat) d = []) (hv : sparseAfter u p d x = v)
    (hcmp : sieveCompare v p d x.run = cmp) (hpass : tallyCodes cmp.1 cmp.2 = []) (ho : sieveDrainRows v p d x.run = o)
    (hmarked : x.run.suspect = false)
    (hw : (v.updTile p (fun q => q.setSieve (d.control.getLsbD 0) (closedSieve x.run o.2))).writeRows p o.1 = w)
    (hfault : firstCode (o.1.map (fun y => writeFault (v.updTile p (fun q => q.setSieve (d.control.getLsbD 0) x.run)) p y.1
      y.2.length) ++ [writeFault (v.updTile p (fun q => q.setSieve (d.control.getLsbD 0) x.run)) p d.cmplAddr.toNat 16]) = none) :
    ∃ fl, exec (.sparseMm t d) s =
      .next (((w.putRecord p d.cid d.cmplAddr.toNat 0 fl cmp.1).cmdEnd p d.cid 0 fl).sendBound t.tile d.cid) := by
  have ⟨_, _, hdet', hsuspect, _, _⟩ := hr
  refine ⟨(closedSieve x.run o.2).flagBits cmp.1.unchecked, ?_⟩
  change execSparseMm t d s = _
  unfold execSparseMm
  rw [hcheck]
  refine tileCmd_ends hr hp ?_
  unfold sparseEarly at hearly
  unfold sparseAfter at hv
  rw [hclear] at hearly
  dsimp only at hearly hv ⊢
  rw [hu, hold, hclear, hearly]
  dsimp only
  rw [if_neg Bool.false_ne_true, if_neg Bool.false_ne_true, hfill, hdrain, hv, hcmp, ho, hdet, List.nil_append, hpass,
    settle_clean hdet' hsuspect hmarked rfl]
  dsimp only
  rw [hfault, ← hw]
  rfl

/-- A plate array of one empty plate at 0x3000, with its table at 0x30000 and no slot bytes. -/
def emptyArrayBytes : Bytes :=
  leBytes 8 0x30000 ++ leBytes 8 0x40000 ++ leBytes 8 0 ++ leBytes 8 0 ++ leBytes 4 0 ++ leBytes 4 0 ++ leBytes 2 1 ++ leBytes 2 1 ++
    zeros 20

/-- A step in FILL in which sparse runs are open in both parts of the Sieve of tile 0; the descriptor of the array of part 1 lies at
0x2000. -/
def bothPartsOpen : State := { sieveOpen with
  mem := wrBytes (wrBytes [] (memKey 0 0x2000) plateArrayBytes) (memKey 0 0x3000) emptyArrayBytes
  tiles := [(0, {
    sieve0 := { isOpen := true, halves := true, rowsUsed := 1 }
    sieve1 := { isOpen := true, halves := true, arrays := [0x2000] } })] }

/-- A sparse product of an empty plate that continues and drains the run of part 0; its drained rows fall on the address of the other
array's slots, and its completion record goes to address 0. -/
def sieveDrainOnDescriptor : SparseDesc where
  cid := 7
  smode := 0
  bFormat := 0
  nMinus1 := 0
  control := 20
  plateRowsUsed := 1
  arrayDesc := 0x3000
  plateRow0 := 0
  plateCol0 := 0
  kPlates := 1
  bBase := 0x5000
  bStride := 0
  stripScratch := 0
  dBase := 0x2008
  dStride := 0
  sBase := 0
  cmplAddr := 0
  dFormat := 0

theorem expandForm_empty {h : PlateHead} (hform : h.form = 0) (s : State) (p a fmt : Nat) :
    expandForm s p a fmt h = List.replicate 16384 0 := by
  unfold expandForm
  rw [hform]
  rfl

/-- The state in which the command's body does its work. -/
def sieveDrainStarted : State := bothPartsOpen.cmdStart 0 0 0x11 7

theorem sparseFill_started : sparseFill sieveDrainStarted 0 (readArray sieveDrainStarted 0 0x3000) sieveDrainOnDescriptor
    (sieveOf (tileOf sieveDrainStarted 0) false) = ⟨sieveDrainStarted.mem, (tileOf sieveDrainStarted 0).sieveCheck,
      sparseRunOn sieveDrainOnDescriptor (sieveOf (tileOf sieveDrainStarted 0) false), List.replicate 32 0⟩ := by
  refine sparseFill_empty _ rfl (fun kp hkp q hq => ?_) fun kp c => ?_
  · obtain rfl : kp = 0 := by simpa [sieveDrainOnDescriptor] using hkp
    obtain ⟨i, hi, rfl⟩ := List.mem_map.mp hq
    obtain rfl : i = 0 := by simpa [sieveDrainOnDescriptor] using hi
    have hform : (readHead sieveDrainStarted 0 (readArray sieveDrainStarted 0 0x3000) (plateIndex (readArray sieveDrainStarted 0 0x3000)
        (sieveDrainOnDescriptor.plateRow0.toNat + 0) (sieveDrainOnDescriptor.plateCol0.toNat + 0))).form = 0 := by decide +kernel
    dsimp only
    exact expandForm_empty hform ..
  · unfold sparseOperand
    rw [show sieveDrainOnDescriptor.bStride.toNat = 0 from rfl, Nat.mul_zero]
    decide +kernel

/-- What the product leaves: its plate is empty, so only the run has gone on. -/
def sieveDrainFilled : SieveAcc where
  mem := sieveDrainStarted.mem
  check := (tileOf sieveDrainStarted 0).sieveCheck
  run := sparseRunOn sieveDrainOnDescriptor (sieveOf (tileOf sieveDrainStarted 0) false)
  queues := List.replicate 32 0

def sieveDrainRan : State := sparseAfter sieveDrainStarted 0 sieveDrainOnDescriptor sieveDrainFilled

/-- Its rows: zeros, all at one address. -/
def sieveDrainOut : List (Nat × Bytes) := List.replicate 128 (0x2008, [0, 0, 0, 0])

def sieveDrainWritten : State := (sieveDrainRan.updTile 0 (fun q => q.setSieve false (closedSieve sieveDrainFilled.run {}))).writeRows 0
  sieveDrainOut

/-- A completion record that falls into an open array begins the discard (R144). -/
theorem putRecord_faults {s : State} {p a : Nat} {c : Code} (hd : CanDiscard s) (h : writeFault s p a 16 = some c)
    (hs : severityOf s.step.inProgress ⟨BitVec.ofNat 12 p, BitVec.ofNat 8 2⟩ 0 c = 3) (h9 : c ≠ 0x4009) (hA : c ≠ 0x400A)
    (cid : BitVec 64) (status : Code) (flags : Nat) (n : Tally) : (s.putRecord p cid a status flags n).step.phase = .discarding := by
  unfold State.putRecord State.countChecks
  rw [h, State.traceAt_step]
  exact (discardsFor_tileFault hd hs h9 hA).1

theorem putRecord_mesh (s : State) (p : Nat) (cid : BitVec 64) (a : Nat) (status : Code) (flags : Nat) (n : Tally) :
    (s.putRecord p cid a status flags n).mesh = s.mesh := by
  unfold State.putRecord State.countChecks
  rw [State.traceAt_mesh]
  split <;> simp

theorem sieveDrain_discards : ∃ f : State, exec (.sparseMm ⟨0, [], []⟩ sieveDrainOnDescriptor) bothPartsOpen = .next f ∧
    f.step.phase = .discarding ∧ f.mesh.parts = [] := by
  obtain ⟨fl, hexec⟩ := exec_sparseMm_drained (s := bothPartsOpen) (t := ⟨0, [], []⟩) (d := sieveDrainOnDescriptor) (p := 0)
    (u := sieveDrainStarted) (v := sieveDrainRan) (x := sieveDrainFilled)
    (cmp := sieveCompare sieveDrainRan 0 sieveDrainOnDescriptor sieveDrainFilled.run) (w := sieveDrainWritten) (o := (sieveDrainOut, {}))
    ⟨by decide, by decide +kernel, rfl, rfl, rfl, rfl⟩
    (by decide +kernel) (by decide +kernel) rfl rfl rfl rfl (by decide +kernel) sparseFill_started (by decide +kernel) rfl rfl
    (by decide +kernel) (by decide +kernel) (by decide +kernel) rfl (by decide +kernel)
  generalize (sieveCompare sieveDrainRan 0 sieveDrainOnDescriptor sieveDrainFilled.run).1 = n at hexec
  have hphase : (sieveDrainWritten.putRecord 0 sieveDrainOnDescriptor.cid sieveDrainOnDescriptor.cmplAddr.toNat 0 fl n).step.phase = .discarding :=
    putRecord_faults (c := 0x9009)
    (by unfold CanDiscard; decide +kernel) (by decide +kernel) (by decide +kernel) (by decide) (by decide) ..
  have hparts : (sieveDrainWritten.putRecord 0 sieveDrainOnDescriptor.cid sieveDrainOnDescriptor.cmplAddr.toNat 0 fl n).mesh.parts = []
    := by
    rw [putRecord_mesh]
    decide +kernel
  generalize sieveDrainWritten.putRecord 0 sieveDrainOnDescriptor.cid sieveDrainOnDescriptor.cmplAddr.toNat 0 fl n = e at *
  have hended : (e.cmdEnd 0 sieveDrainOnDescriptor.cid 0 fl).mesh.parts = [] := by rw [State.cmdEnd_mesh, hparts]
  refine ⟨_, hexec, ?_, ?_⟩
  · rw [sendBound_noParts hended, State.cmdEnd_step, hphase]
  · rw [sendBound_noParts hended, hended]

/-- What O54 says of a drain that continues its run: the step's phase and the mesh stay. -/
theorem phase_of_sparseRuns (h : Obligations.SparseRuns) {s u v : State} {t : Site} {p : Nat} {d : SparseDesc} {old : SieveRun}
    {x : SieveAcc} (hr : Safety.Runs t s) (hcan : Canonical s) (hp : physOf s.repair t.tile = p) (hcheck : sparseCheck d = none)
    (hclear : d.control.getLsbD 1 = false) (hdrain : d.control.getLsbD 2 = true) (hu : s.cmdStart p 0 0x11 d.cid = u)
    (hold : sieveOf (tileOf s p) (d.control.getLsbD 0) = old) (hbad : (!sieveContinues d old || halvesConflict (tileOf u p) d) = false)
    (harray : sparseArrayFault u p (readArray u p d.arrayDesc.toNat) d = none) (hscratch : d.stripScratch = 0)
    (hdet : sparseDetections u p (readArray u p d.arrayDesc.toNat) d = [])
    (hfill : sparseFill u p (readArray u p d.arrayDesc.toNat) d old = x)
    (hv : ({ u with mem := x.mem } : State).updTile p (fun q => { q with sieveCheck := x.check }) = v)
    (hpass : tallyCodes (sieveCompare v p d x.run).1 (sieveCompare v p d x.run).2 = [])
    (hfault : firstCode ((sieveDrainRows v p d x.run).1.map (fun y => writeFault (v.updTile p (fun q => q.setSieve (d.control.getLsbD 0)
      x.run)) p y.1 y.2.length) ++ [writeFault (v.updTile p (fun q => q.setSieve (d.control.getLsbD 0) x.run)) p
        d.cmplAddr.toNat 16]) = none) :
    ∃ e : State, exec (.sparseMm t d) s = .next (e.sendBound t.tile d.cid) ∧ e.step.phase = s.step.phase := by
  subst hp hu hold hfill hv
  obtain ⟨-, -, -, hd⟩ := h t d s hr hcan hcheck
  simp only [hclear, Bool.false_eq_true, if_false, Bool.not_false, Bool.true_and] at hd
  obtain ⟨e, fl, hexec, -, -, -, hstep, -⟩ := hd hbad harray (by simp [scratchWrites, hscratch]) hdet hdrain hpass hfault
  exact ⟨e, hexec, by rw [hstep]⟩

/-- Refutes O54: a drain's rows may fall on the descriptor of the array that the run of the other part reads, which is no part of that
array. The array then lies where the completion record goes, and the record ends in 0x9009. -/
theorem not_sparseRuns : ¬ Obligations.SparseRuns := by
  intro h
  obtain ⟨f, hexec, hdiscarding, hparts⟩ := sieveDrain_discards
  obtain ⟨e, hsaid, hphase⟩ := phase_of_sparseRuns h (s := bothPartsOpen) (t := ⟨0, [], []⟩) (d := sieveDrainOnDescriptor) (p := 0)
    (u := sieveDrainStarted) (old := sieveOf (tileOf sieveDrainStarted 0) false) (x := sieveDrainFilled)
    ⟨by decide, by decide +kernel, rfl, rfl, rfl, rfl⟩ (by unfold Canonical; decide +kernel) (by decide +kernel) (by decide +kernel)
    rfl rfl rfl (by decide +kernel) (by decide +kernel) (by decide +kernel) rfl (by decide +kernel) sparseFill_started rfl
    (by decide +kernel) (by decide +kernel)
  obtain rfl : f = e.sendBound 0 sieveDrainOnDescriptor.cid := Host.Outcome.next.inj (hexec.symm.trans hsaid)
  have hnone : e.mesh.parts = [] := (SameParts.sendBound e _ _).symm.trans hparts
  rw [sendBound_noParts hnone] at hdiscarding
  exact absurd (hphase.symm.trans hdiscarding) (by decide)

end SparseRuns

end Sys2Proof.Laws
end

section
/-! Plate commands (O55). -/

namespace Sys2Proof.Laws

open Sys2Proof.Machine Sys2Proof.Safety

/-! ### Plate commands (O55, R128 to R134, R147) -/

section PlateCommands

variable {s u : State} {t : Site} {d : PlateDesc} {p : Nat}

/-- Rows written one after another. -/
def putRows (p : Nat) (l : List (Nat × Bytes)) (m : List Host.Cell) : List Host.Cell :=
  l.foldl (fun m y => wrBytes m (memKey p y.1) y.2) m

theorem writeRows_clean : ∀ (l : List (Nat × Bytes)) {s : State}, s.checks = [] →
    s.writeRows p l = { s with mem := putRows p l s.mem }
  | [], _, _ => rfl
  | x :: r, s, h => by
    change (s.tileWrite p x.1 x.2).writeRows p r = _
    rw [tileWrite_clean h, writeRows_clean r (s := { s with mem := wrBytes s.mem (memKey p x.1) x.2 }) h]
    rfl

/-- A form whose store is planned is stored where nothing is detected (R129). -/
theorem plateStoreDone_stores (hdet : t.det = []) (hsuspect : t.suspect = []) {a : PlateArray} {i : Nat} {h : PlateHead} {b : Bytes}
    {v : List (Nat × Bytes)} (hplan : storeForm u p a i h b = .ok v) (cid : BitVec 64) (lead : Bytes) :
    plateStoreDone t p cid a i [] h b u lead = { state := u.writeRows p v } := by
  unfold plateStoreDone
  dsimp only
  rw [hplan, settle_clean hdet hsuspect rfl rfl]
  rfl

/-- A store that cannot be made ends in its code. -/
theorem plateStoreDone_fails (hdet : t.det = []) (hsuspect : t.suspect = []) {a : PlateArray} {i : Nat} {h : PlateHead} {b : Bytes}
    {c : Code} (hplan : storeForm u p a i h b = .error c) (cid : BitVec 64) (lead : Bytes) :
    plateStoreDone t p cid a i [] h b u lead = { state := u.tileFault p 7 cid c, status := c } := by
  unfold plateStoreDone
  dsimp only
  rw [hplan, settle_clean hdet hsuspect rfl rfl]
  rfl

theorem tileNum_congr (h : u.mem = s.mem) (a n : Nat) : tileNum u p a n = tileNum s p a n := by
  rw [tileNum, tileNum, h]

theorem readFault_congr (h : u.variant = s.variant) (a n : Nat) : readFault u a n = readFault s a n := by
  rw [readFault, readFault, h]

theorem arrayChecks_congr (h : u.variant = s.variant) (a : PlateArray) (pr pc stride : Nat) (b : Bool) :
    arrayChecks u a pr pc stride b = arrayChecks s a pr pc stride b := by
  rw [arrayChecks, arrayChecks, h]

theorem readDense_congr (h : u.mem = s.mem) (b : Bool) (a stride fmt : Nat) : readDense u p b a stride fmt =
    readDense s p b a stride fmt := by
  simp only [readDense, tileNum_congr h]

/-- A command that only stores rows in its tile. -/
theorem rowsStored (hcan : Canonical s) (hr : Safety.Runs t s) (hp : physOf s.repair t.tile = p) {cid : BitVec 64} {opcode unit : Nat}
    {body : Site → Nat → State → Done} {v : List (Nat × Bytes)}
    (hb : body t p (s.cmdStart p unit opcode cid) = { state := (s.cmdStart p unit opcode cid).writeRows p v }) : ∃ e : State,
      tileCmd t cid opcode unit none body s = .next (e.sendBound t.tile cid) ∧ RanOn p s e ∧ e.mem = putRows p v s.mem := by
  obtain ⟨-, hw, -⟩ := hcan
  have ⟨_, _, _, _, hchecks, _⟩ := hr
  have hrows := writeRows_clean (p := p) v ((State.cmdStart_checks s p unit opcode cid).trans hchecks)
  refine ⟨_, tileCmd_ends hr hp hb, ranOn_of_body (unit := unit) (opcode := opcode) hw ?_ (by rw [hrows]) (fun q _ => ?_) 0 0, ?_⟩
  · rw [hrows]
    exact tilesWf_cmdStart _ _ _ hw
  · rw [hrows]
    rfl
  · rw [State.cmdEnd_mem, hrows, State.cmdStart_mem]

/-- A PLATE_STORE whose array passes its checks stores the form that its plate compresses to. -/
theorem plateStore_body (hr : Safety.Runs t s) (hcheck : plateCheck 0 d = none) {a : PlateArray}
    (ha : readArray s p d.arrayDesc.toNat = a) (hread : readFault s d.arrayDesc.toNat 64 = none)
    (harray : arrayChecks s a d.plateRow.toNat d.plateCol.toNat d.denseStride.toNat true = none) {f : PlateHead × Bytes}
    (hf : compress a.elem a.heavy (readDense s p (d.layout.getLsbD 0) d.denseAddr.toNat d.denseStride.toNat a.elem) = f) :
    ∃ body, execPlateStore t d s = tileCmd t d.cid 0x20 2 none body s ∧ body t p (s.cmdStart p 2 0x20 d.cid) =
      plateStoreDone t p d.cid a (plateIndex a d.plateRow.toNat d.plateCol.toNat) [] f.1 f.2 (s.cmdStart p 2 0x20 d.cid) := by
  have ⟨_, _, _, _, hchecks, _⟩ := hr
  unfold execPlateStore
  rw [hcheck]
  refine ⟨_, rfl, ?_⟩
  dsimp only
  rw [readArray_congr (State.cmdStart_mem ..), ha, readFault_congr (State.cmdStart_variant ..), hread,
    arrayChecks_congr (State.cmdStart_variant ..), harray, readDense_congr (State.cmdStart_mem ..), hf,
    readDetections_clean ((State.cmdStart_checks ..).trans hchecks)]
  rfl

theorem plateStore_stores (hcan : Canonical s) (hr : Safety.Runs t s) (hp : physOf s.repair t.tile = p) (hcheck : plateCheck 0 d = none)
    {a : PlateArray} (ha : readArray s p d.arrayDesc.toNat = a) (hread : readFault s d.arrayDesc.toNat 64 = none)
    (harray : arrayChecks s a d.plateRow.toNat d.plateCol.toNat d.denseStride.toNat true = none) {f : PlateHead × Bytes}
    (hf : compress a.elem a.heavy (readDense s p (d.layout.getLsbD 0) d.denseAddr.toNat d.denseStride.toNat a.elem) = f)
    {v : List (Nat × Bytes)} (hplan : storeForm (s.cmdStart p 2 0x20 d.cid) p a (plateIndex a d.plateRow.toNat d.plateCol.toNat)
      f.1 f.2 = .ok v) : ∃ e : State, exec (.plateStore t d) s = .next (e.sendBound t.tile d.cid) ∧ RanOn p s e ∧
        e.mem = putRows p v s.mem := by
  have ⟨_, _, hdet, hsuspect, _, _⟩ := hr
  obtain ⟨body, hexec, hbody⟩ := plateStore_body hr hcheck ha hread harray hf
  change ∃ e : State, execPlateStore t d s = _ ∧ _
  rw [hexec]
  exact rowsStored hcan hr hp (hbody.trans (plateStoreDone_stores hdet hsuspect hplan ..))

/-- No free run of spill units (R129). -/
theorem plateStore_fails (hr : Safety.Runs t s) (hp : physOf s.repair t.tile = p) (hcheck : plateCheck 0 d = none)
    {a : PlateArray} (ha : readArray s p d.arrayDesc.toNat = a) (hread : readFault s d.arrayDesc.toNat 64 = none)
    (harray : arrayChecks s a d.plateRow.toNat d.plateCol.toNat d.denseStride.toNat true = none) {f : PlateHead × Bytes}
    (hf : compress a.elem a.heavy (readDense s p (d.layout.getLsbD 0) d.denseAddr.toNat d.denseStride.toNat a.elem) = f)
    (hplan : storeForm (s.cmdStart p 2 0x20 d.cid) p a (plateIndex a d.plateRow.toNat d.plateCol.toNat) f.1 f.2 = .error 0x9002)
    (hd : CanDiscard s) : ∃ e : State, exec (.plateStore t d) s = .next e ∧ Faulted s e 0x9002 := by
  have ⟨_, _, hdet, hsuspect, _, _⟩ := hr
  obtain ⟨body, hexec, hbody⟩ := plateStore_body hr hcheck ha hread harray hf
  change ∃ e : State, execPlateStore t d s = _ ∧ _
  rw [hexec]
  exact tileCmd_faults hr hp hd (b := 7) (u := s.cmdStart p 2 0x20 d.cid) rfl (by decide) (by simp) (flags := 0)
    (hbody.trans (plateStoreDone_fails hdet hsuspect hplan ..))

theorem formSize_congr (h : u.mem = s.mem) (a fmt : Nat) (x : PlateHead) : formSize u p a fmt x = formSize s p a fmt x := by
  simp only [formSize, tileNum_congr h]

theorem stripList_congr (h : u.mem = s.mem) (a n : Nat) : stripList u p a n = stripList s p a n := by
  simp only [stripList, tileNum_congr h]

theorem stripListOk_congr (h : u.mem = s.mem) (a n : Nat) : stripListOk u p a n = stripListOk s p a n := by
  simp only [stripListOk, stripList_congr h, tileNum_congr h]

theorem expandForm_congr (h : u.mem = s.mem) (a fmt : Nat) (x : PlateHead) : expandForm u p a fmt x = expandForm s p a fmt x := by
  simp only [expandForm, stripList_congr h, tileNum_congr h]

theorem countedNnz_congr (h : u.mem = s.mem) (a fmt : Nat) (x : PlateHead) : countedNnz u p a fmt x = countedNnz s p a fmt x := by
  simp only [countedNnz, expandForm_congr h, tileNum_congr h]

theorem plateDetection_congr (h : u.mem = s.mem) (a fmt : Nat) (x : PlateHead) :
    plateDetection u p a fmt x = plateDetection s p a fmt x := by
  simp only [plateDetection, countedNnz_congr h, stripListOk_congr h]

theorem headValid_congr (h : u.mem = s.mem) (a : PlateArray) (i : Nat) (x : PlateHead) : headValid u p a i x = headValid s p a i x := by
  simp only [headValid, formSize_congr h, tileNum_congr h]

theorem readHead_congr (h : u.mem = s.mem) (a : PlateArray) (i : Nat) : readHead u p a i = readHead s p a i := by
  rw [readHead, readHead, tileNum_congr h]

theorem imageValid_congr (h : u.mem = s.mem) (a fmt : Nat) (x : PlateHead) : imageValid u p a fmt x = imageValid s p a fmt x := by
  simp only [imageValid, countedNnz_congr h, stripListOk_congr h, formSize_congr h, tileNum_congr h]

/-- PLATE_ADOPT stores its image as it is (R133). -/
theorem plateAdopt_stores (hcan : Canonical s) (hr : Safety.Runs t s) (hp : physOf s.repair t.tile = p) (hcheck : plateCheck 3 d = none)
    {a : PlateArray} (ha : readArray s p d.arrayDesc.toNat = a) (hread : readFault s d.arrayDesc.toNat 64 = none)
    (harray : arrayChecks s a d.plateRow.toNat d.plateCol.toNat 0 false = none) {h : PlateHead}
    (hh : decodeHead (tileNum s p d.denseAddr.toNat 8) = h) {size : Nat}
    (hsize : formSize s p (d.denseAddr.toNat + 8) a.elem h = size) (hplace : inTmem d.denseAddr.toNat (8 + size) = true)
    (himage : imageValid s p (d.denseAddr.toNat + 8) a.elem h = true) {v : List (Nat × Bytes)}
    (hplan : storeForm (s.cmdStart p 2 0x23 d.cid) p a (plateIndex a d.plateRow.toNat d.plateCol.toNat) h
      (tileRead s p (d.denseAddr.toNat + 8) size) = .ok v) : ∃ e : State,
        exec (.plateAdopt t d) s = .next (e.sendBound t.tile d.cid) ∧ RanOn p s e ∧ e.mem = putRows p v s.mem := by
  have ⟨_, _, hdet, hsuspect, hchecks, _⟩ := hr
  have hmem := State.cmdStart_mem s p 2 0x23 d.cid
  change ∃ e : State, execPlateAdopt t d s = _ ∧ _
  unfold execPlateAdopt
  rw [hcheck]
  refine rowsStored hcan hr hp ?_
  have htake : tileRead (s.cmdStart p 2 0x23 d.cid) p (d.denseAddr.toNat + 8) size = tileRead s p (d.denseAddr.toNat + 8) size := by
    rw [tileRead, tileRead, hmem]
  dsimp only
  rw [readArray_congr hmem, ha, readFault_congr (State.cmdStart_variant ..), hread, arrayChecks_congr (State.cmdStart_variant ..),
    harray, tileNum_congr hmem, hh, formSize_congr hmem, hsize, imageValid_congr hmem, himage, hplace,
    readDetections_clean ((State.cmdStart_checks ..).trans hchecks), htake]
  exact plateStoreDone_stores hdet hsuspect hplan ..

end PlateCommands

section PlateCommands

variable {s u : State} {t : Site} {d : PlateDesc} {p : Nat}

theorem writeSlot_clean (h : s.checks = []) (p slot : Nat) (b : Bytes) :
    s.writeSlot p slot b = { s with mem := (s.writeSlot p slot b).mem } := by
  unfold State.writeSlot State.tileClear
  dsimp only
  rw [h, tileWrite_clean rfl]
  rfl

/-- The state in which a PLATE_TRANSPOSE stores the transpose: the plate lies in the slot chosen (R147, R158). -/
def platePlaced (u : State) (p slot w : Nat) (staged : Bytes) : State :=
  (u.updTile p (fun x => { x with lastSlot := some slot })).writeSlot p (if w = 4 then 2 else slot) staged

theorem platePlaced_frame (h : u.checks = []) (p slot w : Nat) (staged : Bytes) : platePlaced u p slot w staged =
    { u with
      mem := (platePlaced u p slot w staged).mem
      tiles := (u.updTile p (fun x => { x with lastSlot := some slot })).tiles } :=
  writeSlot_clean (s := u.updTile p (fun x => { x with lastSlot := some slot })) h ..

theorem chooseSlot_cmdStart (hw : smWf {} 0 s.tiles = true) (unit opcode : Nat) (cid : BitVec 64) :
    chooseSlot (tileOf (s.cmdStart p unit opcode cid) p) = chooseSlot (tileOf s p) := by
  rw [cmdStart_tile hw]
  rfl

theorem openSlots_cmdStart (hw : smWf {} 0 s.tiles = true) (unit opcode : Nat) (cid : BitVec 64) :
    openSlots (tileOf (s.cmdStart p unit opcode cid) p) = openSlots (tileOf s p) := by
  rw [cmdStart_tile hw]
  rfl

/-- PLATE_TRANSPOSE leaves the plate in the transposing buffer and stores its transpose (R147). -/
theorem plateTranspose_stores (hcan : Canonical s) (hr : Safety.Runs t s) (hp : physOf s.repair t.tile = p)
    (hcheck : plateCheck 2 d = none) {a b : PlateArray} (ha : readArray s p d.arrayDesc.toNat = a)
    (hb : readArray s p d.destDesc.toNat = b) (hread : readFault s d.arrayDesc.toNat 64 = none)
    (hread' : readFault s d.destDesc.toNat 64 = none) (harray : arrayChecks s a d.plateRow.toNat d.plateCol.toNat 0 false = none)
    (harray' : arrayChecks s b d.destRow.toNat d.destCol.toNat 0 false = none) (helem : a.elem = b.elem) {i : Nat} {h : PlateHead}
    (hi : plateIndex a d.plateRow.toNat d.plateCol.toNat = i) (hh : readHead s p a i = h) {slot w : Nat}
    (hslot : chooseSlot (tileOf s p) = slot) (hw : plateElemBytes a.elem = w)
    (hfree : w = 4 → (openSlots (tileOf s p)).testBit (1 - slot) = false) (hvalid : headValid s p a i h = true) {pl : List Nat}
    (hpl : expandForm s p (formAddr a h) a.elem h = pl) (hclean : plateDetection s p (formAddr a h) a.elem h = [])
    {f : PlateHead × Bytes}
    (hf : compress b.elem b.heavy ((List.range 16384).map (fun k => plateElem pl (k / 128) (k % 128))) = f) {s1 : State}
    (hs1 : platePlaced (s.cmdStart p 2 0x22 d.cid) p slot w (pl.flatMap (leBytes w)) = s1) {v : List (Nat × Bytes)}
    (hplan : storeForm s1 p b (plateIndex b d.destRow.toNat d.destCol.toNat) f.1 f.2 = .ok v) : ∃ e : State,
      exec (.plateTranspose t d) s = .next (e.sendBound t.tile d.cid) ∧ RanOn p s e ∧ e.mem = putRows p v s1.mem ∧
        (tileOf e p).lastSlot = some slot := by
  have htiles := hcan.2.1
  have ⟨_, _, hdet, hsuspect, hchecks, _⟩ := hr
  have hmem := State.cmdStart_mem s p 2 0x22 d.cid
  have hvar := State.cmdStart_variant s p 2 0x22 d.cid
  have hstart := (State.cmdStart_checks s p 2 0x22 d.cid).trans hchecks
  have hplaced := platePlaced_frame hstart p slot w (pl.flatMap (leBytes w))
  rw [hs1] at hplaced
  have hrows := writeRows_clean (p := p) v (s := s1) (by rw [hplaced]; exact hstart)
  have hended := tileOf_ended (unit := 2) (opcode := 0x22) (cid := d.cid) (u := s1.writeRows p v) htiles
    (fun x => { x with lastSlot := some slot }) (by rw [hrows, hplaced]) 0 0
  refine ⟨(s1.writeRows p v).cmdEnd p d.cid 0 0, ?_, ranOn_updTile (unit := 2) (opcode := 0x22) htiles
    (fun x => { x with lastSlot := some slot }) (by rw [hrows, hplaced]) (by rw [hrows, hplaced]) 0 0, ?_,
    congrArg Tile.lastSlot hended.1⟩
  · change execPlateTranspose t d s = _
    unfold execPlateTranspose
    rw [hcheck]
    refine tileCmd_ends hr hp ?_
    have hready : ¬ (a.elem ≠ b.elem ∨ (w = 4 ∧ (openSlots (tileOf s p)).testBit (1 - slot))) := by
      rintro (h | ⟨hfour, hopen⟩)
      · exact h helem
      · exact Bool.false_ne_true ((hfree hfour).symm.trans hopen)
    dsimp only
    rw [readArray_congr hmem, ha, readArray_congr hmem, hb, readFault_congr hvar, hread, readFault_congr hvar, hread',
      arrayChecks_congr hvar, harray, arrayChecks_congr hvar, harray', hi, readHead_congr hmem, hh, chooseSlot_cmdStart htiles, hslot,
      openSlots_cmdStart htiles, hw, if_neg hready, headValid_congr hmem, hvalid, expandForm_congr hmem, hpl, hf,
      plateDetection_congr hmem, hclean, readDetections_clean hstart]
    rw [← hs1] at hplan ⊢
    exact plateStoreDone_stores hdet hsuspect hplan ..
  · rw [State.cmdEnd_mem, hrows]

end PlateCommands

/-! ### Rows that lie apart -/

section Rows

variable {p : Nat}

/-- Two rows share no byte. -/
def Apart (x y : Nat × Bytes) : Prop := x.1 + x.2.length ≤ y.1 ∨ y.1 + y.2.length ≤ x.1

theorem putRows_wf : ∀ (l : List (Nat × Bytes)) {m : List Host.Cell}, Memory.wf m = true → Memory.wf (putRows p l m) = true
  | [], _, h => h
  | _ :: r, _, h => putRows_wf r (wrBytes_wf _ _ h)

/-- What rows elsewhere leave to read. -/
theorem rdBytes_putRows_other {a n : Nat} : ∀ {l : List (Nat × Bytes)} {m : List Host.Cell}, Memory.wf m = true →
    (∀ y ∈ l, a + n ≤ y.1 ∨ y.1 + y.2.length ≤ a) → rdBytes (putRows p l m) (memKey p a) n = rdBytes m (memKey p a) n
  | [], _, _, _ => rfl
  | y :: r, m, hm, h => by
    refine (rdBytes_putRows_other (wrBytes_wf _ _ hm) fun z hz => h z (List.mem_cons_of_mem _ hz)).trans ?_
    refine rdBytes_wrBytes_other _ hm n ?_
    have hy := h y List.mem_cons_self
    simp only [memKey]
    omega

/-- A row among rows that lie apart reads back. -/
theorem rdBytes_putRows {x : Nat × Bytes} : ∀ {l : List (Nat × Bytes)} {m : List Host.Cell}, Memory.wf m = true →
    l.Pairwise Apart →
    x ∈ l → rdBytes (putRows p l m) (memKey p x.1) x.2.length = x.2
  | y :: r, m, hm, hp, hx => by
    obtain ⟨hy, hr⟩ := List.pairwise_cons.mp hp
    obtain rfl | hmem := List.mem_cons.mp hx
    · exact (rdBytes_putRows_other (wrBytes_wf _ _ hm) hy).trans (rdBytes_wrBytes_same x.2 hm)
    · exact rdBytes_putRows (m := wrBytes m (memKey p y.1) y.2) (wrBytes_wf _ _ hm) hr hmem

/-- Pieces of `w` bytes in rows a stride apart, which `n` of them fit into. -/
theorem pieces_apart {n w stride c r c' r' : Nat} (hr : r < n) (hr' : r' < n) (hfit : n * w ≤ stride) (h : c ≠ c' ∨ r ≠ r') :
    c * stride + r * w + w ≤ c' * stride + r' * w ∨ c' * stride + r' * w + w ≤ c * stride + r * w := by
  have hrow := Nat.mul_le_mul_right w (Nat.succ_le_of_lt hr)
  have hrow' := Nat.mul_le_mul_right w (Nat.succ_le_of_lt hr')
  rw [Nat.succ_mul] at hrow hrow'
  obtain hlt | heq | hgt := Nat.lt_trichotomy c c'
  · have hstep := Nat.mul_le_mul_right stride (Nat.succ_le_of_lt hlt)
    rw [Nat.succ_mul] at hstep
    omega
  · subst heq
    obtain hlt | heq | hgt := Nat.lt_trichotomy r r'
    · have hstep := Nat.mul_le_mul_right w (Nat.succ_le_of_lt hlt)
      rw [Nat.succ_mul] at hstep
      omega
    · omega
    · have hstep := Nat.mul_le_mul_right w (Nat.succ_le_of_lt hgt)
      rw [Nat.succ_mul] at hstep
      omega
  · have hstep := Nat.mul_le_mul_right stride (Nat.succ_le_of_lt hgt)
    rw [Nat.succ_mul] at hstep
    omega

end Rows

/-! ### PLATE_LOAD (R133, R134) -/

section PlateLoad

variable {s u : State} {t : Site} {d : PlateDesc} {p : Nat}

/-- The pieces that the dense side of a plate is written in. -/
def denseRows (colMajor : Bool) (addr stride w : Nat) (pl : List Nat) : List (Nat × Bytes) :=
  (List.range pl.length).map (fun k => (denseSide colMajor addr stride w (k % 128) (k / 128), leBytes w (pl.getD k 0)))

theorem zipIdx_eq_range (pl : List Nat) : pl.zipIdx = (List.range pl.length).map (fun k => (pl.getD k 0, k)) := by
  refine List.ext_getElem (by simp) fun i h _ => ?_
  have hi : i < pl.length := by simpa using h
  simp [List.getElem?_eq_getElem hi]

theorem writeDense_eq (u : State) (p : Nat) (colMajor : Bool) (addr stride fmt : Nat) (pl : List Nat) :
    u.writeDense p colMajor addr stride fmt pl = u.writeRows p (denseRows colMajor addr stride (plateElemBytes fmt) pl) := by
  unfold State.writeDense State.writeRows denseRows
  rw [zipIdx_eq_range, List.foldl_map, List.foldl_map]

theorem length_scatterResidue (mask : Nat) (vals : Nat → Nat) : ∀ n pos idx, (scatterResidue mask vals n pos idx).length = n
  | 0, _, _ => rfl
  | n + 1, pos, idx => by
    unfold scatterResidue
    split
    · exact congrArg (· + 1) (length_scatterResidue mask vals n ..)
    · exact congrArg (· + 1) (length_scatterResidue mask vals n ..)

theorem length_expandForm (s : State) (p a fmt : Nat) (h : PlateHead) : (expandForm s p a fmt h).length = 16384 := by
  unfold expandForm
  dsimp only
  split
  · rw [List.length_map, List.length_range]
  · rw [List.length_map, List.length_zipIdx, length_scatterResidue]
  · rw [List.length_replicate]

/-- The pieces of a dense side lie apart where a stride holds a row or column of them. -/
theorem denseRows_apart {colMajor : Bool} {addr stride w : Nat} {pl : List Nat} (hlen : pl.length = 16384) (hfit : 128 * w ≤ stride) :
    (denseRows colMajor addr stride w pl).Pairwise Apart := by
  unfold denseRows
  rw [List.pairwise_map]
  refine List.pairwise_lt_range.imp_of_mem fun {i j} hi hj hlt => ?_
  rw [List.mem_range, hlen] at hi hj
  have hcols := pieces_apart (c := i / 128) (c' := j / 128) (Nat.mod_lt i (by decide)) (Nat.mod_lt j (by decide)) hfit (by omega)
  have hrows := pieces_apart (c := i % 128) (c' := j % 128) (r := i / 128) (r' := j / 128) (n := 128) (by omega)
      (by omega) hfit (by omega)
  unfold Apart denseSide
  simp only [length_leBytes]
  split
  · omega
  · omega

theorem mem_denseRows {colMajor : Bool} {addr stride w : Nat} {pl : List Nat} (hlen : pl.length = 16384) {r c : Nat} (hr : r < 128)
    (hc : c < 128) : (denseSide colMajor addr stride w r c, leBytes w (plateElem pl r c)) ∈ denseRows colMajor addr stride w pl := by
  refine List.mem_map.mpr ⟨128 * c + r, List.mem_range.mpr (by omega), ?_⟩
  rw [show (128 * c + r) % 128 = r by omega, show (128 * c + r) / 128 = c by omega]
  rfl

theorem firstCode_none {l : List (Option Code)} (h : ∀ x ∈ l, x = none) : firstCode l = none := by
  induction l with
  | nil => rfl
  | cons x r ih =>
    obtain rfl := h x List.mem_cons_self
    exact ih fun y hy => h y (List.mem_cons_of_mem _ hy)

theorem stride_of_arrayChecks {a : PlateArray} {pr pc stride : Nat} (h : arrayChecks s a pr pc stride true = none) :
    128 * plateElemBytes a.elem ≤ stride := by
  unfold arrayChecks at h
  split at h
  · nomatch h
  · next hc =>
    simp only [Bool.not_eq_true, Bool.or_eq_false_iff, Bool.true_and, decide_eq_false_iff_not] at hc
    omega

/-- PLATE_LOAD writes each element of its plate to its place of the dense side. -/
theorem plateLoad_loads (hcan : Canonical s) (hr : Safety.Runs t s) (hp : physOf s.repair t.tile = p) (hcheck : plateCheck 1 d = none)
    {a : PlateArray} (ha : readArray s p d.arrayDesc.toNat = a) (hread : readFault s d.arrayDesc.toNat 64 = none)
    (harray : arrayChecks s a d.plateRow.toNat d.plateCol.toNat d.denseStride.toNat true = none) {i : Nat} {h : PlateHead}
    (hi : plateIndex a d.plateRow.toNat d.plateCol.toNat = i) (hh : readHead s p a i = h) (hvalid : headValid s p a i h = true)
    (hwrite : ∀ k, k < 128 → writeFault s p (d.denseAddr.toNat + k * d.denseStride.toNat) (128 * plateElemBytes a.elem) = none)
    (hclean : plateDetection s p (formAddr a h) a.elem h = []) : ∃ e : State,
      exec (.plateLoad t d) s = .next (e.sendBound t.tile d.cid) ∧ RanOn p s e ∧ ∀ r c, r < 128 → c < 128 →
        tileRead e p (denseSide (d.layout.getLsbD 0) d.denseAddr.toNat d.denseStride.toNat (plateElemBytes a.elem) r c)
          (plateElemBytes a.elem) = leBytes (plateElemBytes a.elem) (plateElem (expandForm s p (formAddr a h) a.elem h) r c) := by
  have htiles := hcan.2.1
  have ⟨_, _, hdet, hsuspect, hchecks, _⟩ := hr
  have hmem := State.cmdStart_mem s p 2 0x21 d.cid
  have hvar := State.cmdStart_variant s p 2 0x21 d.cid
  have hstart := (State.cmdStart_checks s p 2 0x21 d.cid).trans hchecks
  have hfit := stride_of_arrayChecks harray
  have hlen := length_expandForm s p (formAddr a h) a.elem h
  generalize hpl : expandForm s p (formAddr a h) a.elem h = pl at hlen ⊢
  have hfaults : firstCode ((List.range 128).map (fun k => writeFault (s.cmdStart p 2 0x21 d.cid) p
      (d.denseAddr.toNat + k * d.denseStride.toNat) (128 * plateElemBytes a.elem))) = none := by
    refine firstCode_none fun x hx => ?_
    obtain ⟨k, hk, rfl⟩ := List.mem_map.mp hx
    exact (writeFault_cmdStart _ _ _ htiles ..).trans (hwrite k (List.mem_range.mp hk))
  have hexec : ∃ e : State, execPlateLoad t d s = .next (e.sendBound t.tile d.cid) ∧ RanOn p s e ∧ e.mem = putRows p
      (denseRows (d.layout.getLsbD 0) d.denseAddr.toNat d.denseStride.toNat (plateElemBytes a.elem) pl) s.mem := by
    unfold execPlateLoad
    rw [hcheck]
    refine rowsStored hcan hr hp ?_
    dsimp only
    rw [readArray_congr hmem, ha, readFault_congr hvar, hread, arrayChecks_congr hvar, harray, hi, readHead_congr hmem, hh,
      headValid_congr hmem, hvalid, hfaults, expandForm_congr hmem, hpl, plateDetection_congr hmem, hclean, readDetections_clean hstart]
    dsimp only [firstCode]
    rw [settle_clean hdet hsuspect rfl rfl, writeDense_eq]
    rfl
  obtain ⟨e, hnext, hran, hemem⟩ := hexec
  refine ⟨e, hnext, hran, fun r c hr hc => ?_⟩
  have hpiece := rdBytes_putRows (p := p) hcan.1 (denseRows_apart (colMajor := d.layout.getLsbD 0) (addr := d.denseAddr.toNat) hlen hfit)
    (mem_denseRows hlen hr hc)
  rw [length_leBytes, ← hemem] at hpiece
  exact hpiece

end PlateLoad

/-- Settles O55: the checks of each plate command look at what its start leaves, and what it stores is a list of rows. -/
theorem plateCommands : Obligations.PlateCommands := by
  unfold Obligations.PlateCommands
  intro t d s hr hcan p u a i stride pr pc
  refine ⟨fun v hcheck hread harray => plateStore_stores hcan hr rfl hcheck rfl hread harray rfl, fun c hcheck hread harray => ?_,
    fun h hh hcheck hread harray => ?_, ?_, ?_⟩
  · intro f hplan hc hd
    exact plateStore_fails hr rfl hcheck rfl hread harray rfl (hc ▸ hplan) hd
  · intro hvalid hwrite hclean
    exact plateLoad_loads hcan hr rfl hcheck rfl hread harray rfl hh.symm hvalid hwrite hclean
  · intro h b pl slot w f s1 v hcheck hread hread' harray harray' helem hfree hvalid hclean hplan
    exact plateTranspose_stores hcan hr rfl hcheck rfl rfl hread hread' harray harray' helem rfl rfl rfl rfl hfree
      hvalid rfl hclean rfl rfl hplan
  · intro at_ h size v hcheck hread harray hplace himage hplan
    exact plateAdopt_stores hcan hr rfl hcheck rfl hread harray rfl rfl hplace himage hplan

end Sys2Proof.Laws
end

section
/-! TRANSPOSE and the Strata (O56). -/

namespace Sys2Proof.Laws

open Sys2Proof.Machine Sys2Proof.Safety

/-! ### Work on one tile's record and on memory -/

section TileWork

variable {s u e : State} {t : Site} {p : Nat} {y : Tile} {cid : BitVec 64}

/-- From `s` to `e` memory changes, and the record of tile `p`, which becomes `y`. -/
def TileWork (p : Nat) (s e : State) (y : Tile) : Prop :=
  e = { s with
    mem := e.mem
    tiles := e.tiles } ∧ smWf {} 0 e.tiles = true ∧ tileOf e p = y ∧ ∀ q, q ≠ p → tileOf e q = tileOf s q

theorem TileWork.start (hw : smWf {} 0 s.tiles = true) : TileWork p s s (tileOf s p) := ⟨rfl, hw, rfl, fun _ _ => rfl⟩

theorem TileWork.updTile (h : TileWork p s e y) (f : Tile → Tile) : TileWork p s (e.updTile p f) (f y) := by
  obtain ⟨hframe, hw, hown, hother⟩ := h
  refine ⟨?_, tilesWf_updTile f hw, ?_, fun q hq => (tileOf_updTile_other f hw hq).trans (hother q hq)⟩
  · conv_lhs => rw [hframe]
    rfl
  · rw [tileOf_updTile_same f hw, hown]

theorem TileWork.setMem (h : TileWork p s e y) (m : List Host.Cell) : TileWork p s { e with mem := m } y := by
  obtain ⟨hframe, hw, hown, hother⟩ := h
  refine ⟨?_, hw, hown, hother⟩
  conv_lhs => rw [hframe]

theorem TileWork.checks (h : TileWork p s e y) : e.checks = s.checks := by
  rw [h.1]

/-- A command whose body works on its tile's record and on memory. -/
theorem TileWork.ends (hcan : Canonical s) (hr : Safety.Runs t s) (hp : physOf s.repair t.tile = p) {opcode unit : Nat}
    {body : Site → Nat → State → Done} (hb : body t p (s.cmdStart p unit opcode cid) = { state := u })
    (h : TileWork p (s.cmdStart p unit opcode cid) u y) : ∃ e : State,
      tileCmd t cid opcode unit none body s = .next (e.sendBound t.tile cid) ∧ RanOn p s e ∧ e.mem = u.mem ∧
        tileOf e p = { y with strata := y.strata.countRecompute } := by
  obtain ⟨hframe, hw, hown, hother⟩ := h
  refine ⟨_, tileCmd_ends hr hp hb, ranOn_of_body hcan.2.1 hw ?_ hother 0 0, State.cmdEnd_mem .., ?_⟩
  · have htrace : u.trace = (s.cmdStart p unit opcode cid).trace := by
      rw [hframe]
    rw [htrace]
    exact hframe
  · rw [cmdEnd_tile hw, hown]

theorem strata_cmdStart (hw : smWf {} 0 s.tiles = true) (unit opcode : Nat) (cid : BitVec 64) :
    (tileOf (s.cmdStart p unit opcode cid) p).strata = (tileOf s p).strata := by
  rw [cmdStart_tile hw]

theorem tileProg_cmdStart (s : State) (p unit opcode : Nat) (cid : BitVec 64) (q : Nat) :
    (s.cmdStart p unit opcode cid).tileProg q = s.tileProg q := by
  unfold State.tileProg State.prog
  rw [State.cmdStart_program]

theorem tileRead_congr (h : u.mem = s.mem) (a n : Nat) : tileRead u p a n = tileRead s p a n := by
  rw [tileRead, tileRead, h]

theorem readSpans_congr (h : u.mem = s.mem) (l : List Span) : readSpans u p l = readSpans s p l := by
  simp only [readSpans, tileRead_congr h]

end TileWork

/-! ### Spans -/

section Spans

variable {s : State} {p : Nat} {b : Backward}

/-- The rows that bytes go to when they are written to spans, one after another. -/
def spanRows : List Span → Bytes → List (Nat × Bytes)
  | [], _ => []
  | x :: r, b => (x.addr, b.take x.bytes) :: spanRows r (b.drop x.bytes)

theorem writeSpans_clean : ∀ (l : List Span) (v : Bytes) {s : State}, s.checks = [] →
    s.writeSpans p false l v = { s with mem := putRows p (spanRows l v) s.mem }
  | [], _, _, _ => rfl
  | x :: r, v, s, h => by
    change (s.tileWrite p x.addr (v.take x.bytes)).writeSpans p false r (v.drop x.bytes) = _
    rw [tileWrite_clean h,
      writeSpans_clean r (v.drop x.bytes) (s := { s with mem := wrBytes s.mem (memKey p x.addr) (v.take x.bytes) }) h]
    rfl

theorem moveEntry_clean (h : s.checks = []) (l l' : List Span) :
    s.moveEntry p l l' = { s with mem := putRows p (spanRows l' (readSpans s p l)) s.mem } := by
  unfold State.moveEntry
  rw [readDetections_clean h]
  exact writeSpans_clean _ _ h

theorem memKey_add (p a n : Nat) : memKey p (a + n) = memKey p a + n := (Nat.add_assoc ..).symm

theorem rdByte_putRows_other {k : Nat} : ∀ {l : List (Nat × Bytes)} {m : List Host.Cell}, Memory.wf m = true →
    (∀ y ∈ l, k < memKey p y.1 ∨ memKey p (y.1 + y.2.length) ≤ k) → rdByte (putRows p l m) k = rdByte m k
  | [], _, _, _ => rfl
  | y :: r, m, hm, h => by
    refine (rdByte_putRows_other (wrBytes_wf _ _ hm) fun z hz => h z (List.mem_cons_of_mem _ hz)).trans ?_
    have hy := h y List.mem_cons_self
    rw [memKey_add] at hy
    exact rdByte_wrBytes_other _ hm hy

/-- The stretch of the window that `n` bytes at an offset take: one piece, or one to its end and one from its start. -/
theorem windowSpans_cases (b : Backward) (off n : Nat) :
    (off % b.topBytes + n ≤ b.topBytes ∧ windowSpans b off n = [⟨b.topBase + off % b.topBytes, 0, n, 1⟩]) ∨
    (b.topBytes < off % b.topBytes + n ∧ windowSpans b off n = [⟨b.topBase + off % b.topBytes, 0, b.topBytes - off % b.topBytes, 1⟩,
      ⟨b.topBase, 0, n - (b.topBytes - off % b.topBytes), 1⟩]) := by
  unfold windowSpans
  dsimp only
  split
  · next h => exact .inl ⟨h, rfl⟩
  · next h => exact .inr ⟨Nat.lt_of_not_le h, rfl⟩

theorem length_readSpans_window (s : State) (p off n : Nat) :
    (readSpans s p (windowSpans b off n)).length = n := by
  obtain ⟨-, h⟩ | ⟨hlt, h⟩ := windowSpans_cases b off n
  · simp only [h, readSpans, List.flatMap_cons, List.flatMap_nil, List.append_nil, length_tileRead]
  · simp only [h, readSpans, List.flatMap_cons, List.flatMap_nil, List.length_append, length_tileRead, List.length_nil]
    omega

/-- The rows that a stretch of the window is written in hold its bytes, lie in the window and lie apart. -/
theorem spanRows_window {off n : Nat} {v : Bytes} (hv : v.length = n) (hn : n ≤ b.topBytes) (hpos : 0 < b.topBytes) :
    (∀ y ∈ spanRows (windowSpans b off n) v, b.topBase ≤ y.1 ∧ y.1 + y.2.length ≤ b.topBase + b.topBytes) ∧
    (spanRows (windowSpans b off n) v).Pairwise Apart ∧
    (spanRows (windowSpans b off n) v).flatMap Prod.snd = v ∧
    (windowSpans b off n).map (fun x => (x.addr, x.bytes)) = (spanRows (windowSpans b off n) v).map (fun y => (y.1, y.2.length)) := by
  have hlt := Nat.mod_lt off hpos
  obtain ⟨hle, h⟩ | ⟨hgt, h⟩ := windowSpans_cases b off n
  · rw [h]
    simp only [spanRows, List.take_of_length_le hv.le]
    refine ⟨fun y hy => ?_, List.pairwise_singleton _ _, by simp, by simp [hv]⟩
    obtain rfl := List.mem_singleton.mp hy
    dsimp only
    omega
  · rw [h]
    have hfirst : (v.take (b.topBytes - off % b.topBytes)).length = b.topBytes - off % b.topBytes := by
      rw [List.length_take]
      omega
    have hrest : (v.drop (b.topBytes - off % b.topBytes)).length = n - (b.topBytes - off % b.topBytes) := by
      rw [List.length_drop, hv]
    simp only [spanRows, List.take_of_length_le hrest.le]
    refine ⟨fun y hy => ?_, ?_, by simp, by simp only [List.map_cons, List.map_nil, hfirst, hrest]⟩
    · obtain rfl | rfl : y = _ ∨ y = _ := by simpa using hy
      · dsimp only
        omega
      · dsimp only
        omega
    · refine List.pairwise_pair.mpr (.inr ?_)
      dsimp only
      omega

/-- Bytes written to rows that lie apart are read back from spans at the same places. -/
theorem readSpans_putRows {m : List Host.Cell} (hm : Memory.wf m = true) {l : List (Nat × Bytes)} (hl : l.Pairwise Apart)
    {spans : List Span}
    (hspans : spans.map (fun x => (x.addr, x.bytes)) = l.map (fun y => (y.1, y.2.length))) (hs : s.mem = putRows p l m) :
    readSpans s p spans = l.flatMap Prod.snd := by
  have hread : readSpans s p spans = (spans.map (fun x => (x.addr, x.bytes))).flatMap (fun x => tileRead s p x.1 x.2) := by
    rw [List.flatMap_map]
    rfl
  rw [hread, hspans, List.flatMap_map, List.flatMap_def, List.flatMap_def]
  refine congrArg List.flatten (List.map_congr_left fun y hy => ?_)
  dsimp only
  rw [tileRead, hs]
  exact rdBytes_putRows hm hl hy

/-- What is written to a stretch of the window is read back, and no byte outside the window changes. -/
theorem window_written {m : List Host.Cell} (hm : Memory.wf m = true) {off n : Nat} {v : Bytes} (hv : v.length = n)
    (hn : n ≤ b.topBytes) (hpos : 0 < b.topBytes) (hs : s.mem = putRows p (spanRows (windowSpans b off n) v) m) :
    readSpans s p (windowSpans b off n) = v ∧
      ∀ k, k < memKey p b.topBase ∨ memKey p (b.topBase + b.topBytes) ≤ k → rdByte s.mem k = rdByte m k := by
  obtain ⟨hin, hapart, hall, hplaces⟩ := spanRows_window (off := off) hv hn hpos
  refine ⟨(readSpans_putRows hm hapart hplaces hs).trans hall, fun k hk => ?_⟩
  rw [hs]
  refine rdByte_putRows_other hm fun y hy => ?_
  have hy := hin y hy
  simp only [memKey] at hk ⊢
  omega

end Spans

/-! ### TRANSPOSE (R155, R156) -/

section Transpose

variable {s u : State} {t : Site} {d : TransDesc} {p : Nat}

theorem widenElem_congr (h : u.program = s.program) (d : TransDesc) (v : Nat) : widenElem u d v = widenElem s d v := by
  simp only [widenElem, State.prog, h]

theorem transRow_congr (hmem : u.mem = s.mem) (hprog : u.program = s.program) (c : Nat) : transRow u p d c = transRow s p d c := by
  simp only [transRow, widenElem_congr hprog, tileNum_congr hmem]

/-- Element `(c, r)` of the result of a TRANSPOSE. -/
def transElem (s : State) (p : Nat) (d : TransDesc) (r c : Nat) : Bytes :=
  leBytes (transSizes d).2 (widenElem s d (tileNum s p (d.srcAddr.toNat + r * d.srcStride.toNat + c * (transSizes d).1) (transSizes d).1))

theorem length_transElem (r c : Nat) : (transElem s p d r c).length = (transSizes d).2 := length_leBytes ..

theorem length_transRow (c : Nat) : (transRow s p d c).length = (d.rowsMinus1.toNat + 1) * (transSizes d).2 :=
  length_flatMap_const (g := fun r => transElem s p d r c) (fun r => length_transElem r c) _

/-- Where an element of the result lies in its row. -/
theorem transRow_split {r : Nat} (c : Nat) (hr : r ≤ d.rowsMinus1.toNat) : ∃ x z, transRow s p d c = x ++ transElem s p d r c ++ z ∧
    x.length = r * (transSizes d).2 := by
  obtain ⟨z, hz⟩ := flatMap_range_split (fun r => transElem s p d r c) (Nat.lt_succ_of_le hr)
  exact ⟨_, z, hz, length_flatMap_const (fun r => length_transElem r c) r⟩

/-- What a TRANSPOSE descriptor that passes its check fits into: the slot it names, and the rows of its destination. -/
theorem trans_fits (hcheck : transCheck d = none) : d.rowsMinus1.toNat + 1 ≤ 128 ∧ d.colsMinus1.toNat + 1 ≤ 128 ∧
    128 * (128 * (transSizes d).2) ≤ (if d.dest.toNat % 4 = 2 then 0x10000 else 0x8000) ∧
    (d.dest.getLsbD 2 = true → (d.rowsMinus1.toNat + 1) * (transSizes d).2 ≤ d.dstStride.toNat) := by
  have hall := firstFail_none hcheck
  simp only [List.forall_mem_cons] at hall
  obtain ⟨-, hshape, -, hslot, -, -, -, hstride, -⟩ := hall
  simp only [Bool.or_eq_false_iff, decide_eq_false_iff_not, Nat.not_lt] at hshape
  obtain ⟨⟨⟨hfmt, hrows⟩, hcols⟩, -⟩ := hshape
  refine ⟨hrows, hcols, ?_, fun hmem => ?_⟩
  · have hsize : (transSizes d).2 = 1 ∨ (transSizes d).2 = 2 ∨ (transSizes d).2 = 4 := by
      unfold transSizes
      generalize d.srcFormat.toNat % 16 = fmt at hfmt
      dsimp only
      split
      · exact .inr (.inl rfl)
      · interval_cases fmt <;> decide
    split
    · omega
    · next h =>
      have : (transSizes d).2 ≠ 4 := fun hfour => by simp [h, hfour] at hslot
      omega
  · simp only [hmem, Bool.true_and, Bool.or_eq_false_iff, decide_eq_false_iff_not, Nat.not_lt] at hstride
    exact hstride.2

theorem fitTo_of_length_le {n : Nat} {b : Bytes} (h : b.length ≤ n) : fitTo n b = b ++ zeros (n - b.length) := by
  unfold fitTo
  refine List.take_of_length_le ?_
  rw [List.length_append, zeros, List.length_replicate]
  omega

/-- The bytes that a TRANSPOSE puts into its slot. -/
def transStaged (s : State) (p : Nat) (d : TransDesc) : Bytes :=
  (List.range (d.colsMinus1.toNat + 1)).flatMap (fun c => fitTo (128 * (transSizes d).2) (transRow s p d c))

theorem length_transStaged : (transStaged s p d).length = (d.colsMinus1.toNat + 1) * (128 * (transSizes d).2) :=
  length_flatMap_const (fun _ => length_fitTo ..) _

/-- Where an element of the result lies in the slot. -/
theorem transStaged_split (hcheck : transCheck d = none) {r c : Nat} (hr : r ≤ d.rowsMinus1.toNat) (hc : c ≤ d.colsMinus1.toNat) :
    ∃ x z, transStaged s p d = x ++ transElem s p d r c ++ z ∧ x.length = c * (128 * (transSizes d).2) + r * (transSizes d).2 := by
  obtain ⟨hrows, -, -, -⟩ := trans_fits hcheck
  obtain ⟨z, hz⟩ := flatMap_range_split (fun c => fitTo (128 * (transSizes d).2) (transRow s p d c)) (Nat.lt_succ_of_le hc)
  obtain ⟨x, y, hrow, hx⟩ := transRow_split (s := s) (p := p) c hr
  obtain ⟨w, hfit⟩ : ∃ w, fitTo (128 * (transSizes d).2) (transRow s p d c) = transRow s p d c ++ w :=
    ⟨_, fitTo_of_length_le (by rw [length_transRow]; exact Nat.mul_le_mul_right _ hrows)⟩
  have hbefore := length_flatMap_const (g := fun c => fitTo (128 * (transSizes d).2) (transRow s p d c)) (fun _ => length_fitTo ..) c
  rw [transStaged, hz, hfit, hrow]
  generalize (List.range c).flatMap (fun c => fitTo (128 * (transSizes d).2) (transRow s p d c)) = v at hbefore ⊢
  refine ⟨v ++ x, y ++ w ++ z, by simp only [List.append_assoc], ?_⟩
  rw [List.length_append, hx, hbefore]

/-- What a write to a slot leaves: the bytes at the slot's base, and every byte outside the buffer as it was (R155). -/
theorem writeSlot_reads (hm : Memory.wf s.mem = true) (p slot : Nat) {b x y z : Bytes} (hb : b = x ++ y ++ z)
    (hsize : b.length ≤ if slot = 2 then 0x10000 else 0x8000) (hslot : slot < 3) :
    rdBytes (s.writeSlot p slot b).mem (memKey p ((if slot = 1 then bufferBase + 0x8000 else bufferBase) + x.length)) y.length = y ∧
    ∀ k, k < memKey p bufferBase ∨ memKey p (bufferBase + 0x10000) ≤ k →
      rdByte (s.writeSlot p slot b).mem k = rdByte s.mem k := by
  have hmem : (s.writeSlot p slot b).mem = wrBytes (clearRange s.mem (memKey p (if slot = 1 then bufferBase + 0x8000 else bufferBase))
      (memKey p ((if slot = 1 then bufferBase + 0x8000 else bufferBase) + if slot = 2 then 0x10000 else 0x8000)))
      (memKey p (if slot = 1 then bufferBase + 0x8000 else bufferBase)) b := by
    unfold State.writeSlot
    dsimp only
    rw [List.take_of_length_le hsize]
    rfl
  have hin : bufferBase ≤ (if slot = 1 then bufferBase + 0x8000 else bufferBase) ∧
      (if slot = 1 then bufferBase + 0x8000 else bufferBase) + (if slot = 2 then 0x10000 else 0x8000) ≤ bufferBase + 0x10000 := by
    interval_cases slot <;> decide
  generalize (if slot = 1 then bufferBase + 0x8000 else bufferBase) = base at hmem hin ⊢
  generalize (if slot = 2 then 0x10000 else 0x8000) = size at hsize hmem hin
  rw [hmem]
  refine ⟨?_, fun k hk => ?_⟩
  · rw [hb, memKey_add p base x.length]
    exact rdBytes_wrBytes_piece (clearRange_wf _ _ hm) (memKey p base) x y z
  · have hout : k < memKey p base ∨ memKey p (base + size) ≤ k := by
      unfold memKey at hk ⊢
      generalize p * 2 ^ 40 = key at hk ⊢
      omega
    rw [rdByte_wrBytes_other _ (clearRange_wf _ _ hm), rdByte_clearRange _ _ _ hm, if_neg]
    · omega
    · unfold memKey at hout ⊢
      generalize p * 2 ^ 40 = key at hout ⊢
      omega

/-- The state in which a TRANSPOSE has filled its slot. -/
def transSlotted (u : State) (p : Nat) (d : TransDesc) : State :=
  (u.updTile p (fun x => { x with lastSlot := some (d.dest.toNat % 4) })).writeSlot p (d.dest.toNat % 4) (transStaged u p d)

theorem transSlotted_work (h : u.checks = []) {y : Tile} (hwork : TileWork p s u y) :
    TileWork p s (transSlotted u p d) { y with lastSlot := some (d.dest.toNat % 4) } := by
  unfold transSlotted
  rw [writeSlot_clean (s := u.updTile p (fun x => { x with lastSlot := some (d.dest.toNat % 4) })) h]
  exact (hwork.updTile _).setMem _

theorem zipIdx_map_range {α : Type} (g : Nat → α) (n : Nat) :
    ((List.range n).map g).zipIdx = (List.range n).map (fun k => (g k, k)) := by
  refine List.ext_getElem (by simp) fun i h _ => ?_
  simp

/-- TRANSPOSE without TO_MEMORY does nothing but fill its slot. -/
theorem transpose_slots (hcan : Canonical s) (hr : Safety.Runs t s) (hp : physOf s.repair t.tile = p) (hcheck : transCheck d = none)
    (hmem : d.dest.getLsbD 2 = false) : ∃ e : State, exec (.transpose t d) s = .next (e.sendBound t.tile d.cid) ∧ RanOn p s e ∧
      e.mem = (transSlotted (s.cmdStart p 2 0x24 d.cid) p d).mem ∧ (tileOf e p).lastSlot = some (d.dest.toNat % 4) := by
  have htiles := hcan.2.1
  have ⟨_, _, hdet, hsuspect, hchecks, _⟩ := hr
  have hstart := (State.cmdStart_checks s p 2 0x24 d.cid).trans hchecks
  have hwork := transSlotted_work (d := d) hstart (TileWork.start (p := p) (tilesWf_cmdStart 2 0x24 d.cid htiles))
  have hdone : ∃ e : State, execTranspose t d s = .next (e.sendBound t.tile d.cid) ∧ RanOn p s e ∧
      e.mem = (transSlotted (s.cmdStart p 2 0x24 d.cid) p d).mem ∧ tileOf e p = { { tileOf (s.cmdStart p 2 0x24 d.cid) p with
        lastSlot := some (d.dest.toNat % 4) } with
        strata := (tileOf (s.cmdStart p 2 0x24 d.cid) p).strata.countRecompute } := by
    unfold execTranspose
    rw [hcheck]
    refine hwork.ends hcan hr hp ?_
    dsimp only
    rw [hmem, readDetections_clean hstart, settle_clean hdet hsuspect rfl rfl, List.flatMap_map]
    rfl
  obtain ⟨e, hexec, hran, hemem, htile⟩ := hdone
  exact ⟨e, hexec, hran, hemem, congrArg Tile.lastSlot htile⟩

/-- The rows that a TRANSPOSE with TO_MEMORY writes. -/
def transRows (s : State) (p : Nat) (d : TransDesc) : List (Nat × Bytes) :=
  (List.range (d.colsMinus1.toNat + 1)).map (fun c => (d.dstAddr.toNat + c * d.dstStride.toNat, transRow s p d c))

/-- TRANSPOSE with TO_MEMORY fills its slot and writes the rows of the result. -/
theorem transpose_stores (hcan : Canonical s) (hr : Safety.Runs t s) (hp : physOf s.repair t.tile = p) (hcheck : transCheck d = none)
    (hmem : d.dest.getLsbD 2 = true) (hwrite : ∀ c, c ≤ d.colsMinus1.toNat →
      writeFault s p (d.dstAddr.toNat + c * d.dstStride.toNat) ((d.rowsMinus1.toNat + 1) * (transSizes d).2) = none) :
    ∃ e : State, exec (.transpose t d) s = .next (e.sendBound t.tile d.cid) ∧ RanOn p s e ∧
      e.mem = putRows p (transRows (s.cmdStart p 2 0x24 d.cid) p d) (transSlotted (s.cmdStart p 2 0x24 d.cid) p d).mem := by
  have htiles := hcan.2.1
  have ⟨_, _, hdet, hsuspect, hchecks, _⟩ := hr
  have hstart := (State.cmdStart_checks s p 2 0x24 d.cid).trans hchecks
  have hwork := transSlotted_work (d := d) hstart (TileWork.start (p := p) (tilesWf_cmdStart 2 0x24 d.cid htiles))
  have hrows := writeRows_clean (p := p) (transRows (s.cmdStart p 2 0x24 d.cid) p d) (hwork.checks.trans hstart)
  have hfaults : firstCode ((((List.range (d.colsMinus1.toNat + 1)).map (transRow (s.cmdStart p 2 0x24 d.cid) p d)).zipIdx).map
      (fun r => writeFault (s.cmdStart p 2 0x24 d.cid) p (d.dstAddr.toNat + r.2 * d.dstStride.toNat) r.1.length)) = none := by
    refine firstCode_none fun x hx => ?_
    rw [zipIdx_map_range, List.map_map] at hx
    obtain ⟨c, hc, rfl⟩ := List.mem_map.mp hx
    have hcol := Nat.le_of_lt_succ (List.mem_range.mp hc)
    dsimp only [Function.comp]
    rw [length_transRow, writeFault_cmdStart _ _ _ htiles]
    exact hwrite c hcol
  have hdone : ∃ e : State, execTranspose t d s = .next (e.sendBound t.tile d.cid) ∧ RanOn p s e ∧
      e.mem = putRows p (transRows (s.cmdStart p 2 0x24 d.cid) p d) (transSlotted (s.cmdStart p 2 0x24 d.cid) p d).mem ∧
      tileOf e p = { { tileOf (s.cmdStart p 2 0x24 d.cid) p with
        lastSlot := some (d.dest.toNat % 4) } with
        strata := (tileOf (s.cmdStart p 2 0x24 d.cid) p).strata.countRecompute } := by
    unfold execTranspose
    rw [hcheck]
    refine (hwork.setMem _).ends hcan hr hp ?_
    dsimp only
    rw [hmem, if_pos rfl, hfaults, readDetections_clean hstart]
    dsimp only
    rw [settle_clean hdet hsuspect rfl rfl, zipIdx_map_range, List.map_map, List.flatMap_map]
    exact congrArg (fun v => ({ state := v } : Done)) hrows
  obtain ⟨e, hexec, hran, hemem, -⟩ := hdone
  exact ⟨e, hexec, hran, hemem⟩

theorem rdBytes_add (m : List Host.Cell) : ∀ (n k a : Nat), rdBytes m a (n + k) = rdBytes m a n ++ rdBytes m (a + n) k
  | 0, k, a => by rw [Nat.zero_add]; rfl
  | n + 1, k, a => by
    rw [Nat.add_right_comm, rdBytes, rdBytes_add m n k, rdBytes, Nat.add_assoc a, Nat.add_comm 1]
    rfl

/-- A piece of bytes that are read. -/
theorem rdBytes_piece {m : List Host.Cell} {a : Nat} {v x y z : Bytes} (h : rdBytes m a v.length = v) (hv : v = x ++ y ++ z) :
    rdBytes m (a + x.length) y.length = y := by
  rw [hv, List.length_append, List.length_append, rdBytes_add, rdBytes_add] at h
  obtain ⟨hxy, -⟩ := List.append_inj h (by simp [length_rdBytes])
  exact (List.append_inj hxy (length_rdBytes ..)).2

theorem transElem_congr (hmem : u.mem = s.mem) (hprog : u.program = s.program) (r c : Nat) :
    transElem u p d r c = transElem s p d r c := by
  rw [transElem, transElem, widenElem_congr hprog, tileNum_congr hmem]

/-- R155: element `(r, c)` of the source is element `(c, r)` of the slot, and nothing outside the buffer changes. -/
theorem transpose_toSlot (hcan : Canonical s) (hr : Safety.Runs t s) (hp : physOf s.repair t.tile = p) (hcheck : transCheck d = none)
    (hmem : d.dest.getLsbD 2 = false) : ∃ e : State, exec (.transpose t d) s = .next (e.sendBound t.tile d.cid) ∧ RanOn p s e ∧
      (tileOf e p).lastSlot = some (d.dest.toNat % 4) ∧ (∀ r c, r ≤ d.rowsMinus1.toNat → c ≤ d.colsMinus1.toNat →
        tileRead e p ((if d.dest.toNat % 4 = 1 then bufferBase + 0x8000 else bufferBase) + c * (128 * (transSizes d).2) +
          r * (transSizes d).2) (transSizes d).2 = transElem s p d r c) ∧
      ∀ k, k < memKey p bufferBase ∨ memKey p (bufferBase + 0x10000) ≤ k → rdByte e.mem k = rdByte s.mem k := by
  have hstart := State.cmdStart_mem s p 2 0x24 d.cid
  have hwf : Memory.wf (s.cmdStart p 2 0x24 d.cid).mem = true := by
    rw [hstart]
    exact hcan.1
  obtain ⟨-, hcols, hbound, -⟩ := trans_fits hcheck
  have hsize : (transStaged (s.cmdStart p 2 0x24 d.cid) p d).length ≤ if d.dest.toNat % 4 = 2 then 0x10000 else 0x8000 :=
    length_transStaged.le.trans ((Nat.mul_le_mul_right _ hcols).trans hbound)
  have hslot : d.dest.toNat % 4 < 3 := by
    have hshape := firstFail_none hcheck
    simp only [List.forall_mem_cons, Bool.or_eq_false_iff, beq_eq_false_iff_ne] at hshape
    have hne := hshape.2.1.2
    omega
  have hreads {x y z : Bytes} (hxyz : transStaged (s.cmdStart p 2 0x24 d.cid) p d = x ++ y ++ z) :=
    writeSlot_reads (s := (s.cmdStart p 2 0x24 d.cid).updTile p (fun x => { x with lastSlot := some (d.dest.toNat % 4) })) hwf p _
      hxyz hsize hslot
  obtain ⟨e, hexec, hran, hemem, hlast⟩ := transpose_slots hcan hr hp hcheck hmem
  refine ⟨e, hexec, hran, hlast, fun r c hr hc => ?_, fun k hk => ?_⟩
  · obtain ⟨x, z, hxz, hx⟩ := transStaged_split (s := s.cmdStart p 2 0x24 d.cid) (p := p) hcheck hr hc
    have hpiece := (hreads hxz).1
    rw [hx, length_transElem, ← Nat.add_assoc, transElem_congr hstart (State.cmdStart_program ..)] at hpiece
    rw [tileRead, hemem]
    exact hpiece
  · rw [hemem, ← hstart]
    exact (hreads (x := []) (z := []) (List.append_nil _).symm).2 k hk

theorem transRows_mem {c : Nat} (hc : c ≤ d.colsMinus1.toNat) :
    (d.dstAddr.toNat + c * d.dstStride.toNat, transRow s p d c) ∈ transRows s p d :=
  List.mem_map.mpr ⟨c, List.mem_range.mpr (Nat.lt_succ_of_le hc), rfl⟩

/-- The rows of the result lie apart where the stride holds a row. -/
theorem transRows_apart (h : (d.rowsMinus1.toNat + 1) * (transSizes d).2 ≤ d.dstStride.toNat) : (transRows s p d).Pairwise Apart := by
  unfold transRows
  rw [List.pairwise_map]
  refine List.pairwise_lt_range.imp fun {i j} hlt => .inl ?_
  have hstep := Nat.mul_le_mul_right d.dstStride.toNat (Nat.succ_le_of_lt hlt)
  rw [Nat.succ_mul] at hstep
  rw [length_transRow]
  omega

/-- R155: element `(r, c)` of the source is element `(c, r)` of the destination. -/
theorem transpose_toMemory (hcan : Canonical s) (hr : Safety.Runs t s) (hp : physOf s.repair t.tile = p) (hcheck : transCheck d = none)
    (hmem : d.dest.getLsbD 2 = true) (hwrite : ∀ c, c ≤ d.colsMinus1.toNat →
      writeFault s p (d.dstAddr.toNat + c * d.dstStride.toNat) ((d.rowsMinus1.toNat + 1) * (transSizes d).2) = none) :
    ∃ e : State, exec (.transpose t d) s = .next (e.sendBound t.tile d.cid) ∧ RanOn p s e ∧
      ∀ r c, r ≤ d.rowsMinus1.toNat → c ≤ d.colsMinus1.toNat →
        tileRead e p (d.dstAddr.toNat + c * d.dstStride.toNat + r * (transSizes d).2) (transSizes d).2 = transElem s p d r c := by
  have hstart := State.cmdStart_mem s p 2 0x24 d.cid
  have hwf : Memory.wf (transSlotted (s.cmdStart p 2 0x24 d.cid) p d).mem = true := by
    refine wrBytes_wf _ _ (clearRange_wf _ _ ?_)
    rw [State.updTile_mem, hstart]
    exact hcan.1
  obtain ⟨-, -, -, hstride⟩ := trans_fits hcheck
  obtain ⟨e, hexec, hran, hemem⟩ := transpose_stores hcan hr hp hcheck hmem hwrite
  refine ⟨e, hexec, hran, fun r c hr hc => ?_⟩
  obtain ⟨x, z, hxz, hx⟩ := transRow_split (s := s.cmdStart p 2 0x24 d.cid) (p := p) c hr
  have hrow := rdBytes_putRows (p := p) hwf (transRows_apart (hstride hmem)) (transRows_mem (s := s.cmdStart p 2 0x24 d.cid) (p := p) hc)
  have hpiece := rdBytes_piece hrow hxz
  rw [hx, length_transElem, transElem_congr hstart (State.cmdStart_program ..), ← memKey_add, ← hemem] at hpiece
  exact hpiece

end Transpose

/-! ### The Strata's engine (R166) -/

section Engine

variable {s u : State} {p : Nat} {b : Backward} {y : Tile}

theorem length_entryHeader (e : Entry) : (entryHeader e).length = 32 := by
  rw [entryHeader, Vector.length_toList]

/-- What the end of a command leaves of a Strata: everything but the count of a recompute block. -/
theorem countRecompute_frame (x : Strata) : x.countRecompute = { x with
    recomputing := x.countRecompute.recomputing
    recomputeLeft := x.countRecompute.recomputeLeft } := by
  unfold Strata.countRecompute
  split
  · rfl
  · rfl

@[simp] theorem countRecompute_main (x : Strata) : x.countRecompute.main = x.main := by rw [countRecompute_frame]
@[simp] theorem countRecompute_reserve (x : Strata) : x.countRecompute.reserve = x.reserve := by rw [countRecompute_frame]
@[simp] theorem countRecompute_inWindow (x : Strata) : x.countRecompute.inWindow = x.inWindow := by rw [countRecompute_frame]
@[simp] theorem countRecompute_skipPushes (x : Strata) : x.countRecompute.skipPushes = x.skipPushes := by rw [countRecompute_frame]

/-- The tile's record with a number of entries in the window. -/
def inWindowTile (y : Tile) (w : Nat) : Tile := { y with strata := { y.strata with inWindow := w } }

/-- An entry written back (R166). -/
theorem writeBackOne_entry (h : u.checks = []) {en : Entry} (hpos : 0 < (tileOf u p).strata.inWindow)
    (hen : (tileOf u p).strata.main[(tileOf u p).strata.inWindow - 1]? = some en) : u.writeBackOne p b =
      ({ u with
        mem := putRows p (spanRows [bodySpan b en] (readSpans u p (windowSpans b en.offset (entryBytes en)))) u.mem } : State).updTile p
          (fun y => inWindowTile y (y.strata.inWindow - 1)) := by
  unfold State.writeBackOne
  dsimp only
  rw [hen]
  dsimp only
  rw [if_neg (Nat.ne_of_gt hpos), moveEntry_clean h]
  rfl

/-- An entry brought into the window (R166). -/
theorem refillOne_entry (h : u.checks = []) {en : Entry} (hen : (tileOf u p).strata.main[(tileOf u p).strata.inWindow]? = some en) :
    u.refillOne p b =
      ({ u with
        mem := putRows p (spanRows (windowSpans b en.offset (entryBytes en)) (readSpans u p [bodySpan b en])) u.mem } : State).updTile p
          (fun y => inWindowTile y (y.strata.inWindow + 1)) := by
  unfold State.refillOne
  dsimp only
  rw [hen]
  dsimp only
  rw [moveEntry_clean h]
  rfl

theorem writeBackOne_none (h : (tileOf u p).strata.inWindow = 0) : u.writeBackOne p b = u := by
  unfold State.writeBackOne
  dsimp only
  split
  · rw [if_pos h]
  · rfl

theorem writeBackOne_work (h : s.checks = []) (hwork : TileWork p s u y) :
    ∃ w, TileWork p s (u.writeBackOne p b) (inWindowTile y w) := by
  by_cases hpos : 0 < (tileOf u p).strata.inWindow
  · cases hen : (tileOf u p).strata.main[(tileOf u p).strata.inWindow - 1]? with
    | none =>
      refine ⟨y.strata.inWindow, ?_⟩
      unfold State.writeBackOne
      dsimp only
      rw [hen]
      exact hwork
    | some en =>
      rw [writeBackOne_entry (hwork.checks.trans h) hpos hen]
      exact ⟨_, (hwork.setMem _).updTile _⟩
  · rw [writeBackOne_none (Nat.eq_zero_of_not_pos hpos)]
    exact ⟨y.strata.inWindow, hwork⟩

/-- Making room moves entries between window and body, and nothing else. -/
theorem makeRoom_work (h : s.checks = []) (n : Nat) : ∀ (k : Nat) {u : State} {y : Tile}, TileWork p s u y →
    ∃ w, TileWork p s (u.makeRoom p b n k) (inWindowTile y w)
  | 0, _, y, hwork => ⟨y.strata.inWindow, hwork⟩
  | k + 1, u, y, hwork => by
    unfold State.makeRoom
    split
    · obtain ⟨w, hback⟩ := writeBackOne_work (b := b) h hwork
      obtain ⟨w', hrest⟩ := makeRoom_work h n k hback
      exact ⟨w', hrest⟩
    · exact ⟨y.strata.inWindow, hwork⟩

theorem makeRoom_fits {n : Nat} (h : windowBytes (tileOf u p).strata + n ≤ b.topBytes) : ∀ k, u.makeRoom p b n k = u
  | 0 => rfl
  | _ + 1 => if_neg (Nat.not_lt.mpr h)

/-- A Strata with one entry more on its stack. -/
def strataPushed (x : Strata) (e : Entry) (w : Nat) : Strata := { x with
  main := e :: x.main
  inWindow := w + 1
  mainHwm := max x.mainHwm ((occupancy (e :: x.main) + 65535) / 65536) }

/-- A push puts its entry on the stack, and into the window at once where the window has room (R166). -/
theorem pushEntry_work (h : s.checks = []) (hwork : TileWork p s u y) (id : BitVec 64) (pay : Bytes) :
    let new := newEntry y.strata.main id 0 pay.length
    ∃ w, TileWork p s (u.pushEntry p b id pay) { y with strata := strataPushed y.strata new w } ∧
      (windowBytes y.strata + (32 + pay.length) ≤ b.topBytes → w = y.strata.inWindow ∧ (u.pushEntry p b id pay).mem =
        putRows p (spanRows (windowSpans b new.offset (32 + pay.length)) (entryHeader new ++ pay)) u.mem) := by
  intro new
  have hown := hwork.2.2.1
  have hpush (v : State) (hv : u.makeRoom p b (entryBytes new) y.strata.inWindow = v) (hclean : v.checks = []) :
      u.pushEntry p b id pay = ({ v with
        mem := putRows p (spanRows (windowSpans b new.offset (32 + pay.length)) (entryHeader new ++ pay)) v.mem } : State).updTile p
          (fun y => { y with strata := strataPushed y.strata new y.strata.inWindow }) := by
    unfold State.pushEntry
    dsimp only
    rw [hown, hv, writeSpans_clean _ _ hclean]
    rfl
  by_cases hfits : windowBytes y.strata + (32 + pay.length) ≤ b.topBytes
  · have heq := hpush u (makeRoom_fits (by rw [hown]; exact hfits) _) (hwork.checks.trans h)
    refine ⟨y.strata.inWindow, ?_, fun _ => ⟨rfl, by rw [heq, State.updTile_mem]⟩⟩
    rw [heq]
    exact (hwork.setMem _).updTile _
  · obtain ⟨w, hroom⟩ := makeRoom_work (b := b) h (entryBytes new) y.strata.inWindow hwork
    refine ⟨w, ?_, fun hle => absurd hle hfits⟩
    rw [hpush _ rfl (hroom.checks.trans h)]
    exact (hroom.setMem _).updTile _

end Engine

/-! ### STRATA_PUSH (R167, R172, R173) -/

section Push

variable {s : State} {t : Site} {d : PushDesc} {p : Nat}

/-- A push in a checkpointed layer of FILL only counts itself (R173). -/
theorem strataPush_skips (hcan : Canonical s) (hr : Safety.Runs t s) (hp : physOf s.repair t.tile = p) (hcheck : pushCheck d = none)
    (hskip : (tileOf s p).strata.skipPushes = true) (hphase : s.step.phase = .fill) : ∃ e : State,
      exec (.strataPush t d) s = .next (e.sendBound t.tile d.cid) ∧ RanOn p s e ∧ e.mem = s.mem ∧
        (tileOf e p).strata = ({ (tileOf s p).strata with skipped := (tileOf s p).strata.skipped + 1 } : Strata).countRecompute := by
  have htiles := hcan.2.1
  have hstart := TileWork.start (p := p) (tilesWf_cmdStart (p := p) 2 0x28 d.cid htiles)
  have hnoted : ∃ y, TileWork p (s.cmdStart p 2 0x28 d.cid) ((s.cmdStart p 2 0x28 d.cid).notePushSlot p d) y ∧
      y.strata = (tileOf s p).strata ∧ ((s.cmdStart p 2 0x28 d.cid).notePushSlot p d).mem = s.mem := by
    unfold State.notePushSlot
    split
    · exact ⟨_, hstart.updTile _, strata_cmdStart htiles .., by rw [State.updTile_mem, State.cmdStart_mem]⟩
    · exact ⟨_, hstart, strata_cmdStart htiles .., State.cmdStart_mem ..⟩
  obtain ⟨y, hwork, hy, hmem⟩ := hnoted
  have hdone : ∃ e : State, execStrataPush t d s = .next (e.sendBound t.tile d.cid) ∧ RanOn p s e ∧
      e.mem = (((s.cmdStart p 2 0x28 d.cid).notePushSlot p d).updStrata p (fun y => { y with skipped := y.skipped + 1 })).mem ∧
      tileOf e p = { { y with strata := { y.strata with skipped := y.strata.skipped + 1 } } with
        strata := ({ y.strata with skipped := y.strata.skipped + 1 } : Strata).countRecompute } := by
    unfold execStrataPush
    rw [hcheck]
    refine (hwork.updTile _).ends hcan hr hp ?_
    dsimp only
    rw [strata_cmdStart htiles, hskip, State.cmdStart_step, hphase]
    rfl
  obtain ⟨e, hexec, hran, hemem, htile⟩ := hdone
  refine ⟨e, hexec, hran, hemem.trans ?_, ?_⟩
  · rw [State.updStrata, State.updTile_mem, hmem]
  · rw [htile, hy]

/-- A push finds the main region full (R167). -/
theorem strataPush_fails (hcan : Canonical s) (hr : Safety.Runs t s) (hp : physOf s.repair t.tile = p) (hcheck : pushCheck d = none)
    (hpush : (tileOf s p).strata.skipPushes = false ∨ s.step.phase ≠ .fill)
    (hfull : mainBytes (s.tileProg t.tile).backward <
      occupancy (tileOf s p).strata.main + 32 + (d.fixedBytes.toNat + d.unitBytes.toNat * (tileOf s p).strata.tokenUnits))
    (hd : CanDiscard s) : ∃ e : State, exec (.strataPush t d) s = .next e ∧ Faulted s e 0x3101 := by
  have hno : ¬ ((tileOf s p).strata.skipPushes && s.step.phase == .fill) = true := by
    simpa [imp_iff_not_or] using hpush
  change ∃ e : State, execStrataPush t d s = _ ∧ _
  unfold execStrataPush
  rw [hcheck]
  refine tileCmd_faults hr hp hd (b := 10) (u := s.cmdStart p 2 0x28 d.cid) rfl (by decide) (by simp) (flags := 0) ?_
  dsimp only
  rw [strata_cmdStart hcan.2.1, State.cmdStart_step, tileProg_cmdStart, if_neg hno, if_pos hfull]

/-- A push that finds room (R166, R167). -/
theorem strataPush_pushes (hcan : Canonical s) (hr : Safety.Runs t s) (hp : physOf s.repair t.tile = p) (hcheck : pushCheck d = none)
    {x : Strata} (hx : (tileOf s p).strata = x) {b : Backward} (hb : (s.tileProg t.tile).backward = b)
    (hpush : x.skipPushes = false ∨ s.step.phase ≠ .fill) (hdirect : d.flags.getLsbD 0 = false) {n : Nat}
    (hn : d.fixedBytes.toNat + d.unitBytes.toNat * x.tokenUnits = n) {new : Entry} (hnew : newEntry x.main d.cid 0 n = new)
    (hroom : occupancy x.main + 32 + n ≤ mainBytes b) (hsrc : inTmem d.srcAddr.toNat n = true) : ∃ e : State,
      exec (.strataPush t d) s = .next (e.sendBound t.tile d.cid) ∧ RanOn p s e ∧
        (tileOf e p).strata.main = new :: x.main ∧ (tileOf e p).strata.reserve = x.reserve ∧
        (windowBytes x + 32 + n ≤ b.topBytes → (tileOf e p).strata.inWindow = x.inWindow + 1 ∧
          readSpans e p (windowSpans b new.offset (32 + n)) = entryHeader new ++ tileRead s p d.srcAddr.toNat n ∧
          ∀ k, k < memKey p b.topBase ∨ memKey p (b.topBase + b.topBytes) ≤ k → rdByte e.mem k = rdByte s.mem k) := by
  have htiles := hcan.2.1
  have ⟨_, _, hdet, hsuspect, hchecks, _⟩ := hr
  have hmem := State.cmdStart_mem s p 2 0x28 d.cid
  have hclean := (State.cmdStart_checks s p 2 0x28 d.cid).trans hchecks
  have hno : ¬ (x.skipPushes && s.step.phase == .fill) = true := by
    simpa [imp_iff_not_or] using hpush
  have hlen : (tileRead s p d.srcAddr.toNat n).length = n := length_tileRead ..
  have hstrata := (strata_cmdStart (p := p) htiles 2 0x28 d.cid).trans hx
  obtain ⟨w, hwork, hfits⟩ := pushEntry_work (b := b) hclean (TileWork.start (p := p) (tilesWf_cmdStart 2 0x28 d.cid htiles)) d.cid
    (tileRead s p d.srcAddr.toNat n)
  rw [hlen, hstrata, hnew] at hwork hfits
  have hdone : ∃ e : State, execStrataPush t d s = .next (e.sendBound t.tile d.cid) ∧ RanOn p s e ∧
      e.mem = ((s.cmdStart p 2 0x28 d.cid).pushEntry p b d.cid (tileRead s p d.srcAddr.toNat n)).mem ∧
      tileOf e p = { { tileOf (s.cmdStart p 2 0x28 d.cid) p with strata := strataPushed x new w } with
        strata := (strataPushed x new w).countRecompute } := by
    unfold execStrataPush
    rw [hcheck]
    refine hwork.ends hcan hr hp ?_
    have hextent : (pushSpan d x.tokenUnits).extent = n := by
      unfold pushSpan Span.extent
      rw [hdirect, hn]
      simp
    have hpay : pushPayload (s.cmdStart p 2 0x28 d.cid) p d x.tokenUnits = tileRead s p d.srcAddr.toNat n := by
      unfold pushPayload
      rw [hdirect, hn, tileRead_congr hmem]
      rfl
    dsimp only
    rw [hstrata, State.cmdStart_step, tileProg_cmdStart, hb, hn, if_neg hno, if_neg (Nat.not_lt.mpr hroom), hextent, hsrc, hpay,
      readDetections_clean hclean, settle_clean hdet hsuspect rfl rfl, hdirect]
    unfold State.notePushSlot
    rw [hdirect]
    rfl
  obtain ⟨e, hexec, hran, hemem, htile⟩ := hdone
  refine ⟨e, hexec, hran, ?_, ?_, fun hwin => ?_⟩
  · rw [htile]
    exact countRecompute_main _
  · rw [htile]
    exact countRecompute_reserve _
  · rw [Nat.add_assoc] at hwin
    obtain ⟨rfl, hpushed⟩ := hfits hwin
    rw [hpushed, hmem] at hemem
    refine ⟨?_, window_written hcan.1 ?_ (by omega) (by omega) hemem⟩
    · rw [htile]
      exact countRecompute_inWindow _
    · rw [List.length_append, length_entryHeader, hlen]

end Push

/-! ### STRATA_POP (R168) -/

section Pop

variable {s u : State} {t : Site} {d : PopDesc} {p : Nat}

/-- Before its payload leaves, the top entry is brought into the window where it still lies in the body. -/
theorem popRefill_work {b : Backward} (h : u.checks = []) (hm : Memory.wf u.mem = true) (hw : smWf {} 0 u.tiles = true) {en : Entry}
    {rest : List Entry} (hmain : (tileOf u p).strata.main = en :: rest) {v : State}
    (hv : (if (tileOf u p).strata.inWindow = 0 then u.refillOne p b else u) = v) : ∃ w,
      TileWork p u v (inWindowTile (tileOf u p) w) ∧ w - 1 = (tileOf u p).strata.inWindow - 1 ∧ Memory.wf v.mem = true ∧
        (0 < (tileOf u p).strata.inWindow → v.mem = u.mem) := by
  have hstart := TileWork.start (p := p) hw
  subst hv
  split
  · next hzero =>
    have hen : (tileOf u p).strata.main[(tileOf u p).strata.inWindow]? = some en := by
      rw [hzero, hmain]
      rfl
    rw [refillOne_entry h hen]
    refine ⟨_, (hstart.setMem _).updTile _, ?_, ?_, fun hpos => absurd hzero (Nat.ne_of_gt hpos)⟩
    · omega
    · rw [State.updTile_mem]
      exact putRows_wf _ hm
  · exact ⟨_, hstart, rfl, hm, fun _ => rfl⟩

/-- A pop of the entry it names. -/
theorem strataPop_pops (hcan : Canonical s) (hr : Safety.Runs t s) (hp : physOf s.repair t.tile = p) (hcheck : popCheck d = none)
    {x : Strata} (hx : (tileOf s p).strata = x) {b : Backward} (hb : (s.tileProg t.tile).backward = b) {en : Entry} {rest : List Entry}
    (hmain : x.main = en :: rest) (hid : en.id = d.expectId) (hwrite : writeFault s p d.dstAddr.toNat en.bytes = none) {pay : Bytes}
    (hpay : (readSpans s p (topSpans b x en)).drop 32 = pay) : ∃ e : State,
      exec (.strataPop t d) s = .next (e.sendBound t.tile d.cid) ∧ RanOn p s e ∧ tileRead e p d.dstAddr.toNat pay.length = pay ∧
        (tileOf e p).strata.main = rest ∧ (tileOf e p).strata.inWindow = x.inWindow - 1 ∧
        (0 < x.inWindow → e.mem = wrBytes s.mem (memKey p d.dstAddr.toNat) pay) := by
  have htiles := hcan.2.1
  have ⟨_, _, hdet, hsuspect, hchecks, _⟩ := hr
  have hmem := State.cmdStart_mem s p 2 0x29 d.cid
  have hclean := (State.cmdStart_checks s p 2 0x29 d.cid).trans hchecks
  have hstrata := (strata_cmdStart (p := p) htiles 2 0x29 d.cid).trans hx
  obtain ⟨w, hwork, hin, hwf, hkeep⟩ := popRefill_work (b := b) hclean (by rw [hmem]; exact hcan.1)
    (tilesWf_cmdStart 2 0x29 d.cid htiles) (by rw [hstrata]; exact hmain) rfl
  rw [hstrata] at hwork hin hwf hkeep
  generalize hv : (if x.inWindow = 0 then (s.cmdStart p 2 0x29 d.cid).refillOne p b else s.cmdStart p 2 0x29 d.cid) = v
    at hwork hwf hkeep
  have hdone : ∃ e : State, execStrataPop t d s = .next (e.sendBound t.tile d.cid) ∧ RanOn p s e ∧
      e.mem = wrBytes v.mem (memKey p d.dstAddr.toNat) pay ∧ tileOf e p = { tileOf (s.cmdStart p 2 0x29 d.cid) p with
        strata := (({ (tileOf (s.cmdStart p 2 0x29 d.cid) p).strata with inWindow := w } : Strata).dropTop).countRecompute } := by
    unfold execStrataPop
    rw [hcheck]
    refine ((hwork.updTile (fun y => { y with strata := y.strata.dropTop })).setMem _).ends hcan hr hp ?_
    dsimp only
    rw [hstrata, hmain, tileProg_cmdStart, hb]
    dsimp only [List.head?_cons]
    rw [if_neg (not_not.mpr hid), writeFault_cmdStart _ _ _ htiles, hwrite, readSpans_congr hmem, hpay, readDetections_clean hclean]
    dsimp only
    rw [settle_clean hdet hsuspect rfl rfl]
    dsimp only
    rw [hv, tileWrite_clean (s := v.updStrata p Strata.dropTop) (hwork.checks.trans hclean)]
    rfl
  obtain ⟨e, hexec, hran, hemem, htile⟩ := hdone
  refine ⟨e, hexec, hran, ?_, ?_, ?_, fun hpos => ?_⟩
  · rw [tileRead, hemem]
    exact rdBytes_wrBytes_same pay hwf
  · rw [htile, hstrata]
    exact (countRecompute_main _).trans (congrArg List.tail hmain)
  · rw [htile]
    exact (countRecompute_inWindow _).trans hin
  · rw [hemem, hkeep hpos, hmem]

/-- A pop that finds nothing, or the entry of another command (R168). -/
theorem strataPop_fails (hcan : Canonical s) (hr : Safety.Runs t s) (hp : physOf s.repair t.tile = p) (hcheck : popCheck d = none)
    (htop : ∀ en, (tileOf s p).strata.main.head? = some en → en.id ≠ d.expectId) (hd : CanDiscard s) :
    ∃ e : State, exec (.strataPop t d) s = .next e ∧ Faulted s e 0x3102 := by
  change ∃ e : State, execStrataPop t d s = _ ∧ _
  unfold execStrataPop
  rw [hcheck]
  refine tileCmd_faults hr hp hd (b := 10) (u := s.cmdStart p 2 0x29 d.cid) rfl (by decide) (by simp) (flags := 0) ?_
  dsimp only
  rw [strata_cmdStart hcan.2.1]
  cases hhead : (tileOf s p).strata.main.head? with
  | none => rfl
  | some en => exact if_pos (htop en hhead)

end Pop

/-! ### What the engine moves (R166) -/

section Moves

variable {s : State} {t : Site} {p : Nat} {b : Backward} {x : Strata}

theorem strataWriteback_moves (hcan : Canonical s) (hr : Safety.Runs t s) (hp : physOf s.repair t.tile = p)
    (hx : (tileOf s p).strata = x) (hb : (s.tileProg t.tile).backward = b) (hfull : b.topBytes < 2 * windowBytes x)
    (hpos : 0 < x.inWindow) {en : Entry} (hen : x.main[x.inWindow - 1]? = some en) : ∃ e : State,
      exec (.strataWriteback t.tile) s = .next e ∧ (∀ q, q ≠ p → tileOf e q = tileOf s q) ∧
        tileOf e p = { tileOf s p with strata := { x with inWindow := x.inWindow - 1 } } ∧
        tileRead e p (mainBase b + en.offset) (entryBytes en) = readSpans s p (windowSpans b en.offset (entryBytes en)) ∧
        e = { s with
          mem := e.mem
          tiles := e.tiles } := by
  subst hx
  have ⟨htile, _, _, _, hchecks, _⟩ := hr
  have hexec : exec (.strataWriteback t.tile) s = .next (s.writeBackOne p b) := by
    change execStrataWriteback t.tile s = _
    unfold execStrataWriteback
    dsimp only
    rw [hp, hb, if_pos ⟨htile, hfull⟩]
  have heq := writeBackOne_entry (b := b) hchecks hpos hen
  have hlen := length_readSpans_window (b := b) s p en.offset (entryBytes en)
  obtain ⟨hframe, -, hown, hother⟩ := ((TileWork.start (p := p) hcan.2.1).setMem (putRows p (spanRows [bodySpan b en]
    (readSpans s p (windowSpans b en.offset (entryBytes en)))) s.mem)).updTile (fun y => inWindowTile y (y.strata.inWindow - 1))
  rw [← heq] at hframe hown hother
  refine ⟨_, hexec, hother, hown, ?_, hframe⟩
  rw [tileRead, heq, State.updTile_mem]
  have hsame := rdBytes_wrBytes_same (a := memKey p (mainBase b + en.offset))
    (readSpans s p (windowSpans b en.offset (entryBytes en))) hcan.1
  rw [hlen] at hsame
  refine Eq.trans ?_ hsame
  simp only [spanRows, putRows, bodySpan, List.foldl_cons, List.foldl_nil, List.take_of_length_le hlen.le]

theorem strataWriteback_idle (hp : physOf s.repair t.tile = p) (hx : (tileOf s p).strata = x)
    (hb : (s.tileProg t.tile).backward = b) (hidle : 2 * windowBytes x ≤ b.topBytes ∨ x.inWindow = 0) :
    exec (.strataWriteback t.tile) s = .next s := by
  subst hx
  change execStrataWriteback t.tile s = _
  unfold execStrataWriteback
  dsimp only
  rw [hp, hb]
  split
  · next h =>
    rw [writeBackOne_none (hidle.resolve_left (Nat.not_le.mpr h.2))]
  · rfl

theorem strataRefill_moves (hcan : Canonical s) (hr : Safety.Runs t s) (hp : physOf s.repair t.tile = p)
    (hx : (tileOf s p).strata = x) (hb : (s.tileProg t.tile).backward = b) (hroom : 2 * windowBytes x < b.topBytes)
    {en : Entry} (hen : x.main[x.inWindow]? = some en) (hfit : entryBytes en ≤ b.topBytes) : ∃ e : State,
      exec (.strataRefill t.tile) s = .next e ∧ (∀ q, q ≠ p → tileOf e q = tileOf s q) ∧
        tileOf e p = { tileOf s p with strata := { x with inWindow := x.inWindow + 1 } } ∧
        readSpans e p (windowSpans b en.offset (entryBytes en)) = tileRead s p (mainBase b + en.offset) (entryBytes en) ∧
        e = { s with
          mem := e.mem
          tiles := e.tiles } := by
  subst hx
  have ⟨htile, _, _, _, hchecks, _⟩ := hr
  have hexec : exec (.strataRefill t.tile) s = .next (s.refillOne p b) := by
    change execStrataRefill t.tile s = _
    unfold execStrataRefill
    dsimp only
    rw [hp, hb, if_pos ⟨htile, hroom⟩]
  have heq := refillOne_entry (b := b) hchecks hen
  obtain ⟨hframe, -, hown, hother⟩ := ((TileWork.start (p := p) hcan.2.1).setMem (putRows p (spanRows
    (windowSpans b en.offset (entryBytes en)) (readSpans s p [bodySpan b en])) s.mem)).updTile
      (fun y => inWindowTile y (y.strata.inWindow + 1))
  rw [← heq] at hframe hown hother
  have hbody : readSpans s p [bodySpan b en] = tileRead s p (mainBase b + en.offset) (entryBytes en) := List.append_nil _
  refine ⟨_, hexec, hother, hown, ?_, hframe⟩
  refine (window_written (m := s.mem) (v := tileRead s p (mainBase b + en.offset) (entryBytes en)) hcan.1 (length_tileRead ..) hfit
    (Nat.zero_lt_of_lt hroom) ?_).1
  rw [heq, State.updTile_mem, hbody]

theorem strataRefill_idle (hp : physOf s.repair t.tile = p) (hx : (tileOf s p).strata = x) (hb : (s.tileProg t.tile).backward = b)
    (hidle : b.topBytes ≤ 2 * windowBytes x ∨ x.main.length ≤ x.inWindow) : exec (.strataRefill t.tile) s = .next s := by
  subst hx
  change execStrataRefill t.tile s = _
  unfold execStrataRefill
  dsimp only
  rw [hp, hb]
  split
  · next h =>
    unfold State.refillOne
    dsimp only
    rw [List.getElem?_eq_none (hidle.resolve_left (Nat.not_le.mpr h.2))]
  · rfl

end Moves

/-! ### STRATA_LAYER (R23, R173, R174) -/

section Layers

variable {s u : State} {t : Site} {d : LayerDesc} {p : Nat} {x : Strata} {b : Backward}

theorem abortsNow_cmdStart (unit opcode : Nat) (cid : BitVec 64) : abortsNow (s.cmdStart p unit opcode cid) = abortsNow s := by
  rw [abortsNow, State.cmdStart_step]
  rfl

theorem not_checkpointed {layer : Nat} (h : layer < x.switchLayer) : (!checkpointed x layer) = true := by
  simpa [checkpointed] using h

theorem checkpointed_of_le {layer : Nat} (h : x.switchLayer ≤ layer) : (!checkpointed x layer) = false := by
  simpa [checkpointed] using h

/-- The layers below the switch layer push their entries themselves. -/
theorem strataLayerFill_pushes (hcan : Canonical s) (hr : Safety.Runs t s) (hp : physOf s.repair t.tile = p)
    (hcheck : layerCheck false d = none) (hgo : abortsNow s = false) (hx : (tileOf s p).strata = x)
    (hbelow : d.layer.toNat < x.switchLayer) : ∃ e : State,
      exec (.strataLayerFill t d) s = .next (e.sendBound t.tile d.cid) ∧ RanOn p s e ∧ e.mem = s.mem ∧
        (tileOf e p).strata = ({ x with skipPushes := false } : Strata).countRecompute := by
  have htiles := hcan.2.1
  have hstrata := (strata_cmdStart (p := p) htiles 2 0x2A d.cid).trans hx
  have hwork := (TileWork.start (p := p) (tilesWf_cmdStart (p := p) 2 0x2A d.cid htiles)).updTile
    (fun y => { y with strata := { y.strata with skipPushes := false } })
  have hdone : ∃ e : State, execStrataLayerFill t d s = .next (e.sendBound t.tile d.cid) ∧ RanOn p s e ∧
      e.mem = ((s.cmdStart p 2 0x2A d.cid).updStrata p (fun y => { y with skipPushes := false })).mem ∧
      tileOf e p = { tileOf (s.cmdStart p 2 0x2A d.cid) p with strata :=
        ({ (tileOf (s.cmdStart p 2 0x2A d.cid) p).strata with skipPushes := false } : Strata).countRecompute } := by
    unfold execStrataLayerFill
    rw [hcheck]
    refine hwork.ends hcan hr hp ?_
    dsimp only
    rw [abortsNow_cmdStart, hgo, hstrata, not_checkpointed hbelow]
    rfl
  obtain ⟨e, hexec, hran, hemem, htile⟩ := hdone
  refine ⟨e, hexec, hran, hemem.trans ?_, ?_⟩
  · rw [State.updStrata, State.updTile_mem, State.cmdStart_mem]
  · rw [htile, hstrata]

/-- A Strata with one checkpoint more in its reserve. -/
def strataKept (x : Strata) (e : Entry) : Strata := { x with
  reserve := e :: x.reserve
  checkpointing := true
  reserveHwm := max x.reserveHwm ((occupancy (e :: x.reserve) + 4095) / 4096) }

theorem pushCheckpoint_eq (h : u.checks = []) (id : BitVec 64) (pay : Bytes) : u.pushCheckpoint p b id pay =
    ({ u with
      mem := wrBytes u.mem (memKey p (reserveBase b + (newEntry (tileOf u p).strata.reserve id 1 pay.length).offset))
        (entryHeader (newEntry (tileOf u p).strata.reserve id 1 pay.length) ++ pay) } : State).updTile p
      (fun y => { y with strata := strataKept y.strata (newEntry (tileOf u p).strata.reserve id 1 pay.length) }) := by
  unfold State.pushCheckpoint
  dsimp only
  rw [tileWrite_clean h]
  rfl

/-- A checkpointed layer's input goes into the reserve (R173). -/
theorem strataLayerFill_keeps (hcan : Canonical s) (hr : Safety.Runs t s) (hp : physOf s.repair t.tile = p)
    (hcheck : layerCheck false d = none) (hgo : abortsNow s = false) (hx : (tileOf s p).strata = x)
    (hb : (s.tileProg t.tile).backward = b) (habove : x.switchLayer ≤ d.layer.toNat)
    (hroom : occupancy x.reserve + 32 + ckBytes d x.tokenUnits ≤ reserveBytes b)
    (hsrc : inTmem d.ckAddr.toNat (ckBytes d x.tokenUnits) = true) {pay : Bytes}
    (hpay : tileRead s p d.ckAddr.toNat (ckBytes d x.tokenUnits) = pay) {new : Entry}
    (hnew : newEntry x.reserve d.cid 1 (ckBytes d x.tokenUnits) = new) : ∃ e : State,
      exec (.strataLayerFill t d) s = .next (e.sendBound t.tile d.cid) ∧ RanOn p s e ∧
        e.mem = wrBytes s.mem (memKey p (reserveBase b + new.offset)) (entryHeader new ++ pay) ∧
        (tileOf e p).strata.reserve = new :: x.reserve ∧ (tileOf e p).strata.skipPushes = true ∧
        (tileOf e p).strata.main = x.main := by
  have htiles := hcan.2.1
  have ⟨_, _, hdet, hsuspect, hchecks, _⟩ := hr
  have hmem := State.cmdStart_mem s p 2 0x2A d.cid
  have hclean := (State.cmdStart_checks s p 2 0x2A d.cid).trans hchecks
  have hstrata := (strata_cmdStart (p := p) htiles 2 0x2A d.cid).trans hx
  have hlen : pay.length = ckBytes d x.tokenUnits := by
    rw [← hpay]
    exact length_tileRead ..
  have hpush := pushCheckpoint_eq (p := p) (b := b) hclean d.cid pay
  rw [hstrata, hlen, hnew, hmem] at hpush
  have hwork : TileWork p (s.cmdStart p 2 0x2A d.cid)
      (((s.cmdStart p 2 0x2A d.cid).pushCheckpoint p b d.cid pay).updStrata p (fun y => { y with skipPushes := true }))
      { tileOf (s.cmdStart p 2 0x2A d.cid) p with strata := { strataKept x new with skipPushes := true } } := by
    rw [hpush, ← hstrata]
    exact (((TileWork.start (tilesWf_cmdStart 2 0x2A d.cid htiles)).setMem _).updTile
      (fun y => { y with strata := strataKept y.strata new })).updTile
        (fun y => { y with strata := { y.strata with skipPushes := true } })
  have hdone : ∃ e : State, execStrataLayerFill t d s = .next (e.sendBound t.tile d.cid) ∧ RanOn p s e ∧
      e.mem = (((s.cmdStart p 2 0x2A d.cid).pushCheckpoint p b d.cid pay).updStrata p (fun y => { y with skipPushes := true })).mem ∧
      tileOf e p = { tileOf (s.cmdStart p 2 0x2A d.cid) p with
        strata := ({ strataKept x new with skipPushes := true } : Strata).countRecompute } := by
    unfold execStrataLayerFill
    rw [hcheck]
    refine hwork.ends hcan hr hp ?_
    dsimp only
    rw [abortsNow_cmdStart, hgo, hstrata, checkpointed_of_le habove, tileProg_cmdStart, hb, if_neg (Nat.not_lt.mpr hroom), hsrc,
      tileRead_congr hmem, hpay, readDetections_clean hclean, settle_clean hdet hsuspect rfl rfl]
    rfl
  obtain ⟨e, hexec, hran, hemem, htile⟩ := hdone
  rw [hpush, State.updStrata, State.updTile_mem, State.updTile_mem] at hemem
  refine ⟨e, hexec, hran, hemem, ?_, ?_, ?_⟩
  · rw [htile]
    exact countRecompute_reserve _
  · rw [htile]
    exact countRecompute_skipPushes _
  · rw [htile]
    exact countRecompute_main _

/-- A layer below the switch layer has nothing to give back. -/
theorem strataLayerDrain_passes (hcan : Canonical s) (hr : Safety.Runs t s) (hp : physOf s.repair t.tile = p)
    (hcheck : layerCheck true d = none) (hgo : abortsNow s = false) (hx : (tileOf s p).strata = x)
    (hbelow : d.layer.toNat < x.switchLayer) : ∃ e : State,
      exec (.strataLayerDrain t d) s = .next (e.sendBound t.tile d.cid) ∧ RanOn p s e ∧ e.mem = s.mem ∧
        (tileOf e p).strata = x.countRecompute := by
  have htiles := hcan.2.1
  have hstrata := (strata_cmdStart (p := p) htiles 2 0x2A d.cid).trans hx
  have hwork := TileWork.start (p := p) (tilesWf_cmdStart (p := p) 2 0x2A d.cid htiles)
  have hdone : ∃ e : State, execStrataLayerDrain t d s = .next (e.sendBound t.tile d.cid) ∧ RanOn p s e ∧
      e.mem = (s.cmdStart p 2 0x2A d.cid).mem ∧ tileOf e p = { tileOf (s.cmdStart p 2 0x2A d.cid) p with
        strata := (tileOf (s.cmdStart p 2 0x2A d.cid) p).strata.countRecompute } := by
    unfold execStrataLayerDrain
    rw [hcheck]
    refine hwork.ends hcan hr hp ?_
    dsimp only
    rw [abortsNow_cmdStart, hgo, hstrata, not_checkpointed hbelow]
    rfl
  obtain ⟨e, hexec, hran, hemem, htile⟩ := hdone
  refine ⟨e, hexec, hran, hemem.trans (State.cmdStart_mem ..), ?_⟩
  rw [htile, hstrata]

/-- A recompute block that begins: its STRATA_LAYER is the first of its commands that is over. -/
theorem recomputing_begun (x : Strata) (rest : List Entry) (n : Nat) : ({ x with
    reserve := rest
    recomputing := decide (0 < n)
    recomputeLeft := n + 1 } : Strata).countRecompute.recomputing = decide (0 < n) := by
  unfold Strata.countRecompute
  dsimp only
  split
  · simp
  · rfl

/-- A checkpointed layer's checkpoint returns to tile memory, and its block runs again (R174, R175). -/
theorem strataLayerDrain_restores (hcan : Canonical s) (hr : Safety.Runs t s) (hp : physOf s.repair t.tile = p)
    (hcheck : layerCheck true d = none) (hgo : abortsNow s = false) (hx : (tileOf s p).strata = x) {g : TileProg}
    (hg : s.tileProg t.tile = g) (habove : x.switchLayer ≤ d.layer.toNat) {en : Entry} {rest : List Entry}
    (hreserve : x.reserve = en :: rest) (hid : some en.id = fillLayerId g d.layer.toNat)
    (hwrite : writeFault s p d.ckAddr.toNat en.bytes = none) {pay : Bytes}
    (hpay : (tileRead s p (reserveBase g.backward + en.offset) (entryBytes en)).drop 32 = pay) : ∃ e : State,
      exec (.strataLayerDrain t d) s = .next (e.sendBound t.tile d.cid) ∧ (∀ q, q ≠ p → tileOf e q = tileOf s q) ∧
        e.mem = wrBytes s.mem (memKey p d.ckAddr.toNat) pay ∧ (tileOf e p).strata.reserve = rest ∧
        (tileOf e p).strata.recomputing = decide (0 < d.recomputeCount.toNat) ∧ e = { s with
          mem := e.mem
          tiles := e.tiles
          trace := e.trace
          draws := s.draws + 1
          mesh := { s.mesh with done := s.mesh.done.filter (fun y => !(y.1 == t.tile && (recomputeIds g d).contains y.2)) } } := by
  have htiles := hcan.2.1
  have ⟨_, _, hdet, hsuspect, hchecks, _⟩ := hr
  have hmem := State.cmdStart_mem s p 2 0x2A d.cid
  have hclean := (State.cmdStart_checks s p 2 0x2A d.cid).trans hchecks
  have hstrata := (strata_cmdStart (p := p) htiles 2 0x2A d.cid).trans hx
  have hspan : (readSpans s p [⟨reserveBase g.backward + en.offset, 0, entryBytes en, 1⟩]).drop 32 = pay := by
    rw [readSpans, List.flatMap_singleton]
    exact hpay
  generalize hv : (((s.cmdStart p 2 0x2A d.cid).updStrata p (fun y => { y with
      reserve := y.reserve.tail
      recomputing := decide (0 < d.recomputeCount.toNat)
      recomputeLeft := d.recomputeCount.toNat + 1 })).tileWrite p d.ckAddr.toNat pay).redo t.tile (recomputeIds g d) = v
  have hexec : exec (.strataLayerDrain t d) s = .next ((v.cmdEnd p d.cid 0 0).sendBound t.tile d.cid) := by
    change execStrataLayerDrain t d s = _
    unfold execStrataLayerDrain
    rw [hcheck]
    refine tileCmd_ends hr hp ?_
    dsimp only
    rw [abortsNow_cmdStart, hgo, hstrata, checkpointed_of_le habove, hreserve, tileProg_cmdStart, hg]
    dsimp only [List.head?_cons]
    rw [if_neg (not_not.mpr hid), writeFault_cmdStart _ _ _ htiles, hwrite, readSpans_congr hmem, hspan, readDetections_clean hclean]
    dsimp only
    rw [settle_clean hdet hsuspect rfl rfl, ← hv]
    rfl
  have hbody : v = { s.cmdStart p 2 0x2A d.cid with
      mem := wrBytes s.mem (memKey p d.ckAddr.toNat) pay
      tiles := v.tiles
      mesh := { s.mesh with done := s.mesh.done.filter (fun y => !(y.1 == t.tile && (recomputeIds g d).contains y.2)) } } := by
    rw [← hv, tileWrite_clean (s := (s.cmdStart p 2 0x2A d.cid).updStrata p _) hclean, State.updStrata, State.updTile_mem, hmem,
      ← State.cmdStart_mesh s p 2 0x2A d.cid]
    rfl
  have hended := tileOf_ended (u := v) (unit := 2) (opcode := 0x2A) (cid := d.cid) htiles (fun y => { y with strata := { y.strata with
      reserve := y.strata.reserve.tail
      recomputing := decide (0 < d.recomputeCount.toNat)
      recomputeLeft := d.recomputeCount.toNat + 1 } }) (by rw [← hv]; rfl) 0 0
  obtain ⟨hown, hother⟩ := hended
  dsimp only at hown
  rw [hstrata, hreserve] at hown
  refine ⟨_, hexec, hother, ?_, ?_, ?_, ?_⟩
  · rw [State.cmdEnd_mem, hbody]
  · rw [hown]
    exact countRecompute_reserve _
  · rw [hown]
    exact recomputing_begun ..
  · rw [cmdEnd_frame, hbody, cmdStart_frame]

/-- An early abort stops its tile at a layer boundary (R23). -/
theorem strataLayer_aborts (hcan : Canonical s) (hr : Safety.Runs t s) (hp : physOf s.repair t.tile = p) (isDrain : Bool)
    (hcheck : layerCheck isDrain d = none) (habort : abortsNow s = true) : ∃ e : State,
      exec (if isDrain then .strataLayerDrain t d else .strataLayerFill t d) s = .next (e.sendBound t.tile d.cid) ∧
        e.step = { s.step with earlyAborted := true } ∧ (tileOf e p).stopped = true ∧ e.mem = s.mem ∧
        ∀ q, q ≠ p → tileOf e q = tileOf s q := by
  obtain ⟨hown, hother⟩ := tileOf_ended (u := (s.cmdStart p 2 0x2A d.cid).abortHere p) (unit := 2) (opcode := 0x2A) (cid := d.cid)
    hcan.2.1 (fun y => { y with stopped := true }) rfl 0 0
  refine ⟨((s.cmdStart p 2 0x2A d.cid).abortHere p).cmdEnd p d.cid 0 0, ?_, ?_, congrArg Tile.stopped hown, ?_, hother⟩
  · cases isDrain with
    | false =>
      change execStrataLayerFill t d s = _
      unfold execStrataLayerFill
      rw [hcheck]
      refine tileCmd_ends hr hp ?_
      dsimp only
      rw [abortsNow_cmdStart, habort]
      rfl
    | true =>
      change execStrataLayerDrain t d s = _
      unfold execStrataLayerDrain
      rw [hcheck]
      refine tileCmd_ends hr hp ?_
      dsimp only
      rw [abortsNow_cmdStart, habort]
      rfl
  · rw [State.cmdEnd_step]
    unfold State.abortHere
    dsimp only
    rw [State.cmdStart_step]
  · rw [State.cmdEnd_mem]
    exact State.cmdStart_mem ..

end Layers

/-- Settles O56: a TRANSPOSE's rows lie apart in slot and memory, and every Strata command works on its tile's record and on memory,
where a stretch of the window is read back from the pieces it is written in. -/
theorem transposeAndStrata : Obligations.TransposeAndStrata := by
  unfold Obligations.TransposeAndStrata
  intro t s hr hcan p x b
  refine ⟨fun d hcheck hmem => transpose_toSlot hcan hr rfl hcheck hmem,
    fun d hcheck hmem hwrite => transpose_toMemory hcan hr rfl hcheck hmem hwrite,
    fun d hcheck hskip hphase => strataPush_skips hcan hr rfl hcheck hskip hphase, fun d hcheck hpush hdirect => ⟨?_, ?_⟩,
    fun d entry rest hcheck hmain => ⟨?_, ?_⟩, fun d hcheck hmain hd => ?_, fun d hcheck hgo => ⟨?_, ?_⟩,
    fun d hcheck hgo => ⟨?_, ?_⟩,
    fun d isDrain hcheck habort => strataLayer_aborts hcan hr rfl isDrain hcheck habort,
    fun en hfull hpos hen => strataWriteback_moves hcan hr rfl rfl rfl hfull hpos hen,
    fun hidle => strataWriteback_idle rfl rfl rfl hidle,
    fun en hroom hen hfit => strataRefill_moves hcan hr rfl rfl rfl hroom hen hfit, fun hidle => strataRefill_idle rfl rfl rfl hidle⟩
  · exact fun hroom hsrc => strataPush_pushes hcan hr rfl hcheck rfl rfl hpush hdirect rfl rfl hroom hsrc
  · exact fun hfull hd => strataPush_fails hcan hr rfl hcheck hpush hfull hd
  · exact fun hid hwrite => strataPop_pops hcan hr rfl hcheck rfl rfl hmain hid hwrite rfl
  · intro hid hd
    refine strataPop_fails hcan hr rfl hcheck (fun en hen => ?_) hd
    obtain rfl : entry = en := Option.some.inj ((congrArg List.head? hmain).symm.trans hen)
    exact hid
  · refine strataPop_fails hcan hr rfl hcheck (fun en hen => ?_) hd
    nomatch (congrArg List.head? hmain).symm.trans hen
  · exact fun hbelow => strataLayerFill_pushes hcan hr rfl hcheck hgo rfl hbelow
  · exact fun habove hroom hsrc => strataLayerFill_keeps hcan hr rfl hcheck hgo rfl rfl habove hroom hsrc rfl rfl
  · exact fun hbelow => strataLayerDrain_passes hcan hr rfl hcheck hgo rfl hbelow
  · exact fun entry rest habove hreserve hid hwrite =>
      strataLayerDrain_restores hcan hr rfl hcheck hgo rfl rfl habove hreserve hid hwrite rfl

end Sys2Proof.Laws
end
